-- ==== Sys2Proof/Word.lean ====
section
/-! DEFINITION. The word types of the RGM1640 model, and the two number types everything is computed in. -/

namespace Sys2Proof.Machine

/-- One byte of memory, of a packet or of a register. -/
abbrev Byte := BitVec 8

/-- The 512-bit and 64-bit registers of a lane are held as plain words (R21). -/
abbrev SliceWord := BitVec 512

/-- An ACX value as the device stores it (R63): sign, 12-bit exponent field with bias 2,047, and
a 64-bit significand with an explicit leading bit. -/
structure Acx where
  s : Bool
  exp : BitVec 12
  sig : BitVec 64
deriving DecidableEq, Repr, Inhabited

/-- An exact value between two roundings: `fin neg m e` is (−1)^neg × m × 2^e. The sign of a zero counts (R65). -/
inductive Num where
  | nan
  | inf (neg : Bool)
  | fin (neg : Bool) (m : Nat) (e : Int)
deriving DecidableEq, Repr, Inhabited

/-- The four sticky flags FLAGS[3:0]: IV, OF, UF, IX from bit 0 up (R77). -/
abbrev Flags := BitVec 4

end Sys2Proof.Machine
end

