-- ==== Sys2Proof/Machine/Packet.lean ====
section
/-! DEFINITION. What travels on the links: packet headers (Table 13-6) and, structured, what each packet type carries (chapters 13,
14, 15 and 20 give its content, not its bit layout; log entry 9), flits (Table 13-5) and Thrumyo transactions (R359). -/

namespace Sys2Proof.Machine

/-- The stream a row's operand names, at its head. -/
inductive From where
  | queue (q : Fin 8194)
  | program (run : Nat)
deriving DecidableEq, Repr

/-- Who sends a Tack message, and by which route (R419, R428): the host administrator through its mailbox, a tenant through its page's, or an
IPv6 address on the Halter bus. -/
inductive Via where
  | admin
  | tenant (t : Fin 1024)
  | bus (address : Nat)
deriving DecidableEq, Repr

/-- Where a correctable error lies (Table 19-1): a manger or other SRAM of a logical stable, a paddock granule and line, an HBM line by
number, the device-reserved state, or an Alley's retry (R333). -/
inductive EccSite where
  | stable (logical : Nat)
  | paddock (granule line : Nat)
  | hbm (line : Nat)
  | reserved
  | alley
deriving DecidableEq, Repr

/-- What an uncorrectable error destroys (Table 19-1): an SRAM of a physical stable; a paddock line, with the granules of its slot whose
copy is bad too; an HBM line; a line of the partial-store or staging grant of a command; reserved state, in one copy or in both; a line of
the retransmit buffer, whose packet must be sent again or not. -/
inductive BadSite where
  | sram (stable : Nat)
  | paddock (granule line : Nat) (bad : List Nat)
  | hbm (line : Nat)
  | grant (cmd : Nat) (staging : Bool)
  | reserved (both : Bool)
  | retransmit (resend : Bool)
deriving DecidableEq, Repr

/-- A packet header (Table 13-6). `dst` and `src` are device + 64 × borough. -/
structure PktHdr where
  typ : Nat            -- Table 13-7
  vc : Nat             -- 4 × class + lane
  detour : Bool
  ttl : Nat
  dst : Nat
  src : Nat
  gw : Nat
  gwValid : Bool
  seq : Nat            -- E2E_SEQ
  crcOk : Bool         -- whether E2E_CRC holds where it is checked (R350)
  stale : Bool         -- it belongs to a stream that has been discarded (R373)
deriving DecidableEq, Repr

/-- What names an instance of a collective (R380). -/
structure CollKey where
  job : Nat
  id : Nat
  inst : Nat
deriving DecidableEq, Repr

/-- What every read request carries of its descriptor (R380). -/
structure CollParams where
  op : Nat
  reduce : Nat
  nranks : Nat
  root : Nat
  e : Nat
deriving DecidableEq, Repr

/-- Elements as they travel: a format, the codes with their block scales, and the flags that travel with a reduced block (R378). -/
structure Slab where
  fmt : Nat
  elems : List (Nat × Nat)
  flags : Flags
deriving DecidableEq, Repr

/-- A pull: elements [lo, hi) of part `part` of what rank `rank` serves. Parts: 0 its input, 1 its output, 2 the second input of a fused
ATTEND (V). -/
structure Pull where
  rank : Nat
  part : Nat
  lo : Nat
  hi : Nat
deriving DecidableEq, Repr

/-- A PUT's write (R370). -/
structure WriteBody where
  job : Nat            -- the source tenant's job identifier
  tenant : Nat         -- DST_TENANT
  va : Nat
  data : List Byte
  put : Nat            -- the source's name for the PUT
deriving DecidableEq, Repr

/-- A post update: a remote signal, the reply to a subscription, or a refusal (R366, R367). -/
inductive PostBody where
  | signal (post job op value cmd : Nat)     -- cmd: the source's name for the command
  | reply (post value waiter : Nat)
  | full (waiter : Nat)                      -- the holder's table is full
  | refused (waiter : Nat)                   -- a wait refused under R366
  | applied (cmd : Nat)                      -- a signal was applied
  | denied (cmd : Nat)                       -- a signal refused under R366
deriving DecidableEq, Repr

/-- Collective data: partials pushed by a rank to the owner of their rows (R175, R216), or a release (R380). -/
inductive DataBody where
  | partials (key : CollKey) (rank owner : Nat) (vals : List ((Nat × Nat × Nat) × List Acx)) (final : Bool)
  | release (key : CollKey) (rank : Nat)
deriving DecidableEq, Repr

/-- A stream or a post in a wait-for graph (Table 20-8). `stalled` says of a stream in a reply whether it is stalled (R512). -/
structure HangNode where
  kind : Nat
  opcode : Nat
  device : Nat         -- device + 64 × borough
  tenant : Nat
  queue : Nat
  head : Nat
  signaller : Nat
  waitSlot : Nat
  postDev : Nat        -- the device that holds `post`
  post : Nat
  value : Nat
  stalled : Bool
deriving DecidableEq, Repr

/-- Management packets (R513): a query about a post, and a reply with the answering device's streams that have a signal to it pending.
`value` and `owner` are the post's value and the tenant of its range, where the answering device holds it. -/
inductive MgmtBody where
  | query (analysis postDev post job : Nat)
  | reply (analysis postDev post value owner : Nat) (nodes : List HangNode)
deriving DecidableEq, Repr

/-- What a packet carries, by type. -/
inductive PktBody where
  | write (b : WriteBody)
  | readReq (key : CollKey) (p : CollParams) (pull : Pull) (requester : Nat)
  | readResp (key : CollKey) (pull : Pull) (requester : Nat) (slab : Slab)
  | readRefused (key : CollKey) (pull : Pull) (requester : Nat)
  | writeResult (put : Nat) (status detail : Nat) (fault : Option (Nat × Nat × Nat))   -- a fault's VA, type and level
  | post (b : PostBody)
  | subscribe (post job threshold waiter : Nat)
  | data (b : DataBody)
  | abort (key : CollKey) (status detail : Nat)
  | ack (cls seq : Nat)
  | mgmt (b : MgmtBody)
  | time (frame phase hops : Nat)
  | lsa (device bits epoch bootEpoch : Nat)
  | discovery (borough device port serial : Nat)
  | params (credits width : Nat) (bits epochs : List Nat)
deriving DecidableEq, Repr

/-- A packet. -/
structure Packet where
  hdr : PktHdr
  len : Nat            -- payload slots
  body : PktBody
deriving DecidableEq, Repr

/-- A Thrumyo transaction on a lineage port (R359): as target or as initiator. -/
inductive Thrumyo where
  | write (addr : Nat) (data : List Byte)
  | read (addr n : Nat)
  | signal (id value : Nat)
  | other
  | ack (tag : Nat)
  | readData (data : List Byte)
  | unsupported
deriving DecidableEq, Repr

end Sys2Proof.Machine
end

