-- ==== Sys2Proof/Syntax.lean ====
section
/-! DEFINITION. The commands of the module, one constructor per row of the opcode table, in the table's order. A row of an opcode (chapter 05)
names the stream whose head begins; the head's 128 bytes stand in memory. `due` says whether the event's rate limit has passed; times,
temperatures and other measured quantities are operands, in the unit named. -/

namespace Sys2Proof

open Sys2Proof.Machine

inductive Instr where
  -- commands of the queues and of programs
  /-- R148 -/ | matmul (stream : From)
  /-- R172 -/ | matmulList (stream : From)
  /-- R187 -/ | conv (stream : From)
  /-- R194 -/ | pool (stream : From)
  /-- R196 -/ | resample (stream : From)
  /-- R201 -/ | attend (stream : From)
  /-- R198 -/ | norm (stream : From)
  /-- R178 -/ | chain (stream : From)
  /-- R179 -/ | gather (stream : From)
  /-- R179 -/ | scatterOrdered (stream : From)
  /-- R180 -/ | distance (stream : From)
  /-- R238 -/ | step (stream : From)
  /-- R238: Select to Lay out of a running step -/ | stepSelect (run : Nat)
  /-- R242 -/ | stepCommit (run : Nat)
  /-- R252 -/ | admitEntries (stream : From)
  /-- R254 -/ | retire (stream : From)
  /-- R255 -/ | handoffBatchStart (run : Nat)
  /-- R256 -/ | handoffBatchComplete (run : Nat)
  /-- R279 -/ | tokenSample (stream : From)
  /-- R273 -/ | noise (stream : From)
  /-- R376 -/ | collective (stream : From)
  /-- R370 -/ | put (stream : From)
  /-- R295 -/ | encodeFrame (stream : From)
  /-- R303 -/ | encodeBufferRequest (cmd : Nat)
  /-- R304 -/ | codecFrameComplete (cmd : Nat)
  /-- R304 -/ | encodeRelease (stream : From)
  /-- R306 -/ | decode (stream : From)
  /-- R138 -/ | copy (stream : From)
  /-- R138 -/ | fill (stream : From)
  /-- R365 -/ | postWait (stream : From)
  /-- R365 -/ | postSignal (stream : From)
  /-- R511 -/ | mark (stream : From)
  /-- R131; the paddock and HBM bytes the ports counted for it (R396) -/ | commandComplete (cmd paddockBytes hbmBytes : Nat)
  -- tiles and stables
  /-- R25 -/ | shadowSwap (cmd tile : Nat)
  /-- R39; `ns` is the tile's stable time -/ | tileCommit (cmd tile ns : Nat)
  /-- R158 -/ | partialStoreGrant (cmd tile : Nat)
  /-- R379 -/ | collectiveStagingGrant (cmd chunk : Nat)
  /-- R482, R42 -/ | residueMismatch (cmd tile ns : Nat)
  /-- R42 -/ | walkerWatchdogExpire (stable : Fin 136) (ns : Nat)
  /-- R43; whether the spare's scrub passed -/ | spareActivate (quarter : Fin 8) (passed : Bool)
  /-- R485 -/ | quarterOutOfService (quarter : Fin 8)
  /-- R488; a paddock's scrub or a stable's -/ | quarterScrubComplete (paddock : Bool) (unit : Fin 136) (passed : Bool)
  /-- R483 -/ | eccCorrected (site : EccSite) (due : Bool)
  /-- R110 -/ | eccUncorrectable (site : BadSite) (due : Bool)
  /-- R109; what the line read shows, and whether it is past correction -/ | patrolScrubTick (find : Option (EccSite × Bool)) (due : Bool)
  /-- R492 -/ | codecSelfCheckFail (engine : Fin 6)
  /-- R493; an event of chapter 19 with its source and unit -/ | deviceFatalFault (code source unit : Nat)
  -- registers
  /-- R124 -/ | sqTailWrite (function : Fin 256) (queue : Fin 8194) (value : Nat)
  /-- R124 -/ | cqHeadWrite (function : Fin 256) (queue : Fin 8194) (value : Nat)
  /-- R143 -/ | adminMbxDoorbell (value : Nat)
  /-- R143 -/ | tenantMbxDoorbell (function : Fin 256) (tenant : Fin 1024) (value : Nat)
  /-- R146 -/ | tenantEventsClear (function : Fin 256) (tenant : Fin 1024) (value : Nat)
  /-- R123 -/ | evqCtrlWrite (value : Nat)
  /-- R123 -/ | evqHeadWrite (value : Nat)
  /-- R122 -/ | registerWrite (function : Fin 256) (bar offset size value : Nat)
  /-- R142 -/ | irqDelayExpire (queue : Fin 8194)
  /-- R144 -/ | eventOverflowRecord
  /-- R387 -/ | functionLevelReset (function : Fin 256)
  -- the Tack engine: a message's bytes, and how it comes
  /-- R422 -/ | tackRead (via : Via) (message : List Byte)
  /-- R425 -/ | tackWrite (via : Via) (message : List Byte)
  /-- R431 -/ | txBegin (via : Via) (message : List Byte)
  /-- R433; whether the transaction's 10 s end in this engine cycle (R435) -/ | txCommit (via : Via) (message : List Byte) (late : Bool)
  /-- R434 -/ | txCommitApply (master : Fin 2)
  /-- R434 -/ | txQuiescenceTimeout (master : Fin 2)
  /-- R435 -/ | txRollback (via : Via) (message : List Byte)
  /-- R435 -/ | txExpire (master : Fin 2)
  /-- R429 -/ | enumOffer (message : List Byte)
  /-- R429; its IPv6 source address -/ | enumConfirm (source : Nat) (message : List Byte)
  /-- R429 -/ | enumConfirmTimeout
  /-- R429 -/ | leadInHigh
  /-- R427 -/ | halterBeaconLoss
  -- objects
  /-- R430 -/ | halterRelease (via : Via) (value : Nat)
  /-- R96 -/ | paddockAllocate (via : Via) (tenant : Fin 1024) (value : Nat)
  /-- R99 -/ | paddockAllocateResult (tenant : Fin 1024)
  /-- R98 -/ | paddockFree (via : Via) (tenant : Fin 1024) (value : Nat)
  /-- R98 -/ | paddockFreeResult (tenant : Fin 1024)
  /-- R101 -/ | hbmFrameAssign (via : Via) (value : Nat)
  /-- R101 -/ | hbmFrameAssignResult
  /-- R101 -/ | hbmFrameRelease (via : Via) (value : Nat)
  /-- R101 -/ | hbmFrameReleaseResult
  /-- R105 -/ | tenantTlbInvalidate (via : Via) (tenant : Fin 1024) (value : Nat)
  /-- R120 -/ | queueEnable (via : Via) (queue : Fin 8194) (value : Nat)
  /-- R120 -/ | queueDisable (via : Via) (queue : Fin 8194) (value : Nat)
  /-- R120 -/ | queueDrainComplete (queue : Fin 8194)
  /-- R83 -/ | stableFlagsClear (via : Via) (value : Nat)
  /-- R84 -/ | tenantFlagsClear (via : Via) (tenant : Fin 1024) (value : Nat)
  /-- R48 -/ | spareAutoActivateWrite (via : Via) (value : Nat)
  /-- R261 -/ | tenantRemudaReadReq (via : Via) (tenant : Fin 1024) (value : Nat)
  /-- R282 -/ | rngProbeRequest (via : Via) (value : Nat)
  /-- R385 -/ | tenantPostReadReq (via : Via) (tenant : Fin 1024) (value : Nat)
  /-- R501 -/ | tenantAttribReadReq (via : Via) (tenant : Fin 1024) (value : Nat)
  /-- R499 -/ | tenantAttribQuota (via : Via) (tenant : Fin 1024) (value : Nat)
  /-- R463 -/ | logReadReq (via : Via) (value : Nat)
  /-- R386 -/ | tenantEnable (via : Via) (tenant : Fin 1024) (value : Nat)
  /-- R364 -/ | tenantPostRange (via : Via) (tenant : Fin 1024) (value : Nat)
  /-- R406 -/ | tenantReset (via : Via) (tenant : Fin 1024) (value : Nat)
  /-- R397 -/ | tenantHold (via : Via) (tenant : Fin 1024) (value : Nat)
  /-- R403; the saves' stable time, and by command that of the tiles discarded -/
  | tenantDismounted (tenant : Fin 1024) (ns : Nat) (spent : List (Nat × Nat))
  /-- R405; the restores' stable time -/ | tenantResume (tenant : Fin 1024) (ns : Nat)
  /-- R404 -/ | preemptOverrun (tenant : Fin 1024)
  -- time
  /-- R410 -/ | carouselSlotBoundary
  /-- R412; the phase of the master's Carousel, in ns -/ | timeMasterTick (phase : Nat)
  /-- R412 -/ | linkDelayMeasure (port : Fin 16) (ns : Nat)
  /-- R413 -/ | timeSourceLoss
  -- observation and debug
  /-- R329 -/ | spurEnable (via : Via) (value : Nat)
  /-- R330 -/ | spurProductionLock (via : Via) (value : Nat)
  /-- R508 -/ | traceEnable (via : Via) (value : Nat)
  /-- R510; whether 1 µs has passed since the oldest record -/ | traceFrameSend (due : Bool)
  /-- R497; per mille, by quarter and by Street port, and whether each port was up throughout -/
  | utilisationWindow (quarters ports : List Nat) (whole : List Bool)
  /-- R512; the stream stalled, and the others stalled as long -/ | hangStallDetect (stream : From) (others : List From)
  /-- R514 -/ | hangReplyTimeout (analysis : Nat)
  -- firmware and the Ostler's objects
  /-- R459 -/ | fwStageBegin (via : Via)
  /-- R459 -/ | fwStageChunk (via : Via) (value : Nat)
  /-- R459 -/ | fwStageVerify (via : Via)
  /-- R459 -/ | fwStageActivate (via : Via)
  /-- R459 -/ | fwStageAbandon (via : Via)
  /-- R459 -/ | fwStageTimeout
  /-- R487 -/ | stableRetireRequest (via : Via) (value : Nat)
  /-- R476 -/ | mainRailsCommand (via : Via) (value : Nat)
  /-- R465 -/ | gaitCeilingWrite (via : Via) (value : Nat)
  /-- R363 -/ | linkEnableWrite (via : Via) (port : Fin 16) (value : Nat)
  /-- R359 -/ | lineagePortModeWrite (via : Via) (port : Fin 2) (value : Nat)
  /-- R341 -/ | topoBoroughNumberWrite (via : Via) (value : Nat)
  -- power, clocks and resets
  /-- R455; a mask of slots that fail to read or start, and the input in mV -/ | ostlerBoot (fails millivolts : Nat)
  /-- R532 -/ | mainRailsGood
  /-- R530 -/ | rootPllLock
  /-- R532 -/ | hbmTrainingComplete
  /-- R532 -/ | pcieLinkUp
  /-- R536 -/ | perstAssert
  /-- R536 -/ | perstScrubComplete
  /-- R536 -/ | perstDeassert
  /-- R537 -/ | mrstAssert
  /-- R537 -/ | mrstDeassert (fails millivolts : Nat)
  /-- R467; whether the gait is at Walk late -/ | reinAssert (late : Bool)
  /-- R467 -/ | reinDeassert
  /-- R467 -/ | reinHoldExpire
  /-- R474 -/ | inputVoltageExcursion (millivolts : Nat)
  /-- R474 -/ | inputVoltageRecover (millivolts : Nat)
  /-- R452 -/ | standbyPowerLoss
  /-- R474 -/ | trip (cause : Nat)
  /-- R453 -/ | lockstepMismatch
  /-- R531 -/ | refclkLoss
  /-- R531 -/ | rootPllLockLoss
  /-- R531 -/ | refclkRestore (fails millivolts : Nat)
  /-- R531 -/ | srefclkLoss
  /-- R531 -/ | srefclkRestore
  /-- R472; the mean input power and the input voltage -/ | powerGaitTick (watts millivolts : Nat) (due : Bool)
  /-- R472 -/ | powerGaitRaise
  /-- R472 -/ | powerWalkStall
  /-- R473; the thermal points and the HBM stacks, in 0.01 °C -/ | thermalGaitTick (points hbm : List Int)
  /-- R473 -/ | thermalGaitRaise
  /-- R466 -/ | gaitUpComplete
  /-- R474; in 0.01 °C -/ | coolantSample (inlet outlet : Int)
  /-- R470 -/ | droopDetect (quarter : Fin 8)
  /-- R470 -/ | droopStretchEnd (quarter : Fin 8)
  /-- R469; whether it is a canary failure -/ | canaryLowMargin (quarter : Fin 8) (failure : Bool)
  /-- R469 -/ | voltageStepDownTick (quarter : Fin 8)
  /-- R471 -/ | quarterCoolingEnter (quarter : Fin 8)
  /-- R471 -/ | quarterCoolingLeave (quarter : Fin 8)
  /-- R464 -/ | logFlush
  -- links
  /-- R339; whether training succeeded -/ | linkTraining (port : Fin 16) (ok : Bool)
  /-- R340 -/ | linkTrainRetryTimer (port : Fin 16)
  /-- R341 -/ | discoveryReceive (port : Fin 16) (packet : Packet)
  /-- R355 -/ | portSignalLoss (port : Fin 18)
  /-- R355 -/ | portFlitTimeout (port : Fin 18)
  /-- R347; the flit's 256 bytes after FEC, and the codewords FEC corrected -/ | flitReceive (port : Fin 16) (flit : List Byte) (corrected : Nat)
  /-- R347 -/ | linkAckTimer (port : Fin 16)
  /-- R347 -/ | linkReplayTimeout (port : Fin 16)
  /-- R342 -/ | symbolErrorRatioExceed (port : Fin 16)
  /-- R353 -/ | packetForward (port : Fin 16) (packet : Packet)
  /-- R370 -/ | writePacketReceive (packet : Packet)
  /-- R379 -/ | readRequestReceive (packet : Packet)
  /-- R379 -/ | readResponseReceive (packet : Packet)
  /-- R322 -/ | postUpdateReceive (packet : Packet)
  /-- R367 -/ | subscriptionReceive (packet : Packet)
  /-- R367 -/ | subscriptionRetry (waiter : Nat)
  /-- R380 -/ | collectiveRequestRetry (cmd : Nat)
  /-- R381 -/ | collectiveAbortReceive (packet : Packet)
  /-- R371 -/ | e2eAckReceive (packet : Packet)
  /-- R371 -/ | e2eAckTimer (device : Fin 4096) (cls : Fin 4)
  /-- R372 -/ | e2eRetxTimer (device : Fin 4096) (cls : Fin 4)
  /-- R372 -/ | e2eUnreachableTimer (device : Fin 4096)
  /-- R513; the streams here stalled as R512 says -/ | managementPacketReceive (stalled : List From) (packet : Packet)
  /-- R412; the receiver's phase in ns -/ | timePacketReceive (port : Fin 16) (packet : Packet) (phase : Nat)
  /-- R344 -/ | linkStateAdvertisementReceive (port : Fin 16) (packet : Packet)
  /-- R344 -/ | linkParametersReceive (port : Fin 16) (packet : Packet)
  /-- R359 -/ | lineageTransactionReceive (port : Fin 2) (transaction : Thrumyo)
  /-- R105 -/ | tlbInvalidateComplete (tenant : Fin 1024)
  /-- R406; by command, the stable time of the tiles discarded -/ | tenantResetComplete (tenant : Fin 1024) (spent : List (Nat × Nat))
  /-- R175 -/ | collectiveDataReceive (packet : Packet)
  /-- R359; the mode trained in, 0 if none, and the peer's node -/ | lineagePortTraining (port : Fin 2) (mode node : Nat)
  /-- R370 -/ | lineageResponseReceive (port : Fin 2) (transaction : Thrumyo)
  /-- R427 -/ | halterBeaconResume
deriving DecidableEq, Repr

end Sys2Proof
end

