-- ==== Sys2Proof/Decode.lean ====
section
/-! DEFINITION. Commands spelt as words of the opcode table. The table gives no row any bits: a row is an event, a register write, a message or a
packet, not an encoding, and an opcode's 128 bytes stand in memory where the row's stream points (R125). -/

namespace Sys2Proof

/-- The command a word spells by the table's bits: no row has any, so no word spells one. -/
def decodeTableWord (_nbits _w : Nat) : Option Instr := none

end Sys2Proof
end

