-- ==== Sys2Proof/Config.lean ====
section
/-! DEFINITION. What one module fixes and the spec leaves open: opaque constants and free values. None has a body,
so nothing can be proved of a value of one (log entries name each). -/

namespace Sys2Proof.Config

open Sys2Proof.Machine

/-- The value an implementation computes for a chain operation of Table 02-7 that carries an error bound, from the operation's code and
its operands: delivered where R541 fixes no result and it keeps the bound (log entry 3). -/
opaque boundedOp : Nat → List Acx → Acx

/-- The sign of the zero a bounded operation's limit at an infinity is, where the spec says only "the limit" (log 3). -/
opaque limitZeroNeg : Nat → Bool

/-- A fresh value for anything the spec leaves unspecified and the machine goes on: applied to the counter
`State.freeCount` (log entry 2). -/
opaque freeValue : Nat → Nat

/-- A value the spec does not state, where it follows from operands alone: the first argument says which (log entry 12). -/
opaque unstated : Nat → List Nat → Nat

/-! ## Codec engines (chapter 11; log entry 11)

Encoder decisions, reconstructed pictures and decoded pictures follow standards the spec only names: they are functions of their inputs
(R297, R309) and nothing more is known of them here. The first argument says which. -/

/-- A number a codec engine computes from its inputs. -/
opaque codecFn : Nat → List Nat → Nat
/-- Bytes a codec engine emits: 0 the start of a coded frame behind its headers, 1 a block row. -/
opaque codecBytes : Nat → List Nat → List Byte
/-- Whether `div` of a negative number in R298 rounds toward zero; the spec does not say (log entry 11). -/
opaque divTowardZero : Bool

/-! ## Values fixed at manufacture or carried by a firmware bundle (R442) -/

/-- `MODULE_SERIAL`. -/
opaque moduleSerial : Nat
/-- `HALTER_MAC`. -/
opaque halterMac : Nat
/-- `RNG_GAUSS_TABLE`, the silicon's spline coefficients (R270). -/
opaque gaussTable : Nat
/-- Patch number x of the 1.4.x bundle of manufacture (R2, R479). -/
opaque fwPatch : Nat
/-- Encoder revisions of the bundle of manufacture after 1.4.0: 0 HEVC, 1 AV1, 2 JPEG (R325). -/
opaque encoderRev : Nat → Nat
/-- `FW_ROLLBACK_COUNTER` as shipped. -/
opaque fwRollback : Nat
/-- SVN of the bundle of manufacture (Table 18-3). -/
opaque fwSvn : Nat
/-- Whether the last 96 bytes of a record are its ECDSA P-384 signature under the key in the boot ROM (R458; log entry 16). -/
opaque signatureOk : List Byte → Bool

end Sys2Proof.Config
end

