-- ==== Sys2Proof/Machine/Bits.lean ====
section
/-! DEFINITION. Bit fields, byte strings in the device's byte order (R6), and small arithmetic. -/

namespace Sys2Proof.Machine

/-- Bits [lo + w − 1 : lo] of x (R6: bit 0 is the least significant). -/
def bits (x lo w : Nat) : Nat := (x >>> lo) % 2 ^ w

/-- One bit of x. -/
def bit (x i : Nat) : Bool := (x >>> i) % 2 == 1

/-- x with bits [lo + w − 1 : lo] replaced by v. -/
def setBits (x lo w v : Nat) : Nat := x - (bits x lo w) * 2 ^ lo + (v % 2 ^ w) * 2 ^ lo

/-- The number a byte string stands for, little-endian, byte 0 first (R6). -/
def ofLe : List Byte → Nat
  | [] => 0
  | b :: bs => b.toNat + 256 * ofLe bs

/-- The n bytes of x, little-endian (R6). -/
def toLe : Nat → Nat → List Byte
  | 0, _ => []
  | n + 1, x => BitVec.ofNat 8 x :: toLe n (x / 256)

/-- Bytes [off, off + n) of a byte string, as a little-endian number; missing bytes read as zero. -/
def le (bs : List Byte) (off n : Nat) : Nat := ofLe ((bs.drop off).take n)

/-- Byte k of a number held little-endian. -/
def byteOf (x k : Nat) : Nat := bits x (8 * k) 8

/-- Bytes [off, off + n) of a number held little-endian: the fields of an object's value. -/
def leN (x off n : Nat) : Nat := bits x (8 * off) (8 * n)

/-- x with its bytes [off, off + n) replaced. -/
def setLeN (x off n v : Nat) : Nat := setBits x (8 * off) (8 * n) v

/-- The value of a w-bit two's-complement code. -/
def signed (w x : Nat) : Int := if x % 2 ^ w < 2 ^ (w - 1) then ((x % 2 ^ w : Nat) : Int) else ((x % 2 ^ w : Nat) : Int) - 2 ^ w

/-- The w-bit two's-complement code of an integer, modulo 2^w. -/
def unsigned (w : Nat) (i : Int) : Nat := (i % (2 ^ w : Int)).toNat

/-- ceil(a ÷ b). -/
def ceilDiv (a b : Nat) : Nat := if b = 0 then 0 else (a + b - 1) / b

/-- a rounded up to a multiple of b. -/
def alignUp (a b : Nat) : Nat := b * ceilDiv a b

/-- The number of bits of m: 0 for 0. -/
def bitLen (m : Nat) : Nat := if m = 0 then 0 else Nat.log2 m + 1

/-- A Bool as a bit. -/
def b2n (b : Bool) : Nat := if b then 1 else 0

/-- A counter that saturates at the maximum of a w-bit type (R450). -/
def satAdd (w x n : Nat) : Nat := min (x + n) (2 ^ w - 1)

/-- The indices at which a test holds, ascending. -/
def indicesWhere (n : Nat) (p : Nat → Bool) : List Nat := (List.range n).filter p

/-- Insert x before the first element whose key is not smaller. -/
def insertBy {α : Type} (key : α → Nat) (x : α) : List α → List α
  | [] => [x]
  | y :: ys => if key y < key x then y :: insertBy key x ys else x :: y :: ys

/-- The list in ascending order of a key, equal keys in the order given. -/
def sortBy {α : Type} (key : α → Nat) (l : List α) : List α := l.foldr (insertBy key) []

/-- The largest r with r² ≤ n, for n below 2^(2·b): one bit of the root at a time. -/
def isqrtBits : Nat → Nat → Nat → Nat
  | 0, _, r => r
  | b + 1, n, r =>
    let c := r + 2 ^ b
    isqrtBits b n (if c * c ≤ n then c else r)

/-- Integer square root. -/
def isqrt (n : Nat) : Nat := isqrtBits (bitLen n / 2 + 1) n 0

end Sys2Proof.Machine
end

