-- ==== Sys2Proof/Machine/Flags.lean ====
section
/-! DEFINITION. The sticky flags of R77 and the outcome of an operation that raises some of them. -/

namespace Sys2Proof.Machine

/-- FLAGS[0], invalid (R77). -/
def flIV : Flags := 1
/-- FLAGS[1], overflow (R77). -/
def flOF : Flags := 2
/-- FLAGS[2], underflow (R77). -/
def flUF : Flags := 4
/-- FLAGS[3], inexact (R77). -/
def flIX : Flags := 8

/-- The flag when the condition holds, nothing otherwise. -/
def flagIf (c : Bool) (f : Flags) : Flags := if c then f else 0

/-- The OR of a list of flag sets (R78). -/
def orFlags (l : List Flags) : Flags := l.foldl (· ||| ·) 0

/-- A value and the flags its computation raised. -/
abbrev Flagged (α : Type) := α × Flags

/-- Apply f to a flagged value, joining the flags. -/
def Flagged.bind {α β : Type} (x : Flagged α) (f : α → Flagged β) : Flagged β :=
  let y := f x.1
  (y.1, x.2 ||| y.2)

/-- Map over a list, joining the flags. -/
def mapFlagged {α β : Type} (f : α → Flagged β) : List α → Flagged (List β)
  | [] => ([], 0)
  | x :: xs =>
    let y := f x
    let ys := mapFlagged f xs
    (y.1 :: ys.1, y.2 ||| ys.2)

end Sys2Proof.Machine
end

