-- ==== Sys2Proof/Machine/Acx.lean ====
section
/-! DEFINITION. The extended accumulator format and its operations: R57, R63 to R65, R544 and the exact chain
arithmetic of Table 02-7. -/

namespace Sys2Proof.Machine

/-! ## Values -/

/-- The canonical ACX NaN (R63). -/
def acxNaN : Acx := { s := false, exp := 0xFFF, sig := 0xC000000000000000 }
/-- An infinity (R63). -/
def acxInf (neg : Bool) : Acx := { s := neg, exp := 0xFFF, sig := 0 }
/-- A signed zero. -/
def acxZero (neg : Bool) : Acx := { s := neg, exp := 0, sig := 0 }

/-- The value an ACX image stands for, whether or not its leading bit is as the device writes it (R63). -/
def Acx.toNum (x : Acx) : Num :=
  if x.exp = 0xFFF then (if x.sig = 0 then .inf x.s else .nan)
  else if x.exp = 0 then .fin x.s x.sig.toNat (1 - 2047 - 63)
  else .fin x.s x.sig.toNat ((x.exp.toNat : Int) - 2047 - 63)

/-- The exponent of the lowest bit an ACX value can hold: the subnormal grid of R63. -/
def acxMinExp : Int := 1 - 2047 - 63

/-- Round an exact value to ACX: keep it when 64 bits hold it, else truncate and set SIG[0]; a magnitude of 2^2,048 or more is an
infinity with OF, and IX where bits beyond the 64 are lost as well (R65). -/
def roundOdd : Num → Flagged Acx
  | .nan => (acxNaN, 0)
  | .inf n => (acxInf n, 0)
  | .fin n m e =>
    if m = 0 then (acxZero n, 0)
    else
      let top := e + (bitLen m : Int)              -- the magnitude lies in [2^(top−1), 2^top)
      let q := max (top - 64) acxMinExp
      let kept : Nat × Bool :=
        if q ≤ e then (m * 2 ^ (e - q).toNat, false)
        else (m / 2 ^ (q - e).toNat, m % 2 ^ (q - e).toNat != 0)
      if top > 2048 then (acxInf n, flOF ||| flagIf kept.2 flIX)
      else
        let sig := if kept.2 then kept.1 ||| 1 else kept.1
        let ef := if 2 ^ 63 ≤ sig then (q + 63 + 2047).toNat else 0
        ({ s := n, exp := BitVec.ofNat 12 ef, sig := BitVec.ofNat 64 sig }, flagIf kept.2 flIX)

/-- An exact value with no more than 64 significant bits, as ACX. -/
def acxOf (v : Num) : Acx := (roundOdd v).1

/-- A natural number as ACX. -/
def acxNat (n : Nat) : Acx := acxOf (.fin false n 0)

/-- The 16-byte memory image of R64. -/
def Acx.image (x : Acx) : List Byte :=
  toLe 16 (x.sig.toNat + x.exp.toNat * 2 ^ 64 + (b2n x.s) * 2 ^ 76)

/-- The ACX value of a 16-byte image (R64); the reserved bits are ignored. -/
def acxOfImage (bs : List Byte) : Acx :=
  let x := le bs 0 16
  { s := bit x 76, exp := BitVec.ofNat 12 (bits x 64 12), sig := BitVec.ofNat 64 x }

def Num.isNaN : Num → Bool | .nan => true | _ => false
def Num.isInf : Num → Bool | .inf _ => true | _ => false
def Num.isZero : Num → Bool | .fin _ m _ => m == 0 | _ => false
def Num.neg? : Num → Bool | .nan => false | .inf n => n | .fin n _ _ => n

/-- A finite value's signed mantissa over the exponent e, for e at most its own. -/
def alignTo (n : Bool) (m : Nat) (e₀ e : Int) : Int :=
  let v : Int := (m * 2 ^ (e₀ - e).toNat : Nat)
  if n then -v else v

/-- A signed integer over an exponent. A zero is +0. -/
def Num.ofInt (i : Int) (e : Int) : Num := .fin (decide (i < 0)) i.natAbs e

/-! ## Exact operations (IEEE special cases as R57 leaves them; IV when a NaN is consumed or an operation is invalid) -/

/-- The exact product. -/
def mulNum : Num → Num → Flagged Num
  | .nan, _ => (.nan, flIV)
  | _, .nan => (.nan, flIV)
  | .inf a, .inf b => (.inf (a != b), 0)
  | .inf a, .fin b m _ => if m = 0 then (.nan, flIV) else (.inf (a != b), 0)
  | .fin a m _, .inf b => if m = 0 then (.nan, flIV) else (.inf (a != b), 0)
  | .fin a m e, .fin b k f => (.fin (a != b) (m * k) (e + f), 0)

/-- The exact sum; an exact zero is +0 but for (−0) + (−0) (R65). -/
def addNum : Num → Num → Flagged Num
  | .nan, _ => (.nan, flIV)
  | _, .nan => (.nan, flIV)
  | .inf a, .inf b => if a = b then (.inf a, 0) else (.nan, flIV)
  | .inf a, .fin _ _ _ => (.inf a, 0)
  | .fin _ _ _, .inf b => (.inf b, 0)
  | .fin a m e, .fin b k f =>
    if m = 0 ∧ k = 0 then (.fin (a && b) 0 0, 0)
    else
      let q := min e f
      (Num.ofInt (alignTo a m e q + alignTo b k f q) q, 0)

def negNum : Num → Num
  | .nan => .nan
  | .inf n => .inf (!n)
  | .fin n m e => .fin (!n) m e

def absNum : Num → Num
  | .nan => .nan
  | .inf _ => .inf false
  | .fin _ m e => .fin false m e

/-- Numeric comparison of two values that are not NaN: −0 equals +0. -/
def ltNum : Num → Num → Bool
  | .nan, _ => false
  | _, .nan => false
  | .inf a, .inf b => a && !b
  | .inf a, .fin _ _ _ => a
  | .fin _ _ _, .inf b => !b
  | .fin a m e, .fin b k f => let q := min e f; decide (alignTo a m e q < alignTo b k f q)

def eqNum (x y : Num) : Bool := !x.isNaN && !y.isNaN && !ltNum x y && !ltNum y x

/-- The total order MAX and MIN use: −0 below +0 (R57). -/
def ltOrd (x y : Num) : Bool := ltNum x y || (eqNum x y && x.isZero && x.neg? && !y.neg?)

/-- x below y, as exact values. -/
def leNum (x y : Num) : Bool := !x.isNaN && !y.isNaN && !ltNum y x

/-! ## ACX operations: exact result, then round to odd (R65) -/

def roundFlagged (x : Flagged Num) : Flagged Acx := x.bind roundOdd

def acxAdd (x y : Acx) : Flagged Acx := roundFlagged (addNum x.toNum y.toNum)
def acxSub (x y : Acx) : Flagged Acx := roundFlagged (addNum x.toNum (negNum y.toNum))
def acxMul (x y : Acx) : Flagged Acx := roundFlagged (mulNum x.toNum y.toNum)
/-- x × y + z in one rounding (R65). -/
def acxFma (x y z : Acx) : Flagged Acx := roundFlagged ((mulNum x.toNum y.toNum).bind (fun p => addNum p z.toNum))

/-- Canonicalise a value a stage passes on: NaNs become the canonical NaN (R57). -/
def acxCanon (x : Acx) : Acx := if x.toNum.isNaN then acxNaN else x

/-- An exact operation on one value: a NaN consumed raises IV (R57). -/
def acxUnary (f : Num → Num) (x : Acx) : Flagged Acx :=
  if x.toNum.isNaN then (acxNaN, flIV) else roundOdd (f x.toNum)

def acxNeg (x : Acx) : Flagged Acx := acxUnary negNum x
def acxAbs (x : Acx) : Flagged Acx := acxUnary absNum x
def acxMax (x y : Acx) : Flagged Acx :=
  if x.toNum.isNaN || y.toNum.isNaN then (acxNaN, flIV) else (if ltOrd x.toNum y.toNum then y else x, 0)
def acxMin (x y : Acx) : Flagged Acx :=
  if x.toNum.isNaN || y.toNum.isNaN then (acxNaN, flIV) else (if ltOrd y.toNum x.toNum then y else x, 0)

/-! ## Quotients and roots: the exact value, to 64 bits and a sticky bit -/

/-- n ÷ d × 2^e with sign, rounded to odd (d > 0). -/
def roundRatio (neg : Bool) (n d : Nat) (e : Int) : Flagged Acx :=
  let k := 70 + bitLen d - min (bitLen n) (bitLen d)
  let q := n * 2 ^ k / d
  let r := n * 2 ^ k % d
  let x := roundOdd (.fin neg (q * 2 + b2n (r != 0)) (e - k - 1))
  (x.1, x.2 ||| flagIf (r != 0 && x.2 == 0) flIX)

/-- √(n ÷ d × 2^(2h)), rounded to odd (d > 0). -/
def roundRootRatio (n d : Nat) (h : Int) : Flagged Acx :=
  let k := 70 + bitLen d
  let q := n * 2 ^ (2 * k) / d
  let r := n * 2 ^ (2 * k) % d
  let s := isqrt q
  let exact := r = 0 ∧ s * s = q
  let x := roundOdd (.fin false (s * 2 + b2n (!decide exact)) (h - k - 1))
  (x.1, x.2 ||| flagIf (!decide exact && x.2 == 0) flIX)

/-! ## Small values -/

/-- An integer value of x, when x is an integer. -/
def intOf? : Num → Option Int
  | .fin n m e =>
    if m = 0 then some 0
    else if 0 ≤ e then some (let v : Int := (m * 2 ^ e.toNat : Nat); if n then -v else v)
    else if m % 2 ^ (-e).toNat = 0 then some (let v : Int := (m / 2 ^ (-e).toNat : Nat); if n then -v else v)
    else none
  | _ => none

/-- The n of x = 2^n, when x is a power of two. -/
def log2Of? : Num → Option Int
  | .fin false m e => if m ≠ 0 ∧ m = 2 ^ Nat.log2 m then some (e + (Nat.log2 m : Int)) else none
  | _ => none

def acxInt (i : Int) : Acx := acxOf (.fin (decide (i < 0)) i.natAbs 0)
def acxOne : Acx := acxNat 1
def acxHalf : Acx := acxOf (.fin false 1 (-1))

/-- Horner's rule from the highest coefficient down, one fused operation a step (R544). -/
def acxPoly (x : Acx) : List Acx → Flagged Acx
  | [] => (acxZero false, 0)
  | [c] => (c, 0)
  | c :: cs => (acxPoly x cs).bind (fun acc => acxFma acc x c)

end Sys2Proof.Machine
end

