-- ==== Sys2Proof/Machine/Series.lean ====
section
/-! DEFINITION. Real functions in fixed point, for the results the spec states as real numbers (R36, R198, R275, R541). Every function takes `one`,
the fixed-point unit, and sums enough terms that its error is far below every rounding or bound the result is used for (log entries 3
and 4). -/

namespace Sys2Proof.Machine

/-- y + y³/3 + y⁵/5 + … of y = t ÷ one with y² = t2 ÷ one, n terms from index k. -/
def serAtanh (one t2 : Nat) : Nat → Nat → Nat → Nat
  | 0, _, _ => 0
  | n + 1, k, t => t / (2 * k + 1) + serAtanh one t2 n (k + 1) (t * t2 / one)

/-- 2 × artanh(a ÷ b), n terms: ln((b + a) ÷ (b − a)). -/
def serLogRatio (one n a b : Nat) : Nat := 2 * serAtanh one (a * a * one / (b * b)) n 0 (a * one / b)

/-- y − y³/3 + y⁵/5 − … for y = 1 ÷ d, n terms from index k. -/
def serAtanInv (d : Nat) : Nat → Nat → Nat → Int
  | 0, _, _ => 0
  | n + 1, k, t => (if k % 2 = 0 then 1 else -1) * ((t / (2 * k + 1) : Nat) : Int) + serAtanInv d n (k + 1) (t / (d * d))

/-- π, by Machin's sum, with n and m terms of its two parts. -/
def serPi (one n m : Nat) : Nat := (4 * (4 * serAtanInv 5 n 0 (one / 5) - serAtanInv 239 m 0 (one / 239))).toNat

/-- x^k/k! − x^(k+2)/(k+2)! + …: `t` is the next term and `x2` the square of the argument. -/
def serTrig (one x2 : Nat) : Nat → Nat → Nat → Int
  | 0, _, _ => 0
  | n + 1, k, t => (t : Int) - serTrig one x2 n (k + 2) (t * x2 / one / ((k + 1) * (k + 2)))

/-- x^k/k! + x^(k+1)/(k+1)! + …: `t` is the next term. -/
def serExp (one x : Nat) : Nat → Nat → Nat → Nat
  | 0, _, _ => 0
  | n + 1, k, t => t + serExp one x n (k + 1) (t * x / one / (k + 1))

/-- x + 2x³/3 + 4x⁵/15 + …: `t` is the next term and `x2` twice the square of the argument; it ends at a term of zero. -/
def serErf (one x2 : Nat) : Nat → Nat → Nat → Nat
  | 0, _, _ => 0
  | n + 1, k, t => if t = 0 then 0 else t + serErf one x2 n (k + 1) (t * x2 / one / (2 * k + 3))

end Sys2Proof.Machine
end

