-- ==== Sys2Proof/Machine/Bounded.lean ====
section
/-! DEFINITION. The chain operations of Table 02-7 that carry an error bound (R36, R541): their exact cases, their flags, and a delivered
value inside the bound. The bits inside a bound are the implementation's (log entry 3). -/

namespace Sys2Proof.Machine

/-! ## The bound -/

/-- A finite value as an exact rational. -/
def pow2Rat (e : Int) : Rat := if 0 ≤ e then ((2 ^ e.toNat : Nat) : Rat) else 1 / ((2 ^ (-e).toNat : Nat) : Rat)

def Num.toRat : Num → Rat
  | .fin n m e => (if n then -1 else 1) * (m : Rat) * pow2Rat e
  | _ => 0

/-- The exponent of one FP32 unit in the last place at a value in [2^E, 2^(E+1)) (R36). -/
def fp32UlpExp (E : Int) : Int := max E (-126) - 23

/-- Within the magnitudes of the FP32 input domain, which the ulp bounds are stated over (R36, log entry 3). -/
def inFp32 (v : Num) : Bool := !v.isNaN && ltNum (absNum v) (.fin false 1 128)

/-- The value as the device forms it: finite, its leading bit set exactly when the exponent field is not zero (R63). -/
def Acx.formed (x : Acx) : Acx :=
  if x.exp = 0 then { x with sig := BitVec.ofNat 64 (x.sig.toNat % 2 ^ 63) }
  else { x with exp := if x.exp = 0xFFF then 0xFFE else x.exp, sig := BitVec.ofNat 64 (x.sig.toNat % 2 ^ 63 + 2 ^ 63) }

/-- The implementation's value of a bounded operation (log entry 3). -/
def boundedValue (code : Nat) (args : List Acx) : Acx := (Config.boundedOp code args).formed

/-- Whether c lies within k × 2^q of r. -/
def nearNum (k : Nat) (q : Int) (r c : Num) : Bool := leNum (absNum (addNum c (negNum r)).1) (.fin false k q)

/-- Whether c lies within k FP32 ulps of the result r (R36). -/
def withinUlps (k : Nat) (r c : Num) : Bool :=
  match r with
  | .fin _ m e => nearNum k (fp32UlpExp (e + (bitLen m : Int) - 1)) r c
  | _ => false

/-- Whether a result's magnitude reaches 2^2,048. -/
def overflows (r : Num) : Bool := leNum (.fin false 1 2048) (absNum r)

/-- Deliver a bounded result: the implementation's value where it keeps the bound, and always outside the domain the bound is stated
over, else the computed result rounded to odd. IX is raised for every such input, and a result of 2^2,048 or more overflows (R541). -/
def deliver (code : Nat) (args : List Acx) (dom : Bool) (ok : Num → Bool) (r : Num) : Flagged Acx :=
  if overflows r then (acxInf r.neg?, flOF ||| flIX)
  else
    let c := boundedValue code args
    (if !dom || ok c.toNum then c else acxOf r, flIX)

/-- A bounded result with an ulp bound over the FP32 domain of its operands (Table 02-7). -/
def deliverUlps (code k : Nat) (args : List Acx) (r : Num) : Flagged Acx :=
  deliver code args (args.all (fun x => inFp32 x.toNum)) (withinUlps k r) r

/-- RECIP, DIV, SQRT and RSQRT: the exact result where ACX holds it, else a value that keeps the bound, with IX (R541). -/
def deliverExact (code : Nat) (args : List Acx) (ok : Rat → Bool) (exact : Flagged Acx) : Flagged Acx :=
  if exact.2 &&& flOF ≠ 0 then (exact.1, flOF ||| flIX)
  else if exact.2 &&& flIX = 0 then exact
  else
    let c := boundedValue code args
    (if !(args.all (fun x => inFp32 x.toNum)) || ok c.toNum.toRat then c else exact.1, flIX)

/-- The FP32 unit in the last place at a value rounded to odd. -/
def ulpAt (x : Acx) : Rat :=
  match x.toNum with
  | .fin _ g h => pow2Rat (fp32UlpExp (h + (bitLen g : Int) - 1))
  | _ => 0

/-- x ÷ a, within `ulps` FP32 ulps (Table 02-7, R541). `args` are the operands the operation has. -/
def boundedDiv (code ulps : Nat) (x a : Acx) : Flagged Acx :=
  match x.toNum, a.toNum with
  | .nan, _ => (acxNaN, flIV)
  | _, .nan => (acxNaN, flIV)
  | .inf _, .inf _ => (acxNaN, flIV)
  | .inf p, .fin n _ _ => (acxInf (p != n), 0)
  | .fin p _ _, .inf n => (acxZero (p != n), 0)
  | .fin p m e, .fin n k f =>
    if k = 0 then (if m = 0 then (acxNaN, flIV) else (acxInf (p != n), 0))
    else if m = 0 then (acxZero (p != n), 0)
    else
      let ex := roundRatio (p != n) m k (e - f)
      let r := (Num.fin p m e).toRat / (Num.fin n k f).toRat
      deliverExact code [x, a] (fun c => |c - r| ≤ ulps * ulpAt ex.1) ex

/-- √x and 1 ÷ √x, within one FP32 ulp (Table 02-7, R541). -/
def boundedRoot (code : Nat) (recip : Bool) (x : Acx) : Flagged Acx :=
  match x.toNum with
  | .nan => (acxNaN, flIV)
  | .inf n => if n then (acxNaN, flIV) else (if recip then acxZero false else acxInf false, 0)
  | .fin n m e =>
    if m = 0 then (if recip then acxInf n else acxZero n, 0)
    else if n then (acxNaN, flIV)
    else
      let odd := e % 2 != 0
      let m' := if odd then 2 * m else m
      let e' := if odd then e - 1 else e
      let ex := if recip then roundRootRatio 1 m' (-(e' / 2)) else roundRootRatio m' 1 (e' / 2)
      let v := (Num.fin false m e).toRat
      let sq := if recip then 1 / v else v
      let u := ulpAt ex.1
      deliverExact code [x]
        (fun c => decide ((c - u) ≤ 0 ∨ (c - u) * (c - u) ≤ sq) && decide (0 ≤ c + u ∧ sq ≤ (c + u) * (c + u))) ex

/-! ## The real functions, in fixed point at 2^−600

No result of a chain operation is asked for more closely than a fraction of 2^−149, the FP32 ulp of the smallest results. -/

/-- One, in the fixed point of the bounded operations. -/
def fpOne : Nat := 2 ^ 600
/-- ln 2. -/
def fpLn2 : Nat := serLogRatio fpOne 200 1 3
/-- π. -/
def fpPi : Nat := serPi fpOne 140 45

/-- A finite value in fixed point, toward zero. -/
def fpOf : Num → Int
  | .fin n m e =>
    let x : Nat := if 0 ≤ e + 600 then m * 2 ^ (e + 600).toNat else m / 2 ^ (-(e + 600)).toNat
    if n then -(x : Int) else x
  | _ => 0

/-- A fixed-point sum as a number. -/
def fpNum (x : Int) : Num := Num.ofInt x (-600)

/-- e^x as a mantissa at least one and an exponent of two: x = k × ln 2 + r. -/
def fpExp (x : Int) : Nat × Int := (serExp fpOne (x % fpLn2).toNat 150 0 fpOne, x / fpLn2)

/-- e^(−x), zero below the fixed point. -/
def fpExpNeg (x : Nat) : Nat :=
  let y := fpExp (-(x : Int))
  if y.2 < -600 then 0 else y.1 / 2 ^ (-y.2).toNat

/-- e^x, x below 2,048 × ln 2. -/
def exactExp (v : Num) : Num :=
  let y := fpExp (fpOf v)
  if y.2 < -1024 then .fin false 0 0 else .fin false y.1 (y.2 - 600)

/-- 2^x, x below 2,048. -/
def exactExp2 (v : Num) : Num :=
  let x := fpOf v
  let k := x / (fpOne : Int)
  if k < -1024 then .fin false 0 0
  else .fin false (serExp fpOne ((x % (fpOne : Int)).toNat * fpLn2 / fpOne) 150 0 fpOne) (k - 600)

/-- ln(m × 2^e), m > 0. -/
def fpLn (m : Nat) (e : Int) : Int :=
  let b := bitLen m
  (e + b) * fpLn2 - serLogRatio fpOne 200 (2 ^ b - m) (2 ^ b + m)

/-- 1 ÷ (1 + e^(−x)): exactly one only where the fixed point cannot tell it from one. -/
def fpSigmoid (x : Int) : Nat :=
  let q := fpExpNeg x.natAbs
  if 0 ≤ x then fpOne * fpOne / (fpOne + q) else q * fpOne / (fpOne + q)

/-- An odd function from its values at x ≥ 0. -/
def oddFn (f : Nat → Nat) (x : Int) : Int := if x < 0 then -(f x.natAbs : Int) else f x.natAbs

/-- tanh x. -/
def fpTanh : Int → Int := oddFn (fun x => let q := fpExpNeg (2 * x); (fpOne - q) * fpOne / (fpOne + q))

/-- erf x = 2 ÷ √π × e^(−x²) × (x + 2x³/3 + …). -/
def fpErf : Int → Int := oddFn (fun x =>
  if 21 * fpOne < x then fpOne
  else
    let x2 := x * x / fpOne
    let y := fpExp (-(x2 : Int))
    serErf fpOne (2 * x2) 2000 0 x * y.1 / 2 ^ (-y.2).toNat * 2 / isqrt (fpPi * fpOne))

/-- ln(1 + e^x). -/
def fpSoftplus (x : Int) : Int :=
  let q := fpExpNeg x.natAbs
  max x 0 + serLogRatio fpOne 200 q (2 * fpOne + q)

/-- cos and sin of x: the nearest quarter turn, and what is left of the angle. -/
def fpCosSin (x : Int) : Int × Int :=
  let h : Int := fpPi / 2
  let k := (x + h / 2) / h
  let r := x - k * h
  let x2 := r.natAbs * r.natAbs / fpOne
  let c := serTrig fpOne x2 60 0 fpOne
  let s := if r < 0 then -serTrig fpOne x2 60 1 r.natAbs else serTrig fpOne x2 60 1 r.natAbs
  match (k % 4).toNat with
  | 0 => (c, s)
  | 1 => (-s, c)
  | 2 => (-c, -s)
  | _ => (s, -c)

/-- The factor g of x × g(x) for SILU, GELU_ERF and GELU_TANH. PRESUMED: the tanh form is ½(1 + tanh(√(2 ÷ π)(x + 0.044715 x³))),
that is 1 ÷ (1 + e^(−2u)) (log entry 91). -/
def fpGate (code : Nat) (v : Num) : Nat :=
  let x := fpOf v
  if code = 0x1D then fpSigmoid x
  else if code = 0x1C then (((fpOne : Int) + fpErf (x * fpOne / (isqrt (2 * fpOne * fpOne) : Nat))) / 2).toNat
  else
    let c := x + x * x / (fpOne : Int) * x / (fpOne : Int) * 44715 / 1000000
    fpSigmoid (2 * c * (isqrt (2 * fpOne * fpOne / fpPi * fpOne) : Nat) / (fpOne : Int))

/-- p × g for an exact p and a factor g of at most one, one only standing for the values just below it. -/
def gated (p : Num) (g : Nat) : Num :=
  if g = fpOne ∧ eqNum (absNum p) (.fin false 1 2048) then .fin p.neg? (2 ^ 64 - 1) 1984 else (mulNum p (.fin false g (-600))).1

/-- Zero of the sign an operation's limit has where it is zero (log entry 3). -/
def limitZero (code : Nat) : Acx := acxZero (Config.limitZeroNeg code)

/-! ## The operations -/

/-- ln 2 from below, over 2^100: e^x reaches 2^2,048 where x passes 2,048 × ln 2 (R541). -/
def ln2Lo : Nat := 878668439483319573618263538048

/-- x at or above 2^k. -/
def atLeastPow (x : Num) (k : Int) : Bool := leNum (.fin false 1 k) x

/-- e^x (R541): the exact result reaches 2^2,048 at x ≥ 2,048 × ln 2. -/
def acxExp (x : Acx) : Flagged Acx :=
  match x.toNum with
  | .nan => (acxNaN, flIV)
  | .inf n => (if n then acxZero false else acxInf false, 0)
  | v => if v.isZero then (acxOne, 0)
    else if ltNum (.fin false (ln2Lo * 2048) (-100)) v then (acxInf false, flOF ||| flIX)
    else deliverUlps 0x10 2 [x] (exactExp v)

/-- The rescaling factor e^x of R209 and R210: EXP, but IX is raised for every finite x (R541). -/
def acxRescale (x : Acx) : Flagged Acx :=
  let r := acxExp x
  (r.1, r.2 ||| flagIf (!x.toNum.isNaN && !x.toNum.isInf) flIX)

def acxExp2 (x : Acx) : Flagged Acx :=
  match x.toNum with
  | .nan => (acxNaN, flIV)
  | .inf n => (if n then acxZero false else acxInf false, 0)
  | v => if atLeastPow v 11 then (acxInf false, flOF ||| flIX)
    else match intOf? v with
      | some n => if n < acxMinExp then deliverUlps 0x11 1 [x] (.fin false 0 0) else (acxOf (.fin false 1 n), 0)
      | none => deliverUlps 0x11 1 [x] (exactExp2 v)

/-- ln x and log₂ x (Table 02-7). -/
def acxLog (code : Nat) (x : Acx) : Flagged Acx :=
  match x.toNum with
  | .nan => (acxNaN, flIV)
  | .inf n => if n then (acxNaN, flIV) else (acxInf false, 0)
  | .fin n m e => if m = 0 then (acxInf true, 0)
    else if n then (acxNaN, flIV)
    else
      let l := fpLn m e
      match log2Of? (.fin n m e) with
      | some k => if code = 0x13 then (acxInt k, 0) else if k = 0 then (acxZero false, 0) else deliverUlps code 2 [x] (fpNum l)
      | none => if code = 0x13 then deliverUlps code 1 [x] (fpNum (l * fpOne / fpLn2)) else deliverUlps code 2 [x] (fpNum l)

/-- A bounded operation with the value at zero and the limits at the infinities R541 gives, else `r` within k ulps. -/
def acxBounded (code k : Nat) (atZero lo hi : Option Acx) (r : Num → Num) (x : Acx) : Flagged Acx :=
  match x.toNum with
  | .nan => (acxNaN, flIV)
  | .inf n => match (if n then lo else hi) with
    | some v => (v, 0)
    | none => (acxNaN, flIV)
  | v => match v.isZero, atZero with
    | true, some z => (z, 0)
    | _, _ => deliverUlps code k [x] (r v)

/-- ±0 with the sign of x. -/
def zeroLike (x : Acx) : Acx := acxZero x.toNum.neg?

def acxTanh (x : Acx) :=
  acxBounded 0x14 2 (some (zeroLike x)) (some (acxInt (-1))) (some acxOne) (fun v => fpNum (fpTanh (fpOf v))) x
def acxSigmoid (x : Acx) :=
  acxBounded 0x15 3 (some acxHalf) (some (acxZero false)) (some acxOne) (fun v => fpNum (fpSigmoid (fpOf v))) x
def acxErf (x : Acx) :=
  acxBounded 0x16 3 (some (zeroLike x)) (some (acxInt (-1))) (some acxOne) (fun v => fpNum (fpErf (fpOf v))) x
/-- GELU_TANH, GELU_ERF and SILU: x × g(x). -/
def acxGelu (code : Nat) (x : Acx) :=
  acxBounded code (if code = 0x1D then 3 else 4) (some (zeroLike x)) (some (limitZero code)) (some (acxInf false))
    (fun v => gated v (fpGate code v)) x
def acxSoftplus (x : Acx) :=
  acxBounded 0x20 3 none (some (acxZero false)) (some (acxInf false)) (fun v => fpNum (fpSoftplus (fpOf v))) x

/-- sin and cos, with an absolute bound of 2^−22: NaN with IV beyond |x| = 2^20 and at an infinity (Table 02-7, R541). -/
def acxTrig (code : Nat) (x : Acx) : Flagged Acx :=
  let v := x.toNum
  if v.isNaN then (acxNaN, flIV)
  else if ltNum (.fin false 1 20) (absNum v) then (acxNaN, flIV)
  else if v.isZero then (if code = 0x17 then zeroLike x else acxOne, 0)
  else
    let cs := fpCosSin (fpOf v)
    let r := fpNum (if code = 0x17 then cs.2 else cs.1)
    deliver code [x] true (nearNum 1 (-22) r) r

/-- x × g(a) for a gate g with limits 0 and +∞: SWIGLU and GEGLU (R541). -/
def acxGated (code : Nat) (x a : Acx) : Flagged Acx :=
  let v := x.toNum
  let w := a.toNum
  if v.isNaN || w.isNaN then (acxNaN, flIV)
  else match w with
    | .inf n =>
      let g := if n then Num.fin (Config.limitZeroNeg code) 0 0 else Num.inf false
      roundFlagged (mulNum v g)
    | _ =>
      if w.isZero then roundFlagged (mulNum v w)
      else if v.isZero then (acxZero (v.neg? != w.neg?), 0)
      else if v.isInf then (acxInf (v.neg? != w.neg?), 0)
      else deliverUlps code (if code = 0x1E then 4 else 5) [x, a]
        (gated (mulNum v w).1 (fpGate (if code = 0x1E then 0x1D else 0x1B) w))

/-- d × a ÷ √v + b for v > 0, its root to 700 bits. -/
def exactNormApply (d v a b : Num) : Num :=
  match v, (mulNum d a).1 with
  | .fin _ m e, .fin n k f =>
    let odd := e % 2 != 0
    let m' := if odd then 2 * m else m
    let h := (if odd then e - 1 else e) / 2
    let w := 700 + bitLen m'
    (addNum (.fin n (k * isqrt (2 ^ (2 * w) / m')) (f - h - w)) b).1
  | _, _ => .nan

/-- The root of an infinite or zero variance, and one for any other: enough to tell a limit (R541). -/
def rootLimit : Num → Num
  | .inf _ => .fin false 0 0
  | .fin n m _ => if m = 0 then .inf n else .fin false 1 0
  | .nan => .nan

/-- (x − mean) × rsqrt(var + ε) × a + b within 2 ulps (Table 02-7, R198, R541). An infinite operand gives the limit; finite operands
raise IX, also where var + ε is zero and the result infinite. -/
def acxNormApply (x mean var eps a b : Acx) : Flagged Acx :=
  let args := [x, mean, var, eps, a, b]
  let d := addNum x.toNum (negNum mean.toNum)
  let v := addNum var.toNum eps.toNum
  let finite := args.all (fun y => !y.toNum.isNaN && !y.toNum.isInf)
  if args.any (fun y => y.toNum.isNaN) || d.1.isNaN || v.1.isNaN || (v.1.neg? && !v.1.isZero) then (acxNaN, flIV)
  else if !finite || v.1.isZero then
    let r := roundFlagged ((mulNum d.1 (rootLimit v.1)).bind (fun q => (mulNum q a.toNum).bind (fun t => addNum t b.toNum)))
    if r.2 = 0 then (r.1, flagIf finite flIX) else r
  else deliverUlps 0x27 2 args (exactNormApply d.1 v.1 a.toNum b.toNum)

end Sys2Proof.Machine
end

