-- ==== Sys2Proof/Machine/Format.lean ====
section
/-! DEFINITION. Format codes, element encodings and the single final rounding: R50 to R59, R66 to R72. -/

namespace Sys2Proof.Machine

/-- A floating-point encoding of Table 03-2. `special`: 0 the top exponent encodes Inf and NaN; 1 the two codes with every
bit set are NaN and there is no Inf (E4M3); 2 every code is finite. -/
structure FloatFmt where
  ebits : Nat
  mbits : Nat
  bias : Nat
  special : Nat
deriving DecidableEq, Repr

/-- What an element code is: a float encoding, or a two's-complement integer of w bits times 2^factor (R51, R54, R55). -/
inductive ElemFmt where
  | flt (f : FloatFmt)
  | int (w : Nat) (factor : Int)
deriving DecidableEq, Repr

/-- The low part of a format code: the element's own code (R53). -/
def fmtBase (code : Nat) : Nat := code % 64

/-- Bit 0x40 selects block scaling (R53). -/
def fmtMx (code : Nat) : Bool := code / 64 == 1

/-- The codes Table 03-1 permits (R50). -/
def fmtValid (code : Nat) : Bool :=
  (decide (1 ≤ code) && decide (code ≤ 11)) || (decide (0x44 ≤ code) && decide (code ≤ 0x4B))

/-- Bits per element in memory (Table 03-1). -/
def fmtBits (code : Nat) : Nat :=
  match fmtBase code with
  | 1 => 32
  | 2 => 16
  | 3 => 16
  | 4 => 8
  | 5 => 8
  | 6 => 6
  | 7 => 6
  | 8 => 4
  | 9 => 8
  | 10 => 4
  | 11 => 2
  | _ => 8

/-- The element encoding of a format code (Tables 03-1 and 03-2; the implicit factors of R54 and R55). -/
def fmtElem (code : Nat) : ElemFmt :=
  match fmtBase code with
  | 1 => .flt ⟨8, 23, 127, 0⟩
  | 2 => .flt ⟨8, 7, 127, 0⟩
  | 3 => .flt ⟨5, 10, 15, 0⟩
  | 4 => .flt ⟨4, 3, 7, 1⟩
  | 5 => .flt ⟨5, 2, 15, 0⟩
  | 6 => .flt ⟨3, 2, 3, 2⟩
  | 7 => .flt ⟨2, 3, 1, 2⟩
  | 8 => .flt ⟨2, 1, 1, 2⟩
  | 9 => .int 8 (if fmtMx code then -6 else 0)
  | 10 => .int 4 (if fmtMx code then -2 else 0)
  | _ => .int 2 0

/-- A format whose elements are integers (R32 allows the equality count only there). -/
def fmtIsInt (code : Nat) : Bool := decide (9 ≤ fmtBase code) && decide (fmtBase code ≤ 11)

/-- Decode a float code (R51). -/
def decodeFloat (f : FloatFmt) (c : Nat) : Num :=
  let sgn := bit c (f.ebits + f.mbits)
  let e := bits c f.mbits f.ebits
  let m := bits c 0 f.mbits
  let top := 2 ^ f.ebits - 1
  if f.special = 0 ∧ e = top then (if m = 0 then .inf sgn else .nan)
  else if f.special = 1 ∧ e = top ∧ m = 2 ^ f.mbits - 1 then .nan
  else if e = 0 then .fin sgn m (1 - (f.bias : Int) - f.mbits)
  else .fin sgn (2 ^ f.mbits + m) ((e : Int) - f.bias - f.mbits)

/-- Decode one element code exactly (R58 step 1). -/
def decodeElem (code c : Nat) : Num :=
  match fmtElem code with
  | .flt f => decodeFloat f c
  | .int w k => let v := signed w c; .fin (decide (v < 0)) v.natAbs k

/-- The factor an E8M0 scale byte stands for: none is NaN (R53). -/
def scaleExp (b : Nat) : Option Int := if b = 255 then none else some ((b : Int) - 127)

/-- An element times its block scale; a NaN scale makes it NaN (R53, R72). -/
def applyScale (v : Num) (b : Nat) : Num :=
  match scaleExp b, v with
  | none, _ => .nan
  | some e, .fin n m f => .fin n m (f + e)
  | some _, w => w

/-! ## Rounding to a grid (R66, R68) -/

/-- m × 2^e (m > 0) rounded to a multiple of 2^q in a rounding mode, with the stochastic draw d: the multiple and whether
anything was discarded. -/
def roundGrid (mode draw m : Nat) (e q : Int) : Nat × Bool :=
  if q ≤ e then (m * 2 ^ (e - q).toNat, false)
  else
    let sh := (q - e).toNat
    let t := m / 2 ^ sh
    let r := m % 2 ^ sh
    if r = 0 then (t, false)
    else
      let up : Bool :=
        if mode = 1 then false
        else if mode = 2 then decide (draw < r * 2 ^ 24 / 2 ^ sh)
        else decide (2 ^ sh < 2 * r) || (decide (2 ^ sh = 2 * r) && t % 2 == 1)
      (if up then t + 1 else t, true)

/-- The largest finite magnitude: mantissa and exponent (Table 03-2). -/
def maxFinite (f : FloatFmt) : Nat × Int :=
  let emax : Int := if f.special = 0 then (2 ^ f.ebits - 2 : Nat) - (f.bias : Int) else (2 ^ f.ebits - 1 : Nat) - (f.bias : Int)
  let m := if f.special = 1 then 2 ^ (f.mbits + 1) - 2 else 2 ^ (f.mbits + 1) - 1
  (m, emax - f.mbits)

/-- The code of a magnitude n × 2^q that the format holds. -/
def packFloat (f : FloatFmt) (n : Nat) (q : Int) : Nat :=
  if n = 0 then 0
  else
    let p := q + (bitLen n : Int) - 1
    let emin : Int := 1 - (f.bias : Int)
    if p < emin then n * 2 ^ (q - (emin - f.mbits)).toNat
    else
      let frac := if p - f.mbits ≤ q then n * 2 ^ (q - (p - f.mbits)).toNat else n / 2 ^ ((p - f.mbits) - q).toNat
      (p + f.bias).toNat * 2 ^ f.mbits + (frac - 2 ^ f.mbits)

def signBit (f : FloatFmt) (n : Bool) : Nat := if n then 2 ^ (f.ebits + f.mbits) else 0
/-- The code of an infinity, where the format has one (R51). -/
def infCode (f : FloatFmt) : Nat := (2 ^ f.ebits - 1) * 2 ^ f.mbits
/-- The code of the largest finite magnitude. -/
def maxCode (f : FloatFmt) : Nat := packFloat f (maxFinite f).1 (maxFinite f).2
/-- The canonical NaN (R57), 0x7F for both FP8 formats (Table 03-3), and +0 where the format has none. -/
def nanCode (f : FloatFmt) : Nat :=
  if f.special = 2 then 0
  else if f.special = 1 then 2 ^ (f.ebits + f.mbits) - 1
  else if f.mbits = 2 then 0x7F
  else infCode f + 2 ^ (f.mbits - 1)

/-- Whether m₁ × 2^e₁ is above m₂ × 2^e₂. -/
def magGt (m₁ : Nat) (e₁ : Int) (m₂ : Nat) (e₂ : Int) : Bool :=
  let q := min e₁ e₂
  decide (m₂ * 2 ^ (e₂ - q).toNat < m₁ * 2 ^ (e₁ - q).toNat)

/-- The magnitude m × 2^e rounded to the format's spacing at it, subnormal below the smallest normal (R68 step 1). -/
def roundToFloat (f : FloatFmt) (mode draw m : Nat) (e : Int) : Nat × Int × Bool :=
  let p := e + (bitLen m : Int) - 1
  let q := max p (1 - (f.bias : Int)) - f.mbits
  let r := roundGrid mode draw m e q
  (r.1, q, r.2)

/-- Whether a rounding to a float format underflows: inexact and tiny, tininess decided with the exponent unbounded in modes 0
and 1 and on the delivered magnitude in mode 2 (Table 03-7, R68). -/
def isTiny (f : FloatFmt) (mode m : Nat) (e : Int) (n : Nat) (q : Int) : Bool :=
  let emin : Int := 1 - (f.bias : Int)
  let p := e + (bitLen m : Int) - 1
  if mode = 2 then n == 0 || decide (q + (bitLen n : Int) - 1 < emin)
  else
    let q' := p - f.mbits
    let r := roundGrid mode 0 m e q'
    decide (q' + (bitLen r.1 : Int) - 1 < emin)

/-- The final rounding to a float format (Table 03-3, R59, R66 to R69). -/
def roundFloat (f : FloatFmt) (mode : Nat) (sat : Bool) (draw : Nat) : Num → Flagged Nat
  | .nan => (nanCode f, flIV)
  | .inf n =>
    if f.special = 0 then (signBit f n + infCode f, 0)
    else if f.special = 1 ∧ ¬ sat then (nanCode f, flOF ||| flIX)
    else (signBit f n + maxCode f, flOF ||| flIX)
  | .fin n m e =>
    if m = 0 then (signBit f n, 0)
    else
      let r := roundToFloat f mode draw m e
      if magGt r.1 r.2.1 (maxFinite f).1 (maxFinite f).2 then
        let c :=
          if mode = 1 ∨ sat ∨ f.special = 2 then signBit f n + maxCode f
          else if f.special = 0 then signBit f n + infCode f
          else nanCode f
        (c, flOF ||| flIX)
      else
        (signBit f n + packFloat f r.1 r.2.1,
          flagIf r.2.2 flIX ||| flagIf (r.2.2 && isTiny f mode m e r.1 r.2.1) flUF)

/-- The w-bit code of ±n clamped to lo..hi, and whether it was clamped. -/
def clampInt (w : Nat) (lo hi : Int) (neg : Bool) (n : Nat) : Nat × Bool :=
  let v : Int := if neg then -(n : Int) else n
  if hi < v then (unsigned w hi, true) else if v < lo then (unsigned w lo, true) else (unsigned w v, false)

/-- The final rounding to an integer format (Table 03-3). -/
def roundInt (w mode draw : Nat) : Num → Flagged Nat
  | .nan => (0, flIV)
  | .inf n => (unsigned w (if n then -(2 ^ (w - 1) : Nat) else (2 ^ (w - 1) - 1 : Nat)), flOF ||| flIX)
  | .fin n m e =>
    if m = 0 then (0, 0)
    else
      let r := roundGrid mode draw m e 0
      let c := clampInt w (-(2 ^ (w - 1) : Nat)) (2 ^ (w - 1) - 1 : Nat) n r.1
      (c.1, flagIf (r.2 || c.2) flIX ||| flagIf c.2 flOF)

/-- The ROUND_OUT rounding of a value to a format that is not block-scaled (R58 step 2, R66). -/
def roundOut (code mode : Nat) (sat : Bool) (draw : Nat) (v : Num) : Flagged Nat :=
  match fmtElem code with
  | .flt f => roundFloat f mode sat draw v
  | .int w _ => roundInt w mode draw v

/-! ## Block quantisation (R70, R71) -/

/-- emax of Table 03-6. -/
def mxEmax (code : Nat) : Int :=
  match fmtBase code with
  | 4 => 8
  | 5 => 15
  | 6 => 4
  | 7 => 2
  | 8 => 2
  | _ => 0

/-- The range an element quantises into (R55, R70 step 6). -/
def mxIntRange (w : Nat) : Int × Int :=
  if w = 2 then (-2, 1) else (-((2 ^ (w - 1) - 1 : Nat) : Int), (2 ^ (w - 1) - 1 : Nat))

/-- One element, already divided by the block's scale: rounded, then clamped with no flag; the last part says whether a
non-zero element was flushed to zero (R70 steps 5 and 6). -/
def quantElem (code mode draw : Nat) (v : Num) : Nat × Flags × Bool :=
  match fmtElem code, v with
  | _, .nan => (0, 0, false)
  | .flt f, .inf n => (signBit f n + (if f.special = 0 then infCode f else maxCode f), 0, false)
  | .int w _, .inf n => (unsigned w (if n then (mxIntRange w).1 else (mxIntRange w).2), 0, false)
  | .flt f, .fin n m e =>
    if m = 0 then (signBit f n, 0, false)
    else
      let r := roundToFloat f mode draw m e
      if magGt r.1 r.2.1 (maxFinite f).1 (maxFinite f).2 then (signBit f n + maxCode f, flagIf r.2.2 flIX, false)
      else if r.1 = 0 then (signBit f n, flIX ||| flUF, true)
      else (signBit f n + packFloat f r.1 r.2.1, flagIf r.2.2 flIX, false)
  | .int w k, .fin n m e =>
    if m = 0 then (0, 0, false)
    else
      let r := roundGrid mode draw m e k
      if r.1 = 0 then (0, flIX ||| flUF, true)
      else ((clampInt w (mxIntRange w).1 (mxIntRange w).2 n r.1).1, flagIf r.2 flIX, false)

/-- The code of a zero of an element's own sign (R71). -/
def zeroCode (code : Nat) (v : Num) : Nat :=
  match fmtElem code with
  | .flt f => signBit f v.neg?
  | .int _ _ => 0

/-- The largest element value as an exact value (Table 03-6). -/
def mxLargest (code : Nat) : Nat × Int :=
  match fmtElem code with
  | .flt f => maxFinite f
  | .int w k => ((mxIntRange w).2.toNat, k)

/-- The exponent of the largest finite magnitude of a list; none when every element is a zero. -/
def maxExponent (l : List Num) : Option Int :=
  l.foldl (fun acc v => match v with
    | .fin _ m e => if m = 0 then acc else
        let p := e + (bitLen m : Int) - 1
        some (match acc with | some q => max p q | none => p)
    | _ => acc) none

/-- A quantised block: the scale byte, the element codes, the flags and the number of flushed elements. -/
structure QBlock where
  scale : Nat
  codes : List Nat
  flags : Flags
  flushed : Nat
deriving DecidableEq, Repr

/-- The block R71 gives scale 0xFF. -/
def nanBlock (n : Nat) (fl : Flags) : QBlock := ⟨255, List.replicate n 0, fl, 0⟩

/-- QUANT_MX of one block (R70, R71). `draws` gives each element's stochastic draw. -/
def quantBlock (code mode : Nat) (sat : Bool) (draws : List Nat) (vs : List Num) : QBlock :=
  if vs.any Num.isNaN then nanBlock vs.length flIV
  else
    let hasInf := vs.any Num.isInf
    let e5m2 := fmtBase code == 5
    if hasInf && !sat && !e5m2 then nanBlock vs.length flOF
    else
      let big := mxLargest code
      let vs' := if hasInf && sat then vs.map (fun v => match v with | .inf n => Num.fin n big.1 (big.2 + 127) | w => w) else vs
      let fl0 := flagIf (hasInf && sat) flOF
      match maxExponent vs' with
      | none => ⟨0, vs'.map (fun v => if v.isInf then (quantElem code mode 0 v).1 else zeroCode code v), fl0, 0⟩
      | some p =>
        let raw := p - mxEmax code
        if 127 < raw ∧ ¬ sat then nanBlock vs.length (fl0 ||| flOF)
        else
          let se := max (-127) (min 127 raw)
          let qs := (vs'.zip draws).map (fun x => quantElem code mode x.2
            (match x.1 with | .fin n m e => .fin n m (e - se) | w => w))
          ⟨(se + 127).toNat, qs.map (·.1), fl0 ||| flagIf (decide (127 < raw)) flOF ||| orFlags (qs.map (·.2.1)),
            (qs.filter (·.2.2)).length⟩

end Sys2Proof.Machine
end

