-- ==== Sys2Proof/Machine/Lane.lean ====
section
/-! DEFINITION. What a lane computes: register layout (R21 to R23), terms and group sums (R24, R32, R33, R60 to R62), the
reduction of one output element (R27, R29, R73 to R75) and the lineage accumulation (R80, R82). -/

namespace Sys2Proof.Machine

/-- One operand element as a lane sees it: its decoded value and the scale byte of its block (127, a factor of 1, where the
operand is not block-scaled, R56). Scale 256 marks a masked position (R34), which takes part in nothing. -/
structure LaneElem where
  v : Num
  scale : Nat
deriving DecidableEq, Repr

/-- The element with its scale applied (R53). -/
def LaneElem.value (x : LaneElem) : Num := applyScale x.v x.scale

/-- A masked position (R34, R188). -/
def LaneElem.masked (x : LaneElem) : Bool := x.scale == 256

/-- Elements of one register by format (Table 02-1). -/
def sliceElems (code : Nat) : Nat :=
  match fmtBase code with
  | 1 => 16
  | 2 => 32
  | 3 => 32
  | 8 => 128
  | 10 => 128
  | 11 => 256
  | _ => 64

/-- Container width in a register (Table 02-1). -/
def containerBits (code : Nat) : Nat := 512 / sliceElems code

/-- Elements of a lane-cycle when formats a and b meet: the wider format's count (R23). -/
def laneCycleElems (a b : Nat) : Nat := min (sliceElems a) (sliceElems b)

/-- The products of one group: 32 under MX, at most 64 otherwise (Table 02-2). -/
def groupElems (a b : Nat) : Nat := if fmtMx a || fmtMx b then 32 else min 64 (laneCycleElems a b)

/-- The 512 bits of a slice of element codes (R22). -/
def packSlice (width : Nat) : List Nat → Nat
  | [] => 0
  | c :: cs => c % 2 ^ width + 2 ^ width * packSlice width cs

/-- The scale side-register: one byte per block of 32 containers (R22); missing blocks read as zero. -/
def packScales : List Nat → Nat
  | [] => 0
  | b :: bs => b % 256 + 256 * packScales bs

/-- The list cut into pieces of n; the fuel is the list's length. -/
def chunksFuel {α : Type} : Nat → Nat → List α → List (List α)
  | 0, _, _ => []
  | _ + 1, _, [] => []
  | fuel + 1, n, l => l.take n :: chunksFuel fuel n (l.drop n)

def chunks {α : Type} (n : Nat) (l : List α) : List (List α) := chunksFuel l.length (max n 1) l

/-! ## Group sums -/

/-- The signed window sum of finite terms (R60): each truncated toward zero to a multiple of 2^(E − 49). -/
def windowSum (terms : List Num) : Flagged Num :=
  match maxExponent terms with
  | none => (.fin false 0 0, 0)
  | some E =>
    let q := E - 49
    let ks : List (Int × Bool) := terms.map (fun t => match t with
      | .fin n m e =>
        if q ≤ e then (alignTo n m e q, false)
        else let d := 2 ^ (q - e).toNat; ((if n then -((m / d : Nat) : Int) else (m / d : Nat)), m % d != 0)
      | _ => (0, false))
    (Num.ofInt (ks.foldl (fun a k => a + k.1) 0) q, flagIf (ks.any (·.2)) flIX)

/-- The sum of one group of exact terms; `bad` says that a term was invalid when it was formed (R60, R61). -/
def groupSum (terms : List Num) : Flagged Num :=
  let pos := terms.any (fun t => t == .inf false)
  let neg := terms.any (fun t => t == .inf true)
  if terms.any Num.isNaN || (pos && neg) then (.nan, flIV)
  else if pos then (.inf false, 0)
  else if neg then (.inf true, 0)
  else windowSum terms

/-- The lane-mode term of modes 0 to 2 (Table 02-6). In mode 0 the scales are applied to the group's sum (R60, R62). -/
def laneTerm (mode : Nat) (a b : LaneElem) : Num :=
  if mode = 0 then
    (if a.scale = 255 ∨ b.scale = 255 then .nan else (mulNum a.v b.v).1)
  else
    let d := (addNum a.value (negNum b.value)).1
    if mode = 1 then absNum d else (mulNum d d).1

/-- Whether the elements of a group share their two block scales: they do unless a block-scaled operand is transposed
(log entry 6). -/
def uniformScales : List (LaneElem × LaneElem) → Bool
  | [] => true
  | (a, b) :: rest => rest.all (fun p => p.1.scale == a.scale && p.2.scale == b.scale)

/-- The scale factor of a group in mode 0: the product of its two block scales (R62). -/
def groupScale : List (LaneElem × LaneElem) → Int
  | (a, b) :: _ => (a.scale : Int) - 127 + ((b.scale : Int) - 127)
  | [] => 0

def scaleBy (k : Int) : Num → Num
  | .fin n m e => .fin n m (e + k)
  | w => w

/-- The element with its scale applied and a scale of 1: what enters a group whose scales differ. -/
def LaneElem.scaled (x : LaneElem) : LaneElem := ⟨x.value, 127⟩

/-- One group's contribution in modes 0 to 2, exact in ACX (R62). -/
def groupContribution (mode : Nat) (g : List (LaneElem × LaneElem)) : Flagged Num :=
  let byGroup := mode == 0 && uniformScales g
  let g' := if mode = 0 ∧ ¬ byGroup then g.map (fun p => (p.1.scaled, p.2.scaled)) else g
  let s := groupSum (g'.map (fun p => laneTerm mode p.1 p.2))
  (if byGroup then scaleBy (groupScale g) s.1 else s.1, s.2)

/-! ## The accumulator entry -/

/-- The value an entry with no contribution holds (R27). -/
def laneIdentity (mode : Nat) : Acx := if mode = 3 then acxInf true else if mode = 4 then acxInf false else acxZero false

/-- Add one contribution: the first initialises (R24, R27, R62). -/
def accumulate (acc : Option Acx) (c : Flagged Num) : Flagged (Option Acx) :=
  match acc with
  | none => let r := roundOdd c.1; (some r.1, c.2 ||| r.2)
  | some a => let s := addNum a.toNum c.1; let r := roundOdd s.1; (some r.1, c.2 ||| s.2 ||| r.2)

/-- One element pair of modes 3 and 4: the exact sum rounded once (R32, R33). -/
def laneSum (a b : LaneElem) : Flagged Acx := roundFlagged (addNum a.value b.value)

/-- The extremum of a lane-cycle; a NaN term makes it NaN (R33). -/
def laneExtremum (mode : Nat) (g : List (LaneElem × LaneElem)) : Flagged (Option Acx) :=
  g.foldl (fun acc p =>
    let t := laneSum p.1 p.2
    match acc.1 with
    | none => (some t.1, acc.2 ||| t.2)
    | some a => let m := if mode = 3 then acxMax a t.1 else acxMin a t.1; (some m.1, acc.2 ||| t.2 ||| m.2)) (none, 0)

/-- The count of modes 5 and 6 over a group; a NaN pair counts 0 and raises IV (R33). -/
def laneCount (mode : Nat) (g : List (LaneElem × LaneElem)) : Nat × Flags :=
  g.foldl (fun acc p =>
    let a := p.1.value
    let b := p.2.value
    if a.isNaN || b.isNaN then (acc.1, acc.2 ||| flIV)
    else (acc.1 + b2n (if mode = 5 then ltNum b a else eqNum a b), acc.2)) (0, 0)

/-- One group into the entry, in any mode (Table 02-6, column "Entry update"). -/
def laneGroup (mode : Nat) (acc : Flagged (Option Acx)) (g : List (LaneElem × LaneElem)) : Flagged (Option Acx) :=
  if mode ≤ 2 then let r := accumulate acc.1 (groupContribution mode g); (r.1, acc.2 ||| r.2)
  else if mode ≤ 4 then
    let m := laneExtremum mode g
    match acc.1, m.1 with
    | none, x => (x, acc.2 ||| m.2)
    | some a, none => (some a, acc.2 ||| m.2)
    | some a, some x =>
      let e := if mode = 3 then acxMax a x else acxMin a x
      (some e.1, acc.2 ||| m.2 ||| e.2)
  else
    let c := laneCount mode g
    let r := accumulate acc.1 (.fin false c.1 0, c.2)
    (r.1, acc.2 ||| r.2)

/-- The partial of one segment: groups in ascending K, without their masked positions (R24, R29, R34, R74 step 1, R76). -/
def segmentPartial (mode group : Nat) (pairs : List (LaneElem × LaneElem)) : Flagged Acx :=
  let r := ((chunks group pairs).map (fun g => g.filter (fun p => !p.1.masked && !p.2.masked))).foldl (laneGroup mode) (none, 0)
  (r.1.getD (laneIdentity mode), r.2)

/-! ## Segments and the canonical tree -/

/-- L of R73. -/
def segmentLen (k s : Nat) : Nat := 256 * ceilDiv k (256 * s)

/-- No segment is empty (R73). -/
def segmentsOk (k s : Nat) : Bool := decide (1 ≤ s) && decide (s ≤ 64) && decide ((s - 1) * segmentLen k s < k)

/-- combine(a, b) of R74 step 2. -/
def combinePartials (mode : Nat) (a b : Acx) : Flagged Acx :=
  if mode = 3 then acxMax a b else if mode = 4 then acxMin a b else acxAdd a b

/-- One level of the tree: neighbours combine, an odd last partial passes up (R74). -/
def treeLevel (mode : Nat) : List Acx → Flagged (List Acx)
  | a :: b :: rest =>
    let c := combinePartials mode a b
    let r := treeLevel mode rest
    (c.1 :: r.1, c.2 ||| r.2)
  | l => (l, 0)

/-- The canonical tree over the partials, in segment order (R74). -/
def combineTree (mode : Nat) : Nat → List Acx → Flagged Acx
  | _, [] => (laneIdentity mode, 0)
  | _, [p] => (p, 0)
  | 0, p :: _ => (p, 0)
  | fuel + 1, l => let r := treeLevel mode l; let t := combineTree mode fuel r.1; (t.1, r.2 ||| t.2)

/-- One output element of a product: S segments of logical K, then the tree (R74). -/
def reduceElement (mode group s : Nat) (pairs : List (LaneElem × LaneElem)) : Flagged Acx :=
  let parts := mapFlagged (segmentPartial mode group) (chunks (segmentLen pairs.length s) pairs)
  let t := combineTree mode 7 parts.1
  (t.1, parts.2 ||| t.2)

/-! ## Lineage mode -/

/-- IEEE binary32 round to nearest even under R57; the overflow and underflow flags are IEEE's (Table 03-7). -/
def roundFp32 (v : Num) : Flagged Num := let r := roundOut 1 0 false 0 v; (decodeElem 1 r.1, r.2)

/-- The sequential FP32 accumulation of R82, products and sums rounded one by one. -/
def lineageAccumulate (pairs : List (Num × Num)) : Flagged Acx :=
  let r : Flagged Num := pairs.foldl (fun acc p =>
    let m := (mulNum p.1 p.2).bind roundFp32
    let s := (addNum acc.1 m.1).bind roundFp32
    (s.1, acc.2 ||| m.2 ||| s.2)) ((.fin false 0 0 : Num), 0)
  (acxOf r.1, r.2)

/-! ## Operand elements as the lanes take them -/

/-- An operand element with the code a register holds. -/
structure MElem where
  code : Nat
  el : LaneElem
deriving DecidableEq, Repr

def MElem.zero : MElem := ⟨0, ⟨.fin false 0 0, 127⟩⟩

end Sys2Proof.Machine
end

