-- ==== Sys2Proof/Machine/Store.lean ====
section
/-! DEFINITION. Sparse stores: memory and every numbered collection is a list of (number, value) pairs in one
canonical form, numbers strictly rising and no entry equal to what an unlisted number reads as. -/

namespace Sys2Proof.Machine

/-- A sparse store. What an unlisted key reads as is given where the store is read. -/
abbrev Store (α : Type) := List (Nat × α)

/-- Read key k; `d` is what an unlisted key reads as. -/
def Store.get {α : Type} (d : α) : Store α → Nat → α
  | [], _ => d
  | (j, v) :: rest, k => if j = k then v else Store.get d rest k

/-- Remove key k. -/
def Store.erase {α : Type} : Store α → Nat → Store α
  | [], _ => []
  | (j, v) :: rest, k => if j = k then Store.erase rest k else (j, v) :: Store.erase rest k

/-- Put v at key k, whatever v is. -/
def Store.put {α : Type} : Store α → Nat → α → Store α
  | [], k, v => [(k, v)]
  | (j, w) :: rest, k, v =>
    if j = k then (k, v) :: rest else if k < j then (k, v) :: (j, w) :: rest else (j, w) :: Store.put rest k v

/-- Write v at key k, keeping the canonical form: writing what an unlisted key reads as removes the entry. -/
def Store.set {α : Type} [DecidableEq α] (d : α) (m : Store α) (k : Nat) (v : α) : Store α :=
  if v = d then Store.erase m k else Store.put m k v

/-- Every key of m is at least n and the keys rise strictly, and no entry equals d. -/
def Store.wfFrom {α : Type} [DecidableEq α] (d : α) : Nat → Store α → Bool
  | _, [] => true
  | n, (j, v) :: rest => decide (n ≤ j) && decide (v ≠ d) && Store.wfFrom d (j + 1) rest

/-- The canonical form. -/
def Store.wf {α : Type} [DecidableEq α] (d : α) (m : Store α) : Bool := Store.wfFrom d 0 m

/-- A store whose unlisted keys hold nothing. -/
def Store.find? {α : Type} (m : Store α) (k : Nat) : Option α :=
  match m with
  | [] => none
  | (j, v) :: rest => if j = k then some v else Store.find? rest k

/-- Whether a key is listed. -/
def Store.has {α : Type} (m : Store α) (k : Nat) : Bool := (m.find? k).isSome

/-- Apply f to a listed key's value. -/
def Store.modify {α : Type} (m : Store α) (k : Nat) (f : α → α) : Store α :=
  m.map (fun p => if p.1 = k then (p.1, f p.2) else p)

end Sys2Proof.Machine
end

