-- ==== Sys2Proof/Machine/State.lean ====
section
/-! DEFINITION. The state of the module: every register, object, table, queue, buffer and pin the spec gives it, as plain
data, and its value right after reset. Each group names the chapter that defines it. -/

namespace Sys2Proof.Machine

/-! ## Memory (chapter 04) -/

/-- One paddock allocation of a tenant (R93): `map` gives, slot by slot, the granules behind it (256 × quarter + granule), one
per quarter of the partition for a replicated allocation. -/
structure Alloc where
  base : Nat
  count : Nat
  cls : Nat
  quarter : Nat
  map : List (List Nat)
deriving DecidableEq, Repr

/-- A request whose result is delayed (R98, R99, R101, R105): what it asked, its write-sequence number, and the commands that
must complete or be pre-empted first. -/
structure DelayedReq where
  obj : Nat            -- key of the request object (index × 256 + subindex)
  value : Nat          -- the value written
  seq : Nat            -- write-sequence number of the write
  status : Nat         -- the status the result will carry, once applied
  waitFor : List Nat   -- commands begun before it was applied
  alloc : Option Alloc -- the allocation made or freed
deriving DecidableEq, Repr

/-- HBM, paddock and host memory. -/
structure MemGroup where
  bytes : List Host.Cell          -- every byte that is not zero, by physical number (log entry 5)
  poison : List Nat               -- poisoned 64-byte lines, number ÷ 64 (R110)
  frameOwner : Store Nat          -- owner of HBM frame f (R100); unlisted: 0x400, free
  granOwner : Store Nat           -- owner of granule 256q + g; unlisted: 0x400, free
  suspectFrames : List Nat        -- frames in which an uncorrectable error occurred (R112)
  suspectGranules : List Nat      -- granules in which an uncorrectable error occurred (R112)
  allocs : Store (List Alloc)     -- allocations of tenant t (R93)
  delayed : List DelayedReq       -- delayed requests, oldest first (R451)
  hostAbort : List (Nat × Nat)    -- host addresses [lo, hi) PCIe completes with an error status (R103 type 8; outside world)
deriving DecidableEq, Repr

/-! ## Queues and registers (chapter 05) -/

/-- One queue pair (R117, R119, R120). -/
structure Queue where
  state : Nat          -- 0 disabled, 1 enabled, 2 draining, 3 error (R147)
  sqHead : Nat
  sqTail : Nat
  cqHead : Nat         -- consumed up to here, modulo the size
  cqTail : Nat         -- next slot to write
  unread : Nat         -- records written and not yet consumed (R134)
  phase : Bool         -- the P bit of the next record (R139)
  tailReg : Nat        -- the last SQ_TAIL value written (R122)
  headReg : Nat        -- the last CQ_HEAD value written (R122)
  sinceIrq : Nat       -- records written since the last interrupt (R142)
  delayArmed : Bool    -- IRQ_DELAY_US is running (R142)
  waitsMet : List Nat  -- wait slots of the head command already satisfied (R129)
  dropRecords : Bool   -- the CQ write faulted: records are dropped (R145)
  heldRoom : Nat       -- CQ room held for hand-off records (R255)
deriving DecidableEq, Repr

/-- A device event: Table 05-13 without its P bit and SEQ. -/
structure EventRec where
  code : Nat
  cls : Nat            -- 0 information, 1 corrected, 2 contained, 3 device-fatal
  kind : Nat           -- SOURCE_KIND
  source : Nat
  param : Nat
deriving DecidableEq, Repr

/-- A queue pair after reset. -/
def Queue.idle : Queue := ⟨0, 0, 0, 0, 0, 0, true, 0, 0, 0, false, [], false, 0⟩

/-- One mailbox (R143): its request and response buffers and MBX_STATUS. -/
structure Mailbox where
  request : List Byte
  response : List Byte
  status : Nat         -- 0 idle, 1 busy, 2 response ready, 3 rejected
  respLen : Nat
deriving DecidableEq, Repr

def Mailbox.idle : Mailbox := ⟨[], [], 0, 0⟩

/-- The registers outside the dictionary, the event queue and what the device sent to the host. -/
structure RegGroup where
  ready : Bool                  -- DEV_STATUS[0] (R123)
  fatal : Bool                  -- DEV_STATUS[1] (R123)
  evqBaseLo : Nat
  evqBaseHi : Nat
  evqCtrl : Nat
  evqHead : Nat
  evqLost : Nat
  evqSlot : Nat                 -- next slot the device writes
  evqCount : Nat                -- written and not consumed
  evqPhase : Bool
  evqOwed : Nat                 -- events lost since the last 0x0012 record (R144)
  eventSeq : Nat                -- next SEQ, shared with the log (R144)
  tenantEvents : Store Nat      -- TENANT_EVENTS of tenant t (R146)
  adminMbx : Mailbox
  tenantMbx : Store Mailbox
  bar4 : Store Nat              -- MSI-X table and pending bits of function f, dword by dword (R121)
  msix : List (Nat × Nat)       -- interrupts sent: (function, vector), oldest first
deriving DecidableEq, Repr

/-! ## The dictionary (chapters 16 and 17) -/

/-- A transaction of one master (R431 to R435). -/
structure Tx where
  handle : Nat
  staged : List (Nat × Nat)     -- (key, value), in staging order
  committing : Bool             -- waits for quiescence (R433, R434)
  reply : Nat                   -- request the commit response answers
deriving DecidableEq, Repr

/-- A Tack message held whole: its route (0 administrator mailbox, 1 bus, 2 + t tenant mailbox) and its bytes. -/
structure HeldMsg where
  route : Nat
  mbx : Bool                    -- its response goes to a mailbox or the bus, rather than to `answers`
  bytes : List Byte
  done : Nat                    -- items already applied: it waits for the result of one of its own (log entry 112)
  out : List Byte               -- what the response says of them
deriving DecidableEq, Repr

/-- The dictionary: values and write-sequence numbers by key (index × 256 + subindex), transactions, and the bus session. -/
structure DictGroup where
  vals : Store Nat              -- every object that holds a value; unlisted: its default (Tables 17-3 to 17-9)
  seqs : Store Nat              -- write-sequence numbers (R420)
  txs : Store Tx                -- open transaction of master m: 0 host administrator, 1 bus controller
  nextHandle : Nat
  busReplies : List (Nat × List Byte)   -- the last 16 bus responses by message identifier (R426)
  busOut : List (List Byte)     -- Tack messages sent on the bus, oldest first
  answers : List (Nat × Nat)    -- status and SEQ answered to single writes that came by no message of the model, oldest first
  waitingMsgs : List HeldMsg    -- messages that wait for a request object's result, oldest first (R425, R451)
deriving DecidableEq, Repr

/-! ## Compute (chapters 02, 06 to 08) -/

/-- The state of a tile (Table 02-8). -/
inductive TileState where
  | waitGrant | fill | run | drain | done
deriving DecidableEq, Repr

/-- One tile of a begun command: one row tile, one column tile and one K segment (R156). -/
structure Tile where
  prod : Nat           -- which product of the command it belongs to
  row0 : Nat
  rows : Nat
  col0 : Nat
  cols : Nat
  seg : Nat
  arr : Nat            -- stream arrangement: 1, 2 or 4 streams (R28)
  slices : Nat         -- slices of its segment
  swapped : Nat        -- slices swapped in so far
  stable : Nat         -- physical stable it is assigned to
  state : TileState
  grant : Nat          -- bytes of partial store it needs (R158, R210)
  granted : Nat        -- bytes of partial store it holds
  waited : Bool        -- it has waited for a grant (R182)
  replays : Nat        -- replays after a residue mismatch (R42)
  flags : Flags        -- held with the tile until its commit (R40)
  masks : Bool         -- a reused gate tile, dealt to no stable (R258)
  spurred : Bool       -- Spur kind 7 has replayed it (Table 12-6)
  spread : Bool        -- laid out by the spread mapping: its weight tiles are broadcast from the manger (R156)
deriving DecidableEq, Repr

/-- The two operands of a product as the lanes take them: rows of A (stationary) and columns of B (broadcast) along K (R21, R22, R28). -/
structure Stationary where
  fmtA : Nat
  fmtB : Nat
  mode : Nat                     -- lane mode (R32)
  lineage : Bool
  segLen : Nat                   -- K positions of a segment (R73)
  a : List (List MElem)
  b : List (List MElem)
deriving DecidableEq, Repr

/-- Where a command came from. -/
inductive Src where
  | queue (q idx : Nat)          -- global queue number and SQ index
  | program (run idx : Nat)      -- running program and index in its command list
deriving DecidableEq, Repr

/-- What a begun command still waits for before it can complete. -/
inductive Wait where
  | none
  | step (run : Nat)             -- a STEP, or a RETIRE or ADMIT that waits for running steps or a hand-off
  | engine                       -- a codec engine
  | buffer                       -- a bitstream buffer
  | remote                       -- acknowledgements or data from other devices
  | signal                       -- its remote signal has been sent and not answered (R366 to R368)
deriving DecidableEq, Repr

/-- A translation or poison fault met by an access (R103, R110). -/
structure AccFault where
  typ : Nat            -- 1 to 8
  va : Nat
  level : Nat          -- 4 to 0, or 0xFF
deriving DecidableEq, Repr

/-- The values of the objects a begun command goes on using: one value of each throughout (R266, R323). -/
structure Began where
  root : Nat                     -- `TENANT_PT_ROOT`
  pasid : Nat                    -- `TENANT_PASID`
  job : Nat                      -- `TENANT_JOB_ID`
  seed : Nat                     -- `TENANT_RNG_SEED`
  pool : Nat                     -- `TENANT_CODEC_POOL_CONFIG`
deriving DecidableEq, Repr

def Began.none : Began := ⟨0, 0, 0, 0, 0⟩

/-- A command that has begun and not completed (R129). -/
structure Cmd where
  id : Nat
  src : Src
  tenant : Option Nat            -- none: an administrative queue
  bytes : List Byte              -- its 128 bytes
  status : Nat
  detail : Nat
  fault : Option AccFault
  flags : Flags
  writes : List (Nat × Byte)     -- output bytes, visible at completion (R131)
  stats : List (Nat × Nat)       -- counters its completion adds to: (key, amount)
  digest : List (Nat × Byte)     -- the digest records it writes if it succeeds (R503 to R506)
  tiles : List Tile
  stationary : List Stationary
  wait : Wait
  pinned : List Nat              -- stalls a standalone stall-mode ATTEND pins (R221)
  slots : List Nat               -- batch slots whose FINISH_MARK its success sets (R281)
  signalled : Bool               -- its signal has been performed or answered (R131)
  packets : Nat                  -- write packets of a PUT, or lineage transactions, not yet answered
  began : Began
  endFlags : Flags               -- flags no tile holds, which join its summary when it succeeds (R78, R79)
  bufs : List Nat                -- bitstream buffers an ENCODE with OP 1 returns when it completes (R304)
deriving DecidableEq, Repr

/-- A lane register as filled: 512 bits and its 64-bit side-register above them (R21). -/
abbrev LaneReg := Nat

/-- What a shadow or active register set holds: command, tile and slice. -/
abbrev SliceTag := Nat × Nat × Nat

/-- What a tile walker has put in its manger for one slice of a tile, or for its readout (R25, R30, R87, Table 02-8): a command's own
and read by its own tiles alone. -/
structure MangerItem where
  tag : SliceTag
  rows : List LaneReg            -- staged input slice: its distinct rows
  weights : List LaneReg         -- weight vectors broadcast from the manger, column by column (spread mapping)
  readout : Store Acx            -- entries read out of the accumulator files: entry 256 × lane + j
deriving DecidableEq, Repr

/-- A physical stable (R10, R21, R28, R42, R43, R85). -/
structure Stable where
  service : Nat                  -- 0 active, 1 spare (powered down), 2 fenced, 3 retired, 4 out of service
  logical : Option Nat           -- its logical number
  active : List LaneReg          -- active registers, lane by lane (R21)
  shadow : List LaneReg
  activeTag : Option SliceTag
  shadowTag : Option SliceTag
  acc : Store Acx                -- accumulator files: entry 256 × lane + j
  epoch : Nat                    -- device epoch it last joined (R488)
  manger : List MangerItem       -- its 1.5 MiB manger, as its tile walker uses it (log entry 98)
deriving DecidableEq, Repr

/-- The segment partials of one output tile of a command in the partial store, as 16-byte images, row by row (R64, R158). -/
structure PartialTile where
  cmd : Nat
  prod : Nat
  row0 : Nat
  col0 : Nat
  seg : Nat
  images : List Nat
deriving DecidableEq, Repr

/-- The compute array and the commands begun. -/
structure ExecGroup where
  cmds : List Cmd                -- begun and not completed, oldest first
  nextCmd : Nat
  stables : Store Stable         -- by physical number; unlisted: as shipped (R12)
  quarterEpochs : Store Nat      -- epoch register of quarter q, in its paddock (R488)
  granted : Nat                  -- bytes of the partial store granted (R158)
  vacated : List Nat             -- logical numbers retired stables have left and no stable has taken, in the order of R43 and R44
  partials : List PartialTile    -- what the partial store holds (R158)
deriving DecidableEq, Repr

/-! ## Stall pools (chapter 08) -/

/-- One stall: its reference count, drops requested and not yet applied included, its pins and those drops (R221). -/
structure Stall where
  count : Nat
  pins : Nat
  drops : Nat
deriving DecidableEq, Repr

/-! ## Remuda (chapter 09) -/

/-- One Remuda entry: its image (Table 09-1) as a 128-byte number, and what the device holds outside it. -/
structure Entry where
  image : Nat
  order : Nat                    -- order number (R545)
  dir : Store Nat                -- stall directory: list index to stall number + 1 (R220)
  retireBy : Option Nat          -- the RETIRE command that has it pending
  heldBy : Option Nat            -- the ADMIT command that holds it (R252)
deriving DecidableEq, Repr

def Entry.free : Entry := ⟨0, 0, [], none, none⟩

/-- A running step or hand-off program (R238, R241, R256). -/
structure Run where
  id : Nat
  tenant : Nat
  pen : Nat
  handoff : Bool                 -- a hand-off batch rather than a STEP
  cmd : Option Nat               -- the STEP or RETIRE that carries it; none for an auto hand-off batch
  phase : Nat                    -- 0 waits, 1 selected and running, 2 finished
  desc : List Byte               -- the pen descriptor as read
  batch : List Nat               -- entries, by slot
  penStep : Nat
  bound : Nat                    -- bound of the selected bucket entry
  listAddr : Nat                 -- the command list
  total : Nat                    -- commands in the list
  next : Nat                     -- next command to begin
  opened : List Nat              -- list indices begun and not completed
  failed : Option (Nat × Nat × Nat)   -- lowest failing index, its status and DETAIL
  flags : Flags                  -- the summaries of the program's commands that have completed
  waitsMet : List Nat
  hold : Bool                    -- a HOLD area is in use (R248)
  appended : Option Nat          -- n of the first appending ATTEND (R220)
  layers : List (Nat × Nat)      -- stalls reserved and their list positions: (entry × 1024 + index, stall)
  copies : List (Nat × Nat)      -- copy-on-write: (old stall, new stall)
  pinned : List Nat
  dropWindow : Option Nat        -- WINDOW of an ATTEND with DROP (R221)
  spend : Store Acx              -- gate spend of slot s (R258)
  reuse : List (Nat × Nat × Nat) -- gate tiles reused: (block, slot, tile)
  holdsRoom : Bool               -- it holds room in the CQ of HANDOFF_QUEUE (R255)
  finish : List Nat              -- slots whose FINISH_MARK a TOKEN_SAMPLE set (R281)
  digest : List (Nat × Byte)     -- digest records the STEP writes if it succeeds (R505)
  origin : Nat × Nat             -- queue and SQ index of the STEP or RETIRE it belongs to
  after : Option Nat             -- the STEP whose completion an auto hand-off batch follows (R255)
  own : Flags                    -- flags of Lay out and of the gate, which no command of the program raises (R78, R240, R258)
deriving DecidableEq, Repr

/-- A RETIRE that has begun and not completed (R254). -/
structure RetireReq where
  cmd : Nat
  tenant : Nat
  entries : List Nat             -- in array order
  outs : List (List Nat)         -- bytes of each image at OUT_ADDR as translated at its beginning, none without OUT_ADDR
  handoff : Bool
  desc : List Byte
deriving DecidableEq, Repr

/-- An ADMIT that has begun and not completed (R252). -/
structure AdmitReq where
  cmd : Nat
  tenant : Nat
  images : List Nat
  shares : List (Nat × Nat)      -- (entry, parent) still to be shared at a step's boundary
deriving DecidableEq, Repr

/-- The Remuda. -/
structure RemudaGroup where
  entries : Store Entry
  penSteps : Store Nat           -- STEPs of pen p of tenant t that reached Select: key 256t + p (R238)
  runs : List Run
  nextRun : Nat
  retires : List RetireReq
  admits : List AdmitReq
  stalls : Store Stall           -- stall i of tenant t: key t × 2^20 + i
deriving DecidableEq, Repr

/-! ## Links (chapter 13) -/

/-- A flit in a replay buffer: its FSEQ, the packet it carries a part of, whether it is the packet's last flit (R347), and the packet's
share tag, none for transit. -/
structure ReplayFlit where
  fseq : Nat
  pkt : Packet
  last : Bool
  tag : Option Nat
deriving DecidableEq, Repr

/-- A Street, Avenue or lineage port (R334 to R348). Its state is in `LINK_STATE`, its peer in `LINK_PEER`. -/
structure Port where
  fails : Nat                    -- failed training attempts at width 8 (R340)
  width : Nat                    -- 8 or 4: trained, or being tried
  upper : Bool                   -- width 4 on lanes 4 to 7 (R337)
  retryArmed : Bool              -- a failed attempt waits to be repeated (R340)
  heard : Bool                   -- the peer's discovery packet has arrived since it last trained
  accepted : Bool                -- and passed the check of R341
  params : Bool                  -- link parameters have arrived since it last trained (R344)
  txSeq : Nat                    -- next FSEQ to send
  replay : List ReplayFlit       -- sent and not acknowledged, oldest first
  nakAck : Nat                   -- ACK value of the last NAK received
  nakCount : Nat                 -- NAKs in a row naming it
  rxSeq : Nat                    -- last FSEQ accepted
  rxGap : Bool                   -- discarding until the next flit in order
  sinceAck : Nat                 -- flits accepted since the last ACK sent
  credits : List Nat             -- credits held, by VC
  owed : List Nat                -- credits to return, by VC
  rxLeft : Nat                   -- slots of the packet being received that are still to come
  rxVc : Nat                     -- its virtual channel
  txq : List (Option Nat × Packet)  -- packets waiting to leave: the share tag of one this device originates, none for transit (R356, R391)
  node : Nat                     -- node identifier of a lineage peer
  mode : Nat                     -- mode a lineage port trained in
  delayNs : Nat                  -- measured link delay (R412)
deriving DecidableEq, Repr

def Port.idle : Port :=
  ⟨0, 8, false, false, false, false, false, 0, [], 0, 0, 4095, false, 0, List.replicate 16 0, List.replicate 16 0, 0, 0, [], 0, 0, 0⟩

/-! ## End-to-end streams, posts and collectives (chapter 14) -/

/-- A stream this device sends: key destination × 4 + class (R351, R371, R372). -/
structure StreamOut where
  next : Nat
  unacked : List (Nat × Packet)  -- sent and not acknowledged, oldest first, each with its share tag (R391)
  waiting : List (Nat × Packet)  -- origination waits (R371)
  interval : Nat                 -- retransmission interval as a multiple of E2E_RETX_US
deriving DecidableEq, Repr

/-- A stream this device receives: key source × 4 + class. -/
structure StreamIn where
  next : Nat                     -- next E2E_SEQ to apply
  early : List Packet            -- packets that arrived ahead of a gap, at most 256
  sinceAck : Nat
deriving DecidableEq, Repr

/-- A subscription held for another device (R367). -/
structure Sub where
  post : Nat
  threshold : Nat
  device : Nat
  waiter : Nat
deriving DecidableEq, Repr

/-- A remote wait of a command here. -/
structure RemoteWait where
  waiter : Nat                   -- its name in the subscription
  src : Src
  slot : Nat
  device : Nat
  post : Nat
  threshold : Nat
  job : Nat
  state : Nat                    -- 0 subscribed, 1 satisfied, 2 refused (R366), 3 unreachable (R368), 4 to be sent again (R367)
deriving DecidableEq, Repr

/-- A rank entry (Table 14-4). -/
structure RankEntry where
  kind : Nat
  device : Nat                   -- device + 64 × borough
  tenant : Nat
  host : Nat
  lport : Nat
  node : Nat
  arrivePost : Nat
  arriveThreshold : Nat
  inAddr : Nat
  outAddr : Nat
  signal : Nat
  signalValue : Nat
deriving DecidableEq, Repr

/-- One pull of a chunk: 0 to be sent, 1 requested, 2 landed, 3 refused and to be sent again (R380). -/
structure PullState where
  pull : Pull
  state : Nat
  slab : Slab
deriving DecidableEq, Repr

/-- A chunk of output elements and what it needs from its peers (R379). -/
structure Chunk where
  lo : Nat
  hi : Nat
  reduce : Bool                  -- its inputs are combined (R377)
  bytes : Nat                    -- staging bytes of its grant
  granted : Bool
  pulls : List PullState
  done : Bool
deriving DecidableEq, Repr

/-- A lineage rank hosted here: its contribution and how far its result has gone (R382). -/
structure Hosted where
  rank : Nat
  arrived : Bool
  inp : Slab
  unacked : Nat                  -- remote writes not yet acknowledged
  stage : Nat                    -- 0 waits for OUT, 1 writing, 2 signalled, 3 acknowledged
deriving DecidableEq, Repr

/-- A begun COLLECTIVE, or the collective of a fused command (R374 to R382). -/
structure Coll where
  cmd : Nat
  key : CollKey
  tenant : Nat
  params : CollParams
  rank : Nat
  ranks : List RankEntry
  fused : Nat                    -- 0, or FUSE_MODE
  inp : List Slab                -- what this rank serves as its input: IN, or the parts of a fused command
  outFmt : Nat
  outMode : Nat
  outSat : Bool
  outRow : Nat                   -- logical extent 0 of OUT, where block-scaled rows start
  out : List (Nat × Slab)        -- finished output elements by first index
  chunks : List Chunk
  released : List Nat            -- ranks that have released it
  hosted : List Hosted
  partials : List ((Nat × Nat × Nat) × List Acx)   -- segment partials received (R175, R216)
  from' : List Nat               -- ranks whose partials have landed
  stopped : Bool                 -- aborted (R381)
deriving DecidableEq, Repr

/-- A read request held until the matching COLLECTIVE begins, or its data exist (R379, R380). -/
structure HeldReq where
  device : Nat
  key : CollKey
  params : CollParams
  pull : Pull
  requester : Nat
deriving DecidableEq, Repr

/-- Segment partials that arrived before the command that needs them began (R175, R216). -/
structure EarlyPart where
  key : CollKey
  rank : Nat
  owner : Nat
  vals : List ((Nat × Nat × Nat) × List Acx)
  final : Bool
deriving DecidableEq, Repr

/-- Links, streams, posts and collectives. -/
structure FabricGroup where
  posts : Store Nat
  subs : List Sub
  waits : List RemoteWait
  nextWait : Nat
  ports : Store Port
  mapEpochs : Store Nat          -- last applied routing epoch of device d (R344)
  peerBoot : Store Nat           -- last seen boot epoch of device d (R373)
  streamsOut : Store StreamOut
  streamsIn : Store StreamIn
  unreachable : List Nat         -- devices declared unreachable and not heard of since (R372)
  colls : List Coll
  held : List HeldReq
  early : List EarlyPart
  outbox : List (Nat × Packet)   -- packets sent: (port, packet); port 18 is this device itself
  lineageOut : List (Nat × Thrumyo)  -- Thrumyo transactions sent: (lineage port, transaction)
  lineageWait : List (Nat × Nat × Nat) -- initiated and not answered: (lineage port, command, hosted rank + 1 or 0), oldest first
  acksSent : List (Nat × Nat × Bool) -- link-level ACKs sent: (port, ACK, NAK)
  lineageRefused : Store Nat     -- Thrumyo transactions a lineage port does not implement, received on it (R359)
deriving DecidableEq, Repr

/-! ## Ostler (chapter 18) -/

/-- A log record (Table 18-5). -/
structure LogRec where
  seq : Nat
  ev : EventRec
  time : Nat                        -- TIME_US
  epoch : Nat                       -- BOOT_EPOCH
deriving DecidableEq, Repr

/-- A firmware slot in flash (R452, R459). -/
structure FwSlot where
  shipped : Bool                    -- it holds the bundle of manufacture
  bytes : List Byte                 -- else what has been staged into it
deriving DecidableEq, Repr

/-- The management subsystem: its log and its firmware slots. -/
structure OstlerGroup where
  logBuf : List LogRec              -- records in the log's SRAM buffer, oldest first, at most 256 (R464)
  logLost : Nat                     -- records not logged for want of room there
  log : List LogRec                 -- records in flash, oldest first, at most 4,096 (R462)
  slots : List FwSlot               -- slots A and B
  session : Option Nat              -- master that owns the open staging session: 0 host administrator, 1 bus controller (R459)
deriving DecidableEq, Repr

/-- Supplies, clocks, pins, resets, gaits, rails and the faults that stop the device (chapters 18, 19 and 22). -/
structure PowerGroup where
  ostler : Nat                      -- 0 not running, 1 booted, 2 in recovery (R456), 3 stopped by a lockstep mismatch (R453)
  standby : Bool                    -- the standby rail is in range (R452)
  refclk : Bool                     -- REFCLK runs (R529, R531)
  srefclk : Bool                    -- SREFCLK runs
  rails : Nat                       -- main rails: 0 off, 1 coming on, 2 good (R476, R532)
  railsDue : Bool                   -- the rails are to come on and wait for the input to be between 48 V and 58 V (R532 step 4)
  hbmReady : Bool                   -- HBM training is complete (R532 step 6)
  pcie : Nat                        -- 0 down, 1 Detect, 2 up (R532 step 8)
  retry : Bool                      -- configuration requests are answered with Request Retry Status (R536 step 7)
  perst : Bool                      -- `PERST_n` is asserted
  mrst : Bool                       -- `MRST_n` is asserted
  rein : Bool                       -- `REIN_n` is asserted (R467)
  reinHold : Bool                   -- the 100 µs after its deassertion (R467)
  leadIn : Bool                     -- `LEAD_IN` has been high for 1 ms without a break (R429)
  leadOutLow : Bool                 -- `LEAD_OUT` is driven low (R429, R527)
  beacon : Bool                     -- no 2 ms without a PLCA BEACON have passed (R427)
  offer : Option (List Byte)        -- the offer accepted and not yet confirmed: its body (R429)
  fatals : List (Nat × Nat × Nat)   -- device-fatal faults not cleared: (event code, PARAM, cleared by: 0 `PERST_n`, 1 `MRST_n`)
  scrubs : List (Nat × Nat)         -- scrubs commands wait for: (0, stable) or (1, quarter) (R488)
  repairs : List Nat                -- stables being scrubbed for repair (R486)
  powerGait : Nat                   -- R472
  thermalGait : Nat                 -- R473
  inputGait : Nat                   -- Table 18-7
  coolantGait : Nat                 -- Table 18-7
  coolantWarn : Nat                 -- the warnings of event 0x0707 that hold: bit 0 inlet, bit 1 flow
  raising : Option (Nat × Nat)      -- an up-transition in progress: gait and cause (R466)
  walkStall : Bool                  -- no new tile is assigned (R472)
  railTenths : Store Nat            -- quarter rails in 0.1 mV (R469)
  stretched : List Nat              -- quarters whose core cycles are lengthened (R470)
  cooling : List Nat                -- quarters in cooling (R471)
  ceSince : Store Nat               -- corrections since a source's last event 0x0801: key SOURCE_KIND × 2^16 + SOURCE (R483)
deriving DecidableEq, Repr

/-! ## Tenancy and the Carousel (chapter 15) -/

/-- The pre-emption of a tenant (R397 to R405), and a reset in progress (R406). -/
structure Preempt where
  requests : Nat                    -- who holds it: bit 0 the Carousel, bit 1 `TENANT_HOLD`, bit 2 Spur kind 5
  actions : List (Nat × Nat)        -- (command, action) the live-range directory gave at the dismount points reached (R400)
  saved : Nat                       -- bytes the save area holds, 0 for no save (R402)
  late : Bool                       -- the overrun has been reported (R404)
  aborted : Nat                     -- commands a reset in progress aborts (R406)
  away : Bool                       -- it has been dismounted and not resumed since: its commands that use a stable are pre-empted (R98)
  saves : List (Nat × Nat × Nat)    -- tiles the save area holds: (command, tile, offset of its record) (R402)
  gone : List Nat                   -- pre-empted commands behind which memory of the tenant was freed: they resume without it (R98)
deriving DecidableEq, Repr

def Preempt.none : Preempt := ⟨0, [], 0, false, 0, false, [], []⟩

/-- A share-tag arbiter (R392): the tag last visited, whether its visit goes on, and the deficit counters. -/
structure Arbiter where
  last : Nat
  visiting : Bool
  deficits : Store Int
deriving DecidableEq, Repr

def Arbiter.idle : Arbiter := ⟨2047, false, []⟩

/-- Scheduling. -/
structure SchedGroup where
  preempt : Store Preempt           -- by tenant
  carEnable : Bool                  -- the Carousel in force (R411)
  carCount : Nat
  carLen : Nat                      -- the slot length in force, in 10 µs
  carTables : List Nat              -- the slot tables in force, by partition
  slot : Nat                        -- the current slot
  fresh : Option (Nat × Nat × Nat × Nat)  -- the copy of time a follower has adopted: frame, phase, hops, port (R412)
  offset : Int                      -- offset still to be corrected, in ns (R413)
  lost : Bool                       -- a follower has lost its time source (R413)
  lostGuarantee : Store Nat         -- partition p in mode 1 has lost its guarantee: the condition (R407)
  arbs : Store Arbiter              -- the arbiters of Table 15-1 and R356, by the numbers of Arbiter.lean
deriving DecidableEq, Repr

/-! ## Observation (chapter 20) -/

/-- An attribution entry (R499). -/
structure AttribEntry where
  key : Nat
  ns : Nat
  bytes : Nat
  commands : Nat
deriving DecidableEq, Repr

/-- A hang analysis (R513): the stalled stream, the streams here that are stalled, the posts asked of other devices, and their answers. -/
structure HangScan where
  id : Nat
  root : Src
  stalled : List Src
  asked : List (Nat × Nat)                 -- posts asked about: (device, post)
  waiting : List (Nat × Nat × Nat)         -- replies still due: (answering device, post's device, post)
  nodes : List ((Nat × Nat) × HangNode)    -- streams found to signal a post
  values : List ((Nat × Nat) × Nat × Nat)  -- values of remote posts and the tenants whose range they are in
deriving DecidableEq, Repr

/-- Trace, attribution and hang analysis. -/
structure ObsGroup where
  trace : List (List Byte)       -- buffered records, oldest first (R510)
  traceOwed : Nat                -- records dropped and not yet reported by a type 8 record
  traceDropSec : Nat             -- records dropped since the last event 0x0903
  frameSeq : Nat
  frames : List (List Byte)      -- payloads of the trace frames sent, oldest first (R509)
  attrib : Store (List AttribEntry)   -- entries of tenant t
  hangs : List HangScan          -- analyses waiting for replies (R513)
  nextHang : Nat
  quiet : List (Src × Nat)       -- streams of a report, with their head then, not analysed again until one begins a command (R514)
deriving DecidableEq, Repr

/-! ## Codec engines (chapter 11) -/

/-- An encoder's stream context (R292, R298, R301): what the previous frames of the stream left. -/
structure StreamCtx where
  codec : Nat
  profile : Nat
  nref : Nat
  depth : Nat
  width : Nat
  height : Nat
  colour : Nat
  rc : Nat
  bitrate : Nat
  maxBitrate : Nat
  vbv : Nat
  fullness : Nat
  frames : Nat
  total : Nat
  prev : Option (Nat × Nat × Nat)    -- qp_prev, bytes_prev, cplx_prev
  number : Nat                       -- frames coded since INIT
  sinceKey : Nat                     -- frames since the last key frame
  refs : Nat                         -- the reference pictures, as a number only the engines know
deriving DecidableEq, Repr

/-- A decoded frame: what fixes its samples, and its size and depth. -/
structure DecFrame where
  key : List Nat
  width : Nat
  height : Nat
  depth : Nat
  sampling : List (Nat × Nat)        -- sampling factors of a JPEG image's components
deriving DecidableEq, Repr

/-- A decoder's context (R305, R306). -/
structure DecCtx where
  codec : Nat
  refs : Nat
  wait : List DecFrame               -- decoded and not yet ready for output
  held : List DecFrame               -- ready and not yet output, oldest first
  size : Option (Nat × Nat)          -- the previous frame's coded size, none after INIT
deriving DecidableEq, Repr

/-- What a coded or decoded frame leaves its context, committed when its command completes (R296), and the buffers its bitstream fills. -/
structure CodecDone where
  enc : Option StreamCtx
  dec : Option DecCtx
  keep : List Nat
deriving DecidableEq, Repr

/-- A frame command that has begun (R292, R293, R303, R305): what it read at its beginning, the buffers it reserved, its engine. -/
structure CodecJob where
  cmd : Nat
  tenant : Nat
  enc : Bool
  ctx : Nat                          -- its context's address, 0 for none
  cfg : List Byte
  frame : List Byte                  -- the frame descriptor
  roi : List Byte
  bufs : List Nat
  ready : Bool                       -- past the wait for its context and buffers
  engine : Option Nat
  requester : Nat                    -- its requester identifier (R303)
  done : Option CodecDone            -- its frame is coded or decoded
deriving DecidableEq, Repr

/-- The codec engines and their pools. -/
structure CodecGroup where
  streams : Store StreamCtx          -- by tenant × 2^57 + address
  decs : Store DecCtx
  jobs : List CodecJob               -- in begin order
  bufs : Store Nat                   -- buffer b of tenant t, key t × 2^17 + b: 0 free, 1 reserved, 2 held, 3 held and named by a release (R304)
  down : List Nat                    -- engines out of service: encoders 0 to 3, decoders 4 and 5 (R492)
deriving DecidableEq, Repr

/-! ## The module -/

/-- Why a step faults. Nothing does: what the spec says of an access the module refuses is itself an effect (a register write ignored, a
command that fails, an item's status), and every register and every byte reads as something. -/
inductive Fault where
deriving DecidableEq, Repr

/-- Why a step is refused. -/
inductive Refusal where
  /-- A row that has no meaning yet; raised by `exec` alone. Safe: the step does not happen. -/
  | notModelled (mnemonic : String)
deriving DecidableEq, Repr

/-- The state of the module. `freeCount` is the model's own: the index of the next free value (log entry 2). `pending` holds the rows
that wait, first in, first out. -/
structure State where
  mem : MemGroup
  queues : Store Queue
  regs : RegGroup
  dict : DictGroup
  exec : ExecGroup
  remuda : RemudaGroup
  ostler : OstlerGroup
  power : PowerGroup
  sched : SchedGroup
  fabric : FabricGroup
  obs : ObsGroup
  codec : CodecGroup
  freeCount : Nat
  pending : List Instr
deriving DecidableEq, Repr

/-! ## Reset -/

def MemGroup.reset : MemGroup := ⟨[], [], [], [], [], [], [], [], []⟩
def RegGroup.reset : RegGroup := ⟨false, false, 0, 0, 0, 0, 0, 0, 0, true, 0, 0, [], Mailbox.idle, [], [], []⟩
def DictGroup.reset : DictGroup := ⟨[], [], [], 1, [], [], [], []⟩
def ExecGroup.reset : ExecGroup := ⟨[], 0, [], [], 0, [], []⟩
def RemudaGroup.reset : RemudaGroup := ⟨[], [], [], 0, [], [], []⟩
def OstlerGroup.reset : OstlerGroup := ⟨[], 0, [], [⟨true, []⟩, ⟨true, []⟩], none⟩

/-- 54 V applied: the standby rail in range and both references running, the Ostler not yet booted, the main rails off, and each pin at the
level its board resistor gives (Tables 22-5 and 22-8). -/
def PowerGroup.reset : PowerGroup :=
  { ostler := 0, standby := true, refclk := true, srefclk := true, rails := 0, railsDue := false, hbmReady := false, pcie := 0, retry := false,
    perst := true, mrst := false, rein := false, reinHold := false, leadIn := false, leadOutLow := true, beacon := true, offer := none,
    fatals := [], scrubs := [], repairs := [], powerGait := 3, thermalGait := 3, inputGait := 3, coolantGait := 3, coolantWarn := 0, raising := none, walkStall := false,
    railTenths := [], stretched := [], cooling := [], ceSince := [] }

def SchedGroup.reset : SchedGroup := ⟨[], false, 1, 100, List.replicate 8 (2 ^ 4096 - 1), 0, none, 0, false, [], []⟩
def FabricGroup.reset : FabricGroup := ⟨[], [], [], 0, [], [], [], [], [], [], [], [], [], [], [], [], [], []⟩
def ObsGroup.reset : ObsGroup := ⟨[], 0, 0, 0, [], [], [], 0, []⟩
def CodecGroup.reset : CodecGroup := ⟨[], [], [], [], []⟩

/-- The module as it left manufacture, at the moment 54 V is applied: every object at its default, nothing stored (log entry 13). -/
def State.reset : State :=
  { mem := MemGroup.reset, queues := [], regs := RegGroup.reset, dict := DictGroup.reset, exec := ExecGroup.reset,
    remuda := RemudaGroup.reset, ostler := OstlerGroup.reset, power := PowerGroup.reset, sched := SchedGroup.reset,
    fabric := FabricGroup.reset, obs := ObsGroup.reset, codec := CodecGroup.reset, freeCount := 0, pending := [] }

end Sys2Proof.Machine
end

