-- ==== Sys2Proof/Machine/Dict.lean ====
section
/-! DEFINITION. The object dictionary: every object of Tables 17-3 to 17-9 with its type, access, rights, authority, default and
persistence (R441, R442), the number each is stored under, and the reading and writing of a stored value. -/

namespace Sys2Proof.Machine

/-- A row of Tables 17-3 to 17-9 (R416 to R419). `typ` is the code of Table 16-1 and `len` the value's bytes; `acc`: 0 RO, 1 RW,
2 WO, 3 RWT, 4 RWS; `rights`: 1 host administrator, 2 bus controller, 4 tenant, 8 service; `auth`: 0 Shared, 1 Host, 2 Bus. -/
structure ObjDef where
  index : Nat
  sub0 : Nat
  sub1 : Nat
  typ : Nat
  len : Nat
  acc : Nat
  rights : Nat
  auth : Nat
  dflt : Nat
  flash : Bool
deriving DecidableEq, Repr

/-! ## The number of each object -/

def oTackProtocolVersion : Nat := 0x100000
def oModuleSerial : Nat := 0x100100
def oHalterMac : Nat := 0x100200
def oPartNumber : Nat := 0x100300
def oDieStepping (i : Nat) : Nat := 0x100401 + i
def oBuildCode : Nat := 0x100500
def oHalterPlcaNode : Nat := 0x101000
def oHalterControllerAddr : Nat := 0x101100
def oHalterNotifyMask : Nat := 0x101200
def oHalterRelease : Nat := 0x101300
def oAdminQueueConfig (i : Nat) : Nat := 0x110001 + i
def oAdminQueueState (i : Nat) : Nat := 0x110101 + i
def oAdminFaultInfo : Nat := 0x110200
def oTxState (i : Nat) : Nat := 0x200001 + i
def oGaitCeiling : Nat := 0x210000
def oGaitCurrent : Nat := 0x210100
def oPowerLimitW : Nat := 0x210200
def oMainRailsPolicy : Nat := 0x210300
def oMainRailsCommand : Nat := 0x210400
def oThermalMigrationEnable : Nat := 0x211000
def oCoolantInletLimitC : Nat := 0x211100
def oReinState : Nat := 0x212000
def oRootPllState : Nat := 0x220000
def oCoreClockKhz : Nat := 0x220100
def oPaddockGranulesTotal : Nat := 0x240000
def oPaddockGranulesFree (i : Nat) : Nat := 0x240101 + i
def oHbmFramesAssignable : Nat := 0x240200
def oHbmFramesFree : Nat := 0x240300
def oHbmFrameRequest : Nat := 0x240400
def oHbmFrameResult : Nat := 0x240500
def oPartitionHbmFrameLimit (i : Nat) : Nat := 0x241001 + i
def oPerstScrubPolicy : Nat := 0x242000
def oPartitionLayout : Nat := 0x2C0000
def oPartitionSchedMode (i : Nat) : Nat := 0x2C0101 + i
def oPartitionHbmReserve (i : Nat) : Nat := 0x2C0201 + i
def oAdminShare : Nat := 0x2C1000
def oDeviceShare : Nat := 0x2C1100
def oCarouselEnable : Nat := 0x2C4000
def oCarouselSlotCount : Nat := 0x2C4101
def oCarouselTimeRole : Nat := 0x2C4102
def oCarouselSlotLen : Nat := 0x2C4103
def oCarouselAvenuePort : Nat := 0x2C4104
def oCarouselSlots (i : Nat) : Nat := 0x2C4201 + i
def oCarouselFrameNumber : Nat := 0x2C4300
def oCarouselSyncState : Nat := 0x2C4400
def oTopoBoroughNumber : Nat := 0x300000
def oTopoDeviceNumber : Nat := 0x300100
def oRoutingEpoch : Nat := 0x300200
def oLinkMap : Nat := 0x300300
def oLinkTransitWeight : Nat := 0x300400
def oTopoBoroughConfirmed : Nat := 0x300500
def oLinkState (i : Nat) : Nat := 0x301001 + i
def oLinkPeer (i : Nat) : Nat := 0x301101 + i
def oLinkEnable (i : Nat) : Nat := 0x301201 + i
def oLineagePortMode (i : Nat) : Nat := 0x302001 + i
def oLineageNodeId (i : Nat) : Nat := 0x302101 + i
def oCityRoute (i : Nat) : Nat := 0x303001 + i
def oE2eRetxUs : Nat := 0x310000
def oE2eUnreachableMs : Nat := 0x310100
def oBootEpoch : Nat := 0x310200
def oLineagePortTenant (i : Nat) : Nat := 0x311001 + i
def oCodecEncoders : Nat := 0x320001
def oCodecDecoders : Nat := 0x320002
def oRngDefinitionRev : Nat := 0x330000
def oRngGaussTable : Nat := 0x330100
def oNoiseThrumyoEnable : Nat := 0x330200
def oRngProbeRequest : Nat := 0x331000
def oRngProbeResult : Nat := 0x331100
def oNumericDefinitionRev : Nat := 0x340000
def oLineageModeEnable : Nat := 0x340100
def oStableFlagsClear : Nat := 0x341000
def oDeviceEpoch : Nat := 0x350000
def oStableRetireRequest : Nat := 0x350100
def oStableRepairRequest : Nat := 0x350200
def oFatalCause : Nat := 0x350300
def oSpareAutoActivate : Nat := 0x352000
def oPaddockPatrolPeriodS : Nat := 0x353000
def oHbmPatrolPeriodS : Nat := 0x353100
def oRetiredStables : Nat := 0x354000
def oRetiredGranules (i : Nat) : Nat := 0x354101 + i
def oRetiredFrameList (i : Nat) : Nat := 0x354201 + i
def oQuartersOutOfService : Nat := 0x354300
def oHangTimeoutMs : Nat := 0x360000
def oHangReport : Nat := 0x360100
def oTraceEnable : Nat := 0x361000
def oTraceConfig : Nat := 0x361100
def oSpurProductionLock : Nat := 0x370000
def oSpurEnable : Nat := 0x370100
def oSpurConfig : Nat := 0x370200
def oSpurState : Nat := 0x370300
def oFwSlotVersion (i : Nat) : Nat := 0x380001 + i
def oFwActiveSlot : Nat := 0x380100
def oFwStageChunk : Nat := 0x380200
def oFwStageCommand : Nat := 0x380300
def oFwStageState : Nat := 0x380400
def oFwRollbackCounter : Nat := 0x380500
def oFwBehaviourDecl (i : Nat) : Nat := 0x380601 + i
def oCodecOutputDecl (i : Nat) : Nat := 0x382001 + i
def oLogCount : Nat := 0x600000
def oLogReadReq : Nat := 0x600100
def oLogRead : Nat := 0x600200
def oTenantEnable (t : Nat) : Nat := (0x4000 + t) * 256 + 0x01
def oTenantFunction (t : Nat) : Nat := (0x4000 + t) * 256 + 0x02
def oTenantPasid (t : Nat) : Nat := (0x4000 + t) * 256 + 0x03
def oTenantPartition (t : Nat) : Nat := (0x4000 + t) * 256 + 0x04
def oTenantShare (t : Nat) : Nat := (0x4000 + t) * 256 + 0x05
def oTenantSaveArea (t : Nat) : Nat := (0x4000 + t) * 256 + 0x06
def oTenantLiveRangeDir (t : Nat) : Nat := (0x4000 + t) * 256 + 0x07
def oTenantReset (t : Nat) : Nat := (0x4000 + t) * 256 + 0x08
def oTenantHold (t : Nat) : Nat := (0x4000 + t) * 256 + 0x09
def oTenantRunState (t : Nat) : Nat := (0x4000 + t) * 256 + 0x0A
def oTenantFlags (t : Nat) : Nat := (0x4000 + t) * 256 + 0x10
def oTenantPtRoot (t : Nat) : Nat := (0x4000 + t) * 256 + 0x20
def oTenantPaddockQuota (t : Nat) : Nat := (0x4000 + t) * 256 + 0x21
def oTenantPaddockRequest (t : Nat) : Nat := (0x4000 + t) * 256 + 0x22
def oTenantPaddockResult (t : Nat) : Nat := (0x4000 + t) * 256 + 0x23
def oTenantPaddockHeld (t : Nat) : Nat := (0x4000 + t) * 256 + 0x24
def oTenantTlbInvalidate (t : Nat) : Nat := (0x4000 + t) * 256 + 0x25
def oTenantFaultInfo (t : Nat) : Nat := (0x4000 + t) * 256 + 0x26
def oTenantHbmFramesHeld (t : Nat) : Nat := (0x4000 + t) * 256 + 0x27
def oTenantQueueConfig (t i : Nat) : Nat := (0x4000 + t) * 256 + 0x30 + i
def oTenantQueueState (t i : Nat) : Nat := (0x4000 + t) * 256 + 0x38 + i
def oTenantStallPoolConfig (t : Nat) : Nat := (0x4000 + t) * 256 + 0x40
def oTenantStallsFree (t : Nat) : Nat := (0x4000 + t) * 256 + 0x41
def oTenantStallsHeld (t : Nat) : Nat := (0x4000 + t) * 256 + 0x42
def oTenantStallCopies (t : Nat) : Nat := (0x4000 + t) * 256 + 0x43
def oTenantStallExhausted (t : Nat) : Nat := (0x4000 + t) * 256 + 0x44
def oTenantRemudaRange (t : Nat) : Nat := (0x4000 + t) * 256 + 0x50
def oTenantRemudaActive (t : Nat) : Nat := (0x4000 + t) * 256 + 0x51
def oTenantRemudaReadReq (t : Nat) : Nat := (0x4000 + t) * 256 + 0x52
def oTenantRemudaRead (t : Nat) : Nat := (0x4000 + t) * 256 + 0x53
def oTenantGateTiles (t : Nat) : Nat := (0x4000 + t) * 256 + 0x54
def oTenantGateReused (t : Nat) : Nat := (0x4000 + t) * 256 + 0x55
def oTenantRngSeed (t : Nat) : Nat := (0x4000 + t) * 256 + 0x60
def oTenantTokenNucleusCapped (t : Nat) : Nat := (0x4000 + t) * 256 + 0x61
def oTenantCodecPoolConfig (t : Nat) : Nat := (0x4000 + t) * 256 + 0x70
def oTenantCodecBufsFree (t : Nat) : Nat := (0x4000 + t) * 256 + 0x71
def oTenantCodecBufsHeld (t : Nat) : Nat := (0x4000 + t) * 256 + 0x72
def oTenantCodecExhausted (t : Nat) : Nat := (0x4000 + t) * 256 + 0x73
def oTenantPostRange (t : Nat) : Nat := (0x4000 + t) * 256 + 0x80
def oTenantJobId (t : Nat) : Nat := (0x4000 + t) * 256 + 0x81
def oTenantPostReadReq (t : Nat) : Nat := (0x4000 + t) * 256 + 0x82
def oTenantPostRead (t : Nat) : Nat := (0x4000 + t) * 256 + 0x83
def oTenantEngineNs (t : Nat) : Nat := (0x4000 + t) * 256 + 0x90
def oTenantPaddockBytes (t : Nat) : Nat := (0x4000 + t) * 256 + 0x91
def oTenantHbmBytes (t : Nat) : Nat := (0x4000 + t) * 256 + 0x92
def oTenantLinkBytes (t : Nat) : Nat := (0x4000 + t) * 256 + 0x93
def oTenantPreemptions (t : Nat) : Nat := (0x4000 + t) * 256 + 0x94
def oTenantSavedTiles (t : Nat) : Nat := (0x4000 + t) * 256 + 0x95
def oTenantAttribQuota (t : Nat) : Nat := (0x4000 + t) * 256 + 0xA0
def oTenantAttribReadReq (t : Nat) : Nat := (0x4000 + t) * 256 + 0xA1
def oTenantAttribRead (t : Nat) : Nat := (0x4000 + t) * 256 + 0xA2
def oTenantAttribOtherNs (t : Nat) : Nat := (0x4000 + t) * 256 + 0xA3
def oTenantCommandsCompleted (t : Nat) : Nat := (0x4000 + t) * 256 + 0xA4
def oThermalPoint (i : Nat) : Nat := 0x500001 + i
def oQuarterVoltageMv (i : Nat) : Nat := 0x500101 + i
def oInputPowerW : Nat := 0x500200
def oInputVoltageMv : Nat := 0x500300
def oCoolantTemp (i : Nat) : Nat := 0x500401 + i
def oDroopStretches : Nat := 0x500500
def oGaitResidencyMs (i : Nat) : Nat := 0x500601 + i
def oTackDuplicateRequests : Nat := 0x501000
def oTackForeignSource : Nat := 0x501100
def oQuarterActiveStables (i : Nat) : Nat := 0x502001 + i
def oQuarterSpareState (i : Nat) : Nat := 0x502101 + i
def oStableFlags (i : Nat) : Nat := 0x503001 + i
def oPaddockCeCount (i : Nat) : Nat := 0x504001 + i
def oPaddockUeCount (i : Nat) : Nat := 0x504101 + i
def oHbmCeCount (i : Nat) : Nat := 0x504201 + i
def oHbmUeCount (i : Nat) : Nat := 0x504301 + i
def oHbmStackTemp (i : Nat) : Nat := 0x504401 + i
def oPaddockRetiredGranules (i : Nat) : Nat := 0x504501 + i
def oHbmRetiredFrames : Nat := 0x504600
def oMangerCeCount (i : Nat) : Nat := 0x504701 + i
def oPartialStorePeak : Nat := 0x505000
def oPartialStoreWaits : Nat := 0x505100
def oRemudaEntriesFree : Nat := 0x506000
def oRemudaHandoffs : Nat := 0x506100
def oEncoderBlocks (i : Nat) : Nat := 0x507001 + i
def oDecoderBlocks (i : Nat) : Nat := 0x507101 + i
def oSpurInjected (i : Nat) : Nat := 0x508001 + i
def oLinkReplays (i : Nat) : Nat := 0x509001 + i
def oLinkCrcErrors (i : Nat) : Nat := 0x509101 + i
def oLinkFecCorrected (i : Nat) : Nat := 0x509201 + i
def oLinkDetourDrops : Nat := 0x509300
def oLinkTtlDrops : Nat := 0x509400
def oLinkE2eCrcDrops : Nat := 0x509500
def oRemoteSubscriptionsHeld : Nat := 0x50A000
def oE2eRetransmits : Nat := 0x50A100
def oE2eDuplicates : Nat := 0x50A200
def oCollectivesActive : Nat := 0x50A300
def oEngineNsUncharged : Nat := 0x50B000
def oPreemptOverruns : Nat := 0x50B100
def oCarouselSyncOffsetNs : Nat := 0x50B200
def oQuarterUtilisation (i : Nat) : Nat := 0x50C001 + i
def oStreetUtilisation (i : Nat) : Nat := 0x50C101 + i
def oTraceRecordsDropped : Nat := 0x50C200
def oHangsDetected : Nat := 0x50C300

/-! ## The bundle of manufacture: 1.4.x (R2, R325, R479, R480) -/

/-- MAJOR, MINOR and PATCH, the low bytes of both declarations. -/
def shippedBundle : Nat := 1 + 4 * 2 ^ 8 + Config.fwPatch % 256 * 2 ^ 16
/-- `FW_SLOT_VERSION`. -/
def shippedVersion : Nat := 1 * 2 ^ 16 + 4 * 2 ^ 8 + Config.fwPatch % 256
/-- An encoder revision: 1 in bundle 1.4.0, never 0. -/
def shippedRev (i : Nat) : Nat := if Config.fwPatch % 256 = 0 then 1 else 1 + Config.encoderRev i % (2 ^ 32 - 1)
/-- `CODEC_OUTPUT_DECL` (Table 12-4). -/
def shippedCodecDecl : Nat := shippedBundle + shippedRev 0 * 2 ^ 32 + shippedRev 1 * 2 ^ 64 + shippedRev 2 * 2 ^ 96
/-- `FW_BEHAVIOUR_DECL` (Table 18-12): revision 1 in every area. -/
def shippedBehaviourDecl : Nat := shippedBundle + ((List.range 14).map (fun i => 2 ^ (32 + 16 * i))).sum

/-! ## The tables -/

/-- Identity, communication and transactions (Tables 17-3 and 17-4). -/
def objsIdentity : List ObjDef :=
  [⟨0x1000, 0x00, 0x00, 2, 1, 0, 7, 0, 1, false⟩,
   ⟨0x1001, 0x00, 0x00, 5, 8, 0, 3, 0, Config.moduleSerial % 2 ^ 64, false⟩,
   ⟨0x1002, 0x00, 0x00, 5, 8, 0, 3, 0, Config.halterMac % 2 ^ 48, false⟩,
   ⟨0x1003, 0x00, 0x00, 9, 13, 0, 7, 0, 5331862378500742359199880401232, false⟩,
   ⟨0x1004, 0x01, 0x01, 9, 2, 0, 3, 0, 12610, false⟩,
   ⟨0x1004, 0x02, 0x02, 9, 2, 0, 3, 0, 12609, false⟩,
   ⟨0x1004, 0x03, 0x03, 9, 2, 0, 3, 0, 12865, false⟩,
   ⟨0x1005, 0x00, 0x00, 9, 6, 0, 3, 0, 55255580619074, false⟩,
   ⟨0x1010, 0x00, 0x00, 2, 1, 0, 3, 0, 0, false⟩,
   ⟨0x1011, 0x00, 0x00, 10, 16, 0, 3, 0, 0, false⟩,
   ⟨0x1012, 0x00, 0x00, 2, 1, 1, 2, 2, 0x0E, true⟩,
   ⟨0x1013, 0x00, 0x00, 4, 4, 2, 2, 2, 0, false⟩,
   ⟨0x1100, 0x01, 0x02, 10, 32, 1, 1, 1, 0, false⟩,
   ⟨0x1101, 0x01, 0x02, 4, 4, 0, 1, 1, 0, false⟩,
   ⟨0x1102, 0x00, 0x00, 10, 16, 0, 1, 1, 0, false⟩,
   ⟨0x2000, 0x01, 0x02, 10, 16, 0, 3, 0, 0, false⟩]

/-- Power, clocks and memory (Table 17-4). -/
def objsPower : List ObjDef :=
  [⟨0x2100, 0x00, 0x00, 8, 1, 1, 3, 0, 2, true⟩,
   ⟨0x2101, 0x00, 0x00, 8, 1, 0, 7, 0, 2, false⟩,
   ⟨0x2102, 0x00, 0x00, 3, 2, 1, 3, 2, 2400, true⟩,
   ⟨0x2103, 0x00, 0x00, 8, 1, 1, 2, 2, 0, true⟩,
   ⟨0x2104, 0x00, 0x00, 1, 1, 1, 3, 2, 0, false⟩,
   ⟨0x2110, 0x00, 0x00, 1, 1, 1, 3, 0, 1, true⟩,
   ⟨0x2111, 0x00, 0x00, 6, 4, 1, 3, 2, 4000, true⟩,
   ⟨0x2120, 0x00, 0x00, 1, 1, 0, 3, 0, 0, false⟩,
   ⟨0x2200, 0x00, 0x00, 8, 1, 0, 3, 0, 0, false⟩,
   ⟨0x2201, 0x00, 0x00, 4, 4, 0, 7, 0, 1800000, false⟩,
   ⟨0x2400, 0x00, 0x00, 3, 2, 0, 3, 0, 2048, false⟩,
   ⟨0x2401, 0x01, 0x08, 3, 2, 0, 3, 0, 256, false⟩,
   ⟨0x2402, 0x00, 0x00, 4, 4, 0, 3, 0, 182081, false⟩,
   ⟨0x2403, 0x00, 0x00, 4, 4, 0, 3, 0, 182081, false⟩,
   ⟨0x2404, 0x00, 0x00, 10, 16, 2, 1, 1, 0, false⟩,
   ⟨0x2405, 0x00, 0x00, 10, 16, 0, 1, 1, 0, false⟩,
   ⟨0x2410, 0x01, 0x08, 4, 4, 1, 1, 1, 182081, true⟩,
   ⟨0x2420, 0x00, 0x00, 8, 1, 1, 3, 0, 0, true⟩]

/-- Scheduling (Table 17-5). -/
def objsSched : List ObjDef :=
  [⟨0x2C00, 0x00, 0x00, 10, 8, 3, 1, 1, 0, true⟩,
   ⟨0x2C01, 0x01, 0x08, 8, 1, 3, 1, 1, 0, true⟩,
   ⟨0x2C02, 0x01, 0x08, 3, 2, 3, 1, 1, 0, true⟩,
   ⟨0x2C10, 0x00, 0x00, 3, 2, 1, 1, 1, 1000, true⟩,
   ⟨0x2C11, 0x00, 0x00, 3, 2, 0, 3, 0, 64, false⟩,
   ⟨0x2C40, 0x00, 0x00, 1, 1, 3, 3, 0, 0, true⟩,
   ⟨0x2C41, 0x01, 0x01, 3, 2, 3, 3, 0, 1, true⟩,
   ⟨0x2C41, 0x02, 0x02, 8, 1, 1, 3, 2, 0, true⟩,
   ⟨0x2C41, 0x03, 0x03, 3, 2, 3, 3, 0, 100, true⟩,
   ⟨0x2C41, 0x04, 0x04, 2, 1, 1, 3, 2, 0, true⟩,
   ⟨0x2C42, 0x01, 0x08, 10, 512, 3, 3, 0, 2 ^ 4096 - 1, true⟩,
   ⟨0x2C43, 0x00, 0x00, 5, 8, 0, 3, 0, 0, false⟩,
   ⟨0x2C44, 0x00, 0x00, 8, 1, 0, 3, 0, 0, false⟩]

/-- Links and posts (Table 17-6). -/
def objsLinks : List ObjDef :=
  [⟨0x3000, 0x00, 0x00, 2, 1, 1, 3, 2, 0, true⟩,
   ⟨0x3001, 0x00, 0x00, 2, 1, 0, 7, 0, 0xFF, false⟩,
   ⟨0x3002, 0x00, 0x00, 4, 4, 0, 3, 0, 0, false⟩,
   ⟨0x3003, 0x00, 0x00, 10, 128, 0, 3, 0, 0, false⟩,
   ⟨0x3004, 0x00, 0x00, 2, 1, 1, 3, 0, 16, true⟩,
   ⟨0x3005, 0x00, 0x00, 1, 1, 0, 3, 0, 0, false⟩,
   ⟨0x3010, 0x01, 0x12, 8, 1, 0, 3, 0, 1, false⟩,
   ⟨0x3011, 0x01, 0x10, 10, 16, 0, 3, 0, 0, false⟩,
   ⟨0x3012, 0x01, 0x10, 1, 1, 1, 3, 2, 1, true⟩,
   ⟨0x3020, 0x01, 0x02, 8, 1, 1, 3, 2, 0, true⟩,
   ⟨0x3021, 0x01, 0x02, 3, 2, 1, 3, 2, 0, true⟩,
   ⟨0x3030, 0x01, 0x40, 10, 16, 1, 3, 2, 0, true⟩,
   ⟨0x3100, 0x00, 0x00, 4, 4, 1, 3, 0, 50, true⟩,
   ⟨0x3101, 0x00, 0x00, 4, 4, 1, 3, 0, 10, true⟩,
   ⟨0x3102, 0x00, 0x00, 4, 4, 0, 3, 0, 0, false⟩,
   ⟨0x3110, 0x01, 0x02, 3, 2, 1, 1, 1, 0xFFFF, true⟩]

/-- Codecs, random numbers and numerics (Table 17-6). -/
def objsData : List ObjDef :=
  [⟨0x3200, 0x01, 0x01, 2, 1, 0, 3, 0, 4, false⟩,
   ⟨0x3200, 0x02, 0x02, 2, 1, 0, 3, 0, 2, false⟩,
   ⟨0x3300, 0x00, 0x00, 3, 2, 0, 3, 0, 1, false⟩,
   ⟨0x3301, 0x00, 0x00, 10, 1024, 0, 3, 0, Config.gaussTable % 2 ^ 8192, false⟩,
   ⟨0x3302, 0x00, 0x00, 1, 1, 1, 3, 0, 1, true⟩,
   ⟨0x3310, 0x00, 0x00, 10, 32, 2, 3, 0, 0, false⟩,
   ⟨0x3311, 0x00, 0x00, 10, 16, 0, 3, 0, 0, false⟩,
   ⟨0x3400, 0x00, 0x00, 3, 2, 0, 3, 0, 1, false⟩,
   ⟨0x3401, 0x00, 0x00, 1, 1, 1, 3, 0, 1, true⟩,
   ⟨0x3410, 0x00, 0x00, 2, 1, 2, 1, 1, 0, false⟩]

/-- Reliability, observation, Spur unit and firmware (Table 17-7). -/
def objsRel : List ObjDef :=
  [⟨0x3500, 0x00, 0x00, 4, 4, 0, 3, 0, 0, false⟩,
   ⟨0x3501, 0x00, 0x00, 2, 1, 2, 3, 0, 0, false⟩,
   ⟨0x3502, 0x00, 0x00, 2, 1, 2, 8, 0, 0, false⟩,
   ⟨0x3503, 0x00, 0x00, 4, 4, 0, 3, 0, 0, false⟩,
   ⟨0x3520, 0x00, 0x00, 1, 1, 1, 3, 0, 1, true⟩,
   ⟨0x3530, 0x00, 0x00, 4, 4, 1, 3, 0, 600, true⟩,
   ⟨0x3531, 0x00, 0x00, 4, 4, 1, 3, 0, 86400, true⟩,
   ⟨0x3540, 0x00, 0x00, 10, 17, 0, 3, 0, 0, true⟩,
   ⟨0x3541, 0x01, 0x08, 10, 32, 0, 3, 0, 0, true⟩,
   ⟨0x3542, 0x01, 0x40, 10, 1024, 0, 3, 0, 2 ^ 8192 - 1, true⟩,
   ⟨0x3543, 0x00, 0x00, 2, 1, 0, 3, 0, 0, true⟩,
   ⟨0x3600, 0x00, 0x00, 4, 4, 1, 3, 0, 1000, true⟩,
   ⟨0x3601, 0x00, 0x00, 10, 1024, 0, 3, 0, 0, false⟩,
   ⟨0x3610, 0x00, 0x00, 1, 1, 1, 3, 0, 0, false⟩,
   ⟨0x3611, 0x00, 0x00, 10, 16, 1, 3, 0, 0, false⟩,
   ⟨0x3700, 0x00, 0x00, 1, 1, 4, 11, 0, 0, true⟩,
   ⟨0x3701, 0x00, 0x00, 1, 1, 1, 3, 0, 0, false⟩,
   ⟨0x3702, 0x00, 0x00, 10, 48, 1, 3, 0, 0, false⟩,
   ⟨0x3703, 0x00, 0x00, 8, 1, 0, 3, 0, 0, false⟩,
   ⟨0x3800, 0x01, 0x02, 4, 4, 0, 3, 0, shippedVersion, false⟩,
   ⟨0x3801, 0x00, 0x00, 8, 1, 0, 3, 0, 0, false⟩,
   ⟨0x3802, 0x00, 0x00, 10, 1024, 2, 3, 0, 0, false⟩,
   ⟨0x3803, 0x00, 0x00, 8, 1, 2, 3, 0, 0, false⟩,
   ⟨0x3804, 0x00, 0x00, 8, 1, 0, 3, 0, 0, false⟩,
   ⟨0x3805, 0x00, 0x00, 4, 4, 0, 3, 0, Config.fwRollback % 2 ^ 32, true⟩,
   ⟨0x3806, 0x01, 0x01, 10, 32, 0, 7, 0, shippedBehaviourDecl, false⟩,
   ⟨0x3806, 0x02, 0x02, 10, 32, 0, 7, 0, 0, false⟩,
   ⟨0x3820, 0x01, 0x01, 10, 32, 0, 7, 0, shippedCodecDecl, false⟩,
   ⟨0x3820, 0x02, 0x02, 10, 32, 0, 7, 0, 0, false⟩]

/-- Per-tenant objects, index 0x4000 + t (Table 17-8). -/
def objsTenant : List ObjDef :=
  [⟨0x4000, 0x01, 0x01, 1, 1, 1, 1, 1, 0, false⟩,
   ⟨0x4000, 0x02, 0x02, 3, 2, 1, 1, 1, 0, false⟩,
   ⟨0x4000, 0x03, 0x03, 4, 4, 1, 1, 1, 0, false⟩,
   ⟨0x4000, 0x04, 0x04, 2, 1, 1, 1, 1, 0, false⟩,
   ⟨0x4000, 0x05, 0x05, 3, 2, 1, 1, 1, 100, false⟩,
   ⟨0x4000, 0x06, 0x06, 10, 16, 1, 1, 1, 0, false⟩,
   ⟨0x4000, 0x07, 0x07, 5, 8, 1, 5, 1, 0, false⟩,
   ⟨0x4000, 0x08, 0x08, 4, 4, 2, 5, 1, 0, false⟩,
   ⟨0x4000, 0x09, 0x09, 1, 1, 1, 1, 1, 0, false⟩,
   ⟨0x4000, 0x0A, 0x0A, 8, 1, 0, 5, 1, 0, false⟩,
   ⟨0x4000, 0x10, 0x10, 2, 1, 1, 5, 1, 0, false⟩,
   ⟨0x4000, 0x20, 0x20, 5, 8, 1, 1, 1, 0, false⟩,
   ⟨0x4000, 0x21, 0x21, 3, 2, 1, 1, 1, 0, false⟩,
   ⟨0x4000, 0x22, 0x22, 10, 16, 2, 5, 1, 0, false⟩,
   ⟨0x4000, 0x23, 0x23, 10, 16, 0, 5, 1, 0, false⟩,
   ⟨0x4000, 0x24, 0x24, 3, 2, 0, 5, 1, 0, false⟩,
   ⟨0x4000, 0x25, 0x25, 5, 8, 2, 1, 1, 0, false⟩,
   ⟨0x4000, 0x26, 0x26, 10, 16, 0, 5, 1, 0, false⟩,
   ⟨0x4000, 0x27, 0x27, 4, 4, 0, 5, 1, 0, false⟩,
   ⟨0x4000, 0x30, 0x37, 10, 32, 1, 5, 1, 0, false⟩,
   ⟨0x4000, 0x38, 0x3F, 4, 4, 0, 5, 1, 0, false⟩,
   ⟨0x4000, 0x40, 0x40, 10, 32, 1, 1, 1, 0, false⟩,
   ⟨0x4000, 0x41, 0x41, 4, 4, 0, 5, 1, 0, false⟩,
   ⟨0x4000, 0x42, 0x42, 4, 4, 0, 5, 1, 0, false⟩,
   ⟨0x4000, 0x43, 0x43, 5, 8, 0, 5, 1, 0, false⟩,
   ⟨0x4000, 0x44, 0x44, 4, 4, 0, 5, 1, 0, false⟩,
   ⟨0x4000, 0x50, 0x50, 4, 4, 1, 1, 1, 0, false⟩,
   ⟨0x4000, 0x51, 0x51, 3, 2, 0, 5, 1, 0, false⟩,
   ⟨0x4000, 0x52, 0x52, 3, 2, 2, 5, 1, 0, false⟩,
   ⟨0x4000, 0x53, 0x53, 10, 128, 0, 5, 1, 0, false⟩,
   ⟨0x4000, 0x54, 0x54, 5, 8, 0, 5, 1, 0, false⟩,
   ⟨0x4000, 0x55, 0x55, 5, 8, 0, 5, 1, 0, false⟩,
   ⟨0x4000, 0x60, 0x60, 5, 8, 1, 5, 1, 0, false⟩,
   ⟨0x4000, 0x61, 0x61, 5, 8, 0, 5, 1, 0, false⟩,
   ⟨0x4000, 0x70, 0x70, 10, 32, 1, 1, 1, 0, false⟩,
   ⟨0x4000, 0x71, 0x71, 4, 4, 0, 5, 1, 0, false⟩,
   ⟨0x4000, 0x72, 0x72, 4, 4, 0, 5, 1, 0, false⟩,
   ⟨0x4000, 0x73, 0x73, 4, 4, 0, 5, 1, 0, false⟩,
   ⟨0x4000, 0x80, 0x80, 5, 8, 1, 1, 1, 0, false⟩,
   ⟨0x4000, 0x81, 0x81, 4, 4, 1, 1, 1, 0, false⟩,
   ⟨0x4000, 0x82, 0x82, 4, 4, 2, 5, 1, 0, false⟩,
   ⟨0x4000, 0x83, 0x83, 10, 16, 0, 5, 1, 0, false⟩,
   ⟨0x4000, 0x90, 0x90, 5, 8, 0, 5, 1, 0, false⟩,
   ⟨0x4000, 0x91, 0x91, 5, 8, 0, 5, 1, 0, false⟩,
   ⟨0x4000, 0x92, 0x92, 5, 8, 0, 5, 1, 0, false⟩,
   ⟨0x4000, 0x93, 0x93, 5, 8, 0, 5, 1, 0, false⟩,
   ⟨0x4000, 0x94, 0x94, 4, 4, 0, 5, 1, 0, false⟩,
   ⟨0x4000, 0x95, 0x95, 5, 8, 0, 5, 1, 0, false⟩,
   ⟨0x4000, 0xA0, 0xA0, 4, 4, 1, 1, 1, 0, false⟩,
   ⟨0x4000, 0xA1, 0xA1, 4, 4, 2, 5, 1, 0, false⟩,
   ⟨0x4000, 0xA2, 0xA2, 10, 32, 0, 5, 1, 0, false⟩,
   ⟨0x4000, 0xA3, 0xA3, 5, 8, 0, 5, 1, 0, false⟩,
   ⟨0x4000, 0xA4, 0xA4, 5, 8, 0, 5, 1, 0, false⟩]

/-- Telemetry (Table 17-9). -/
def objsTelemetry : List ObjDef :=
  [⟨0x5000, 0x01, 0x60, 6, 4, 0, 3, 0, 0, false⟩,
   ⟨0x5001, 0x01, 0x08, 3, 2, 0, 3, 0, 0, false⟩,
   ⟨0x5002, 0x00, 0x00, 3, 2, 0, 3, 0, 0, false⟩,
   ⟨0x5003, 0x00, 0x00, 4, 4, 0, 3, 0, 0, false⟩,
   ⟨0x5004, 0x01, 0x02, 6, 4, 0, 3, 0, 0, false⟩,
   ⟨0x5005, 0x00, 0x00, 5, 8, 0, 3, 0, 0, false⟩,
   ⟨0x5006, 0x01, 0x04, 5, 8, 0, 3, 0, 0, false⟩,
   ⟨0x5010, 0x00, 0x00, 4, 4, 0, 3, 0, 0, false⟩,
   ⟨0x5011, 0x00, 0x00, 4, 4, 0, 3, 0, 0, false⟩,
   ⟨0x5020, 0x01, 0x08, 2, 1, 0, 3, 0, 16, false⟩,
   ⟨0x5021, 0x01, 0x08, 8, 1, 0, 3, 0, 0, false⟩,
   ⟨0x5030, 0x01, 0x80, 2, 1, 0, 3, 0, 0, false⟩,
   ⟨0x5040, 0x01, 0x08, 4, 4, 0, 3, 0, 0, false⟩,
   ⟨0x5041, 0x01, 0x08, 4, 4, 0, 3, 0, 0, false⟩,
   ⟨0x5042, 0x01, 0x08, 4, 4, 0, 3, 0, 0, false⟩,
   ⟨0x5043, 0x01, 0x08, 4, 4, 0, 3, 0, 0, false⟩,
   ⟨0x5044, 0x01, 0x08, 6, 4, 0, 3, 0, 0, false⟩,
   ⟨0x5045, 0x01, 0x08, 3, 2, 0, 3, 0, 0, false⟩,
   ⟨0x5046, 0x00, 0x00, 4, 4, 0, 3, 0, 0, false⟩,
   ⟨0x5047, 0x01, 0x80, 4, 4, 0, 3, 0, 0, false⟩,
   ⟨0x5050, 0x00, 0x00, 4, 4, 0, 3, 0, 0, false⟩,
   ⟨0x5051, 0x00, 0x00, 4, 4, 0, 3, 0, 0, false⟩,
   ⟨0x5060, 0x00, 0x00, 3, 2, 0, 3, 0, 4096, false⟩,
   ⟨0x5061, 0x00, 0x00, 5, 8, 0, 3, 0, 0, false⟩,
   ⟨0x5070, 0x01, 0x04, 5, 8, 0, 3, 0, 0, false⟩,
   ⟨0x5071, 0x01, 0x02, 5, 8, 0, 3, 0, 0, false⟩,
   ⟨0x5080, 0x01, 0x08, 5, 8, 0, 3, 0, 0, false⟩,
   ⟨0x5090, 0x01, 0x12, 5, 8, 0, 3, 0, 0, false⟩,
   ⟨0x5091, 0x01, 0x12, 5, 8, 0, 3, 0, 0, false⟩,
   ⟨0x5092, 0x01, 0x12, 5, 8, 0, 3, 0, 0, false⟩,
   ⟨0x5093, 0x00, 0x00, 4, 4, 0, 3, 0, 0, false⟩,
   ⟨0x5094, 0x00, 0x00, 4, 4, 0, 3, 0, 0, false⟩,
   ⟨0x5095, 0x00, 0x00, 4, 4, 0, 3, 0, 0, false⟩,
   ⟨0x50A0, 0x00, 0x00, 3, 2, 0, 3, 0, 0, false⟩,
   ⟨0x50A1, 0x00, 0x00, 5, 8, 0, 3, 0, 0, false⟩,
   ⟨0x50A2, 0x00, 0x00, 5, 8, 0, 3, 0, 0, false⟩,
   ⟨0x50A3, 0x00, 0x00, 3, 2, 0, 3, 0, 0, false⟩,
   ⟨0x50B0, 0x00, 0x00, 5, 8, 0, 3, 0, 0, false⟩,
   ⟨0x50B1, 0x00, 0x00, 4, 4, 0, 3, 0, 0, false⟩,
   ⟨0x50B2, 0x00, 0x00, 6, 4, 0, 3, 0, 0, false⟩,
   ⟨0x50C0, 0x01, 0x08, 3, 2, 0, 3, 0, 0, false⟩,
   ⟨0x50C1, 0x01, 0x0C, 3, 2, 0, 3, 0, 0, false⟩,
   ⟨0x50C2, 0x00, 0x00, 5, 8, 0, 3, 0, 0, false⟩,
   ⟨0x50C3, 0x00, 0x00, 4, 4, 0, 3, 0, 0, false⟩]

/-- The log (Table 17-7). -/
def objsLog : List ObjDef :=
  [⟨0x6000, 0x00, 0x00, 3, 2, 0, 3, 0, 0, true⟩,
   ⟨0x6001, 0x00, 0x00, 3, 2, 2, 3, 0, 0, false⟩,
   ⟨0x6002, 0x00, 0x00, 10, 32, 0, 3, 0, 0, false⟩]

/-- The rows an index can be found in (Table 17-2). -/
def objTable (index : Nat) : List ObjDef :=
  if index < 0x2100 then objsIdentity
  else if index < 0x2C00 then objsPower
  else if index < 0x3000 then objsSched
  else if index < 0x3200 then objsLinks
  else if index < 0x3500 then objsData
  else if index < 0x4000 then objsRel
  else if index < 0x4400 then objsTenant
  else if index < 0x6000 then objsTelemetry
  else objsLog

/-- The index a row is listed under: every tenant's objects are listed once (R449). -/
def listedIndex (index : Nat) : Nat := if 0x4000 ≤ index ∧ index < 0x4400 then 0x4000 else index

/-- The row of an object, none where the dictionary has no such object (R441). -/
def objDef? (index sub : Nat) : Option ObjDef :=
  (objTable index).find? (fun d => d.index == listedIndex index && decide (d.sub0 ≤ sub) && decide (sub ≤ d.sub1))

def keyIndex (key : Nat) : Nat := key / 256
def keySub (key : Nat) : Nat := key % 256

/-- The default value of an object (R442). -/
def objDefault (key : Nat) : Nat :=
  match objDef? (keyIndex key) (keySub key) with
  | some d => d.dflt
  | none => 0

/-- The stored value of an object. -/
def DictGroup.val (d : DictGroup) (key : Nat) : Nat := Store.get (objDefault key) d.vals key

/-- Store a value, without counting a write. -/
def DictGroup.setVal (d : DictGroup) (key v : Nat) : DictGroup := { d with vals := Store.set (objDefault key) d.vals key v }

/-- The write-sequence number of an object (R420). -/
def DictGroup.seq (d : DictGroup) (key : Nat) : Nat := Store.get 0 d.seqs key

/-- Count one applied write (R420). -/
def DictGroup.bump (d : DictGroup) (key : Nat) : DictGroup := { d with seqs := Store.set 0 d.seqs key ((Store.get 0 d.seqs key + 1) % 2 ^ 64) }

/-- Give an object a write-sequence number. -/
def DictGroup.setSeq (d : DictGroup) (key n : Nat) : DictGroup := { d with seqs := Store.set 0 d.seqs key n }

/-- The value of an object. -/
def State.obj (s : State) (key : Nat) : Nat := s.dict.val key

/-- Set an object the device itself maintains. -/
def State.setObj (s : State) (key v : Nat) : State := { s with dict := s.dict.setVal key v }

/-- The value bits of an object's type. -/
def objBits (key : Nat) : Nat :=
  match objDef? (keyIndex key) (keySub key) with
  | some d => 8 * d.len
  | none => 64

/-- Add to a counter, which saturates at its type's maximum (R450). -/
def State.count (s : State) (key n : Nat) : State := s.setObj key (satAdd (objBits key) (s.obj key) n)

/-- An applied write: the value and the write-sequence number (R420). -/
def State.writeObj (s : State) (key v : Nat) : State := { s with dict := (s.dict.setVal key v).bump key }

/-- A result object takes its value, and the write-sequence number of its request (R451). -/
def State.answerObj (s : State) (res v seq : Nat) : State := { s with dict := (s.dict.setVal res v).setSeq res seq }

end Sys2Proof.Machine
end

