-- ==== Sys2Proof/Machine/Ops.lean ====
section
/-! DEFINITION. The named operations over memory (chapter 04), over the registers of a function (chapter 05) and over the event
queue and the log (R142, R144, R146, R438). -/

namespace Sys2Proof.Machine

/-! ## Physical numbers

One store holds every byte the device can reach: HBM at its physical address, the paddocks granule by granule, and host memory by
function or PASID. -/

/-- HBM in all: 384 GB (R85). -/
def hbmBytes : Nat := 384000000000
/-- A 2 MiB frame (R100). -/
def frameBytes : Nat := 2 ^ 21
/-- Frames 0 to 182,080 are assignable (R100). -/
def assignableFrames : Nat := 182081
/-- Byte `off` of granule `g` = 256 × quarter + granule. -/
def paddockKey (g off : Nat) : Nat := 2 ^ 60 + g * 2 ^ 20 + off
/-- Host bus address `a` under PASID p (p = 0: the physical function, else PASID + 1). -/
def hostKey (p a : Nat) : Nat := 2 ^ 64 * (p + 1) + a

/-- The owner code of a free frame or granule, and of the host administrator (R100). -/
def ownerFree : Nat := 0x400
def ownerAdmin : Nat := 0x401

/-- The line a byte lies in (R110). -/
def lineOf (k : Nat) : Nat := k / 64

/-- One byte of memory; a byte nothing has written reads as zero (R99, R101; log entry 5). -/
def MemGroup.read (m : MemGroup) (k : Nat) : Byte := Store.get 0 m.bytes k

/-- n bytes from number k up. -/
def MemGroup.readN (m : MemGroup) : Nat → Nat → List Byte
  | _, 0 => []
  | k, n + 1 => m.read k :: MemGroup.readN m (k + 1) n

/-- The memory's one canonical form: numbers strictly rising, and no entry equal to what an unlisted byte reads as. -/
def MemGroup.wf (m : MemGroup) : Bool := Store.wf 0 m.bytes

/-- Write one byte. -/
def MemGroup.write (m : MemGroup) (k : Nat) (b : Byte) : MemGroup := { m with bytes := Store.set 0 m.bytes k b }

/-- Apply a list of byte writes in order. -/
def MemGroup.writeCells (m : MemGroup) : List (Nat × Byte) → MemGroup
  | [] => m
  | (k, b) :: rest => MemGroup.writeCells (m.write k b) rest

/-- A line is cleared of poison when one write covers all 64 of its bytes (R110). -/
def coversLine (cells : List (Nat × Byte)) (line : Nat) : Bool :=
  (List.range 64).all (fun i => cells.any (fun c => c.1 == 64 * line + i))

/-- The output of a command, or of one transfer, written to memory. Where elements of an output overlap without a zero stride, the spec gives
no values: the later cell stands (log entry 107). -/
def MemGroup.store (m : MemGroup) (cells : List (Nat × Byte)) : MemGroup :=
  let m' := m.writeCells cells
  { m' with poison := m.poison.filter (fun l => !coversLine cells l) }

/-- Zero every byte with a number in [lo, hi), and its poison with it: zeroing writes whole lines (R99, R101). -/
def MemGroup.zero (m : MemGroup) (lo hi : Nat) : MemGroup :=
  { m with bytes := m.bytes.filter (fun c => decide (c.1 < lo) || decide (hi ≤ c.1)),
           poison := m.poison.filter (fun l => decide (64 * l < lo) || decide (hi ≤ 64 * l)) }

/-- Consecutive bytes as cells. -/
def cellsAt (k : Nat) : List Byte → List (Nat × Byte)
  | [] => []
  | b :: bs => (k, b) :: cellsAt (k + 1) bs

def MemGroup.frameOwnerOf (m : MemGroup) (pa : Nat) : Nat :=
  if pa / frameBytes < assignableFrames then Store.get ownerFree m.frameOwner (pa / frameBytes) else 0x402

def MemGroup.poisoned (m : MemGroup) (k : Nat) : Bool := m.poison.contains (lineOf k)

def MemGroup.hostAborts (m : MemGroup) (k : Nat) : Bool := m.hostAbort.any (fun r => decide (r.1 ≤ k) && decide (k < r.2))

/-! ## Translation (R92, R102 to R104, R118) -/

/-- Whose addresses are meant: a tenant's, or none for the administrative queues (R117). -/
abbrev Ctx := Option Nat

/-- The level tag of a fault at the level whose index field is `shift` bits up: 4 for L4 down to 0 for L0 (R104). -/
def levelOf (shift : Nat) : Nat := (shift - 12) / 9

/-- One page-table entry at a physical address, checked against the table's owner and its poison (R102, R103). -/
def readPte (m : MemGroup) (va level table idx size : Nat) : Except AccFault Nat :=
  if m.frameOwnerOf table ≠ ownerAdmin ∨ m.frameOwnerOf (table + size - 1) ≠ ownerAdmin then .error ⟨3, va, level⟩
  else
    let a := table + 8 * idx
    if m.poisoned a then .error ⟨7, va, 0xFF⟩
    else .ok (ofLe (m.readN a 8))

/-- Table 04-10 for an entry that names a table (levels 4 to 1): LEAF, W, TARGET and the reserved bits are zero and the table is
aligned to its size. -/
def nonLeafOk (e size : Nat) : Bool :=
  !bit e 1 && !bit e 2 && !bit e 3 && bits e 4 2 == 0 && bits e 6 2 == 0 && bits e 56 8 == 0 && (bits e 8 48 * 256) % size == 0

/-- Table 04-10 for a leaf of 2^sz bytes: TARGET 0 or 2, reserved bits zero, page aligned. -/
def leafOk (e sz : Nat) : Bool :=
  bit e 1 && !bit e 3 && (bits e 4 2 == 0 || bits e 4 2 == 2) && bits e 6 2 == 0 && bits e 56 8 == 0
    && (bits e 8 48 * 256) % 2 ^ sz == 0

/-- A leaf entry's target: the physical number of the byte (R102, R103 types 2, 3 and 8). A leaf that meets several conditions faults with
type 4 before 3 and 3 before 2: R103 gives no order (log entry 100). -/
def leafTarget (m : MemGroup) (t pasid : Nat) (write : Bool) (va level e sz : Nat) : Except AccFault Nat :=
  let a := bits e 8 48 * 256 + va % 2 ^ sz
  if !leafOk e sz then .error ⟨4, va, level⟩
  else if bits e 4 2 == 0 && m.frameOwnerOf a != t then .error ⟨3, va, level⟩
  else if write && !bit e 2 then .error ⟨2, va, level⟩
  else if bits e 4 2 == 2 then
    (if m.hostAborts (hostKey (pasid + 1) a) then .error ⟨8, va, 0xFF⟩ else .ok (hostKey (pasid + 1) a))
  else .ok a

/-- The walk below L4 to L2: the entry is valid and names a table of `size` bytes. -/
def nextTable (va level e size : Nat) : Except AccFault Nat :=
  if !bit e 0 then .error ⟨1, va, level⟩
  else if !nonLeafOk e size then .error ⟨4, va, level⟩
  else .ok (bits e 8 48 * 256)

/-- The page walk of a tenant's VA[56] = 0 address (R102, R103). -/
def walkPages (m : MemGroup) (t pasid root : Nat) (write : Bool) (va : Nat) : Except AccFault Nat :=
  if root = 0 then .error ⟨1, va, 0xFF⟩
  else do
    let e4 ← readPte m va 4 root (bits va 48 8) 2048
    let t3 ← nextTable va 4 e4 4096
    let e3 ← readPte m va 3 t3 (bits va 39 9) 4096
    let t2 ← nextTable va 3 e3 4096
    let e2 ← readPte m va 2 t2 (bits va 30 9) 4096
    let t1 ← nextTable va 2 e2 4096
    let e1 ← readPte m va 1 t1 (bits va 21 9) 4096
    if !bit e1 0 then .error ⟨1, va, 1⟩
    else if bit e1 1 then leafTarget m t pasid write va 1 e1 21
    else do
      let t0 ← nextTable va 1 e1 256
      let e0 ← readPte m va 0 t0 (bits va 16 5) 256
      if !bit e0 0 then .error ⟨1, va, 0⟩ else leafTarget m t pasid write va 0 e0 16

/-- The granules behind a window slot of a tenant, none where the slot is not allocated (R93, R103 type 5). -/
def slotGranules (m : MemGroup) (t slot : Nat) : Option (List Nat) :=
  match (Store.get [] m.allocs t).find? (fun a => decide (a.base ≤ slot) && decide (slot < a.base + a.count)) with
  | some a => a.map[slot - a.base]?
  | none => none

/-- The physical numbers behind an address: one for a read, every replica for a write (R94, R103, R118). -/
def State.resolve (s : State) (c : Ctx) (write : Bool) (va : Nat) : Except AccFault (List Nat) :=
  if 2 ^ 57 ≤ va then .error ⟨6, va, 0xFF⟩
  else match c with
    | none =>
      if bit va 56 then
        (if s.mem.hostAborts (hostKey 0 (va % 2 ^ 56)) then .error ⟨8, va, 0xFF⟩ else .ok [hostKey 0 (va % 2 ^ 56)])
      else if s.mem.frameOwnerOf va ≠ ownerAdmin then .error ⟨3, va, 0xFF⟩
      else .ok [va]
    | some t =>
      if bit va 56 then
        if bits va 32 24 ≠ 0 then .error ⟨6, va, 0xFF⟩
        else match slotGranules s.mem t (bits va 20 12) with
          | none => .error ⟨5, va, 0xFF⟩
          | some gs =>
            let ks := gs.map (fun g => paddockKey g (va % 2 ^ 20))
            -- a read takes a replica that is not poisoned, where there is one (R111)
            if write then .ok ks else .ok (((ks.filter (fun k => !s.mem.poisoned k)) ++ ks).take 1)
      else (walkPages s.mem t (s.obj (oTenantPasid t)) (s.obj (oTenantPtRoot t)) write va).map (fun k => [k])

/-- The bytes up to the next 64 KiB boundary: no page and no granule ends before it. -/
def pieceLen (va n : Nat) : Nat := min n (2 ^ 16 - va % 2 ^ 16)

/-- Read n bytes at an address, piece by piece; a poisoned line faults with type 7 (R110), a byte the host aborts with type 8 (R103). -/
def State.readFuel (s : State) (c : Ctx) : Nat → Nat → Nat → Except AccFault (List Byte)
  | 0, _, _ => .ok []
  | _ + 1, _, 0 => .ok []
  | fuel + 1, va, n + 1 => do
    let len := pieceLen va (n + 1)
    let ks ← s.resolve c false va
    let k := ks.headD 0
    match (List.range len).find? (fun i => s.mem.poisoned (k + i) || s.mem.hostAborts (k + i)) with
    | some i => .error ⟨if s.mem.hostAborts (k + i) then 8 else 7, va + i, 0xFF⟩
    | none => do
      let rest ← s.readFuel c fuel (va + len) (n + 1 - len)
      return s.mem.readN k len ++ rest

/-- Read n bytes at an address. -/
def State.readVa (s : State) (c : Ctx) (va n : Nat) : Except AccFault (List Byte) := s.readFuel c (n / 2 ^ 16 + 2) va n

/-- The cells a write of bytes at an address makes, in every replica; a byte the host aborts faults with type 8 (R103). -/
def State.cellsFuel (s : State) (c : Ctx) : Nat → Nat → List Byte → Except AccFault (List (Nat × Byte))
  | 0, _, _ => .ok []
  | _ + 1, _, [] => .ok []
  | fuel + 1, va, b :: bs => do
    let len := pieceLen va (bs.length + 1)
    let ks ← s.resolve c true va
    match (List.range len).find? (fun i => ks.any (fun k => s.mem.hostAborts (k + i))) with
    | some i => .error ⟨8, va + i, 0xFF⟩
    | none => do
      let rest ← s.cellsFuel c fuel (va + len) ((b :: bs).drop len)
      return (ks.map (fun k => cellsAt k ((b :: bs).take len))).flatten ++ rest

def State.cellsVa (s : State) (c : Ctx) (va : Nat) (bs : List Byte) : Except AccFault (List (Nat × Byte)) :=
  s.cellsFuel c (bs.length / 2 ^ 16 + 2) va bs

/-- Set memory. -/
def State.withMem (s : State) (m : MemGroup) : State := { s with mem := m }

/-! ## Tenants and functions -/

/-- The PCIe function a tenant is bound to (R121). -/
def State.tenantFunction (s : State) (t : Nat) : Nat := s.obj (oTenantFunction t)

def State.tenantEnabled (s : State) (t : Nat) : Bool := s.obj (oTenantEnable t) == 1

/-- The configuration of a queue pair: its object's value (R119, R147). -/
def queueKey (q : Nat) : Nat := if q < 8192 then oTenantQueueConfig (q / 8) (q % 8) else oAdminQueueConfig (q - 8192)

def State.queueCfg (s : State) (q : Nat) : Nat := s.obj (queueKey q)

def cfgSqBase (c : Nat) : Nat := leN c 0 8
def cfgCqBase (c : Nat) : Nat := leN c 8 8
def cfgSqLog (c : Nat) : Nat := leN c 16 1
def cfgCqLog (c : Nat) : Nat := leN c 17 1
def cfgEnable (c : Nat) : Bool := bit (leN c 18 1) 0
def cfgIrqEn (c : Nat) : Bool := bit (leN c 18 1) 1
def cfgVector (c : Nat) : Nat := leN c 20 2
def cfgIrqCount (c : Nat) : Nat := max 1 (leN c 22 2)
def cfgIrqDelay (c : Nat) : Nat := leN c 24 2

/-- The state of a queue pair. -/
def State.queue (s : State) (q : Nat) : Queue := Store.get Queue.idle s.queues q
def State.setQueue (s : State) (q : Nat) (v : Queue) : State := { s with queues := Store.set Queue.idle s.queues q v }

/-- Whose addresses a queue's commands use (R117). -/
def queueCtx (q : Nat) : Ctx := if q < 8192 then some (q / 8) else none

/-! ## Interrupts and events -/

/-- Send an MSI-X vector of a function (R142, R143, R146). -/
def State.sendVector (s : State) (f v : Nat) : State := { s with regs := { s.regs with msix := s.regs.msix ++ [(f, v)] } }

/-- The function and vector of a queue (Table 05-1). -/
def State.sendQueueVector (s : State) (q : Nat) : State :=
  s.sendVector (if q < 8192 then s.tenantFunction (q / 8) else 0) (cfgVector (s.queueCfg q))

/-- Latch a tenant event; a bit that rises interrupts through queue 0 of the tenant (R146). -/
def State.tenantEvent (s : State) (t b : Nat) : State :=
  let old := Store.get 0 s.regs.tenantEvents t
  if bit old b then s
  else
    let s1 := { s with regs := { s.regs with tenantEvents := Store.set 0 s.regs.tenantEvents t (old + 2 ^ b) } }
    if cfgIrqEn (s.queueCfg (8 * t)) then s1.sendQueueVector (8 * t) else s1

/-- The 16-byte record, with its P bit and SEQ (Table 05-13). -/
def EventRec.bytes (e : EventRec) (p : Bool) (seq : Nat) : List Byte :=
  toLe 2 e.code ++ toLe 1 e.cls ++ toLe 1 (b2n p) ++ toLe 1 e.kind ++ [0] ++ toLe 2 e.source ++ toLe 4 seq ++ toLe 4 e.param

def evqEnabled (r : RegGroup) : Bool := bit r.evqCtrl 8
def evqSize (r : RegGroup) : Nat := 2 ^ bits r.evqCtrl 0 5

/-- Write one record to the event queue in host memory and send its vector (R123, R144). -/
def State.putEvent (s : State) (e : EventRec) (seq : Nat) : State :=
  let r := s.regs
  let base := r.evqBaseHi * 2 ^ 32 + r.evqBaseLo
  let s1 := s.withMem (s.mem.store (cellsAt (hostKey 0 (base + 16 * r.evqSlot)) (e.bytes r.evqPhase seq)))
  let last := r.evqSlot + 1 == evqSize r
  ({ s1 with regs := { r with evqSlot := if last then 0 else r.evqSlot + 1, evqPhase := if last then !r.evqPhase else r.evqPhase,
                              evqCount := r.evqCount + 1 } }).sendVector 0 (bits r.evqCtrl 9 12)

/-- A fresh free value, and the state that has used it (log entry 2). -/
def State.free (s : State) : Nat × State := (Config.freeValue s.freeCount, { s with freeCount := s.freeCount + 1 })

/-- One opportunity of a Spur kind in a partition (R326, R327, Table 12-6): whether it is taken. The Spur's generator is not specified: its
draws are free values (log entry 2). -/
def State.spurDraw (s : State) (k : Nat) (part : Option Nat) : State × Bool :=
  let c := s.obj oSpurConfig
  let parts := leN c 1 1
  let here := match part with | some p => parts == 0 || bit parts p | none => true
  if s.obj oSpurEnable ≠ 1 ∨ !bit (leN c 0 1) k ∨ !here then (s, false)
  else
    let f := s.free
    if f.1 % 65536 < leN c (16 + 2 * k) 2 then (f.2.count (oSpurInjected k) 1, true) else (f.2, false)

/-- `n` opportunities of a Spur kind at once, of which a number that is a free value is taken (R326, R327). -/
def State.spurDraws (s : State) (k n : Nat) (part : Option Nat) : State :=
  let c := s.obj oSpurConfig
  let parts := leN c 1 1
  let here := match part with | some p => parts == 0 || bit parts p | none => true
  if s.obj oSpurEnable ≠ 1 ∨ !bit (leN c 0 1) k ∨ !here ∨ leN c (16 + 2 * k) 2 = 0 then s
  else
    let f := s.free
    f.2.count (oSpurInjected k) (f.1 % (n + 1))

/-- Put an event into the log's buffer, or count it lost (R144, R462, R464). Ostler time is a free value (log entry 2). -/
def State.logEvent (s : State) (e : EventRec) (seq : Nat) : State :=
  if 256 ≤ s.ostler.logBuf.length then { s with ostler := { s.ostler with logLost := s.ostler.logLost + 1 } }
  else
    let f := s.free
    { f.2 with ostler := { s.ostler with logBuf := s.ostler.logBuf ++ [⟨seq, e, f.1 % 2 ^ 64, s.obj oBootEpoch⟩] } }

/-- A NOTIFY to the controller of record: the header and the event record (R438). -/
def State.notify (s : State) (rec : List Byte) : State :=
  let hdr : List Byte := [1, 0x30, 0, 0] ++ toLe 2 0 ++ toLe 2 32 ++ toLe 4 0 ++ toLe 2 0 ++ toLe 2 0
  { s with dict := { s.dict with busOut := s.dict.busOut ++ [hdr ++ rec] } }

/-- Every event goes to the log; with room and the queue enabled it is written there, else it is counted lost (R144). -/
def State.event (s : State) (e : EventRec) : State :=
  let seq := s.regs.eventSeq
  let s1 := { s with regs := { s.regs with eventSeq := (seq + 1) % 2 ^ 32 } }
  let s2 := s1.logEvent e seq
  let s3 := if evqEnabled s2.regs && decide (s2.regs.evqCount < evqSize s2.regs) then s2.putEvent e seq
    else { s2 with regs := { s2.regs with evqLost := satAdd 32 s2.regs.evqLost 1, evqOwed := satAdd 32 s2.regs.evqOwed 1 } }
  if bit (s3.obj oHalterNotifyMask) e.cls && s3.obj oHalterPlcaNode != 0 && s3.power.beacon then s3.notify (e.bytes false seq) else s3

end Sys2Proof.Machine
end

