-- ==== Sys2Proof/Machine/Operands.lean ====
section
/-! DEFINITION. Every operand form a command can name: tensor descriptors and their elements (R52, R135, R136, R159, R160), post
references (R128), index arrays, and the checks a command makes of its structures when it begins (R130, R141). -/

namespace Sys2Proof.Machine

/-! ## Status and DETAIL (Tables 05-11 and 05-12) -/

def stSuccess : Nat := 0
def stInvalidOpcode : Nat := 1
def stInvalidField : Nat := 2
def stTranslation : Nat := 3
def stPoisoned : Nat := 4
def stPostAccess : Nat := 5
def stExhausted : Nat := 6
def stAborted : Nat := 7
def stContained : Nat := 8
def stPeer : Nat := 9
def stNotPermitted : Nat := 10
def stBitstream : Nat := 11
def stObjectState : Nat := 12

/-- How a command fails. -/
structure Fail where
  status : Nat
  detail : Nat
  fault : Option AccFault
deriving DecidableEq, Repr

/-- DETAIL of a field failure: offset [7:0], structure, offset [11:8] (R141). -/
def fieldDetail (st off : Nat) : Nat := off % 256 + st % 16 * 256 + off / 256 % 16 * 4096

/-- The failure an access fault makes of a command (R103, R110, R141). -/
def AccFault.fail (f : AccFault) : Fail := ⟨if f.typ = 7 then stPoisoned else stTranslation, f.typ, some f⟩

/-- What the checks of R130 found: fields that break a rule as (structure, offset, status), and faults on reading structures. -/
structure Checks where
  bad : List (Nat × Nat × Nat)
  faults : List AccFault
deriving DecidableEq, Repr

def Checks.none : Checks := ⟨[], []⟩
def Checks.and (a b : Checks) : Checks := ⟨a.bad ++ b.bad, a.faults ++ b.faults⟩

/-- A field that must hold. -/
def need (st off : Nat) (ok : Bool) : Checks := if ok then Checks.none else ⟨[(st, off, stInvalidField)], []⟩

def allChecks (l : List Checks) : Checks := l.foldl Checks.and Checks.none

/-- The lowest structure that fails and its lowest offset (R141). -/
def lowestBad : List (Nat × Nat × Nat) → Option (Nat × Nat × Nat)
  | [] => Option.none
  | x :: xs => match lowestBad xs with
    | Option.none => some x
    | some y => if y.1 < x.1 ∨ (y.1 = x.1 ∧ y.2.1 < x.2.1) then some y else some x

/-- The first failure in the order of R130; a poisoned structure comes after one whose address does not translate (R140). -/
def Checks.fail? (c : Checks) : Option Fail :=
  match lowestBad c.bad with
  | some b => some ⟨b.2.2, fieldDetail b.1 b.2.1, Option.none⟩
  | Option.none => ((c.faults.filter (fun f => f.typ != 7)) ++ c.faults).head?.map AccFault.fail

/-- A check made only where what it is about is known: a structure that could not be read breaks no rule of its fields (R130, R141). -/
def given (known : Bool) (ck : Checks) : Checks := if known then ck else Checks.none

/-! ## Tensor descriptors -/

/-- A tensor descriptor (Table 05-9); `ext`, `stride` and `sstride` have six entries, those of dimension 0 unused in the strides;
`log` gives the logical extents (R159); `got` says that the descriptor could be read, `logd` that its logical extents are known. -/
structure Tensor where
  base : Nat
  fmt : Nat
  rank : Nat
  pred : Nat
  pad : Nat
  ext : List Nat
  stride : List Nat
  sbase : Nat
  sstride : List Nat
  rtAddr : Nat
  log : List Nat
  got : Bool
  logd : Bool
deriving DecidableEq, Repr

def Tensor.zero : Tensor :=
  ⟨0, 1, 1, 0, 0, [1, 0, 0, 0, 0, 0], [0, 0, 0, 0, 0, 0], 0, [0, 0, 0, 0, 0, 0], 0, [1, 0, 0, 0, 0, 0], false, false⟩

/-- The fields of a descriptor's 128 bytes. -/
def parseTensor (b : List Byte) : Tensor :=
  let ext := (List.range 6).map (fun d => le b (16 + 4 * d) 4)
  { base := le b 0 8, fmt := le b 8 1, rank := le b 9 1, pred := le b 10 1, pad := le b 11 1, ext := ext,
    stride := (List.range 6).map (fun d => if d = 0 then 0 else le b (40 + 8 * (d - 1)) 8),
    sbase := le b 80 8,
    sstride := (List.range 6).map (fun d => if d = 0 then 0 else le b (88 + 4 * (d - 1)) 4),
    rtAddr := le b 108 8, log := ext, got := true, logd := le b 10 1 != 1 }

/-- Extent d, or logical extent d; 1 beyond the rank, so that products run over every dimension. -/
def Tensor.e (t : Tensor) (d : Nat) : Nat := if d < t.rank then t.ext.getD d 1 else 1
def Tensor.l (t : Tensor) (d : Nat) : Nat := if d < t.rank then t.log.getD d 1 else 1

/-- Bytes of one row of dimension 0, whole three-byte groups for FP6 (R52, R136). -/
def rowBytes (fmt n : Nat) : Nat :=
  let b := ceilDiv (n * fmtBits fmt) 8
  if fmtBits fmt = 6 then alignUp b 3 else b

/-- The alignment of BASE (R136). -/
def baseAlign (fmt : Nat) : Nat := if fmtBits fmt < 8 then 1 else fmtBits fmt / 8

/-- span(d) of R136. -/
def spanOf (row : Nat) (ext stride : List Nat) (d : Nat) : Nat :=
  row + ((List.range d).map (fun k => if k = 0 then 0 else (ext.getD k 1 - 1) * stride.getD k 0)).sum

/-- The rules of R135, R136 and R163 over the fields of a descriptor, each with the byte offset of its field. A code R50 does not permit
leaves the element's width unsaid: BASE and the strides are judged by the width of its low bits (log entry 97). `out`: used as an
output. `padOk`: an operand R163 lets carry PAD_MODE 1. `based`: BASE is checked (not in the descriptors of MATMUL_LIST). -/
def tensorRules (b : List Byte) (t : Tensor) (out padOk based : Bool) : List (Nat × Bool) :=
  let mx := fmtMx t.fmt
  let row := rowBytes t.fmt (t.ext.getD 0 1)
  let srow := ceilDiv (t.ext.getD 0 1) 32
  let al := if fmtBits t.fmt = 6 then 3 else baseAlign t.fmt
  [(0, !based || t.base % baseAlign t.fmt == 0),
   (8, fmtValid t.fmt),
   (9, decide (1 ≤ t.rank) && decide (t.rank ≤ 6)),
   (10, decide (t.pred ≤ 1)),
   (11, decide (t.pad ≤ 1) && (t.pad == 0 || padOk)),
   (12, le b 12 4 == 0)]
  ++ (List.range 6).map (fun d => (16 + 4 * d, if d < t.rank then decide (1 ≤ t.ext.getD d 0) else t.ext.getD d 0 == 0))
  ++ ((List.range 6).drop 1).map (fun d => (40 + 8 * (d - 1),
      let st := t.stride.getD d 0
      if d < t.rank then (st == 0 && !out) || (decide (spanOf row t.ext t.stride d ≤ st) && st % al == 0) else st == 0))
  ++ [(80, mx || t.sbase == 0)]
  ++ ((List.range 6).drop 1).map (fun d => (88 + 4 * (d - 1),
      let st := t.sstride.getD d 0
      if mx && decide (d < t.rank) then (st == 0 && !out) || decide (spanOf srow t.ext t.sstride d ≤ st) else st == 0))
  ++ [(108, if t.pred = 1 then t.rtAddr % 8 == 0 else t.rtAddr == 0), (116, le b 116 12 == 0)]

/-- Runtime extents against their bounds (R136). -/
def rtOk (t : Tensor) (rt : List Nat) : Bool :=
  (List.range 6).all (fun d =>
    if d < t.rank then decide (1 ≤ rt.getD d 0) && decide (rt.getD d 0 ≤ t.ext.getD d 0) else rt.getD d 0 == 0)

/-- Read and check the descriptor at `addr`, structure `st`; `nest` gives the offset of the field that names it when it is
reported there (structure 9, R151). -/
def State.tensorAt (s : State) (c : Ctx) (addr st : Nat) (nest : Option Nat) (out padOk based : Bool) : Checks × Tensor :=
  match s.readVa c addr 128 with
  | .error f => (⟨[], [f]⟩, Tensor.zero)
  | .ok b =>
    let t := parseTensor b
    let place := fun off => match nest with | some n => (st, n, stInvalidField) | none => (st, off, stInvalidField)
    let own : Checks := match (tensorRules b t out padOk based).find? (fun r => !r.2) with | some r => ⟨[place r.1], []⟩ | none => Checks.none
    if t.pred ≠ 1 ∨ t.rtAddr % 8 ≠ 0 then (own, t)
    else match s.readVa c t.rtAddr 24 with
      | .error f => (own.and ⟨[], [f]⟩, t)
      | .ok rb =>
        let rt := (List.range 6).map (fun d => le rb (4 * d) 4)
        if rtOk t rt then (own, { t with log := rt, logd := true }) else (own.and ⟨[place 108], []⟩, t)

/-! ## Elements -/

/-- Every index of dimensions 1 to rank − 1 below the extents given, dimension 1 fastest. -/
def outerIndices (dims : List Nat) : List (List Nat) :=
  dims.foldr (fun n acc => acc.flatMap (fun tl => (List.range n).map (fun i => i :: tl))) [[]]

/-- The byte offset of an outer index (i₁, i₂, …). -/
def strideSum (stride : List Nat) (idx : List Nat) : Nat :=
  ((List.range idx.length).map (fun k => idx.getD k 0 * stride.getD (k + 1) 0)).sum

/-- The codes of a packed row, first element in the lowest bits (R52). -/
def unpackCodes (w n : Nat) (b : List Byte) : List Nat :=
  let x := ofLe b
  (List.range n).map (fun i => bits x (w * i) w)

/-- The element codes and block scales of one row (R52, R53). -/
structure RowData where
  codes : List Nat
  scales : List Nat
deriving DecidableEq, Repr

/-- Read n elements of the row at an outer index; without block scaling every scale is 127. -/
def State.readRow (s : State) (c : Ctx) (t : Tensor) (idx : List Nat) (n : Nat) : Except AccFault RowData := do
  let b ← s.readVa c (t.base + strideSum t.stride idx) (rowBytes t.fmt n)
  let codes := unpackCodes (fmtBits t.fmt) n b
  if fmtMx t.fmt then do
    let sb ← s.readVa c (t.sbase + strideSum t.sstride idx) (ceilDiv n 32)
    return ⟨codes, sb.map BitVec.toNat⟩
  else return ⟨codes, []⟩

/-- The elements of a row as a lane sees them. -/
def RowData.elems (fmt : Nat) (r : RowData) : List LaneElem :=
  (List.range r.codes.length).map (fun i => ⟨decodeElem fmt (r.codes.getD i 0), if fmtMx fmt then r.scales.getD (i / 32) 127 else 127⟩)

/-- The value of an element, and IV where its block's scale is NaN (R72). -/
def LaneElem.decode (x : LaneElem) : Flagged Acx :=
  if x.scale = 255 then (acxNaN, flIV) else (acxOf x.value, 0)

/-- Read elements [lo, lo + n) of the row at an outer index, and nothing else of it but the bytes and blocks they lie in. -/
def State.readSpan (s : State) (c : Ctx) (t : Tensor) (idx : List Nat) (lo n : Nat) : Except AccFault RowData :=
  if n = 0 then .ok ⟨[], []⟩
  else do
    let w := fmtBits t.fmt
    let first := lo * w / 8
    let b ← s.readVa c (t.base + strideSum t.stride idx + first) (ceilDiv ((lo + n) * w) 8 - first)
    let codes := (unpackCodes w n (toLe (ceilDiv (n * w) 8) (ofLe b / 2 ^ (lo * w % 8))))
    if fmtMx t.fmt then do
      let sb ← s.readVa c (t.sbase + strideSum t.sstride idx + lo / 32) (ceilDiv (lo + n) 32 - lo / 32)
      return ⟨codes, (List.range n).map (fun i => ((sb.getD ((lo + i) / 32 - lo / 32) 0).toNat))⟩
    else return ⟨codes, []⟩

/-- The elements of a span, each with the scale of its own block. -/
def RowData.spanElems (fmt : Nat) (r : RowData) : List LaneElem :=
  (List.range r.codes.length).map (fun i => ⟨decodeElem fmt (r.codes.getD i 0), if fmtMx fmt then r.scales.getD i 127 else 127⟩)

/-- Read rows in a list of outer indices. -/
def State.readRows (s : State) (c : Ctx) (t : Tensor) (n : Nat) : List (List Nat) → Except AccFault (List RowData)
  | [] => .ok []
  | i :: is => do
    let r ← s.readRow c t i n
    let rs ← s.readRows c t n is
    return r :: rs

/-- The whole of a tensor below its logical extents, row by row. -/
def State.readTensor (s : State) (c : Ctx) (t : Tensor) : Except AccFault (List RowData) :=
  s.readRows c t (t.l 0) (outerIndices ((List.range (t.rank - 1)).map (fun d => t.l (d + 1))))

/-- A packed row of codes as bytes (R52). -/
def packCodes (w : Nat) (codes : List Nat) : Nat := packSlice w codes

/-- The cells that write some elements of a row: an element without a code keeps its contents (R160), and the unused positions at the
row's end are written as zero (R52). Only bytes that hold a written or an unused position are written. -/
def State.writeElems (s : State) (c : Ctx) (t : Tensor) (idx : List Nat) (codes : List (Option Nat)) : Except AccFault (List (Nat × Byte)) :=
  if codes.all Option.isNone then .ok []
  else
    let w := fmtBits t.fmt
    let n := t.ext.getD 0 1
    let va := t.base + strideSum t.stride idx
    let rb := rowBytes t.fmt n
    let val := packCodes w (codes.map (fun x => x.getD 0))
    let mask := packCodes w (codes.map (fun x => if x.isSome then 2 ^ w - 1 else 0)) + (2 ^ (8 * rb) - 2 ^ (n * w))
    ((List.range rb).filter (fun i => byteOf mask i != 0)).foldlM (fun (acc : List (Nat × Byte)) i => do
      let ks ← s.resolve c true (va + i)
      let old := (s.mem.read (ks.headD 0)).toNat
      let cells ← s.cellsVa c (va + i) [BitVec.ofNat 8 ((old &&& (255 - byteOf mask i)) + byteOf val i)]
      return acc ++ cells) []

/-- The cells that write the first codes of a row (R52, R160). -/
def State.writeRow (s : State) (c : Ctx) (t : Tensor) (idx : List Nat) (codes : List Nat) : Except AccFault (List (Nat × Byte)) :=
  if codes.isEmpty then .ok []
  else if t.ext.getD 0 1 ≤ codes.length then
    s.cellsVa c (t.base + strideSum t.stride idx) (toLe (rowBytes t.fmt (t.ext.getD 0 1)) (packCodes (fmtBits t.fmt) codes))
  else s.writeElems c t idx (codes.map some)

/-- The cells that write block scales of a row. -/
def State.writeScales (s : State) (c : Ctx) (t : Tensor) (idx : List Nat) (sc : List Nat) : Except AccFault (List (Nat × Byte)) :=
  if fmtMx t.fmt then s.cellsVa c (t.sbase + strideSum t.sstride idx) (sc.map (BitVec.ofNat 8)) else .ok []

/-! ## Arrays -/

/-- An array of n little-endian numbers of w bytes. -/
def State.readArray (s : State) (c : Ctx) (addr w n : Nat) : Except AccFault (List Nat) := do
  let b ← s.readVa c addr (w * n)
  return (List.range n).map (fun i => le b (w * i) w)

/-! ## Post references (Table 05-8) -/

structure PostRef where
  post : Nat
  dev : Nat
  brg : Nat
  scope : Nat
deriving DecidableEq, Repr

def parsePostRef (x : Nat) : PostRef := ⟨bits x 0 18, bits x 18 6, bits x 24 6, bits x 30 2⟩

/-- A reference Table 05-8 allows. -/
def PostRef.ok (r : PostRef) : Bool :=
  match r.scope with
  | 0 => r.dev == 0 && r.brg == 0
  | 1 => r.brg == 0
  | 2 => true
  | _ => false

end Sys2Proof.Machine
end

