-- ==== Sys2Proof/Machine/Real.lean ====
section
/-! DEFINITION. The three real functions of R275, correctly rounded to FP32. Each is summed in fixed point at 2^−192 and rounded once: over the
2^24 arguments R275 has, no exact value lies within 2^−24 of an FP32 unit from a rounding boundary, far outside the error of the sums
(log entry 4). -/

namespace Sys2Proof.Machine

/-- One, at the scale of the sums. -/
def fixOne : Nat := 2 ^ 192

/-- −ln(m × 2^−24) for odd m below 2^24, times fixOne. -/
def fixNegLn (m : Nat) : Nat :=
  let b := bitLen m
  (24 - b) * serLogRatio fixOne 70 1 3 + serLogRatio fixOne 70 (2 ^ b - m) (2 ^ b + m)

/-- π, by Machin's sum. -/
def fixPi : Nat := serPi fixOne 45 15

/-- cos and sin of 2π × r × 2^−24, r at most an eighth of a turn. -/
def fixCosSin (r : Nat) : Int × Int :=
  let x := 2 * fixPi * r / 2 ^ 24
  let x2 := x * x / fixOne
  (serTrig fixOne x2 26 0 fixOne, serTrig fixOne x2 26 1 x)

/-- A sum as a number. -/
def fixNum (x : Int) : Num := .fin (decide (x < 0)) x.natAbs (-192)

/-- rn(ln u1), for u1 = m × 2^−24 (R275). -/
def lnFp32 (m : Nat) : Nat := (roundOut 1 0 false 0 (fixNum (-(fixNegLn m : Int)))).1

/-- cos(2π × u2) and sin(2π × u2), for u2 = q × 2^−24: the nearest quarter turn, and what is left of the angle. -/
def cosSinTurn (q : Nat) : Int × Int :=
  let k := (q + 2 ^ 21) / 2 ^ 22
  let up := decide (k * 2 ^ 22 ≤ q)
  let cs := fixCosSin (if up then q - k * 2 ^ 22 else k * 2 ^ 22 - q)
  let sn := if up then cs.2 else -cs.2
  match k % 4 with
  | 0 => (cs.1, sn)
  | 1 => (-sn, cs.1)
  | 2 => (-cs.1, -sn)
  | _ => (sn, -cs.1)

/-- rn(cos(2π × u2)) (R275). -/
def cosFp32 (q : Nat) : Nat := (roundOut 1 0 false 0 (fixNum (cosSinTurn q).1)).1

/-- rn(sin(2π × u2)) (R275). -/
def sinFp32 (q : Nat) : Nat := (roundOut 1 0 false 0 (fixNum (cosSinTurn q).2)).1

end Sys2Proof.Machine
end

