-- ==== Sys2Proof/Machine/Rng.lean ====
section
/-! DEFINITION. The random generators: keys and streams (R262 to R265), the lane generator (R267, R268), Gaussian samples (R269,
R270) and the Thrumyo-compatible stream (R275). -/

namespace Sys2Proof.Machine

def w32 (x : Nat) : Nat := x % 2 ^ 32
def lo32 (x : Nat) : Nat := x % 2 ^ 32
def hi32 (x : Nat) : Nat := x / 2 ^ 32 % 2 ^ 32
/-- Rotate a 32-bit word left. -/
def rotl32 (x n : Nat) : Nat := w32 (x <<< n) ||| (w32 x >>> (32 - n))

/-- A 128-bit generator state. -/
structure GenState where
  s0 : Nat
  s1 : Nat
  s2 : Nat
  s3 : Nat
deriving DecidableEq, Repr

/-- One round of the key mix, with round constants k and c (R267). -/
def mixRound (k c : Nat) (s : GenState) : GenState :=
  let x0 := w32 (s.s0 + s.s1 + k)
  let x3 := rotl32 (s.s3 ^^^ x0) 16
  let x2 := w32 (s.s2 + x3 + c)
  let x1 := rotl32 (s.s1 ^^^ x2) 12
  let y0 := w32 (x0 + x1)
  let y3 := rotl32 (x3 ^^^ y0) 8
  let y2 := w32 (x2 + y3)
  let y1 := rotl32 (x1 ^^^ y2) 7
  ⟨y0, y1, y2, y3⟩

/-- A block's initial state (R267). -/
def blockState (seed stream blk : Nat) : GenState :=
  let s0 : GenState := ⟨lo32 seed, hi32 seed, lo32 stream, hi32 stream⟩
  let s := mixRound (hi32 blk) 0x5CEDC835 (mixRound (lo32 blk) 0xF39CC060
    (mixRound (hi32 blk) 0x7F4A7C15 (mixRound (lo32 blk) 0x9E3779B9 s0)))
  if s = ⟨0, 0, 0, 0⟩ then ⟨0x9E3779B9, 0, 0, 0⟩ else s

/-- The state update after an output (R267). -/
def genNext (s : GenState) : GenState :=
  let w := w32 (s.s1 <<< 9)
  let s2 := s.s2 ^^^ s.s0
  let s3 := s.s3 ^^^ s.s1
  let s1 := s.s1 ^^^ s2
  let s0 := s.s0 ^^^ s3
  ⟨s0, s1, s2 ^^^ w, rotl32 s3 11⟩

/-- The output formed from a state (R267). -/
def genOut (s : GenState) : Nat := w32 (rotl32 (w32 (s.s0 + s.s3)) 7 + s.s0)

def genSkip : Nat → GenState → GenState
  | 0, s => s
  | n + 1, s => genSkip n (genNext s)

/-- Output t of the noise block that element i of a key falls in (R262, R267). -/
def blockOutput (seed stream i t : Nat) : Nat := genOut (genSkip t (blockState seed stream (i % 2 ^ 64 / 256)))

/-- The 32-bit word of a uniform draw (R268). -/
def uniformWord (seed stream i : Nat) : Nat := blockOutput seed stream i (i % 256)

/-- The 24-bit uniform draw d (R268). -/
def uniformDraw (seed stream i : Nat) : Nat := uniformWord seed stream i / 256

/-- u = d × 2^−24 (R268). -/
def uniformValue (d : Nat) : Num := .fin false d (-24)

/-- Segment and position of a Gaussian draw, as (j, numerator, exponent) with x = numerator × 2^exponent (Table 10-3). -/
def gaussSegment (m : Nat) : Nat × Nat × Int :=
  let n := 2 ^ 52 - 1 - m
  if m < 2 ^ 51 then (m / 2 ^ 47, 2 * (m % 2 ^ 47) + 1, -48)
  else if 16 ≤ n then let b := bitLen n; (67 - b, 2 * (2 ^ b - 1 - n) + 1, -(b : Int))
  else (63, 2 * (15 - n) + 1, -5)

/-- Coefficient a_i of segment j (R270, R282). -/
def gaussCoeff (table j i : Nat) : Acx := acxOf (decodeElem 1 (leN table (16 * j + 4 * i) 4))

/-- The native Gaussian of element i, as an FP32 code, and its segment (R269). -/
def gaussNative (table seed stream i : Nat) : Nat × Nat :=
  let k := i % 256
  let o0 := blockOutput seed stream i (2 * k)
  let o1 := blockOutput seed stream i (2 * k + 1)
  let m := o0 % 2 ^ 31 * 2 ^ 21 + o1 / 2 ^ 11
  let s := gaussSegment m
  let x := acxOf (.fin false s.2.1 s.2.2)
  let t := (acxFma (gaussCoeff table s.1 3) x (gaussCoeff table s.1 2)).1
  let t := (acxFma t x (gaussCoeff table s.1 1)).1
  let t := (acxFma t x (gaussCoeff table s.1 0)).1
  let c := (roundOut 1 0 false 0 t.toNum).1
  ((if bit o0 31 then c % 2 ^ 31 + 2 ^ 31 else c), s.1)

/-- One Philox round on (x0, x1, x2, x3) (R275). -/
def philoxRound (key0 key1 : Nat) (s : GenState) : GenState :=
  let p0 := 0xD2511F53 * s.s0
  let p1 := 0xCD9E8D57 * s.s2
  ⟨hi32 p1 ^^^ s.s1 ^^^ key0, lo32 p1, hi32 p0 ^^^ s.s3 ^^^ key1, lo32 p0⟩

def philoxRounds : Nat → Nat → Nat → GenState → GenState
  | 0, _, _, s => s
  | n + 1, k0, k1, s => philoxRounds n (w32 (k0 + 0x9E3779B9)) (w32 (k1 + 0xBB67AE85)) (philoxRound k0 k1 s)

/-- The words w[0] to w[3] of the element's counter (R275). -/
def philoxWords (seed stream i : Nat) : List Nat :=
  let ctr := i / 4
  let s := philoxRounds 10 (lo32 seed) (hi32 seed) ⟨lo32 ctr, hi32 ctr, lo32 stream, hi32 stream⟩
  [s.s0, s.s1, s.s2, s.s3]

def thrumyoWord (seed stream i : Nat) : Nat := (philoxWords seed stream i).getD (i % 4) 0

/-- The Thrumyo-compatible Gaussian of element i as an FP32 code (R275). -/
def gaussThrumyo (seed stream i : Nat) : Nat :=
  let w := philoxWords seed stream i
  let pair := i % 4 / 2
  let p := w.getD (2 * pair) 0
  let q := w.getD (2 * pair + 1) 0
  let rn := fun (v : Num) => decodeElem 1 (roundOut 1 0 false 0 v).1
  let a := decodeElem 1 (lnFp32 (2 * (p / 2 ^ 9) + 1))
  -- ρ = rn(√(−2 × a)): the root to 64 bits and a sticky bit rounds to FP32 as the exact root does (R67)
  let rho := match a with
    | .fin _ m e =>
      let m2 := if (e + 1) % 2 = 0 then m else 2 * m
      let e2 := if (e + 1) % 2 = 0 then e + 1 else e
      rn (roundRootRatio m2 1 (e2 / 2)).1.toNum
    | v => v
  let trig := decodeElem 1 (if i % 2 = 0 then cosFp32 (q / 2 ^ 8) else sinFp32 (q / 2 ^ 8))
  (roundOut 1 0 false 0 (mulNum rho trig).1).1

/-- A stream identifier (Table 10-1). -/
def streamId (domain stage step id : Nat) : Nat :=
  domain % 16 * 2 ^ 60 + stage % 16 * 2 ^ 56 + step % 2 ^ 24 * 2 ^ 32 + id % 2 ^ 32

end Sys2Proof.Machine
end

