-- ==== Sys2Proof/Machine/Chain.lean ====
section
/-! DEFINITION. Parameter blocks, operand slots and chains: the operation menu and its rules (R35 to R38, R152 to R154, R170, R171,
R542 to R544), run on one row at a time, and the final rounding. -/

namespace Sys2Proof.Machine

/-! ## The parameter block (Table 06-3) -/

structure Slot where
  kind : Nat
  imm : Nat
  addr : Nat
deriving DecidableEq, Repr

structure Stage where
  op : Nat
  a : Nat
  b : Nat
  imm : Nat
deriving DecidableEq, Repr

structure Param where
  bytes : List Byte
  nstage : Nat
  slots : List Slot
  stages : List Stage
deriving DecidableEq, Repr

def parseParam (b : List Byte) : Param :=
  { bytes := b, nstage := le b 1 1,
    slots := (List.range 8).map (fun i => ⟨le b (64 + 16 * i) 1, le b (72 + 16 * i) 4, le b (72 + 16 * i) 8⟩),
    stages := (List.range (min 16 (le b 1 1))).map (fun i =>
      ⟨le b (192 + 4 * i) 1, le b (193 + 4 * i) 1 % 16, le b (193 + 4 * i) 1 / 16, le b (194 + 4 * i) 1⟩) }

def opSampler : Nat := 0x29
def opQuant : Nat := 0x2D
def opRound : Nat := 0x2E
def opDigest : Nat := 0x2F
def opRotary : Nat := 0x21
def opPoly : Nat := 0x19
def opNormApply : Nat := 0x27

/-- Number of operands an operation takes (Table 02-7). -/
def opArity (op : Nat) : Nat :=
  if op ∈ [0x01, 0x02, 0x03, 0x07, 0x08, 0x0B, 0x0F, 0x19, 0x1E, 0x1F, 0x22, 0x23, 0x24, 0x2C] then 1
  else if op ∈ [0x04, 0x09, 0x0A, 0x21, 0x26, 0x27, 0x28] then 2
  else 0

/-- A statistic stage (R170 class 2). -/
def opIsStat (op : Nat) : Bool := op == 0x22 || op == 0x23 || op == 0x24 || op == 0x26

/-- The class of R170 a stage belongs to. -/
def opClass (op : Nat) : Nat :=
  if opIsStat op then 2 else if op = opQuant ∨ op = opRound then 3 else if op = opDigest then 4 else 1

/-- Operations marked Packed in Table 02-7. -/
def opPacked (op : Nat) : Bool := decide (op ≤ 0x0B) || op == 0x1A || op == 0x2E

/-- Which slot kinds an operand may be (R36, R153, R171, R198, R250). -/
def kindOk (op which kind : Nat) (norm : Bool) : Bool :=
  if op = opPoly then kind == 5
  else if opIsStat op then kind == 2
  else if op = 0x28 then (if which = 0 then kind == 4 else kind == 2)
  else if op = opNormApply then norm && (kind == 3 || kind == 1)
  else decide (1 ≤ kind) && decide (kind ≤ 4)

/-- Where a chain stands: what may appear in it. -/
structure ChainUse where
  known : Bool         -- the output's descriptor could be read
  outFmt : Nat
  cols : Nat           -- logical columns of the output (R543), 0 where they are not known
  norm : Bool          -- NORM: stage 0 is NORM_APPLY and no statistic follows (R198)
  sampler : Bool       -- SAMPLER_UPDATE is allowed (R247)
  packed : Bool        -- R38
deriving DecidableEq, Repr

/-- 0 ≤ p < 1 (R542). -/
def dropoutOk (v : Num) : Bool := leNum (.fin false 0 0) v && ltNum v (.fin false 1 0)

/-- The rules a stage must keep whatever stands around it: operation, operands, IMM and rsvd (R36, R154, R543, R544). -/
def stageFits (p : Param) (u : ChainUse) (i : Nat) (st : Stage) : Bool :=
  let kindOf := fun n => if n < 8 then (p.slots.getD n ⟨0, 0, 0⟩).kind else 0
  let ar := opArity st.op
  decide (st.op ≤ 0x2F) && st.op != 0x25
    && (if 1 ≤ ar then kindOk st.op 0 (kindOf st.a) u.norm else st.a == 15)
    && (if 2 ≤ ar then kindOk st.op 1 (kindOf st.b) u.norm else st.b == 15)
    && (if st.op = opPoly then decide (1 ≤ st.imm) && decide (st.imm ≤ 8)
        else if st.op = opRotary then decide (st.imm ≤ 1) && u.cols % 2 == 0 else st.imm == 0)
    && le p.bytes (195 + 4 * i) 1 == 0
    && (st.op != 0x2C || kindOf st.a != 1 || dropoutOk (decodeElem 1 (p.slots.getD st.a ⟨0, 0, 0⟩).imm))
    && (st.op != opSampler || u.sampler)
    && (st.op != opNormApply || (u.norm && i == 0))
    && (!u.norm || ((i != 0 || st.op == opNormApply) && !opIsStat st.op))
    && (!u.packed || opPacked st.op)

/-- The slots the statistics of stages before i write (R170). -/
def statSlots (p : Param) (i : Nat) : List Nat :=
  (p.stages.take i).flatMap (fun s => if opIsStat s.op then (if s.op = 0x26 then [s.a, s.b] else [s.a]) else [])

/-- A chain rule broken at stage i (R170). -/
def stageBad (p : Param) (u : ChainUse) (i : Nat) : Bool :=
  let st := p.stages.getD i ⟨0, 15, 15, 0⟩
  let before := (p.stages.take i).map (fun s => opClass s.op)
  !stageFits p u i st
    || before.any (fun c => decide (opClass st.op < c))
    || before.any (fun c => c == 4)
    || (opClass st.op == 3 && (before.any (fun c => c == 3) || (u.known && decide (st.op = opQuant) != fmtMx u.outFmt)))
    || ((st.op == 0x28 || st.op == opSampler) && (p.stages.take i).any (fun s => s.op == opSampler))
    -- a value stage reads no statistic of its own chain
    || (opClass st.op == 1 && (p.stages.any (fun s => opIsStat s.op)) &&
        (statSlots p 16).any (fun n => (decide (1 ≤ opArity st.op) && n == st.a) || (decide (2 ≤ opArity st.op) && n == st.b)))

/-- The rules of R35, R37, R152 to R154 and R170, with offsets in structure 9. `proOk`: the prologue and collective fields may be
non-zero (MATMUL); `collOk`: COLL_DESC may be. -/
def paramChecks (p : Param) (u : ChainUse) (proOk collOk : Bool) : Checks :=
  let b := p.bytes
  let slotChecks := (List.range 8).flatMap (fun i =>
    let o := 64 + 16 * i
    let k := le b o 1
    [need 9 o (decide (k ≤ 5)),
     need 9 (o + 1) (le b (o + 1) 7 == 0),
     need 9 (o + 8) (k != 0 || le b (o + 8) 8 == 0),
     need 9 (o + 12) (k != 1 || le b (o + 12) 4 == 0)])
  let okCount := decide (1 ≤ p.nstage) && decide (p.nstage ≤ 16)
  let bad := indicesWhere p.stages.length (stageBad p u)
  let lacks := !(p.stages.any (fun s => opClass s.op == 3))
  let chain :=
    if !okCount then need 9 1 false
    else match bad with
      | i :: _ => need 9 (192 + 4 * i) false
      | [] => need 9 (192 + 4 * (p.nstage - 1)) (!lacks)
  allChecks ([need 9 0 (le b 0 1 == 1),
    need 9 2 (proOk || le b 2 1 == 0), need 9 3 (proOk || le b 3 1 == 0),
    need 9 4 (proOk || le b 4 2 == 0), need 9 6 (proOk || le b 6 2 == 0), need 9 8 (proOk || le b 8 2 == 0),
    need 9 10 (le b 10 2 == 0), need 9 12 (proOk || le b 12 4 == 0),
    need 9 16 (proOk || le b 16 8 == 0), need 9 24 (proOk || le b 24 8 == 0), need 9 32 (proOk || le b 32 8 == 0),
    need 9 40 (proOk || le b 40 8 == 0), need 9 48 (proOk || le b 48 8 == 0), need 9 56 (collOk || le b 56 8 == 0)]
    ++ slotChecks ++ [chain]
    ++ (List.range 16).map (fun i => need 9 (192 + 4 * i) (!okCount || decide (i < p.nstage) || le b (192 + 4 * i) 4 == 0)))

/-! ## Operand data -/

/-- What a slot supplies, read when the command begins. -/
inductive OpData where
  | none
  | imm (v : Acx)
  | perRow (t : Tensor) (v : List (Flagged Acx))
  | perCol (v : List (Flagged Acx))
  | tensor (v : List (List (Flagged Acx)))
  | coeff (v : List Acx)
deriving DecidableEq, Repr

/-- The output a chain's operands are shaped against: bound and logical extents of the output's matrix view, the latter 0 where they
are not known. -/
structure Shape where
  known : Bool         -- the output's descriptor could be read
  rows : Nat           -- flattened rows (bound)
  cols : Nat           -- columns (bound)
  logRows : Nat        -- the flattened index after the last logical row
  logCols : Nat
  ext : List Nat       -- the output's extents, for tensor operands
  log : List Nat
  rank : Nat
deriving DecidableEq, Repr

/-- What of its operands a command reads: its logical rows and columns, and nothing beyond (R153). -/
structure Reads where
  runs : List (Nat × Nat)        -- flattened rows, as (first, count), ascending
  rows : List (List Nat × Nat)   -- tensor rows in reading order: outer index and columns
  cols : Nat
deriving DecidableEq, Repr

def decodeRow (fmt : Nat) (r : RowData) : List (Flagged Acx) := (r.elems fmt).map LaneElem.decode

/-- Check the operand of slot i (R153): its descriptor, and its extents against the output's. -/
def State.slotTensor (s : State) (c : Ctx) (p : Param) (sh : Shape) (i : Nat) : Checks × Tensor :=
  let sl := p.slots.getD i ⟨0, 0, 0⟩
  let off := 64 + 16 * i + 8
  let statSlot := (statSlots p 16).contains i
  if sl.kind < 2 ∨ 5 < sl.kind then (Checks.none, Tensor.zero)
  else
    let r := s.tensorAt c sl.addr 9 (some off) statSlot false true
    let t := r.2
    let fits := match sl.kind with
      | 2 => t.rank == 1 && !(statSlot && fmtMx t.fmt) && (!sh.known || t.ext.getD 0 0 == sh.rows)
      | 3 => t.rank == 1 && (!sh.known || t.ext.getD 0 0 == sh.cols)
      | 4 => !sh.known || (t.rank == sh.rank && (List.range sh.rank).all (fun d => t.ext.getD d 0 == sh.ext.getD d 0))
      | _ => t.rank == 1 && t.fmt == 1
          && (p.stages.filter (fun st => st.op == opPoly && st.a == i)).all (fun st => t.ext.getD 0 0 == st.imm + 1)
    let reaches := match sl.kind with
      | 2 => decide (sh.logRows ≤ t.log.getD 0 0)
      | 3 => decide (sh.logCols ≤ t.log.getD 0 0)
      | 4 => (List.range sh.rank).all (fun d => decide (sh.log.getD d 0 ≤ t.log.getD d 0))
      | _ => t.log.getD 0 0 == t.ext.getD 0 0
    (r.1.and ((given t.got (need 9 off fits)).and (given t.logd (need 9 off reaches))), t)

/-- All eight slots. -/
def State.slotTensors (s : State) (c : Ctx) (p : Param) (sh : Shape) : Checks × List Tensor :=
  let l := (List.range 8).map (s.slotTensor c p sh)
  (allChecks (l.map (·.1)), l.map (·.2))

/-- Runs of a vector, with nothing between them. -/
def State.readRuns (s : State) (c : Ctx) (t : Tensor) : Nat → List (Nat × Nat) → Except AccFault (List (Flagged Acx))
  | _, [] => .ok []
  | done, r :: rs => do
    let d ← s.readSpan c t [] r.1 r.2
    let rest ← s.readRuns c t (r.1 + r.2) rs
    return List.replicate (r.1 - done) (acxZero false, 0) ++ (d.spanElems t.fmt).map LaneElem.decode ++ rest

/-- Read the operand of slot i. A vector that only takes statistics is not read (R171). -/
def State.slotRead (s : State) (c : Ctx) (p : Param) (rd : Reads) (t : Tensor) (i : Nat) : Except AccFault OpData :=
  let sl := p.slots.getD i ⟨0, 0, 0⟩
  match sl.kind with
  | 1 => .ok (.imm (acxOf (decodeElem 1 sl.imm)))
  | 2 => if (statSlots p 16).contains i then .ok (.perRow t []) else (s.readRuns c t 0 rd.runs).map (OpData.perRow t)
  | 3 => (s.readRow c t [] rd.cols).map (fun d => .perCol (decodeRow t.fmt d))
  | 4 => (rd.rows.mapM (fun x => s.readRow c t x.1 x.2)).map (fun d => .tensor (d.map (decodeRow t.fmt)))
  | 5 => (s.readRow c t [] (t.e 0)).map (fun d => .coeff (d.codes.map (fun x => acxOf (decodeElem 1 x))))
  | _ => .ok .none

def State.slotsRead (s : State) (c : Ctx) (p : Param) (rd : Reads) (ts : List Tensor) : Except AccFault (List OpData) :=
  (List.range 8).mapM (fun i => s.slotRead c p rd (ts.getD i Tensor.zero) i)

/-- The operand of slot n for the row numbered `k` in reading order with flattened index `r`, at column j. -/
def operandAt (ops : List OpData) (n k r j : Nat) : Flagged Acx :=
  match ops.getD n .none with
  | .imm v => (v, 0)
  | .perRow _ v => v.getD r (acxZero false, 0)
  | .perCol v => v.getD j (acxZero false, 0)
  | .tensor v => (v.getD k []).getD j (acxZero false, 0)
  | _ => (acxZero false, 0)

def coeffsAt (ops : List OpData) (n : Nat) : List Acx := match ops.getD n .none with | .coeff v => v | _ => []

/-! ## Value stages -/

/-- What one row of a chain draws from: the seed, step field and LAYER × 65,536 + OPERATOR of its streams, and the output index of
its column 0 (R264, R265). -/
structure RowKey where
  seed : Nat
  step : Nat
  id : Nat
  base : Nat
  table : Nat          -- `RNG_GAUSS_TABLE`
deriving DecidableEq, Repr

def RowKey.draw (k : RowKey) (domain stage j : Nat) : Nat := uniformDraw k.seed (streamId domain stage k.step k.id) (k.base + j)

/-- What only some rows have: the statistics NORM_APPLY uses, or the sampler's terms. -/
structure RowExtra where
  mean : List Acx      -- column by column (R198)
  var : List Acx
  eps : Acx
  terms : List (List (Flagged Acx))   -- L, Lp, E1, E2, E3, Z by term (Table 09-8), column by column
  coef : List Acx                     -- C[0..7], DX, DE, CLAMP
  mask : Nat                          -- TERM_MASK
deriving DecidableEq, Repr

def RowExtra.none : RowExtra := ⟨[], [], acxZero false, [], [], 0⟩

/-- Conversion of a Bool flag set with a NaN check: IV where a NaN is consumed (R57). -/
def passValue (x : Acx) : Flagged Acx := if x.toNum.isNaN then (acxNaN, flIV) else (x, 0)

/-- Dropout of one element with draw d (R542). -/
def dropout (x p : Acx) (d : Nat) : Flagged Acx :=
  let pv := p.toNum
  if pv.isNaN || pv.isInf || (pv.neg? && !pv.isZero) || leNum (.fin false 1 0) pv then (acxNaN, flIV)
  else if ltNum (uniformValue d) pv then acxMul x (acxZero false)
  else match x.toNum, (addNum (.fin false 1 0) (negNum pv)).1 with
    | .fin n m e, .fin _ k f => if m = 0 then (acxZero n, 0) else roundRatio n m k (e - f)
    | .inf n, _ => (acxInf n, 0)
    | _, _ => (acxNaN, flIV)

/-- The sampler update of one element, with e0 the chain value (R246). -/
def samplerUpdate (e : RowExtra) (j : Nat) (e0 : Acx) : Flagged Acx :=
  let term := fun i => (e.terms.getD i []).getD j (acxZero false, 0)
  let c := fun i => e.coef.getD i (acxZero false)
  (List.range 8).foldl (fun acc i =>
    if !bit e.mask i then acc
    else
      let t : Flagged Acx :=
        if i = 2 then (e0, 0)
        else if i = 7 then
          (acxMul e0 (c 9)).bind (fun q => (term 0).bind (fun l => (acxFma l (c 8) q).bind (fun d =>
            (acxMax d (acxNeg (c 10)).1).bind (fun m => acxMin m (c 10)))))
        else term i
      acc.bind (fun a => t.bind (fun v => acxFma v (c i) a))) (acxZero false, 0)

/-- One element through one value stage other than ROTARY (Table 02-7). -/
def stageElem (st : Stage) (i : Nat) (ops : List OpData) (key : RowKey) (ex : RowExtra) (k r j : Nat) (x : Acx) : Flagged Acx :=
  let a := fun (f : Acx → Flagged Acx) => (operandAt ops st.a k r j).bind f
  let ab := fun (f : Acx → Acx → Flagged Acx) => (operandAt ops st.a k r j).bind (fun a => (operandAt ops st.b k r j).bind (fun b => f a b))
  match st.op with
  | 0x00 => (x, 0)
  | 0x01 => a (acxAdd x)
  | 0x02 => a (acxSub x)
  | 0x03 => a (acxMul x)
  | 0x04 => ab (acxFma x)
  | 0x05 => acxNeg x
  | 0x06 => acxAbs x
  | 0x07 => a (acxMax x)
  | 0x08 => a (acxMin x)
  | 0x09 => ab (fun a b => (acxMax x a).bind (fun m => acxMin m b))
  | 0x0A => ab (acxFma x)
  | 0x0B => a (acxAdd x)
  | 0x0C => boundedDiv 0x0C 1 acxOne x
  | 0x0D => boundedRoot 0x0D true x
  | 0x0E => boundedRoot 0x0E false x
  | 0x0F => a (boundedDiv 0x0F 2 x)
  | 0x10 => acxExp x
  | 0x11 => acxExp2 x
  | 0x12 => acxLog 0x12 x
  | 0x13 => acxLog 0x13 x
  | 0x14 => acxTanh x
  | 0x15 => acxSigmoid x
  | 0x16 => acxErf x
  | 0x17 => acxTrig 0x17 x
  | 0x18 => acxTrig 0x18 x
  | 0x19 => (passValue x).bind (fun v => acxPoly v ((coeffsAt ops st.a).take (st.imm + 1)))
  | 0x1A => acxMax x (acxZero false)
  | 0x1B => acxGelu 0x1B x
  | 0x1C => acxGelu 0x1C x
  | 0x1D => acxGelu 0x1D x
  | 0x1E => a (acxGated 0x1E x)
  | 0x1F => a (acxGated 0x1F x)
  | 0x20 => acxSoftplus x
  | 0x27 => ab (acxNormApply x (ex.mean.getD j (acxZero false)) (ex.var.getD j (acxZero false)) ex.eps)
  | 0x28 => ab (fun u g => (acxSub x u).bind (fun d => acxFma g d u))
  | 0x29 => samplerUpdate ex j x
  | 0x2A => (acxOf (decodeElem 1 (gaussNative key.table key.seed (streamId 2 i key.step key.id) (key.base + j)).1), 0)
  | 0x2B => (acxOf (uniformValue (key.draw 2 i j)), 0)
  | 0x2C => a (fun p => dropout x p (key.draw 2 i j))
  | _ => (x, 0)

/-- x × c − y × s and x × s + y × c, each exact and rounded once (R168). -/
def rotatePair (x y c s : Acx) : Flagged Acx × Flagged Acx :=
  let dot := fun (a b p q : Num) => (mulNum a p).bind (fun u => (mulNum b q).bind (fun v => addNum u v))
  (roundFlagged (dot x.toNum (negNum y.toNum) c.toNum s.toNum), roundFlagged (dot x.toNum y.toNum s.toNum c.toNum))

/-- ROTARY over a row of n logical columns (R543): element j is the first or the second of its pair. The last column of a MATMUL_LIST
entry whose N_ACTUAL is odd has no pair and passes (log entry 94). -/
def rotaryRow (st : Stage) (ops : List OpData) (k r : Nat) (n : Nat) (row : List (Flagged Acx)) : List (Flagged Acx) :=
  let at' := fun j => row.getD j (acxZero false, 0)
  (List.range row.length).map (fun j =>
    let first := if st.imm = 0 then decide (j % 2 = 0) else decide (j < n / 2)
    let i := if first then j else if st.imm = 0 then j - 1 else j - n / 2
    let i2 := if st.imm = 0 then i + 1 else i + n / 2
    if row.length ≤ i2 then at' j
    else (at' i).bind (fun x => (at' i2).bind (fun y =>
      (operandAt ops st.a k r i).bind (fun c => (operandAt ops st.b k r i).bind (fun s =>
        if first then (rotatePair x y c s).1 else (rotatePair x y c s).2)))))

/-- Round to BF16 after each stage of a packed chain (R38). -/
def packRound (x : Flagged Acx) : Flagged Acx := x.bind (fun v => let r := roundOut 2 0 false 0 v.toNum; (acxOf (decodeElem 2 r.1), r.2))

/-- One stage over a row; each element carries the flags raised for it so far. -/
def stageRow (packed : Bool) (st : Stage) (i : Nat) (ops : List OpData) (key : RowKey) (ex : RowExtra) (k r n : Nat)
    (row : List (Flagged Acx)) : List (Flagged Acx) :=
  if opClass st.op ≠ 1 then row
  else
    let out := if st.op = opRotary then rotaryRow st ops k r n row
      else (List.range row.length).map (fun j => (row.getD j (acxZero false, 0)).bind (stageElem st i ops key ex k r j))
    if packed then out.map packRound else out

/-- The value stages of a chain over one row. -/
def valueRow (packed : Bool) (p : Param) (ops : List OpData) (key : RowKey) (ex : RowExtra) (k r n : Nat) (row : List (Flagged Acx)) :
    List (Flagged Acx) :=
  (List.range p.stages.length).foldl (fun acc i => stageRow packed (p.stages.getD i ⟨0, 15, 15, 0⟩) i ops key ex k r n acc) row

/-! ## Statistics (R171) -/

/-- The sum over blocks of 256, block results combined in ascending order. -/
def blockSum (f : Acx → Acx → Flagged Acx) (xs : List Acx) : Flagged Acx :=
  let blocks := mapFlagged (fun b => b.foldl (fun (acc : Flagged Acx) x => Flagged.bind acc (fun a => f a x)) (acxZero false, 0)) (chunks 256 xs)
  match blocks.1 with
  | [] => (acxZero false, 0)
  | b :: bs => let r := bs.foldl (fun (acc : Flagged Acx) x => Flagged.bind acc (fun a => acxAdd a x)) (b, 0); (r.1, blocks.2 ||| r.2)

def rowSum (xs : List Acx) : Flagged Acx := blockSum acxAdd xs
def rowSumSq (xs : List Acx) : Flagged Acx := blockSum (fun a x => acxFma x x a) xs
def rowMax (xs : List Acx) : Flagged Acx := xs.foldl (fun (acc : Flagged Acx) x => Flagged.bind acc (fun a => acxMax a x)) (acxInf true, 0)

/-- One ACX quotient by a count, rounded to odd. -/
def acxDivNat (x : Acx) (n : Nat) : Flagged Acx :=
  match x.toNum with
  | .fin s m e => if m = 0 then (acxZero s, 0) else roundRatio s m n e
  | .inf s => (acxInf s, 0)
  | .nan => (acxNaN, flIV)

/-- sumsq ÷ n − mean², formed exactly and rounded once to odd (R171 step 4). -/
def acxVariance (sumsq mean : Acx) (n : Nat) : Flagged Acx :=
  let m2 := (mulNum mean.toNum mean.toNum).bind (mulNum (.fin false n 0))
  let d := m2.bind (fun m => addNum sumsq.toNum (negNum m))
  d.bind (fun v => match v with
    | .fin s m e => if m = 0 then (acxZero s, 0) else roundRatio s m n e
    | .inf s => (acxInf s, 0)
    | .nan => (acxNaN, flIV))

/-- Mean and variance of n elements (R171 step 4, R198); RMS sets the mean to +0 and the variance to sumsq ÷ n. -/
def statsOf (rms : Bool) (n : Nat) (xs : List Acx) : Flagged (Acx × Acx) :=
  let sq := rowSumSq xs
  if rms then let q := acxDivNat sq.1 n; ((acxZero false, q.1), sq.2 ||| q.2)
  else
    let sm := rowSum xs
    let mean := acxDivNat sm.1 n
    let v := acxVariance sq.1 mean.1 n
    ((mean.1, v.1), sq.2 ||| sm.2 ||| mean.2 ||| v.2)

/-- The values a row's statistic stages write: (slot, value). -/
def rowStats (p : Param) (xs : List Acx) : Flagged (List (Nat × Acx)) :=
  p.stages.foldl (fun acc st =>
    let add := fun (l : List (Nat × Acx)) (f : Flags) => (acc.1 ++ l, acc.2 ||| f)
    match st.op with
    | 0x22 => let m := rowMax xs; add [(st.a, m.1)] m.2
    | 0x23 => let m := rowSum xs; add [(st.a, m.1)] m.2
    | 0x24 => let m := rowSumSq xs; add [(st.a, m.1)] m.2
    | 0x26 => let m := statsOf false xs.length xs; add [(st.a, m.1.1), (st.b, m.1.2)] m.2
    | _ => acc) ([], 0)

/-! ## The final rounding of a row -/

/-- A rounded row: codes, scales, flags of each column, and elements that were non-zero and became zero. -/
structure OutRow where
  codes : List Nat
  scales : List Nat
  flags : List Flags
  flushed : Nat
deriving DecidableEq, Repr

/-- Round a row to a format under a command's OUT field (R37, R66, R69, R70). -/
def roundRow (fmt mode : Nat) (sat : Bool) (key : RowKey) (row : List (Flagged Acx)) : OutRow :=
  let draw := fun j => if mode = 2 then key.draw 1 0 j else 0
  if fmtMx fmt then
    let n := row.length
    let idx := chunks 32 (List.range n)
    let bs := idx.map (fun js => quantBlock fmt mode sat (js.map draw) (js.map (fun j => (row.getD j (acxZero false, 0)).1.toNum)))
    { codes := bs.flatMap QBlock.codes, scales := bs.map QBlock.scale,
      flags := (List.range n).map (fun j => (row.getD j (acxZero false, 0)).2 ||| (if j % 32 = 0 then (bs.getD (j / 32) ⟨0, [], 0, 0⟩).flags else 0)),
      flushed := (bs.map QBlock.flushed).sum }
  else
    let rs := (List.range row.length).map (fun j => let x := row.getD j (acxZero false, 0); let r := roundOut fmt mode sat (draw j) x.1.toNum; (r.1, x.2 ||| r.2, x.1))
    { codes := rs.map (·.1), scales := [], flags := rs.map (·.2.1),
      flushed := (rs.filter (fun r => !r.2.2.toNum.isZero && !r.2.2.toNum.isNaN && (decodeElem fmt r.1).isZero)).length }

end Sys2Proof.Machine
end

