-- ==== Sys2Proof/Machine/Digest.lean ====
section
/-! DEFINITION. Tensor digests: the record of Table 20-4 and its CRC (R503 to R506). -/

namespace Sys2Proof.Machine

/-- One bit of the reflected CRC-64 of R504. -/
def crcBit (c : Nat) : Nat := if c % 2 = 1 then c / 2 ^^^ 0xC96C5795D7870F42 else c / 2

def crcByte (c b : Nat) : Nat :=
  crcBit (crcBit (crcBit (crcBit (crcBit (crcBit (crcBit (crcBit (c ^^^ b))))))))

/-- CRC-64 of a byte stream; 0 for no covered elements (R504). -/
def crc64 (bs : List Nat) : Nat := if bs.isEmpty then 0 else (bs.foldl crcByte (2 ^ 64 - 1)) ^^^ (2 ^ 64 - 1)

/-- One covered row: its codes and block scales. -/
abbrev DigestRow := List Nat × List Nat

/-- The bytes a row contributes (R504). -/
def digestStream (fmt : Nat) (r : DigestRow) : List Nat :=
  (List.range r.1.length).flatMap (fun j =>
    let c := r.1.getD j 0
    let e := if fmtBits fmt = 32 then [c % 256, c / 256 % 256, c / 2 ^ 16 % 256, c / 2 ^ 24 % 256]
      else if fmtBits fmt = 16 then [c % 256, c / 256 % 256] else [c]
    if fmtMx fmt && j % 32 == 0 then r.2.getD (j / 32) 0 :: e else e)

/-- √ of a finite non-negative ACX value, exact and rounded to odd once (R503). -/
def exactSqrt (x : Acx) : Acx :=
  match x.toNum with
  | .fin false m e =>
    if m = 0 then acxZero false
    else if e % 2 = 0 then (roundRootRatio m 1 (e / 2)).1 else (roundRootRatio (2 * m) 1 ((e - 1) / 2)).1
  | .inf false => acxInf false
  | _ => acxNaN

/-- The 128-byte record over covered rows in logical order (R503, Table 20-4). -/
def digestRecord (fmt entry flushed : Nat) (rows : List DigestRow) : List Byte :=
  let vals := rows.flatMap (fun r => (RowData.elems fmt ⟨r.1, r.2⟩).map (fun e => (e.decode).1))
  let fin := vals.filter (fun v => !v.toNum.isNaN && !v.toNum.isInf)
  let n := fin.length
  -- a non-finite element keeps its position in its block and contributes nothing
  let blockFold := fun (f : Acx → Acx → Flagged Acx) =>
    ((chunks 256 vals).map (fun b => b.foldl (fun a x => if x.toNum.isNaN || x.toNum.isInf then a else (f a x).1) (acxZero false)))
  let total := fun (l : List Acx) => match l with | [] => acxZero false | b :: bs => bs.foldl (fun a x => (acxAdd a x).1) b
  let sum := total (blockFold acxAdd)
  let sq := total (blockFold (fun a x => acxFma x x a))
  let ext := fun (f : Acx → Acx → Flagged Acx) => match fin with | [] => acxNaN | v :: vs => vs.foldl (fun a x => (f a x).1) v
  let rms := exactSqrt (acxDivNat sq n).1
  let rmsOdd := if n = 0 then acxNaN else rms
  [1, BitVec.ofNat 8 fmt] ++ toLe 2 entry ++ toLe 4 0 ++ toLe 8 vals.length
    ++ toLe 8 (vals.filter (fun v => v.toNum.isNaN)).length ++ toLe 8 (vals.filter (fun v => v.toNum.isInf)).length
    ++ toLe 8 flushed ++ toLe 8 (crc64 (rows.flatMap (digestStream fmt))) ++ toLe 16 0
    ++ (ext acxMin).image ++ (ext acxMax).image
    ++ (if n = 0 then acxNaN else (acxDivNat sum n).1).image ++ rmsOdd.image

end Sys2Proof.Machine
end

