-- ==== Sys2Proof/Machine/Linear.lean ====
section
/-! DEFINITION. What every array and vector command shares: the environment it runs in, the operand matrices of a product with their
prologue (R148 to R152, R163 to R169), the reduction, the chain and the writing of its rows, the layout into tiles (R156) and the
result of beginning a command. -/

namespace Sys2Proof.Machine

/-! ## The environment of a command -/

/-- Where a command runs: whose addresses, its 128 bytes, and the program that carries it. -/
structure Env where
  ctx : Ctx
  cmd : List Byte
  run : Option Run
  idx : Nat            -- its index in the program's command list
deriving DecidableEq, Repr

def Env.layer (e : Env) : Nat := le e.cmd 4 2
def Env.operator (e : Env) : Nat := le e.cmd 6 2
def Env.ctrl (e : Env) : Nat := le e.cmd 1 1
def Env.wantsDigest (e : Env) : Bool := bit e.ctrl 1
/-- A field of the body or the header, by byte offset. -/
def Env.f (e : Env) (off n : Nat) : Nat := le e.cmd off n

/-- A running step program: hand-off programs are none (R265; log entry 7). -/
def Env.step (e : Env) : Option Run := match e.run with | some r => if r.handoff then none else some r | none => none

def penRows (desc : List Byte) : Nat := le desc 8 4
def penLatCols (desc : List Byte) : Nat := le desc 12 4
def penLatFormat (desc : List Byte) : Nat := le desc 3 1
def penHistDepth (desc : List Byte) : Nat := le desc 2 1
def penHistFormat (desc : List Byte) : Nat := le desc 4 1

/-- The image of a Remuda entry. -/
def State.entry (s : State) (e : Nat) : Entry := Store.get Entry.free s.remuda.entries e
def State.setEntry (s : State) (e : Nat) (v : Entry) : State :=
  { s with remuda := { s.remuda with entries := Store.set Entry.free s.remuda.entries e v } }

def imgSeed (i : Nat) : Nat := leN i 24 8
def imgStep (i : Nat) : Nat := leN i 8 4
def imgUser (i : Nat) : Nat := leN i 108 4
def imgLength (i : Nat) : Nat := leN i 20 4

/-- The slot a batch row belongs to (R239, R265). -/
def slotOfRow (run : Run) (r : Nat) : Nat := r / penRows run.desc % max run.bound 1

/-- The slot-local row (R265). -/
def localRow (run : Run) (r : Nat) : Nat :=
  let rows := penRows run.desc
  r / (max run.bound 1 * rows) * rows + r % rows

/-- The keys of one output row (R264, R265). -/
def State.rowKey (s : State) (e : Env) (nc r : Nat) : RowKey :=
  let id := e.layer * 65536 + e.operator
  let table := s.obj oRngGaussTable
  match e.step with
  | some run =>
    let img := (s.entry (run.batch.getD (slotOfRow run r) 4096)).image
    ⟨imgSeed img, imgStep img % 2 ^ 24, id, nc * localRow run r, table⟩
  | none => ⟨match e.ctx with | some t => s.obj (oTenantRngSeed t) | none => 0, 0, id, nc * r, table⟩

/-! ## What beginning a command gives -/

/-- One covered output for the digest: its format, its Remuda entry (0xFFFF outside programs), flushed elements, rows. -/
structure DigestPart where
  slot : Nat
  entry : Nat
  fmt : Nat
  flushed : Nat
  rows : List DigestRow
deriving DecidableEq, Repr

/-- Segment partials by (row, column, segment): one ACX value of a product, D + 2 values of an attention row at column 0. -/
abbrev Partials := List ((Nat × Nat × Nat) × List Acx)

/-- What a command with FUSE_MODE 1 or 2 knows of its collective: its ranks, its own rank and the partials that have landed. -/
structure Fuse where
  n : Nat
  rank : Nat
  remote : Partials
deriving DecidableEq, Repr

/-- First row and number of rows rank k owns of m (R175, R216). -/
def ownedRows (m n k : Nat) : Nat × Nat :=
  let per := ceilDiv m (max n 1)
  (min (k * per) m, min ((k + 1) * per) m - min (k * per) m)

/-- What executing a command gives, once its checks passed. -/
structure Work where
  writes : List (Nat × Byte)
  flags : Flags                 -- raised outside any tile
  tiles : List Tile
  stationary : List Stationary
  digest : List DigestPart
  wait : Wait
  stats : List (Nat × Nat)      -- counters it adds to: (key, amount)
  marks : List Nat              -- batch slots whose FINISH_MARK it sets (R281)
  partials : Partials           -- segment partials: of rows other ranks own in a product (R175), of every row in an ATTEND (R210, R216)
  bufs : List Nat               -- bitstream buffers an ENCODE with OP 1 names (R304)
deriving DecidableEq, Repr

def Work.none : Work := ⟨[], 0, [], [], [], Wait.none, [], [], [], []⟩

def Work.and (a b : Work) : Work :=
  ⟨a.writes ++ b.writes, a.flags ||| b.flags, a.tiles ++ b.tiles, a.stationary ++ b.stationary, a.digest ++ b.digest,
    if a.wait = Wait.none then b.wait else a.wait, a.stats ++ b.stats, a.marks ++ b.marks, a.partials ++ b.partials, a.bufs ++ b.bufs⟩

/-- A command's checks, and its work when they pass. -/
abbrev Plan := Checks × Except Fail Work

/-- Work that met a fault fails with it. -/
def workOf (x : Except AccFault Work) : Except Fail Work := match x with | .ok w => .ok w | .error f => .error f.fail

/-- The fields every OUT byte has: rounding mode below 3, rsvd zero (R66). -/
def outChecks (e : Env) (off rsvdFrom : Nat) : Checks :=
  need 0 off (decide (e.f off 1 % 4 < 3) && e.f off 1 / 2 ^ rsvdFrom == 0)

def outMode (x : Nat) : Nat := x % 4
def outSat (x : Nat) : Bool := bit x 2

/-! ## Operand matrices -/

/-- A matrix as its rows of elements along K. -/
abbrev Mat := List (List MElem)

def rowElems (fmt : Nat) (r : RowData) : List MElem :=
  let es := r.elems fmt
  (List.range es.length).map (fun i => ⟨r.codes.getD i 0, es.getD i ⟨.nan, 127⟩⟩)

/-- Exchange rows and columns of an n-column matrix. -/
def transpose (n : Nat) (m : Mat) : Mat := (List.range n).map (fun j => m.map (fun row => row.getD j MElem.zero))

/-- A row no prologue stage has raised a flag for. -/
def unflagged (r : List MElem) : List (Flagged MElem) := r.map (fun x => (x, (0 : Flags)))

/-- Read the matrix of dimensions 0 and 1 at a batch index, `n1` rows of `n0` elements. -/
def State.readMat (s : State) (c : Ctx) (t : Tensor) (batch : List Nat) (n0 n1 : Nat) : Except AccFault Mat := do
  let rows ← s.readRows c t n0 ((List.range n1).map (fun i => i :: batch))
  return rows.map (rowElems t.fmt)

/-- The element as an ACX value (stage 4 of Table 06-6). -/
def MElem.acx (x : MElem) : Flagged Acx := x.el.decode

/-- Round an ACX value to the prologue's format, nearest-even, SAT 0 (R169). -/
def proRound (fmt : Nat) (v : Flagged Acx) : Flagged MElem :=
  let r := roundOut fmt 0 false 0 v.1.toNum
  (⟨r.1, ⟨decodeElem fmt r.1, 127⟩⟩, v.2 ||| r.2)

/-- The pairs of R168 along K: for index k, whether it is rotated, whether it is the first of its pair, its partner and j. -/
structure RotIndex where
  rotated : Bool
  first : Bool
  partner : Nat
  j : Nat
deriving DecidableEq, Repr

def rotIndex (layout headDim off dims k : Nat) : RotIndex :=
  let i := k % headDim
  let base := k - i
  if off ≤ i ∧ i < off + dims then
    let q := i - off
    if layout = 0 then
      (if q % 2 = 0 then ⟨true, true, base + i + 1, q / 2⟩ else ⟨true, false, base + i - 1, q / 2⟩)
    else
      let h := dims / 2
      (if q < h then ⟨true, true, base + i + h, q⟩ else ⟨true, false, base + i - h, q - h⟩)
  else ⟨false, true, k, 0⟩

/-- Rotary tables: the rows of cosines and sines read, by position, and the tables' position extent. -/
structure RotTable where
  cos : List (Nat × List (Flagged Acx))
  sin : List (Nat × List (Flagged Acx))
  npos : Nat
deriving DecidableEq, Repr

/-- Element j of a table's row at a position. -/
def rotAt (l : List (Nat × List (Flagged Acx))) (pos j : Nat) : Flagged Acx :=
  match l.find? (fun x => x.1 == pos) with | some x => x.2.getD j (acxZero false, 0) | none => (acxZero false, 0)

/-- Rotate a row of ACX values at a position; past the tables it is left as it is and IV is raised (R168). -/
def rotateRow (layout headDim off dims : Nat) (tb : RotTable) (pos : Nat) (row : List (Flagged Acx)) : List (Flagged Acx) :=
  (List.range row.length).map (fun k =>
    let x := row.getD k (acxZero false, 0)
    let ri := rotIndex layout headDim off dims k
    if !ri.rotated then x
    else if tb.npos ≤ pos then (x.1, x.2 ||| flIV)
    else
      let y := row.getD ri.partner (acxZero false, 0)
      let c := rotAt tb.cos pos ri.j
      let s := rotAt tb.sin pos ri.j
      x.bind (fun xv => y.bind (fun yv => c.bind (fun cv => s.bind (fun sv =>
        if ri.first then (rotatePair xv yv cv sv).1 else (rotatePair yv xv cv sv).2)))))

/-- A row with the flags its elements raised, joined. -/
def joinRow (row : List (Flagged MElem)) : Flagged (List MElem) := (row.map (·.1), orFlags (row.map (·.2)))

/-! ## Reduction of one product -/

/-- The segment partials of one element and the tree over them: (partial flags, value, tree flags). -/
structure Reduced where
  segFlags : List Flags
  value : Acx
  endFlags : Flags
deriving DecidableEq, Repr

/-- One output element from its two K rows (R74); `segLen` is L of R73. -/
def reducePair (mode group segLen : Nat) (lineage : Bool) (a b : List MElem) : Reduced :=
  if lineage then
    let r := lineageAccumulate (List.zipWith (fun x y => (x.el.v, y.el.v)) a b)
    ⟨[r.2], r.1, 0⟩
  else
    let ps := (chunks segLen (List.zipWith (fun x y => (x.el, y.el)) a b)).map (segmentPartial mode group)
    let t := combineTree mode 7 (ps.map (·.1))
    ⟨ps.map (·.2), t.1, t.2⟩

/-! ## Writing rows -/

/-- One finished row of an output. -/
structure RowOut where
  r : Nat                        -- flattened row (bound)
  idx : List Nat                 -- outer index
  out : OutRow
  stats : List (Nat × Nat)       -- codes of its statistics, by slot
  statFlags : Flags
  hist : List (Flagged Nat)      -- codes of the chain value entering SAMPLER_UPDATE, where history is kept
deriving DecidableEq, Repr

/-- The OUT field, format and shape a chain's rows end in. -/
structure Finish where
  fmt : Nat
  mode : Nat
  sat : Bool
  packed : Bool
  nc : Nat                       -- N_c of R265
  cols : Nat                     -- logical columns (R543)
  hist : Option Nat              -- the format SAMPLER_UPDATE's E0 is kept in, where the pen keeps history (R246)
  padCols : Nat                  -- columns R164 adds to every statistic
deriving DecidableEq, Repr

/-- A statistic rounded to its vector's format: nearest-even (R171), and SAT 0, which the rule does not name (log entry 93). -/
def statCode (ops : List OpData) (q : Nat × Acx) : Flagged (Nat × Nat) :=
  match ops.getD q.1 .none with
  | .perRow t _ => let r := roundOut t.fmt 0 false 0 q.2.toNum; ((q.1, r.1), r.2)
  | _ => ((q.1, 0), 0)

/-- The chain and the final rounding over one row. -/
def chainRow (p : Param) (ops : List OpData) (f : Finish) (key : RowKey) (ex : RowExtra) (k r : Nat) (idx : List Nat)
    (row : List (Flagged Acx)) : RowOut :=
  let vals := valueRow f.packed p ops key ex k r f.cols row
  let st := rowStats p (vals.map (·.1) ++ List.replicate f.padCols (acxZero false))
  let si := p.stages.findIdx (fun x => x.op == opSampler)
  let e0 := if f.hist.isSome ∧ si < p.stages.length then valueRow f.packed { p with stages := p.stages.take si } ops key ex k r f.cols row else []
  let sc := mapFlagged (statCode ops) st.1
  ⟨r, idx, roundRow f.fmt f.mode f.sat key vals, sc.1, st.2 ||| sc.2, e0.map (fun v => roundOut (f.hist.getD 1) 0 false 0 v.1.toNum)⟩

/-- The flags of a finished row, column by column; those of its statistics go to its last column. -/
def RowOut.colFlags (x : RowOut) : List Flags :=
  let n := x.out.flags.length
  (List.range n).map (fun j => x.out.flags.getD j 0 ||| (x.hist.getD j (0, 0)).2 ||| (if j + 1 = n then x.statFlags else 0))

/-- The cells that write finished rows to a tensor, row by row, each row's elements before its scales: where they overlap, the order in which
they stand is the model's (log entry 107). -/
def State.writeRows (s : State) (c : Ctx) (t : Tensor) : List RowOut → Except AccFault (List (Nat × Byte))
  | [] => .ok []
  | x :: xs => do
    let a ← s.writeRow c t x.idx x.out.codes
    let b ← s.writeScales c t x.idx x.out.scales
    let r ← s.writeRows c t xs
    return a ++ b ++ r

/-- The cells that write the statistic vectors: only the positions of the rows that were computed (R160, R171). -/
def State.writeStats (s : State) (c : Ctx) (p : Param) (ops : List OpData) (rows : List RowOut) : Except AccFault (List (Nat × Byte)) :=
  (statSlots p 16).foldlM (fun (acc : List (Nat × Byte)) n =>
    match ops.getD n .none with
    | .perRow t _ => do
      let w ← s.writeElems c t [] ((List.range (t.e 0)).map (fun r =>
        (rows.find? (fun x => x.r == r)).bind (fun x => (x.stats.find? (fun q => q.1 == n)).map (fun q => q.2))))
      return acc ++ w
    | _ => .ok acc) []

/-- The digest parts of finished rows: one outside programs, one per slot inside (R503, R505). -/
def digestParts (e : Env) (fmt : Nat) (rows : List RowOut) : List DigestPart :=
  if !e.wantsDigest then []
  else match e.run with
    | none => [⟨0, 0xFFFF, fmt, (rows.map (fun x => x.out.flushed)).sum, rows.map (fun x => (x.out.codes, x.out.scales))⟩]
    | some run =>
      (List.range run.batch.length).map (fun sl =>
        let mine := sortBy (fun x => localRow run x.r) (rows.filter (fun x => slotOfRow run x.r == sl))
        ⟨sl, run.batch.getD sl 0xFFFF, fmt, (mine.map (fun x => x.out.flushed)).sum, mine.map (fun x => (x.out.codes, x.out.scales))⟩)

/-! ## Layout (R156) -/

/-- Rows and columns of a tile shape by its number of streams (Table 02-3). -/
def shapeRows (arr : Nat) : Nat := 512 / arr
def shapeCols (arr : Nat) : Nat := 256 * arr

/-- Streams of SHAPE codes 1 to 3: Broad, Even, Narrow. -/
def shapeStreams (code : Nat) : Nat := if code = 1 then 1 else if code = 2 then 2 else 4

/-- The cut of [lo, hi) into pieces of n: (start, length). -/
def cut (lo hi n : Nat) : List (Nat × Nat) :=
  (List.range (ceilDiv (hi - lo) n)).map (fun i => (lo + i * n, min n (hi - lo - i * n)))

/-- What a layout needs of a product. -/
structure Lay where
  prod : Nat
  m : Nat
  n : Nat
  s : Nat                       -- segments computed here
  all : Nat                     -- S of the command: what a grant is for (R158)
  shape : Nat
  mapping : Nat
  slices : List Nat             -- slices of each segment
deriving DecidableEq, Repr

def mkTile (l : Lay) (spread : Bool) (arr seg st : Nat) (r c : Nat × Nat) : Tile :=
  ⟨l.prod, r.1, r.2, c.1, c.2, seg, arr, l.slices.getD seg 0, 0, st, if l.all > 1 then .waitGrant else .fill,
    if l.all > 1 then 16 * l.all * 131072 else 0, 0, false, 0, 0, false, false, spread⟩

/-- The tiles of a product over the active stables of a partition's quarters, quarter by quarter (R156). -/
def layoutTiles (quarters : List (List Nat)) (l : Lay) : List Tile :=
  let qs := quarters.filter (fun q => !q.isEmpty)
  let m := qs.length
  if m = 0 then []
  else
    let p := ceilDiv l.m (16 * m)
    let gang := if l.mapping = 0 then decide (128 ≤ p) else l.mapping == 1
    let rowsFor := if gang then p else l.m
    let arr := if l.shape = 0 then (if 384 ≤ rowsFor then 1 else if 192 ≤ rowsFor then 2 else 4) else shapeStreams l.shape
    let cols := cut 0 l.n (shapeCols arr)
    if gang then
      ((cut 0 l.m (max 1 (ceilDiv l.m m))).zip qs).flatMap (fun bq =>
        let blk := bq.1
        ((cut blk.1 (blk.1 + blk.2) (max 1 (ceilDiv blk.2 bq.2.length))).zip bq.2).flatMap (fun rs =>
          (cut rs.1.1 (rs.1.1 + rs.1.2) (shapeRows arr)).flatMap (fun rt =>
            cols.flatMap (fun ct => (List.range l.s).map (fun sg => mkTile l false arr sg rs.2 rt ct)))))
    else
      let units := (cut 0 l.m (shapeRows arr)).flatMap (fun rt => cols.flatMap (fun ct => (List.range l.s).map (fun sg => (rt, ct, sg))))
      (List.range units.length).filterMap (fun u =>
        match units[u]? with
        | some x =>
          let q := qs.getD (u % m) []
          some (mkTile l true arr x.2.2 (q.getD (u / m % max q.length 1) 0) x.1 x.2.1)
        | none => none)

/-- The flags a tile holds: those of the prologue for its own rows and columns and of its segment's partials, and, in an output tile's last
segment, those of the tree and the chain (R40, R169). -/
def tileFlags (s : Nat) (t : Tile) (rowFlags colFlags : Nat → Nat → Flags) (red : Nat → Nat → Reduced) (cf : Nat → Nat → Flags) : Flags :=
  orFlags ((List.range t.cols).map (fun j => colFlags (t.col0 + j) t.seg)) |||
  orFlags ((List.range t.rows).map (fun i =>
    rowFlags (t.row0 + i) t.seg ||| orFlags ((List.range t.cols).map (fun j =>
      let x := red (t.row0 + i) (t.col0 + j)
      x.segFlags.getD t.seg 0 ||| (if t.seg + 1 = s then x.endFlags ||| cf (t.row0 + i) (t.col0 + j) else 0)))))

/-- A tile for work that streams no weights: it drains as it is assigned (vector-unit commands; log entry 8). -/
def vectorTile (quarters : List (List Nat)) (flags : Flags) : List Tile :=
  match quarters.flatten with
  | [] => []
  | st :: _ => [⟨0, 0, 0, 0, 0, 0, 1, 0, 0, st, .drain, 0, 0, false, 0, flags, false, false, false⟩]

/-! ## Partitions -/

/-- The partition a quarter belongs to (Table 15's PARTITION_LAYOUT: byte q, low bits). -/
def State.quarterPartition (s : State) (q : Nat) : Nat := leN (s.obj oPartitionLayout) q 1

/-- The quarters of a partition, ascending. -/
def State.partitionQuarters (s : State) (p : Nat) : List Nat := indicesWhere 8 (fun q => s.quarterPartition q == p)

/-- The value an object would have once a transaction's writes are applied (R433). -/
def stagedVal (s : State) (staged : List (Nat × Nat)) (key : Nat) : Nat :=
  match staged.find? (fun w => w.1 == key) with | some w => w.2 | none => s.obj key

/-- The quarters whose partition or mode a transaction changes (R434). -/
def State.changedQuarters (s : State) (staged : List (Nat × Nat)) : List Nat :=
  let v := stagedVal s staged
  indicesWhere 8 (fun q =>
    let p' := leN (v oPartitionLayout) q 1
    p' != s.quarterPartition q || v (oPartitionSchedMode p') != s.obj (oPartitionSchedMode (s.quarterPartition q)))

/-- A physical stable: as shipped, physical 17q + i serves logical 16q + i and 17q + 16 is the spare (R12). -/
def stableShipped (p : Nat) : Stable :=
  if p % 17 = 16 then ⟨1, none, [], [], none, none, [], 0, []⟩ else ⟨0, some (16 * (p / 17) + p % 17), [], [], none, none, [], 0, []⟩

def State.stable (s : State) (p : Nat) : Stable := (Store.find? s.exec.stables p).getD (stableShipped p)

/-- The active stables of a quarter, ascending in physical number. -/
def State.activeStables (s : State) (q : Nat) : List Nat :=
  ((List.range 17).map (fun i => 17 * q + i)).filter (fun p => (s.stable p).service == 0)

/-- A stable may be given a tile: its epoch and its quarter's are the device's (R488). -/
def State.stableCurrent (s : State) (p : Nat) : Bool :=
  (s.stable p).epoch == s.obj oDeviceEpoch && Store.get 0 s.exec.quarterEpochs (p / 17) == s.obj oDeviceEpoch

/-- The quarters of a tenant's partition with their active stables. -/
def State.tenantQuarters (s : State) (c : Ctx) : List (List Nat) :=
  match c with
  | some t => (s.partitionQuarters (s.obj (oTenantPartition t))).map s.activeStables
  | none => (List.range 8).map s.activeStables

/-- A partition without an active stable fails its array commands (R46, R485). -/
def noStables (qs : List (List Nat)) : Bool := qs.flatten.isEmpty

end Sys2Proof.Machine
end

