-- ==== Sys2Proof/Machine/Sampler.lean ====
section
/-! DEFINITION. The addresses a step program's rows resolve to (R235, R239, R248), Course rows (R245), the sampler's terms (R246,
R249) and the rows a reused gate tile masks (R258). -/

namespace Sys2Proof.Machine

/-! ## Entry image and pen descriptor fields -/

def imgKind (i : Nat) : Nat := leN i 2 1
def imgState (i : Nat) : Nat := leN i 3 1
def imgPen (i : Nat) : Nat := leN i 4 1
def imgFlags (i : Nat) : Nat := leN i 5 1
def imgAutoRetire (i : Nat) : Bool := bit (imgFlags i) 0
def imgCur (i : Nat) : Nat := bits (imgFlags i) 1 1
def imgGateValid (i : Nat) : Bool := bit (imgFlags i) 2
def imgFinish (i : Nat) : Bool := bit (imgFlags i) 3
def imgHistHead (i : Nat) : Nat := bits (imgFlags i) 4 2
def imgTotal (i : Nat) : Nat := leN i 12 4
def imgGuidance (i : Nat) : Nat := leN i 16 4
def imgCourse (i : Nat) : Nat := leN i 32 8
def imgLat (i k : Nat) : Nat := leN i (40 + 8 * k) 8
def imgHist (i j : Nat) : Nat := leN i (56 + 8 * j) 8
def imgGateAddr (i : Nat) : Nat := leN i 88 8
def imgGateTau (i : Nat) : Nat := leN i 96 4
def imgGateUsed (i : Nat) : Nat := leN i 100 4
def imgParent (i : Nat) : Nat := leN i 104 2
def imgGateReused (i : Nat) : Nat := leN i 112 4

/-- A field of a pen descriptor (Table 09-3). -/
def penField (desc : List Byte) (off n : Nat) : Nat := le desc off n
def penWl (desc : List Byte) (handoff : Bool) : Nat := if handoff then le desc 40 8 else le desc 32 8

/-- Where the HOLD area starts: the first multiple of 64 past the vectors (R239). -/
def holdBase (desc : List Byte) (handoff : Bool) (b : Nat) : Nat :=
  penWl desc handoff + alignUp (256 + 640 * b + 8 * b * penRows desc) 64

/-- Bytes of one latent row. -/
def latRowBytes (desc : List Byte) : Nat := rowBytes (penLatFormat desc) (penLatCols desc)
def histRowBytes (desc : List Byte) : Nat := rowBytes (penHistFormat desc) (penLatCols desc)

/-- HIST_AGE a (R235). -/
def histAge (desc : List Byte) (img a : Nat) : Nat :=
  let d := penHistDepth desc
  imgHist img ((imgHistHead img + 4 * (d + 1) - a) % (d + 1))

/-- The address of a view source for a slot, 0 where there is none (R235, R248). -/
def viewSource (desc : List Byte) (handoff hold : Bool) (bound slot img src : Nat) : Nat :=
  match src with
  | 1 => imgLat img (imgCur img)
  | 2 => imgLat img (1 - imgCur img)
  | 3 => histAge desc img 0
  | 4 => histAge desc img 1
  | 5 => histAge desc img 2
  | 6 => histAge desc img 3
  | 7 => if hold then holdBase desc handoff bound + slot * penRows desc * latRowBytes desc else imgLat img (1 - imgCur img)
  | _ => 0

/-! ## Course rows (Table 09-7) -/

structure CourseRow where
  steps : Nat
  clamp : Nat          -- FP32 codes
  c : List Nat
  dx : Nat
  de : Nat
  g : Nat
  t : Nat
  mask : Nat
  ok : Bool            -- the header and the row keep Table 09-7
deriving DecidableEq, Repr

/-- A finite FP32 code. -/
def fp32Finite (c : Nat) : Bool := match decodeElem 1 c with | .fin _ _ _ => true | _ => false
/-- An FP32 code as ACX. -/
def fp32Acx (c : Nat) : Acx := acxOf (decodeElem 1 c)
/-- Round an ACX value to an FP32 code, nearest-even (R240, R253, R259). -/
def toFp32 (v : Acx) : Flagged Nat := roundOut 1 0 false 0 v.toNum

/-- The header of a Course table keeps Table 09-7. -/
def courseHeaderOk (h : List Byte) : Bool :=
  le h 0 1 == 1 && decide (le h 1 1 ≤ 7) && decide (1 ≤ le h 2 2) && decide (le h 2 2 ≤ 4096) && fp32Finite (le h 4 4)
    && (h.drop 8).all (fun b => b == 0)

/-- Read row k of a Course table; past its STEPS, or under a header that breaks Table 09-7, no row is read (R243, R245). -/
def State.courseRow (s : State) (c : Ctx) (addr k : Nat) : Except AccFault CourseRow := do
  let h ← s.readVa c addr 64
  let r ← (if courseHeaderOk h && decide (k < le h 2 2) then s.readVa c (addr + 64 + 64 * k) 64 else .ok [])
  let cs := (List.range 8).map (fun i => le r (4 * i) 4)
  let m := le r 48 1
  let ok := courseHeaderOk h && decide (k < le h 2 2) && (cs ++ [le r 32 4, le r 36 4, le r 40 4, le r 44 4]).all fp32Finite
    && (r.drop 49).all (fun b => b == 0)
    && (!bit m 7 || ltNum (.fin false 0 0) (decodeElem 1 (le h 4 4)))
  return ⟨le h 2 2, le h 4 4, cs, le r 32 4, le r 36 4, le r 40 4, le r 44 4, m, ok⟩

/-! ## Terms of the sampler update -/

/-- A row of contiguous elements. -/
def State.readPlainRow (s : State) (c : Ctx) (fmt addr n : Nat) : Except AccFault (List (Flagged Acx)) := do
  let b ← s.readVa c addr (rowBytes fmt n)
  return (unpackCodes (fmtBits fmt) n b).map (fun x => (acxOf (decodeElem fmt x), (0 : Flags)))

/-- What SAMPLER_UPDATE reads for batch row r (R246, R249); an unselected term is not read. -/
def State.samplerExtra (s : State) (c : Ctx) (run : Run) (r : Nat) : Except AccFault RowExtra := do
  let desc := run.desc
  let slot := slotOfRow run r
  let img := (s.entry (run.batch.getD slot 4096)).image
  let lr := r % penRows desc
  let n := penLatCols desc
  let row ← s.courseRow c (imgCourse img) (imgStep img)
  let lat := fun src => s.readPlainRow c (penLatFormat desc) (viewSource desc run.handoff false run.bound slot img src + lr * latRowBytes desc) n
  let hist := fun a => s.readPlainRow c (penHistFormat desc) (histAge desc img a + lr * histRowBytes desc) n
  let l ← if bit row.mask 0 || bit row.mask 7 then lat 1 else .ok []
  let lp ← if bit row.mask 1 then lat 2 else .ok []
  let e1 ← if bit row.mask 3 then hist 1 else .ok []
  let e2 ← if bit row.mask 4 then hist 2 else .ok []
  let e3 ← if bit row.mask 5 then hist 3 else .ok []
  let z := if bit row.mask 6 then (List.range n).map (fun j =>
      (fp32Acx (gaussNative (s.obj oRngGaussTable) (imgSeed img) (0x10000 + imgStep img) (lr * n + j)).1, (0 : Flags))) else []
  return ⟨[], [], acxZero false, [l, lp, [], e1, e2, e3, z],
    (row.c ++ [row.dx, row.de, row.clamp]).map fp32Acx, row.mask⟩

/-- Where the sampler writes batch row r: HOLD in a step that has one, LAT_NEXT else (R247, R248). -/
def samplerDest (run : Run) (img r : Nat) : Nat :=
  let desc := run.desc
  if run.hold then holdBase desc run.handoff run.bound + r * latRowBytes desc
  else imgLat img (1 - imgCur img) + r % penRows desc * latRowBytes desc

/-- The format E0 is kept in where a command's sampler keeps history (R246). -/
def Env.histFormat (e : Env) : Option Nat :=
  e.step.bind (fun run => if penHistDepth run.desc = 0 then none else some (penHistFormat run.desc))

/-- The cells the sampler writes for its rows: the new latent, and E0 into HIST_AGE 0 when the pen keeps history (R246, R247). -/
def State.samplerWrites (s : State) (c : Ctx) (run : Run) : List RowOut → Except AccFault (List (Nat × Byte))
  | [] => .ok []
  | x :: xs => do
    let desc := run.desc
    let img := (s.entry (run.batch.getD (slotOfRow run x.r) 4096)).image
    let a ← s.cellsVa c (samplerDest run img x.r) (toLe (latRowBytes desc) (packCodes (fmtBits (penLatFormat desc)) x.out.codes))
    let hist := toLe (histRowBytes desc) (packCodes (fmtBits (penHistFormat desc)) (x.hist.map (·.1)))
    let h ← (if penHistDepth desc = 0 then .ok []
      else s.cellsVa c (histAge desc img 0 + x.r % penRows desc * histRowBytes desc) hist)
    let rest ← s.samplerWrites c run xs
    return a ++ h ++ rest

/-! ## Reused gate tiles -/

/-- The gate block a command of the list lies in (R257). -/
def gateBlockOf (desc : List Byte) (idx : Nat) : Option Nat :=
  (List.range (bits (le desc 5 1) 1 4)).find? (fun b => decide (le desc (384 + 32 * b) 2 ≤ idx) && decide (idx ≤ le desc (386 + 32 * b) 2))

/-- A batch row the step-reuse gate masks in this command (R258). -/
def rowMasked (e : Env) (r : Nat) : Bool :=
  match e.step with
  | none => false
  | some run => match gateBlockOf run.desc e.idx with
    | none => false
    | some b => run.reuse.contains (b, slotOfRow run r, r % penRows run.desc / 256)

end Sys2Proof.Machine
end

