-- ==== Sys2Proof/Machine/Matmul.lean ====
section
/-! DEFINITION. What MATMUL and MATMUL_LIST compute (R148 to R155, R163 to R176): their checks, their operands with the prologue, and
their rows. -/

namespace Sys2Proof.Machine

/-! ## Prologue fields (Table 06-3) -/

structure Prologue where
  transA : Bool
  transB : Bool
  gatherA : Bool
  expandB : Bool
  rotA : Bool
  rotB : Bool
  layout : Nat
  fmt : Nat
  headDim : Nat
  off : Nat
  dims : Nat
  gatherAddr : Nat
  uAddr : Nat
  cosAddr : Nat
  sinAddr : Nat
  posAddr : Nat
deriving DecidableEq, Repr

def parsePrologue (b : List Byte) : Prologue :=
  let pro := le b 2 1
  ⟨bit pro 0, bit pro 1, bit pro 2, bit pro 3, bit pro 4, bit pro 5, bits pro 6 1, le b 3 1, le b 4 2, le b 6 2, le b 8 2,
    le b 16 8, le b 24 8, le b 32 8, le b 40 8, le b 48 8⟩

def Prologue.anyRot (p : Prologue) : Bool := p.rotA || p.rotB
/-- A stage 5 or 6 applies to some operand, so PRO_FORMAT is in use (R169). -/
def Prologue.rounds (p : Prologue) : Bool := p.expandB || p.anyRot

/-- The prologue fields keep Table 06-3: each is in range when its stage is enabled and 0 when it is not (R152). -/
def prologueChecks (p : Prologue) (pro : Nat) (k : Nat) : Checks :=
  let rot := p.anyRot
  allChecks
   [need 9 2 (decide (pro < 128) && (rot || p.layout == 0)),
    need 9 3 (if p.rounds then p.fmt == 2 || p.fmt == 4 else p.fmt == 0),
    need 9 4 (if rot then decide (2 ≤ p.headDim) && decide (p.headDim ≤ 1024) && p.headDim % 2 == 0 && k % p.headDim == 0 else p.headDim == 0),
    need 9 6 (if rot then decide (p.off + 2 ≤ p.headDim) && p.off % 2 == 0 else p.off == 0),
    need 9 8 (if rot then decide (2 ≤ p.dims) && decide (p.dims + p.off ≤ p.headDim) && p.dims % 2 == 0 else p.dims == 0),
    need 9 16 (if p.gatherA then p.gatherAddr % 4 == 0 else p.gatherAddr == 0),
    need 9 24 (p.expandB || p.uAddr == 0),
    need 9 32 (rot || p.cosAddr == 0),
    need 9 40 (rot || p.sinAddr == 0),
    need 9 48 (if rot then p.posAddr % 4 == 0 else p.posAddr == 0)]

/-- Rotary tables named from a parameter block: FP32 or BF16, h columns, equal extents (R168). -/
def State.rotTensors (s : State) (c : Ctx) (cosAddr sinAddr h offCos offSin : Nat) : Checks × Tensor × Tensor :=
  let ct := s.tensorAt c cosAddr 9 (some offCos) false false true
  let st := s.tensorAt c sinAddr 9 (some offSin) false false true
  let fine := fun (t : Tensor) => (t.fmt == 1 || t.fmt == 2) && t.rank == 2 && t.ext.getD 0 0 == h
  (allChecks [ct.1, st.1, given ct.2.got (need 9 offCos (fine ct.2)), given st.2.got (need 9 offSin (fine st.2)),
    given (ct.2.got && st.2.got) (need 9 offSin (st.2.ext == ct.2.ext))], ct.2, st.2)

/-- The rows of a table at some positions, those it has. -/
def State.tableRows (s : State) (c : Ctx) (t : Tensor) (npos : Nat) (pos : List Nat) :
    Except AccFault (List (Nat × List (Flagged Acx))) :=
  ((pos.filter (· < npos)).eraseDups).mapM (fun p => (s.readRow c t [p] (t.l 0)).map (fun d => (p, decodeRow t.fmt d)))

/-- The rotary rows a command's positions name; a position past the extent of either table is in neither (R168). -/
def State.rotRows (s : State) (c : Ctx) (t : Tensor × Tensor) (pos : List Nat) : Except AccFault RotTable := do
  let n := min (t.1.l 1) (t.2.l 1)
  let a ← s.tableRows c t.1 n pos
  let b ← s.tableRows c t.2 n pos
  return ⟨a, b, n⟩

/-! ## A product -/

/-- The fields of LANE and OUT, shared by MATMUL, MATMUL_LIST and CONV (Table 06-2). -/
structure LaneCtl where
  mode : Nat
  lineage : Bool
  shape : Nat
  mapping : Nat
deriving DecidableEq, Repr

def parseLane (x : Nat) : LaneCtl := ⟨x % 8, bit x 3, bits x 4 2, bits x 6 2⟩

/-- One product, its operands ready for the lanes, each element with the flags of its prologue (R169). -/
structure Product where
  a : List (List (Flagged MElem))      -- rows of A along K
  b : List (List (Flagged MElem))      -- columns of B along K
  mode : Nat
  s : Nat
  all : Nat                            -- S of the command
  segLen : Nat
  fmtA : Nat
  fmtB : Nat
  lineage : Bool
deriving DecidableEq, Repr

/-- Row i of A, column j of B, as the lanes take them. -/
def Product.rowA (p : Product) (i : Nat) : List MElem := (p.a.getD i []).map (·.1)
def Product.colB (p : Product) (j : Nat) : List MElem := (p.b.getD j []).map (·.1)

def Product.reduce (p : Product) (i j : Nat) : Reduced :=
  reducePair p.mode (groupElems p.fmtA p.fmtB) p.segLen p.lineage (p.rowA i) (p.colB j)

/-- The values of output row i, columns in order. -/
def Product.row (p : Product) (i : Nat) : List Reduced := (List.range p.b.length).map (p.reduce i)

/-- K positions of the product. -/
def Product.k (p : Product) : Nat := (p.a.headD []).length

/-- Lane-cycles each segment takes (R23, R73, R81). -/
def Product.slices (p : Product) : List Nat :=
  let per := if p.lineage then 16 else laneCycleElems p.fmtA p.fmtB
  (List.range p.s).map (fun g => ceilDiv (min p.segLen (p.k - g * p.segLen)) per)

/-- A masked position of an operand row (R34). -/
def MElem.mask (x : MElem) : MElem := { x with el := { x.el with scale := 256 } }

/-- The operands as the lanes take them (R21, R22, R28); the rows the gate masks are masked at every position (R34, R258). -/
def Product.stationary (p : Product) (keep : Nat → Bool) : Stationary :=
  ⟨p.fmtA, p.fmtB, p.mode, p.lineage, p.segLen,
    (List.range p.a.length).map (fun i => if keep i then p.rowA i else (p.rowA i).map MElem.mask), (List.range p.b.length).map p.colB⟩

/-- The prologue's flags of one row within segment g. -/
def Product.segFlags (p : Product) (row : List (Flagged MElem)) (g : Nat) : Flags :=
  orFlags (((row.drop (g * p.segLen)).take p.segLen).map (·.2))

/-- The rows and tiles of a product: what its chain leaves, and its tiles with their flags (R40, R156). `keep` names rows that are
computed (R258), `own` rows whose chain runs here (R175); `fused`: the tree runs over partials of other ranks too, in `chain`, and its flags and
the chain's are no tile's. -/
def Product.finish (p : Product) (q : List (List Nat)) (lay : Lay) (fused : Bool) (keep own : Nat → Bool)
    (chain : Nat → List (Flagged Acx) → RowOut) : List RowOut × List Tile :=
  let reds := (List.range p.a.length).map (fun i => if keep i then (p.row i).map (fun r => if fused then { r with endFlags := 0 } else r) else [])
  let rows := (List.range p.a.length).map (fun i => if own i then some (chain i ((reds.getD i []).map (fun r => (r.value, (0 : Flags))))) else none)
  let cfs := rows.map (fun r => match r with | some x => x.colFlags | none => [])
  let tiles := (layoutTiles q lay).map (fun t =>
    { t with flags := tileFlags p.s t (fun i g => if keep i then p.segFlags (p.a.getD i []) g else 0) (fun j g => p.segFlags (p.b.getD j []) g)
                        (fun i j => (reds.getD i []).getD j ⟨[], acxZero false, 0⟩) (fun i j => if keep i && !fused then (cfs.getD i []).getD j 0 else 0),
             masks := (List.range t.rows).all (fun i => !keep (t.row0 + i)) })
  (((List.range p.a.length).filter keep).filterMap (fun i => rows.getD i none), tiles.filter (fun t => !t.masks))

/-- The lay of a product over the walkers. -/
def Product.lay (p : Product) (prod n : Nat) (l : LaneCtl) : Lay := ⟨prod, p.a.length, n, p.s, p.all, l.shape, l.mapping, p.slices⟩

/-- Pad rows along K with +0 positions (R163). -/
def padK (k : Nat) (m : Mat) : Mat := m.map (fun r => r ++ List.replicate (k - r.length) MElem.zero)

/-- Rotate and round the rows of an operand that stages 5 and 6 touch; other rows pass as they are (R168, R169). -/
def finishOperand (p : Prologue) (rot : Bool) (tb : RotTable) (pos : List Nat) (rows : List (List (Flagged Acx))) : List (List (Flagged MElem)) :=
  (List.range rows.length).map (fun i =>
    let r := rows.getD i []
    let r' := if rot then rotateRow p.layout p.headDim p.off p.dims tb (pos.getD i 0) r else r
    r'.map (proRound p.fmt))

/-- The elements of a row decoded into ACX (stage 4). -/
def acxRow (r : List MElem) : List (Flagged Acx) := r.map MElem.acx

/-- Operand A of one product: gather, pad, decode, rotary (Table 06-6). -/
def State.operandA (s : State) (c : Ctx) (p : Prologue) (t : Tensor) (batch : List Nat) (m k kp : Nat) (gather pos : List Nat) (tb : RotTable) :
    Except AccFault (List (List (Flagged MElem))) := do
  let tableRows := if p.transA then t.l 0 else t.l 1
  let rowsOf : Mat ← (if p.transA then (s.readMat c t batch (if p.gatherA then tableRows else m) k).map (transpose (if p.gatherA then tableRows else m))
    else if p.gatherA then do
      -- only the rows the indices name are read
      let rs ← s.readRows c t k ((gather.filter (· < tableRows)).map (fun i => i :: batch))
      return rs.map (rowElems t.fmt)
    else s.readMat c t batch k m)
  let rows : List (List (Flagged MElem)) :=
    if !p.gatherA then rowsOf.map unflagged
    else
      let inRange := gather.filter (· < tableRows)
      gather.map (fun i =>
        if tableRows ≤ i then List.replicate k (MElem.zero, flIV)
        else unflagged (if p.transA then rowsOf.getD i [] else rowsOf.getD (inRange.findIdx (· == i)) []))
  let padded := rows.map (fun r => r ++ List.replicate (kp - r.length) (MElem.zero, (0 : Flags)))
  if p.rotA then
    let done := finishOperand p true tb pos (padded.map (fun r => acxRow (r.map (·.1))))
    return List.zipWith (fun d r => List.zipWith (fun (x y : Flagged MElem) => ((x.1, x.2 ||| y.2) : Flagged MElem)) d r) done padded
  else
    -- stage 4 carries the scales to the lanes; a NaN scale raises IV when the element is used (R72)
    return padded

/-- Operand B of one product: pad, latent expansion over `r` latent positions, rotary (Table 06-6, R167). The expansion of a block-scaled
latent or U keeps 32-element groups and scales each group's sum, which the spec does not settle (log entry 95). -/
def State.operandB (s : State) (c : Ctx) (p : Prologue) (t : Tensor) (batch : List Nat) (n k kp r : Nat) (u : Mat) (uFmt : Nat) (pos : List Nat)
    (tb : RotTable) : Except AccFault (List (List (Flagged MElem))) := do
  if p.expandB then do
    let lat : Mat ← (if p.transB then (s.readMat c t batch n r).map (transpose n) else s.readMat c t batch r n)
    let rows := lat.map (fun l => u.map (fun ur =>
      let x := reducePair 0 (groupElems uFmt t.fmt) r false ur l
      ((x.value, orFlags x.segFlags ||| x.endFlags) : Flagged Acx)))
    let padded := rows.map (fun r => r ++ List.replicate (kp - r.length) ((acxZero false, 0) : Flagged Acx))
    return finishOperand p p.rotB tb pos padded
  else do
    let cols : Mat ← (if p.transB then (s.readMat c t batch n k).map (transpose n) else s.readMat c t batch k n)
    let padded := padK kp cols
    if p.rotB then return finishOperand p true tb pos (padded.map acxRow)
    else return padded.map unflagged

/-! ## MATMUL -/

/-- A format pairs a block-scaled operand with a wide one (R56). -/
def badPair (a b : Nat) : Bool := (fmtMx a && decide (fmtBits b > 8)) || (fmtMx b && decide (fmtBits a > 8))

/-- The codes of LANE that no operand decides (Table 06-2, R32). -/
def laneCodes (off : Nat) (l : LaneCtl) : Checks := need 0 off (decide (l.mode ≤ 6) && l.mapping != 3)

/-- LANE against the operands and S (R32, R80). `fa` and `fb` are the formats the operands have behind the prologue: whether R80 means
those or the descriptors' the spec does not say (log entry 96). -/
def laneChecks (s : State) (off : Nat) (l : LaneCtl) (fa fb sseg : Nat) : Checks :=
  need 0 off ((l.mode != 6 || (fmtIsInt fa && !fmtMx fa && fmtIsInt fb && !fmtMx fb))
    && (!l.lineage || (s.obj oLineageModeEnable == 1 && fa == 2 && fb == 2 && l.mode == 0 && sseg == 1)))

/-- The format an operand has when it reaches the lanes (R169). -/
def laneFmt (p : Prologue) (rounds : Bool) (fmt : Nat) : Nat := if rounds then p.fmt else fmt

/-- The command stands in a step program of a trajectory pen (R247). -/
def Env.inTrajectory (e : Env) : Bool := match e.step with
  | none => false
  | some run => le run.desc 1 1 == 1

/-- A chain that ends in SAMPLER_UPDATE's latent. -/
def hasSampler (p : Param) : Bool := p.stages.any (fun x => x.op == opSampler)

/-- The parameter block of a command that can carry SAMPLER_UPDATE (R247). -/
def samplerBlock (b : List Byte) : Option Nat :=
  match le b 0 1 with | 0x01 => some (le b 112 8) | 0x02 => some (le b 104 8) | 0x08 => some (le b 104 8) | _ => none

def State.carriesSampler (s : State) (c : Ctx) (b : List Byte) : Bool :=
  match samplerBlock b with
  | some a => match s.readVa c a 256 with | .ok p => hasSampler (parseParam p) | .error _ => false
  | none => false

/-- SAMPLER_UPDATE may stand in this command: a step program of a trajectory pen, and no earlier command of the list carries it (R247). -/
def State.samplerHere (s : State) (e : Env) : Bool :=
  e.inTrajectory && (match e.run with
    | none => false
    | some r => !(List.range e.idx).any (fun j => match s.readVa e.ctx (r.listAddr + 64 + 128 * j) 128 with
      | .ok b => s.carriesSampler e.ctx b
      | .error _ => false))

/-- What C's descriptor, structure k, must look like under SAMPLER_UPDATE (R247). -/
def samplerChecks (e : Env) (p : Param) (c : Tensor) (k : Nat) : Checks :=
  match hasSampler p, e.step with
  | true, some run =>
    if le run.desc 1 1 != 1 then Checks.none
    else allChecks [need k 0 (c.base == 0), need k 8 (c.fmt == penLatFormat run.desc), need k 9 (c.rank == 2), need k 10 (c.pred == 1),
      need k 16 (c.ext.getD 0 0 == penLatCols run.desc), need k 20 (c.ext.getD 1 0 == run.bound * penRows run.desc),
      need k 108 (c.log.getD 1 0 == run.batch.length * penRows run.desc)]
  | _, _ => Checks.none

/-- The cells of finished rows: the tensor's, or the latents' under SAMPLER_UPDATE (R247). -/
def State.rowCells (s : State) (e : Env) (p : Param) (c : Tensor) (rows : List RowOut) : Except AccFault (List (Nat × Byte)) :=
  match hasSampler p, e.run with
  | true, some run => s.samplerWrites e.ctx run rows
  | _, _ => s.writeRows e.ctx c rows

/-- The extra inputs of a row: the sampler's terms where the chain has SAMPLER_UPDATE. -/
def State.rowExtra (s : State) (e : Env) (p : Param) (r : Nat) : Except AccFault RowExtra :=
  match hasSampler p, e.run with
  | true, some run => s.samplerExtra e.ctx run r
  | _, _ => .ok RowExtra.none

/-- The extras of several rows. -/
def State.rowExtras (s : State) (e : Env) (p : Param) : List Nat → Except AccFault (List RowExtra)
  | [] => .ok []
  | r :: rs => do
    let x ← s.rowExtra e p r
    let xs ← s.rowExtras e p rs
    return x :: xs

/-- A parameter block at an address: its checks, and its bytes. -/
def State.paramAt (s : State) (c : Ctx) (addr n : Nat) : Checks × List Byte :=
  match s.readVa c addr n with | .ok b => (Checks.none, b) | .error f => (⟨[], [f]⟩, [])

/-- What MATMUL and MATMUL_LIST share of their operands: descriptors, prologue, logical extents and formats. Where the descriptors that carry
an extent differ under PRED_MODE 1 the smaller holds, as R178 has it for CHAIN (log entry 92). -/
structure MatOps where
  a : Tensor
  b : Tensor
  c : Tensor
  pr : Prologue
  u : Tensor                   -- U of EXPAND_B
  aRows : Nat                  -- logical rows of A's descriptor
  n : Nat                      -- logical N
  k : Nat                      -- logical K before padding
  kPad : Nat                   -- logical K (R159, R163)
  r : Nat                      -- latent positions (R167)
  fa : Nat                     -- formats behind the prologue
  fb : Nat
  kDim : Nat
  mDim : Nat
  kDimB : Nat
  nDim : Nat
deriving DecidableEq, Repr

def matOps (a b c u : Tensor) (pr : Prologue) : MatOps :=
  let kDim := if pr.transA then 1 else 0
  let kDimB := if pr.transB then 1 else 0
  let k := min (a.l kDim) (if pr.expandB then u.l 1 else b.l kDimB)
  ⟨a, b, c, pr, u, a.l (1 - kDim), min (b.l (1 - kDimB)) (c.l 0), k, if a.pad = 1 ∨ b.pad = 1 then alignUp k 128 else k,
    min (b.l kDimB) (u.l 0), laneFmt pr pr.rotA a.fmt, laneFmt pr (pr.rotB || pr.expandB) b.fmt, kDim, 1 - kDim, kDimB, 1 - kDimB⟩

/-- The columns R164 adds to every statistic of an entry with n columns. -/
def MatOps.padCols (o : MatOps) (n : Nat) : Nat := if o.b.pad = 1 then alignUp n 128 - n else 0

/-- The shape rules of Table 06-1 that both commands have, and R56. `kp`: the parameter block could be read. -/
def MatOps.checks (o : MatOps) (kp freeM : Bool) : Checks :=
  let A := o.a
  let B := o.b
  let C := o.c
  allChecks
    [given (A.got && B.got && kp) (need 2 (16 + 4 * o.kDimB) (o.pr.expandB || B.e o.kDimB == A.e o.kDim)),
     given (B.got && kp) (need 2 (16 + 4 * o.kDimB) (!o.pr.expandB || decide (B.e o.kDimB ≤ 1024))),
     given (B.got && C.got && kp) (need 3 16 (C.e 0 == B.e o.nDim)),
     given (A.got && C.got && kp) (need 3 20 (freeM || o.pr.gatherA || C.e 1 == A.e o.mDim)),
     given (A.got && B.got && kp) ((need 1 8 (!(badPair o.fa o.fb && !fmtMx o.fa))).and (need 2 8 (!(badPair o.fa o.fb && fmtMx o.fa)))),
     given (A.got && B.got && o.u.got && o.pr.expandB) (allChecks
      [need 9 24 (o.u.rank == 2 && o.u.e 0 == B.e o.kDimB && o.u.e 1 == A.e o.kDim),
       -- U and the latent are a product of their own (R56, R167)
       need 2 8 (!(badPair o.u.fmt B.fmt && fmtMx o.u.fmt)), need 9 24 (!(badPair o.u.fmt B.fmt && fmtMx B.fmt))])]

/-- The logical K is known: the operands and whatever else decides it could be read. -/
def MatOps.kKnown (o : MatOps) (kp : Bool) : Bool :=
  o.a.logd && kp && decide (2 ≤ o.a.rank) && decide (2 ≤ o.b.rank) && (if o.pr.expandB then o.u.logd else o.b.logd)

/-- What the parameter block names of its own: U and the rotary tables. -/
def State.matU (s : State) (c : Ctx) (pr : Prologue) : Checks × Tensor :=
  if pr.expandB then s.tensorAt c pr.uAddr 9 (some 24) false false true else (Checks.none, Tensor.zero)
def State.matTables (s : State) (c : Ctx) (pr : Prologue) : Checks × Tensor × Tensor :=
  if pr.anyRot then s.rotTensors c pr.cosAddr pr.sinAddr (pr.dims / 2) 32 40 else (Checks.none, Tensor.zero, Tensor.zero)

/-- The rows of U along K. -/
def State.matURows (s : State) (c : Ctx) (o : MatOps) : Except AccFault Mat :=
  if o.pr.expandB then (s.readRows c o.u o.r ((List.range o.k).map (fun i => [i]))).map (fun l => l.map (rowElems o.u.fmt)) else .ok []

/-- The operands of one product: rows of A and columns of B as the lanes take them, from index arrays at their own addresses. -/
def State.matPair (s : State) (c : Ctx) (o : MatOps) (tabs : Tensor × Tensor) (uM : Mat) (ba bb : List Nat) (rows n gatherAt : Nat) :
    Except AccFault (List (List (Flagged MElem)) × List (List (Flagged MElem))) := do
  let gather ← (if o.pr.gatherA then s.readArray c gatherAt 4 rows else .ok [])
  let pos ← (if o.pr.anyRot then s.readArray c o.pr.posAddr 4 (max (if o.pr.rotA then rows else 0) (if o.pr.rotB then n else 0)) else .ok [])
  let tb ← (if o.pr.anyRot then s.rotRows c tabs pos else .ok ⟨[], [], 0⟩)
  let a ← s.operandA c o.pr o.a ba rows o.k o.kPad gather pos tb
  let b ← s.operandB c o.pr o.b bb n o.k o.kPad o.r uM o.u.fmt pos tb
  return (a, b)

/-- MATMUL's checks and its work (R151 to R155, R159 to R169). `fz` gives the ranks, the own rank and the landed partials of a
fused command (R174, R175). -/
def planMatmul (s : State) (e : Env) (fz : Option Fuse) : Plan :=
  let c := e.ctx
  let at' := s.tensorAt c (e.f 88 8) 1 none false true true
  let bt := s.tensorAt c (e.f 96 8) 2 none false true true
  let ct := s.tensorAt c (e.f 104 8) 3 none true false true
  let pb := s.paramAt c (e.f 112 8) 256
  let p := parseParam pb.2
  let pr := parsePrologue pb.2
  let u := s.matU c pr
  let tb := s.matTables c pr
  let o := matOps at'.2 bt.2 ct.2 u.2 pr
  let A := o.a
  let B := o.b
  let C := o.c
  let lane := parseLane (e.f 121 1)
  let fuse := e.f 123 1 % 4
  let segBase := e.f 123 1 / 4
  let S := e.f 120 1
  let nRank := (fz.map Fuse.n).getD 1
  let rk := (fz.map Fuse.rank).getD 0
  let m := if fuse = 2 ∨ pr.gatherA then C.l 1 else min o.aRows (C.l 1)
  let n := o.n
  -- all rows of the product: under FUSE_MODE 2 C holds the own ones only (R175)
  let mAll := if fuse = 2 then (if pr.gatherA then m * nRank else o.aRows) else m
  let mExt := if fuse = 2 then (if pr.gatherA then C.e 1 * nRank else A.e o.mDim) else C.e 1
  let own := if fuse = 2 then ownedRows mAll nRank rk else (0, m)
  let gk := le pb.2 12 4
  let kTotal := if fuse = 2 then gk else o.kPad
  let segLen := segmentLen kTotal S
  let segCount := ceilDiv o.kPad (max segLen 1)
  let kp := pb.1 == Checks.none
  let ranks := A.got && B.got && C.got && A.rank == B.rank && B.rank == C.rank && decide (2 ≤ A.rank) && decide (A.rank ≤ 4)
  let known := ranks && kp && A.logd && B.logd && C.logd
  let kKnown := o.kKnown kp
  let use : ChainUse := ⟨C.got, C.fmt, if known then n else 0, false, hasSampler p && s.samplerHere e, false⟩
  let batches := (List.range (A.rank - 2)).map (· + 2)
  let rankCk := allChecks [given A.got (need 1 9 (decide (2 ≤ A.rank) && decide (A.rank ≤ 4))), given (A.got && B.got) (need 2 9 (B.rank == A.rank)),
    given (A.got && C.got) (need 3 9 (C.rank == A.rank))]
  let batchCk := given ranks (allChecks (batches.map (fun d => allChecks
    [need 2 (16 + 4 * d) (B.e d == A.e d || B.e d == 1), need 1 (16 + 4 * d) (C.e d == A.e d),
     -- a B that serves every batch index has stride 0 there (R150)
     need 2 (40 + 8 * (d - 1)) (B.e d == A.e d || B.stride.getD d 0 == 0),
     need 2 (88 + 4 * (d - 1)) (B.e d == A.e d || B.sstride.getD d 0 == 0)])))
  let fuseCk := given known (allChecks
    [need 3 20 (fuse != 2 || fz.isNone || m == own.2), need 1 (16 + 4 * o.mDim) (fuse != 1 || fz.isNone || m % max nRank 1 == 0)])
  let body := allChecks
    [need 0 88 (e.f 88 8 % 128 == 0), need 0 96 (e.f 96 8 % 128 == 0), need 0 104 (e.f 104 8 % 128 == 0), need 0 112 (e.f 112 8 % 64 == 0),
     need 0 120 (decide (1 ≤ S) && decide (S ≤ 64)), given (if fuse = 2 then kp else kKnown) (need 0 120 (segmentsOk kTotal S)),
     laneCodes 121 lane, given (A.got && B.got && kp) (laneChecks s 121 lane o.fa o.fb S),
     need 0 121 (!(fuse == 2 && lane.lineage)),
     outChecks e 122 3,
     need 0 123 (fuse != 3 && (fuse == 2 || segBase == 0)),
     need 0 124 (e.f 124 4 == 0)]
  let rowsFlat := C.e 1 * (batches.map C.e).foldl (· * ·) 1
  let bIdx := outerIndices (batches.map (fun d => min (min (A.l d) (C.l d)) (if B.e d = 1 then C.l d else B.l d)))
  let bOff := fun (b : List Nat) => C.e 1 * (b.getD 0 0 + C.e 2 * b.getD 1 0)
  let last := bOff (bIdx.getLastD []) + m
  let sh : Shape := if known then ⟨true, rowsFlat, C.e 0, last, n, C.ext, [n, m] ++ ((bIdx.getLastD []).map (· + 1)), C.rank⟩
    else ⟨ranks, rowsFlat, C.e 0, 0, 0, C.ext, [], C.rank⟩
  let slots := s.slotTensors c p sh
  let parCk := given kp (allChecks
    [paramChecks p use true (fuse != 0), prologueChecks pr (le pb.2 2 1) (if kKnown then o.kPad else 0),
     need 9 12 (if fuse = 2 then decide (1 ≤ gk) else gk == 0),
     need 9 56 (if fuse = 0 then le pb.2 56 8 == 0 else le pb.2 56 8 != 0),
     given kKnown (need 9 12 (fuse != 2 || (List.range (segCount + 1)).any (fun cc => decide (1 ≤ cc) && decide (segBase + cc ≤ S)
       && o.kPad == min gk ((segBase + cc) * segLen) - segBase * segLen))),
     u.1, tb.1, slots.1, given C.got (samplerChecks e p C 3)])
  let checks := allChecks [body, at'.1, bt.1, ct.1, pb.1, rankCk, o.checks kp (fuse == 2), batchCk, fuseCk, parCk]
  let quarters := s.tenantQuarters c
  let work : Except AccFault Work := do
    let od ← s.slotsRead c p ⟨bIdx.map (fun b => (bOff b, m)), bIdx.flatMap (fun b => (List.range m).map (fun i => (i :: b, n))), n⟩ slots.2
    let uM ← s.matURows c o
    let parts ← (List.range bIdx.length).mapM (fun bi => do
      let b := bIdx.getD bi []
      let bB := (List.range b.length).map (fun i => if B.e (i + 2) = 1 then 0 else b.getD i 0)
      let ab ← s.matPair c o tb.2 uM b bB mAll n pr.gatherAddr
      let prod : Product := ⟨ab.1, ab.2, lane.mode, if fuse = 2 then segCount else S, S, segLen, o.fa, o.fb, lane.lineage⟩
      let isOwn := fun i => decide (own.1 ≤ i) && decide (i < own.1 + own.2)
      let keep := fun i => !isOwn i || !rowMasked e (i - own.1 + bOff b)
      let exs ← s.rowExtras e p ((List.range m).map (· + bOff b))
      let fin : Finish := ⟨C.fmt, outMode (e.f 122 1), outSat (e.f 122 1), false, C.e 0, n, e.histFormat, o.padCols n⟩
      let partialAt := fun (i j g : Nat) => (segmentPartial lane.mode (groupElems o.fa o.fb)
        ((chunks segLen (List.zipWith (fun x y => (x.el, y.el)) (prod.rowA i) (prod.colB j))).getD (g - segBase) [])).1
      let remote := (fz.map Fuse.remote).getD []
      -- under FUSE_MODE 2 the owner's tree runs over all S partials, whoever computed them (R175)
      let chain := fun i (vals : List (Flagged Acx)) =>
        let vals' : List (Flagged Acx) := if fuse = 2 then (List.range n).map (fun j =>
            combineTree lane.mode 7 ((List.range S).map (fun g =>
              if segBase ≤ g ∧ g < segBase + segCount then partialAt i j g
              else ((remote.find? (fun q => q.1 == (i + mAll * bi, j, g))).map (fun q => q.2.headD (acxZero false))).getD (laneIdentity lane.mode))))
          else vals
        let l := i - own.1
        -- the draws are those of the product computed whole (R176)
        let keyRow := if fuse = 2 then i + mExt * (b.getD 0 0 + C.e 2 * b.getD 1 0) else i + bOff b
        chainRow p od fin (s.rowKey e (C.e 0) keyRow) (exs.getD l RowExtra.none) (l + m * bi) (l + bOff b) (l :: b) vals'
      let r := prod.finish quarters (prod.lay bi n lane) (fuse == 2) keep isOwn chain
      let away : Partials := if fuse = 2 then ((List.range mAll).filter (fun i => !isOwn i)).flatMap (fun i =>
          (List.range n).flatMap (fun j => (List.range segCount).map (fun g => ((i + mAll * bi, j, segBase + g), [partialAt i j (segBase + g)]))))
        else []
      return (r.1, r.2, prod.stationary keep, away))
    let rows := parts.flatMap (·.1)
    let cells ← s.rowCells e p C rows
    let st ← s.writeStats c p od rows
    return { Work.none with writes := cells ++ st, tiles := parts.flatMap (·.2.1), stationary := parts.map (·.2.2.1), digest := digestParts e C.fmt rows,
                            flags := if fuse = 2 then orFlags (rows.flatMap RowOut.colFlags) else 0, partials := parts.flatMap (·.2.2.2) }
  (checks, workOf work)

/-! ## MATMUL_LIST -/

/-- A list entry computes: its extents are in bounds, its addresses aligned, its scales zero where there is none (R173). -/
def listEntryOk (en : List Byte) (A B C : Tensor) (mB nB : Nat) : Bool :=
  decide (le en 48 4 ≤ mB) && decide (le en 52 4 ≤ nB) && le en 0 8 % baseAlign A.fmt == 0 && le en 16 8 % baseAlign B.fmt == 0
    && le en 32 8 % baseAlign C.fmt == 0 && le en 56 8 == 0
    && (fmtMx A.fmt || le en 8 8 == 0) && (fmtMx B.fmt || le en 24 8 == 0) && (fmtMx C.fmt || le en 40 8 == 0)

/-- One entry of a list: its 64 bytes, whether it breaks R173, and its rows and columns, both 0 where it computes nothing. -/
structure ListEntry where
  bytes : List Byte
  bad : Bool
  m : Nat
  n : Nat
deriving DecidableEq, Repr

/-- M_ACTUAL and N_ACTUAL below the descriptors' own logical extents (R159, R173; log entry 92). A sampler's rows end at
B_ACTUAL × ROWS, the extent C's RT block yields (R247). -/
def listEntry (b : List Byte) (o : MatOps) (sampler : Bool) (i : Nat) : ListEntry :=
  let ok := listEntryOk b o.a o.b o.c (o.c.e 1) (o.c.e 0)
  let mD := if sampler then o.c.l 1 - i * o.c.e 1 else if o.pr.gatherA then o.c.l 1 else min o.aRows (o.c.l 1)
  let m := min (le b 48 4) mD
  let n := min (le b 52 4) o.n
  if ok ∧ m ≠ 0 ∧ n ≠ 0 then ⟨b, false, m, n⟩ else ⟨b, !ok, 0, 0⟩

/-- MATMUL_LIST's checks and its work (R172, R173). -/
def planMatmulList (s : State) (e : Env) : Plan :=
  let c := e.ctx
  let da := e.f 88 8
  let at' := s.tensorAt c da 1 none false true false
  let bt := s.tensorAt c (da + 128) 2 none false true false
  let ct := s.tensorAt c (da + 256) 3 none true false false
  let pb := s.paramAt c (e.f 104 8) 256
  let p := parseParam pb.2
  let pr := parsePrologue pb.2
  let u := s.matU c pr
  let tb := s.matTables c pr
  let o := matOps at'.2 bt.2 ct.2 u.2 pr
  let C := o.c
  let lane := parseLane (e.f 117 1)
  let cnt := e.f 112 4
  let S := e.f 116 1
  let mB := C.e 1
  let nB := C.e 0
  let segLen := segmentLen o.kPad S
  let kp := pb.1 == Checks.none
  let kKnown := o.kKnown kp
  let use : ChainUse := ⟨C.got, C.fmt, if C.logd ∧ o.b.logd then o.n else 0, false, hasSampler p && s.samplerHere e, false⟩
  let body := allChecks
    [need 0 88 (da % 128 == 0), need 0 96 (e.f 96 8 % 64 == 0), need 0 104 (e.f 104 8 % 64 == 0),
     need 0 112 (decide (1 ≤ cnt) && decide (cnt ≤ 65536)),
     need 0 116 (decide (1 ≤ S) && decide (S ≤ 64)), given kKnown (need 0 116 (segmentsOk o.kPad S)),
     laneCodes 117 lane, given (o.a.got && o.b.got && kp) (laneChecks s 117 lane o.fa o.fb S), outChecks e 118 3, need 0 119 (e.f 119 9 == 0)]
  let descCk := fun (i : Nat) (t : Tensor) => given t.got (allChecks [need i 0 (t.base == 0), need i 9 (t.rank == 2), need i 80 (t.sbase == 0)])
  let descs := allChecks [descCk 1 o.a, descCk 2 o.b, descCk 3 C]
  let mLog := if pr.gatherA then C.l 1 else min o.aRows (C.l 1)
  let sh : Shape := if C.logd ∧ o.a.logd ∧ o.b.logd then ⟨true, cnt * mB, nB, (cnt - 1) * mB + mLog, o.n, [nB, mB, cnt, 0, 0, 0], [o.n, mLog, cnt, 0, 0, 0], 3⟩
    else ⟨C.got, cnt * mB, nB, 0, 0, [nB, mB, cnt, 0, 0, 0], [], 3⟩
  let slots := s.slotTensors c p sh
  let parCk := given kp (allChecks
    [paramChecks p use true false, prologueChecks pr (le pb.2 2 1) (if kKnown then o.kPad else 0), need 9 12 (le pb.2 12 4 == 0),
     u.1, tb.1, slots.1, given C.got (samplerChecks e p C 3)])
  let checks := allChecks [body, at'.1, bt.1, ct.1, pb.1, descs, o.checks kp false, parCk]
  let quarters := s.tenantQuarters c
  let work : Except AccFault Work := do
    let raw ← (List.range cnt).mapM (fun i => (s.readVa c (e.f 96 8 + 64 * i) 64).map (fun b => listEntry b o (hasSampler p) i))
    let en := fun i => raw.getD i ⟨[], false, 0, 0⟩
    let live := (List.range cnt).filter (fun i => (en i).m != 0)
    let od ← s.slotsRead c p ⟨live.map (fun i => (i * mB, (en i).m)), live.flatMap (fun i => (List.range (en i).m).map (fun r => ([r, i], (en i).n))),
      (live.map (fun i => (en i).n)).foldl max 0⟩ slots.2
    let uM ← s.matURows c o
    let parts ← (List.range live.length).mapM (fun q => do
      let i := live.getD q 0
      let x := en i
      let o' := { o with a := { o.a with base := le x.bytes 0 8, sbase := le x.bytes 8 8 },
                         b := { o.b with base := le x.bytes 16 8, sbase := le x.bytes 24 8 } }
      let C' := { C with base := if hasSampler p then C.base else le x.bytes 32 8, sbase := le x.bytes 40 8 }
      let ab ← s.matPair c o' tb.2 uM [] [] x.m x.n (pr.gatherAddr + 4 * i * mB)
      let prod : Product := ⟨ab.1, ab.2, lane.mode, S, S, segLen, o.fa, o.fb, lane.lineage⟩
      let r0 := i * mB
      let k0 := ((live.take q).map (fun j => (en j).m)).sum
      let keep := fun r => !rowMasked e (r + r0)
      let exs ← s.rowExtras e p ((List.range x.m).map (· + r0))
      let fin : Finish := ⟨C.fmt, outMode (e.f 118 1), outSat (e.f 118 1), false, C.e 0, x.n, e.histFormat, o.padCols x.n⟩
      let r := prod.finish quarters (prod.lay q x.n lane) false keep (fun _ => true)
        (fun r vals => chainRow p od fin (s.rowKey e (C.e 0) (r + r0)) (exs.getD r RowExtra.none) (r + k0) (r + r0) [r] vals)
      let cells ← s.rowCells e p C' r.1
      return (r.1, r.2, prod.stationary keep, cells))
    let rows := parts.flatMap (·.1)
    let st ← s.writeStats c p od rows
    -- an entry that breaks R173 raises IV, and belongs to no tile of its own
    let bad := if raw.any ListEntry.bad then vectorTile quarters flIV else []
    return { Work.none with writes := parts.flatMap (·.2.2.2) ++ st, tiles := parts.flatMap (·.2.1) ++ bad,
                            stationary := parts.map (·.2.2.1), digest := digestParts e C.fmt rows }
  (checks, workOf work)

end Sys2Proof.Machine
end

