-- ==== Sys2Proof/Machine/Vector.lean ====
section
/-! DEFINITION. The commands the vector units and the copy engine run: CHAIN, GATHER, SCATTER_ORDERED, DISTANCE (R177 to R180), COPY
and FILL (R138), NORM (R197 to R199), POOL (R193, R194), RESAMPLE (R195, R196), NOISE (R272, R273) and TOKEN_SAMPLE (R277 to
R281): their checks and what they write. -/

namespace Sys2Proof.Machine

/-! ## Shared -/

/-- The flattened index of an outer index (i₁, i₂, …) under the bounds of the dimensions (R150, R178). -/
def flatIndex (ext idx : List Nat) : Nat :=
  (List.range idx.length).foldr (fun k acc => idx.getD k 0 + ext.getD (k + 1) 1 * acc) 0

/-- The product of a tensor's bounds above dimension 0. -/
def Tensor.outerSize (t : Tensor) : Nat := ((List.range (t.rank - 1)).map (fun d => t.e (d + 1))).foldl (· * ·) 1

/-- Equal rank and equal extents, reported at the first field of structure st that differs. -/
def sameExtents (st : Nat) (a b : Tensor) : Checks :=
  given (a.got && b.got) <| (need st 9 (a.rank == b.rank)).and (allChecks ((List.range 6).map (fun d => need st (16 + 4 * d) (a.rank != b.rank || a.ext.getD d 0 == b.ext.getD d 0))))

/-- In each dimension the smaller of two logical extents (R138, R178). -/
def meetDims (a b : Tensor) : List Nat := (List.range a.rank).map (fun d => min (a.l d) (b.l d))

/-- An aligned descriptor pointer in the body. -/
def descPtr (e : Env) (off : Nat) : Checks := need 0 off (e.f off 8 % 128 == 0)

/-- A row moved to another format: the same codes where the formats are equal, one conversion of each element else (R58, R59). -/
def movedRow (sf df mode : Nat) (sat : Bool) (key : RowKey) (r : RowData) : OutRow :=
  if sf = df then ⟨r.codes, r.scales, r.codes.map (fun _ => (0 : Flags)), 0⟩ else roundRow df mode sat key (decodeRow sf r)

/-- A finished row without chain or statistics. -/
def plainRow (r : Nat) (idx : List Nat) (o : OutRow) : RowOut := ⟨r, idx, o, [], 0, []⟩

/-- The flags of finished rows. -/
def rowsFlags (rows : List RowOut) : Flags := orFlags (rows.flatMap RowOut.colFlags)

/-- Work that only wrote rows of one tensor. -/
def State.rowsWork (s : State) (e : Env) (t : Tensor) (rows : List RowOut) (extra : Flags) : Except AccFault Work := do
  let w ← s.writeRows e.ctx t rows
  return { Work.none with writes := w, tiles := vectorTile (s.tenantQuarters e.ctx) (rowsFlags rows ||| extra), digest := digestParts e t.fmt rows }

/-! ## CHAIN -/

/-- CHAIN (R177, R178). -/
def planChain (s : State) (e : Env) : Plan :=
  let c := e.ctx
  let a := s.tensorAt c (e.f 88 8) 1 none false false true
  let d := s.tensorAt c (e.f 96 8) 2 none true false true
  let A := a.2
  let D := d.2
  let pb := s.paramAt c (e.f 104 8) 256
  let kp := pb.1 == Checks.none
  let p := parseParam pb.2
  let packed := bit (e.f 112 1) 3
  let dims := meetDims A D
  let idxs := outerIndices (dims.drop 1)
  let same := A.got && D.got && A.rank == D.rank
  let known := same && A.logd && D.logd
  let sh : Shape := if known then ⟨true, D.outerSize, D.e 0, flatIndex D.ext ((dims.drop 1).map (· - 1)) + 1, dims.headD 1, D.ext, dims, D.rank⟩
    else ⟨D.got, D.outerSize, D.e 0, 0, 0, D.ext, [], D.rank⟩
  let slots := s.slotTensors c p sh
  let checks := allChecks [descPtr e 88, descPtr e 96, need 0 104 (e.f 104 8 % 64 == 0), outChecks e 112 4,
    -- every input and output of a packed chain is BF16 (R38)
    need 0 112 (!packed || ((!A.got || A.fmt == 2) && (!D.got || D.fmt == 2) && slots.2.all (fun t => !t.got || t.fmt == 2))),
    need 0 113 (e.f 113 15 == 0), a.1, d.1, sameExtents 2 A D, pb.1,
    given kp ((paramChecks p ⟨D.got, D.fmt, if known then dims.headD 0 else 0, false, hasSampler p && s.samplerHere e, packed⟩ false false).and
      ((given D.got (samplerChecks e p D 2)).and slots.1))]
  let work : Except AccFault Work := do
    let keep := idxs.filter (fun i => !rowMasked e (flatIndex D.ext i))
    let n := dims.headD 1
    let od ← s.slotsRead c p ⟨keep.map (fun i => (flatIndex D.ext i, 1)), keep.map (fun i => (i, n)), n⟩ slots.2
    let src ← s.readRows c A n keep
    let exs ← s.rowExtras e p (keep.map (flatIndex D.ext))
    let fin : Finish := ⟨D.fmt, outMode (e.f 112 1), outSat (e.f 112 1), packed, D.e 0, n, e.histFormat, 0⟩
    let rows := (List.range keep.length).map (fun i =>
      let ix := keep.getD i []
      let r := flatIndex D.ext ix
      chainRow p od fin (s.rowKey e (D.e 0) r) (exs.getD i RowExtra.none) i r ix (decodeRow A.fmt (src.getD i ⟨[], []⟩)))
    let cells ← s.rowCells e p D rows
    let st ← s.writeStats c p od rows
    return { Work.none with writes := cells ++ st, tiles := vectorTile (s.tenantQuarters c) (rowsFlags rows), digest := digestParts e D.fmt rows }
  (checks, workOf work)

/-! ## GATHER and SCATTER_ORDERED -/

/-- The checks GATHER and SCATTER_ORDERED share: rank 2, one width, COUNT indices. `cnt`: the tensor with COUNT rows and its structure. -/
def indexedChecks (e : Env) (A D cnt : Tensor) (st : Nat) : Checks :=
  allChecks [descPtr e 88, need 0 96 (e.f 96 8 % 4 == 0), need 0 104 (decide (1 ≤ e.f 104 4) && decide (e.f 104 4 ≤ 2 ^ 24)), need 0 108 (e.f 108 4 == 0),
    need 0 112 (e.f 112 8 % 128 == 0),
    given A.got (need 1 9 (A.rank == 2)), given D.got (need 2 9 (D.rank == 2)),
    given (A.got && D.got) (need 2 16 (D.ext.getD 0 0 == A.ext.getD 0 0)), given cnt.got (need st 20 (cnt.ext.getD 1 0 == e.f 104 4))]

/-- GATHER (R177, R179): row i of the destination is table row IDX[i]; an index past the table gives zeros and IV. -/
def planGather (s : State) (e : Env) : Plan :=
  let c := e.ctx
  let a := s.tensorAt c (e.f 88 8) 1 none false false true
  let d := s.tensorAt c (e.f 112 8) 2 none true false true
  let A := a.2
  let D := d.2
  let checks := allChecks [indexedChecks e A D D 2, need 0 120 (e.f 120 8 == 0), a.1, d.1]
  let w := min (A.l 0) (D.l 0)
  let n := D.l 1
  let work : Except AccFault Work := do
    let idx ← s.readArray c (e.f 96 8) 4 n
    let src ← s.readRows c A w ((idx.filter (· < A.l 1)).map (fun i => [i]))
    let good := idx.filter (· < A.l 1)
    let rows := (List.range n).map (fun i =>
      let k := idx.getD i 0
      let key := s.rowKey e (D.e 0) i
      plainRow i [i] (if k < A.l 1 then movedRow A.fmt D.fmt 0 false key (src.getD (good.findIdx (· == k)) ⟨[], []⟩)
        else roundRow D.fmt 0 false key (List.replicate w (acxZero false, (0 : Flags)))))
    s.rowsWork e D rows (flagIf (idx.any (fun k => decide (A.l 1 ≤ k))) flIV)
  (checks, workOf work)

/-- SCATTER_ORDERED (R177, R179): every source row i with IDX[i] = d is added to destination row d, in ascending i. -/
def planScatter (s : State) (e : Env) : Plan :=
  let c := e.ctx
  let a := s.tensorAt c (e.f 88 8) 1 none false false true
  let d := s.tensorAt c (e.f 112 8) 2 none true false true
  let A := a.2
  let D := d.2
  let checks := allChecks [indexedChecks e A D A 1, outChecks e 120 3, need 0 121 (e.f 121 7 == 0), a.1, d.1]
  let w := min (A.l 0) (D.l 0)
  let work : Except AccFault Work := do
    let idx ← s.readArray c (e.f 96 8) 4 (A.l 1)
    let dst := (List.range (D.l 1)).filter (fun r => idx.contains r)
    let src ← s.readRows c A w ((List.range (A.l 1)).map (fun i => [i]))
    let old ← s.readRows c D w (dst.map (fun r => [r]))
    let rows := (List.range dst.length).map (fun i =>
      let r := dst.getD i 0
      let adds := (indicesWhere idx.length (fun k => idx.getD k 0 == r)).map (fun k => decodeRow A.fmt (src.getD k ⟨[], []⟩))
      let sums := adds.foldl (fun (acc : List (Flagged Acx)) x => (List.range w).map (fun j =>
          (acc.getD j (acxZero false, 0)).bind (fun u => (x.getD j (acxZero false, 0)).bind (fun v => acxAdd u v))))
        (decodeRow D.fmt (old.getD i ⟨[], []⟩))
      plainRow r [r] (roundRow D.fmt (outMode (e.f 120 1)) (outSat (e.f 120 1)) (s.rowKey e (D.e 0) r) sums))
    let wk ← s.rowsWork e D rows (flagIf (idx.any (fun k => decide (D.l 1 ≤ k))) flIV)
    -- the digest covers the whole destination (R181): untouched rows as memory holds them
    let all ← s.readRows c D (D.l 0) ((List.range (D.l 1)).map (fun r => [r]))
    let full := (List.range (D.l 1)).map (fun r => match rows.find? (fun x => x.r == r) with
      | some x => plainRow r [r] { x.out with codes := x.out.codes ++ ((all.getD r ⟨[], []⟩).codes.drop x.out.codes.length) }
      | none => plainRow r [r] ⟨(all.getD r ⟨[], []⟩).codes, (all.getD r ⟨[], []⟩).scales, [], 0⟩)
    return { wk with digest := digestParts e D.fmt full }
  (checks, workOf work)

/-! ## DISTANCE -/

/-- Whether entry x ranks before y: the smaller (or larger) first, ties to the lower index, NaN last (R180). -/
def ranksBefore (largest : Bool) (x y : Acx × Nat) : Bool :=
  let a := x.1.toNum
  let b := y.1.toNum
  if a.isNaN then b.isNaN && decide (x.2 < y.2)
  else if b.isNaN then true
  else if eqNum a b then decide (x.2 < y.2)
  else if largest then ltNum b a else ltNum a b

/-- Insert by a strict order. -/
def insertLt {α : Type} (lt : α → α → Bool) (x : α) : List α → List α
  | [] => [x]
  | y :: ys => if lt x y then x :: y :: ys else y :: insertLt lt x ys

def sortLt {α : Type} (lt : α → α → Bool) (l : List α) : List α := l.foldr (insertLt lt) []

/-- DISTANCE (R177, R180). -/
def planDistance (s : State) (e : Env) : Plan :=
  let c := e.ctx
  let a := s.tensorAt c (e.f 88 8) 1 none false false true
  let b := s.tensorAt c (e.f 96 8) 2 none false false true
  let o := s.tensorAt c (e.f 104 8) 3 none true false true
  let A := a.2
  let B := b.2
  let O := o.2
  let mode := e.f 120 1 % 8
  let ksel := e.f 122 2
  let S := e.f 124 1
  -- where the descriptors that carry an extent differ, the smaller holds (log entry 92)
  let k := min (A.l 0) (B.l 0)
  let n := if ksel = 0 then min (B.l 1) (O.l 0) else B.l 1
  let m := min (A.l 1) (O.l 1)
  let nOut := if ksel = 0 then n else min ksel (O.l 0)
  let checks := allChecks [descPtr e 88, descPtr e 96, descPtr e 104,
    need 0 112 (if ksel = 0 then e.f 112 8 == 0 else e.f 112 8 % 4 == 0),
    need 0 120 (decide (mode ≤ 6) && decide (e.f 120 1 < 16)),
    given (A.got && B.got) (need 0 120 (mode != 6 || (fmtIsInt A.fmt && !fmtMx A.fmt && fmtIsInt B.fmt && !fmtMx B.fmt))),
    outChecks e 121 3, need 0 122 (decide (ksel ≤ 256)), given B.logd (need 0 122 (decide (ksel ≤ n))),
    need 0 124 (decide (1 ≤ S) && decide (S ≤ 64)), given (A.logd && B.logd) (need 0 124 (segmentsOk k S)), need 0 125 (e.f 125 3 == 0),
    a.1, b.1, o.1,
    given A.got (need 1 9 (A.rank == 2)), given B.got (need 2 9 (B.rank == 2)), given O.got (need 3 9 (O.rank == 2)),
    given (A.got && B.got) (allChecks [need 2 16 (B.ext.getD 0 0 == A.ext.getD 0 0),
      need 1 8 (!(badPair A.fmt B.fmt && !fmtMx A.fmt)), need 2 8 (!(badPair A.fmt B.fmt && fmtMx A.fmt))]),
    given O.got (need 3 16 (ksel == 0 || O.ext.getD 0 0 == ksel)),
    given (O.got && B.got) (need 3 16 (ksel != 0 || O.ext.getD 0 0 == B.ext.getD 1 0)),
    given (O.got && A.got) (need 3 20 (O.ext.getD 1 0 == A.ext.getD 1 0))]
  let quarters := s.tenantQuarters c
  let work : Except AccFault Work := do
    let am ← s.readMat c A [] k m
    let bm ← s.readMat c B [] k n
    let prod : Product := ⟨am.map unflagged, bm.map unflagged, mode, S, S, segmentLen k S, A.fmt, B.fmt, false⟩
    let pick := fun (row : List Acx) => ((sortLt (ranksBefore (bit (e.f 120 1) 3)) (row.zip (List.range row.length))).take nOut)
    let r := prod.finish quarters (prod.lay 0 n ⟨mode, false, 0, 0⟩) false (fun _ => true) (fun _ => true) (fun i vals =>
      let outVals := if ksel = 0 then vals else (pick (vals.map (·.1))).map (fun x => (x.1, (0 : Flags)))
      plainRow i [i] (roundRow O.fmt (outMode (e.f 121 1)) (outSat (e.f 121 1)) (s.rowKey e (O.e 0) i) outVals))
    let w ← s.writeRows c O r.1
    -- the indices of the values written, at their own places (R160, R180)
    let iw ← (if ksel = 0 then .ok [] else (List.range m).foldlM (fun (acc : List (Nat × Byte)) i => do
      let x ← s.cellsVa c (e.f 112 8 + 4 * ksel * i) ((pick ((prod.row i).map (·.value))).flatMap (fun v => toLe 4 v.2))
      return acc ++ x) [])
    return { Work.none with writes := w ++ iw, tiles := r.2, stationary := [prod.stationary (fun _ => true)], digest := digestParts e O.fmt r.1 }
  (checks, workOf work)

/-! ## COPY and FILL -/

/-- COPY (R138). -/
def planCopy (s : State) (e : Env) : Plan :=
  let c := e.ctx
  let a := s.tensorAt c (e.f 88 8) 1 none false false true
  let d := s.tensorAt c (e.f 96 8) 2 none true false true
  let A := a.2
  let D := d.2
  let dims := meetDims A D
  let idxs := outerIndices (dims.drop 1)
  let checks := allChecks [descPtr e 88, descPtr e 96, need 0 104 (e.f 104 24 == 0), a.1, d.1, sameExtents 2 A D]
  let work : Except AccFault Work := do
    let src ← s.readRows c A (dims.headD 1) idxs
    let rows := (List.range idxs.length).map (fun i =>
      let r := flatIndex D.ext (idxs.getD i [])
      plainRow r (idxs.getD i []) (movedRow A.fmt D.fmt 0 false (s.rowKey e (D.e 0) r) (src.getD i ⟨[], []⟩)))
    (s.rowsWork e D rows 0).map (fun w => { w with tiles := [], flags := rowsFlags rows })
  (checks, workOf work)

/-- FILL (R138). -/
def planFill (s : State) (e : Env) : Plan :=
  let c := e.ctx
  let d := s.tensorAt c (e.f 88 8) 1 none true false true
  let D := d.2
  let idxs := outerIndices ((List.range (D.rank - 1)).map (fun k => D.l (k + 1)))
  let n := D.l 0
  let checks := allChecks [descPtr e 88, need 0 96 (!D.got || decide (e.f 96 8 < 2 ^ fmtBits D.fmt)),
    need 0 104 (!D.got || fmtMx D.fmt || e.f 104 1 == 0), need 0 105 (e.f 105 23 == 0), d.1]
  let row : OutRow := ⟨List.replicate n (e.f 96 8), if fmtMx D.fmt then List.replicate (ceilDiv n 32) (e.f 104 1) else [], List.replicate n 0, 0⟩
  (checks, workOf ((s.rowsWork e D (idxs.map (fun i => plainRow (flatIndex D.ext i) i row)) 0).map (fun w => { w with tiles := [] })))

/-! ## NORM -/

/-- The set number of an element: per row, or per group, sample and (PER_FRAME) frame. -/
def normSet (kind groups colsP : Nat) (perFrame : Bool) (rank flat : Nat) (idx : List Nat) (j : Nat) : List Nat :=
  if kind ≠ 2 then [flat]
  else
    let g := j / (colsP / max groups 1)
    let last := idx.getD (rank - 2) 0
    if perFrame then [g, last, idx.getD 2 0] else [g, last]

/-- NORM (R197 to R199). -/
def planNorm (s : State) (e : Env) : Plan :=
  let c := e.ctx
  let a := s.tensorAt c (e.f 88 8) 1 none false true true
  let d := s.tensorAt c (e.f 96 8) 2 none true false true
  let A := a.2
  let D := d.2
  let pb := s.paramAt c (e.f 104 8) 256
  let p := parseParam pb.2
  let kind := e.f 116 1
  let groups := e.f 118 2
  let eps := decodeElem 1 (e.f 112 4)
  let perFrame := bit (e.f 120 1) 0
  let colsP := if A.pad = 1 then alignUp (A.l 0) 128 else A.l 0
  let dims := meetDims A D
  let known := A.logd && D.logd && A.rank == D.rank
  let all := outerIndices ((List.range (A.rank - 1)).map (fun k => A.l (k + 1)))
  let sh : Shape := if known then ⟨true, D.outerSize, D.e 0, flatIndex D.ext ((dims.drop 1).map (· - 1)) + 1, dims.headD 1, D.ext, dims, D.rank⟩
    else ⟨D.got, D.outerSize, D.e 0, 0, 0, D.ext, [], D.rank⟩
  let slots := s.slotTensors c p sh
  let checks := allChecks [descPtr e 88, descPtr e 96, need 0 104 (e.f 104 8 % 64 == 0),
    need 0 112 (fp32Finite (e.f 112 4) && leNum (.fin false 0 0) eps), need 0 116 (decide (kind ≤ 2)), outChecks e 117 3,
    need 0 118 (if kind = 2 then decide (1 ≤ groups) && (!A.logd || colsP % groups == 0) else groups == 1),
    need 0 120 (decide (e.f 120 1 < 2) && (!perFrame || (kind == 2 && (!A.got || A.rank == 5)))), need 0 121 (e.f 121 7 == 0),
    a.1, d.1, given A.got (need 1 9 (if kind = 2 then A.rank == 4 || A.rank == 5 else decide (2 ≤ A.rank))), sameExtents 2 A D, pb.1,
    given (pb.1 == Checks.none) ((paramChecks p ⟨D.got, D.fmt, if known then dims.headD 0 else 0, true, false, false⟩ false false).and slots.1)]
  let work : Except AccFault Work := do
    let src ← s.readRows c A (A.l 0) all
    let vals := src.map (fun r => decodeRow A.fmt r ++ List.replicate (colsP - A.l 0) (acxZero false, (0 : Flags)))
    let setOf := fun (ix : List Nat) (j : Nat) => normSet kind groups colsP perFrame A.rank (flatIndex A.ext ix) ix j
    let tagged := (all.zip vals).flatMap (fun x => (List.range x.2.length).map (fun j => (setOf x.1 j, x.2.getD j (acxZero false, 0))))
    let sets := (tagged.map (·.1)).dedup
    let stats := sets.map (fun k =>
      let xs := (tagged.filter (fun x => x.1 == k)).map (fun x => x.2.1)
      (k, statsOf (kind == 1) xs.length xs))
    let readFlags := orFlags (tagged.map (fun x => x.2.2)) ||| orFlags (stats.map (fun x => x.2.2))
    let statOf := fun k => ((stats.find? (fun x => x.1 == k)).map (fun x => x.2.1)).getD (acxZero false, acxZero false)
    let idxs := (outerIndices (dims.drop 1)).filter (fun i => !rowMasked e (flatIndex D.ext i))
    let n := dims.headD 1
    let od ← s.slotsRead c p ⟨idxs.map (fun i => (flatIndex D.ext i, 1)), idxs.map (fun i => (i, n)), n⟩ slots.2
    let fin : Finish := ⟨D.fmt, outMode (e.f 117 1), outSat (e.f 117 1), false, D.e 0, n, none, 0⟩
    let rows := (List.range idxs.length).map (fun i =>
      let ix := idxs.getD i []
      let r := flatIndex D.ext ix
      let st := (List.range n).map (fun j => statOf (setOf ix j))
      let ex : RowExtra := { RowExtra.none with mean := st.map (·.1), var := st.map (·.2), eps := acxOf eps }
      chainRow p od fin (s.rowKey e (D.e 0) r) ex i r ix ((vals.getD (all.findIdx (· == ix)) []).take n))
    s.rowsWork e D rows readFlags
  (checks, workOf work)

/-! ## Feature maps (R183) -/

/-- Both maps have rank 4 or 5, and the same rank. -/
def mapRanks (x y : Tensor) (sy : Nat) : Checks :=
  (given x.got (need 1 9 (x.rank == 4 || x.rank == 5))).and (given (x.got && y.got) (need sy 9 (y.rank == x.rank)))

/-- Frames of a map: 1 in rank 4. -/
def Tensor.frames (t : Tensor) : Nat := if t.rank = 5 then t.l 3 else 1

/-- The outer index (x, y, [t], n) of a map. -/
def mapIndex (rank x y t n : Nat) : List Nat := if rank = 5 then [x, y, t, n] else [x, y, n]

/-- Coordinates (x, y, t, n) of an outer index of a map. -/
def mapCoords (rank : Nat) (ix : List Nat) : Nat × Nat × Nat × Nat :=
  if rank = 5 then (ix.getD 0 0, ix.getD 1 0, ix.getD 2 0, ix.getD 3 0) else (ix.getD 0 0, ix.getD 1 0, 0, ix.getD 2 0)

/-- The padding rule of one dimension (R186): extents I and O, filter K, stride S, dilation D, padding before P. -/
def padOkDim (i o k st d p : Nat) (reflect : Bool) : Bool :=
  let after : Int := ((o : Int) - 1) * st + ((k : Int) - 1) * d + 1 - i - p
  let reach : Int := ((k : Int) - 1) * d
  decide ((p : Int) ≤ reach) && decide (-((st : Int) - 1) ≤ after) && decide (after ≤ reach)
    && (!reflect || (decide (p < i) && decide (after < (i : Int))))

/-! ## POOL -/

/-- POOL (R193, R194). -/
def planPool (s : State) (e : Env) : Plan :=
  let c := e.ctx
  let a := s.tensorAt c (e.f 88 8) 1 none false false true
  let d := s.tensorAt c (e.f 96 8) 2 none true false true
  let A := a.2
  let D := d.2
  let kind := e.f 104 1
  let kh := e.f 105 1 % 8 + 1
  let kw := e.f 105 1 / 8 % 8 + 1
  let sh := e.f 106 1
  let sw := e.f 107 1
  let pt := e.f 108 1 % 16
  let pl := e.f 108 1 / 16
  let ranks := A.got && D.got && A.rank == D.rank && (A.rank == 4 || A.rank == 5)
  let checks := allChecks [descPtr e 88, descPtr e 96, need 0 104 (decide (kind ≤ 2)), need 0 105 (decide (e.f 105 1 < 64)), need 0 106 (decide (1 ≤ sh)),
    need 0 107 (decide (1 ≤ sw)), outChecks e 109 3, need 0 110 (e.f 110 18 == 0),
    need 0 108 (decide (pt ≤ kh - 1) && decide (pl ≤ kw - 1)
      && (!(A.logd && D.logd) || !ranks || (padOkDim (A.l 2) (D.l 2) kh sh 1 pt false && padOkDim (A.l 1) (D.l 1) kw sw 1 pl false))),
    a.1, d.1, mapRanks A D 2,
    given ranks (need 2 16 (D.ext.getD 0 0 == A.ext.getD 0 0)),
    given ranks (allChecks (((List.range 6).drop 3).map (fun k => need 2 (16 + 4 * k) (D.ext.getD k 0 == A.ext.getD k 0)))),
    given (ranks && A.logd && D.logd) (need 2 (16 + 4 * (A.rank - 1)) (D.l (D.rank - 1) == A.l (A.rank - 1)))]
  let work : Except AccFault Work := do
    let n := min (A.l 0) (D.l 0)
    let inIdx := outerIndices ((List.range (A.rank - 1)).map (fun k => A.l (k + 1)))
    let src ← s.readRows c A n inIdx
    let rowsIn := src.map (decodeRow A.fmt)
    let at' := fun (x y t m : Nat) => rowsIn.getD (inIdx.findIdx (· == mapIndex A.rank x y t m)) []
    let outIdx := (outerIndices ((List.range (D.rank - 1)).map (fun k => if k < 2 then D.l (k + 1) else min (A.l (k + 1)) (D.l (k + 1)))))
    let rows := outIdx.map (fun ix =>
      let q := mapCoords A.rank ix
      let win := (List.range kh).flatMap (fun h => (List.range kw).map (fun w =>
        (((q.1 * sw + w : Nat) : Int) - pl, ((q.2.1 * sh + h : Nat) : Int) - pt)))
      let real := win.filter (fun p => decide (0 ≤ p.1) && decide (p.1 < (A.l 1 : Int)) && decide (0 ≤ p.2) && decide (p.2 < (A.l 2 : Int)))
      let pix := real.map (fun p => at' p.1.toNat p.2.toNat q.2.2.1 q.2.2.2)
      let vals := (List.range n).map (fun j =>
        let xs := pix.map (fun p => p.getD j (acxZero false, 0))
        if kind = 0 then xs.foldl (fun (acc : Flagged Acx) x => Flagged.bind acc (fun u => Flagged.bind x (fun v => acxMax u v))) (acxInf true, 0)
        else
          -- padded positions add +0, which changes no sum that starts from +0 (R194)
          let sm := xs.foldl (fun (acc : Flagged Acx) x => Flagged.bind acc (fun u => Flagged.bind x (fun v => acxAdd u v))) (acxZero false, 0)
          sm.bind (fun v => acxDivNat v (if kind = 1 then kh * kw else real.length)))
      let r := flatIndex D.ext ix
      plainRow r ix (roundRow D.fmt (outMode (e.f 109 1)) (outSat (e.f 109 1)) (s.rowKey e (D.e 0) r) vals))
    s.rowsWork e D rows 0
  (checks, workOf work)

/-! ## RESAMPLE -/

/-- One axis of a bilinear mapping: the two inputs and the weights 1 − a and a (R196). -/
structure Lerp where
  i0 : Nat
  i1 : Nat
  wa : Flagged Acx
  wb : Flagged Acx
deriving DecidableEq, Repr

def lerpAxis (f i o : Nat) : Lerp :=
  let n := 2 * o + 1 - f                     -- max(s, 0) × 2f
  let fl := n / (2 * f)
  let i0 := min fl (i - 1)
  ⟨i0, min (i0 + 1) (i - 1), roundRatio false (2 * f - n % (2 * f)) (2 * f) 0,
    if n % (2 * f) = 0 then (acxZero false, 0) else roundRatio false (n % (2 * f)) (2 * f) 0⟩

/-- x × u + y × v, each one ACX operation. -/
def lerp2 (x y u v : Flagged Acx) : Flagged Acx :=
  x.bind (fun x => u.bind (fun u => (acxMul x u).bind (fun p => y.bind (fun y => v.bind (fun v => (acxMul y v).bind (fun q => acxAdd p q))))))

/-- RESAMPLE (R195, R196). -/
def planResample (s : State) (e : Env) : Plan :=
  let c := e.ctx
  let a := s.tensorAt c (e.f 88 8) 1 none false false true
  let d := s.tensorAt c (e.f 96 8) 2 none true false true
  let A := a.2
  let D := d.2
  let kind := e.f 104 1
  let fh := e.f 105 1 % 16
  let fw := e.f 105 1 / 16
  let ft := e.f 106 1 % 4 + 1
  let r2 := fh * fh
  let ranks := A.got && D.got && A.rank == D.rank && (A.rank == 4 || A.rank == 5)
  let mode := outMode (e.f 107 1)
  let sat := outSat (e.f 107 1)
  let checks := allChecks [descPtr e 88, descPtr e 96, need 0 104 (decide (kind ≤ 2)),
    need 0 105 (if kind = 2 then fh == fw && decide (2 ≤ fh) && decide (fh ≤ 8) else decide (1 ≤ fh) && decide (fh ≤ 8) && decide (1 ≤ fw) && decide (fw ≤ 8)),
    need 0 106 (decide (e.f 106 1 < 4) && (kind != 2 || ft == 1)), outChecks e 107 3, need 0 108 (e.f 108 20 == 0), a.1, d.1, mapRanks A D 2,
    given ranks (allChecks [need 2 16 ((if kind = 2 then D.ext.getD 0 0 * r2 == A.ext.getD 0 0 else D.ext.getD 0 0 == A.ext.getD 0 0)),
      need 2 20 (D.ext.getD 1 0 == A.ext.getD 1 0 * fw), need 2 24 (D.ext.getD 2 0 == A.ext.getD 2 0 * fh),
      need 2 28 (D.ext.getD 3 0 == (if A.rank = 5 then A.ext.getD 3 0 * ft else A.ext.getD 3 0)),
      need 2 32 (D.ext.getD 4 0 == A.ext.getD 4 0)])]
  let work : Except AccFault Work := do
    let inIdx := outerIndices ((List.range (A.rank - 1)).map (fun k => A.l (k + 1)))
    let src ← s.readRows c A (A.l 0) inIdx
    let rowAt := fun (x y t m : Nat) => src.getD (inIdx.findIdx (· == mapIndex A.rank x y t m)) ⟨[], []⟩
    let valAt := fun (x y t m : Nat) => decodeRow A.fmt (rowAt x y t m)
    let n := min (D.l 0) (if kind = 2 then A.l 0 / r2 else A.l 0)
    let lim := if A.rank = 5 then [A.l 1 * fw, A.l 2 * fh, A.l 3 * ft, A.l 4] else [A.l 1 * fw, A.l 2 * fh, A.l 3]
    let outIdx := outerIndices ((List.range (D.rank - 1)).map (fun k => min (D.l (k + 1)) (lim.getD k 1)))
    let rows := outIdx.map (fun ix =>
      let q := mapCoords A.rank ix
      let t := q.2.2.1 / ft
      let m := q.2.2.2
      let r := flatIndex D.ext ix
      let key := s.rowKey e (D.e 0) r
      let out :=
        if kind = 0 then
          let x := rowAt (q.1 / fw) (q.2.1 / fh) t m
          movedRow A.fmt D.fmt mode sat key ⟨x.codes.take n, x.scales.take (ceilDiv n 32)⟩
        else if kind = 2 then
          let x := rowAt (q.1 / fh) (q.2.1 / fh) t m
          let sel := (List.range n).map (fun j => j * r2 + q.2.1 % fh * fh + q.1 % fh)
          if A.fmt = D.fmt ∧ fmtMx A.fmt = false then movedRow A.fmt D.fmt mode sat key ⟨sel.map (fun j => x.codes.getD j 0), []⟩
          else roundRow D.fmt mode sat key (sel.map (fun j => (decodeRow A.fmt x).getD j (acxZero false, 0)))
        else
          let ax := lerpAxis fw (A.l 1) q.1
          let ay := lerpAxis fh (A.l 2) q.2.1
          let v := fun (x y j : Nat) => (valAt x y t m).getD j (acxZero false, 0)
          roundRow D.fmt mode sat key ((List.range n).map (fun j =>
            lerp2 (lerp2 (v ax.i0 ay.i0 j) (v ax.i1 ay.i0 j) ax.wa ax.wb) (lerp2 (v ax.i0 ay.i1 j) (v ax.i1 ay.i1 j) ax.wa ax.wb) ay.wa ay.wb))
      plainRow r ix out)
    s.rowsWork e D rows 0
  (checks, workOf work)

/-! ## NOISE -/

/-- The linear index of an element over the logical extents; the first two dimensions exchange under GEN 1 and rank 2 or more (R273). -/
def noiseIndex (thrumyo : Bool) (dims ix : List Nat) (j : Nat) : Nat :=
  let xs := j :: ix
  let swap := fun (l : List Nat) => match l with | a :: b :: rest => if thrumyo then b :: a :: rest else l | _ => l
  let es := swap dims
  (List.range xs.length).foldr (fun k acc => (swap xs).getD k 0 + es.getD k 1 * acc) 0

/-- The draw of one element (R264, R269, R275). -/
def noiseDraw (table : Nat) (uniform thrumyo : Bool) (seed stream i : Nat) : Acx :=
  if uniform then acxOf (uniformValue (if thrumyo then thrumyoWord seed stream i / 256 else uniformDraw seed stream i))
  else acxOf (decodeElem 1 (if thrumyo then gaussThrumyo seed stream i else (gaussNative table seed stream i).1))

/-- NOISE (R272, R273). -/
def planNoise (s : State) (e : Env) : Plan :=
  let c := e.ctx
  let d := s.tensorAt c (e.f 88 8) 1 none true false true
  let D := d.2
  let uniform := bit (e.f 120 1) 0
  let thrumyo := bit (e.f 120 1) 1
  let mode := e.f 121 1 % 4
  let checks := allChecks [descPtr e 88, need 0 104 (decide (e.f 104 8 < 2 ^ 60)),
    need 0 120 (decide (e.f 120 1 < 4) && (!thrumyo || s.obj oNoiseThrumyoEnable == 1)),
    need 0 121 (decide (mode < 2) && e.f 121 1 / 8 == 0), need 0 122 (e.f 122 2 == 0), need 0 124 (fp32Finite (e.f 124 4)), d.1]
  let dims := (List.range D.rank).map D.l
  let scale := fp32Acx (e.f 124 4)
  let table := s.obj oRngGaussTable
  let rows := (outerIndices (dims.drop 1)).map (fun ix =>
    let r := flatIndex D.ext ix
    plainRow r ix (roundRow D.fmt mode (outSat (e.f 121 1)) (s.rowKey e (D.e 0) r) ((List.range (D.l 0)).map (fun j =>
      acxMul (noiseDraw table uniform thrumyo (e.f 96 8) (e.f 104 8) ((e.f 112 8 + noiseIndex thrumyo dims ix j) % 2 ^ 64)) scale))))
  (checks, workOf (s.rowsWork e D rows 0))

/-! ## TOKEN_SAMPLE -/

/-- What sampling one row gives: the token, its flags, and whether its nucleus was cut to 1,024. -/
structure Sampled where
  token : Nat
  flags : Flags
  capped : Bool
deriving DecidableEq, Repr

/-- The running ACX sums of a list. -/
def runningSums (l : List Acx) : Flagged (List Acx) :=
  let r := l.foldl (fun (acc : List Acx × Acx × Flags) x => let t := acxAdd acc.2.1 x; (acc.1 ++ [t.1], t.1, acc.2.2 ||| t.2)) ([], acxZero false, 0)
  (r.1, r.2.2)

/-- One row of logits with draw d (R279, R280). -/
def sampleRow (xs : List Acx) (topk : Nat) (topp temp : Acx) (d : Nat) : Sampled :=
  let n := xs.length
  let nanFlag := flagIf (xs.any (fun x => x.toNum.isNaN)) flIV
  let val := fun v => let x := xs.getD v acxNaN; if x.toNum.isNaN then acxInf true else x
  let toks := List.range n
  match toks.find? (fun v => (val v).toNum == .inf false) with
  | some v => ⟨v, flIV, false⟩
  | none =>
    let best := toks.foldl (fun acc v => if ltNum (val acc).toNum (val v).toNum then v else acc) 0
    if (val best).toNum == .inf true then ⟨0xFFFFFFFF, flIV, false⟩
    else if temp.toNum.isZero then ⟨best, nanFlag, false⟩
    else
      let rt := boundedDiv 0x0C 1 acxOne temp
      let ys := mapFlagged (fun v => (acxSub (val v) (val best)).bind (fun t => (acxMul t rt.1).bind toFp32)) toks
      let y := fun v => decodeElem 1 (ys.1.getD v 0)
      let order := sortLt (fun (a b : Nat) => ltNum (y b) (y a) || (eqNum (y a) (y b) && decide (a < b))) toks
      let kept := (order.take (if topk = 0 then n else topk)).filter (fun v => y v != .inf true)
      let asc := sortBy id kept
      let es := mapFlagged (fun v => acxExp (acxOf (y v))) asc
      let ex := fun v => es.1.getD (asc.findIdx (· == v)) (acxZero false)
      let z := rowSum es.1
      let cut := ltNum topp.toNum (.fin false 1 0)
      let runs := runningSums (kept.map ex)
      let bound := acxMul topp z.1
      let len := match (List.range kept.length).find? (fun j => leNum bound.1.toNum (runs.1.getD j acxNaN).toNum) with | some j => j + 1 | none => kept.length
      let capped := cut && topk == 0 && decide (1024 < len)
      let nucleus := if cut then kept.take (if topk = 0 then min len 1024 else len) else asc
      let cs := runningSums (nucleus.map ex)
      let t := acxMul (acxOf (uniformValue d)) (cs.1.getLastD (acxZero false))
      let tok := match (List.range nucleus.length).find? (fun j => ltNum t.1.toNum (cs.1.getD j (acxZero false)).toNum) with
        | some j => nucleus.getD j 0
        | none => nucleus.getLastD best
      ⟨tok, nanFlag ||| rt.2 ||| ys.2 ||| es.2 ||| z.2 ||| (if cut then runs.2 ||| bound.2 else 0) ||| cs.2 ||| t.2, capped⟩

/-- TOKEN_SAMPLE (R277 to R281). -/
def planTokens (s : State) (e : Env) : Plan :=
  let c := e.ctx
  let d := s.tensorAt c (e.f 88 8) 1 none false false true
  let D := d.2
  let topp := decodeElem 1 (e.f 116 4)
  let temp := decodeElem 1 (e.f 120 4)
  let fin := bit (e.f 124 1) 0
  let inStep := e.step.isSome
  let checks := allChecks [descPtr e 88, need 0 96 (e.f 96 8 % 4 == 0), need 0 104 (if inStep then e.f 104 8 == 0 else e.f 104 8 != 0),
    need 0 112 (decide (e.f 112 4 ≤ 1024)), need 0 116 (ltNum (.fin false 0 0) topp && leNum topp (.fin false 1 0)),
    need 0 120 (fp32Finite (e.f 120 4) && leNum (.fin false 0 0) temp), need 0 124 (decide (e.f 124 1 < 2) && (!fin || inStep)),
    need 0 125 (decide (e.f 125 3 < 2 ^ 18) && (fin || e.f 125 3 == 0)), d.1,
    given D.got (allChecks [need 1 8 (D.fmt == 1 || D.fmt == 2 || D.fmt == 3), need 1 9 (D.rank == 2), need 1 16 (decide (D.ext.getD 0 0 ≤ 2 ^ 18))])]
  let work : Except AccFault Work := do
    let rows := D.l 1
    let src ← s.readRows c D (D.l 0) ((List.range rows).map (fun r => [r]))
    let info ← (if inStep then .ok [] else s.readVa c (e.f 104 8) (16 * rows))
    let img := fun r => match e.step with | some run => (s.entry (run.batch.getD (slotOfRow run r) 4096)).image | none => 0
    let lr := fun r => match e.step with | some run => r % penRows run.desc | none => 0
    let key := fun r => if inStep then (imgSeed (img r), imgUser (img r), imgLength (img r) + lr r) else (le info (16 * r) 8, le info (16 * r + 8) 4, le info (16 * r + 12) 4)
    let outs := (List.range rows).map (fun r =>
      let k := key r
      sampleRow (((src.getD r ⟨[], []⟩).elems D.fmt).map (fun x => acxOf x.value)) (e.f 112 4) (acxOf topp) (acxOf temp)
        (uniformDraw k.1 (streamId 3 0 0 k.2.1) k.2.2))
    let w ← s.cellsVa c (e.f 96 8) (outs.flatMap (fun o => toLe 4 o.token))
    let sequence := match e.step with | some run => le run.desc 1 1 == 2 | none => false
    let lat ← (List.range rows).foldlM (fun (acc : List (Nat × Byte)) r =>
      if sequence && imgLat (img r) 0 != 0 then do
        let x ← s.cellsVa c (imgLat (img r) 0 + 4 * (imgLength (img r) + lr r)) (toLe 4 (outs.getD r ⟨0, 0, false⟩).token)
        return acc ++ x
      else .ok acc) []
    let marks := if fin && sequence then ((List.range rows).filter (fun r => (outs.getD r ⟨0, 0, false⟩).token == e.f 125 3)).map
        (fun r => match e.step with | some run => slotOfRow run r | none => 0) else []
    let capped := (outs.filter Sampled.capped).length
    return { Work.none with writes := w ++ lat, tiles := vectorTile (s.tenantQuarters c) (orFlags (outs.map Sampled.flags)), marks := marks,
                            stats := match c with | some t => [(oTenantTokenNucleusCapped t, capped)] | none => [] }
  (checks, workOf work)

end Sys2Proof.Machine
end

