-- ==== Sys2Proof/Machine/Conv.lean ====
section
/-! DEFINITION. CONV (R183 to R192): the logical K generated from taps and channels, its padding kinds, and its rows. -/

namespace Sys2Proof.Machine

/-- The taps (kt, kh, kw) of a filter in logical order: passes of at most 7 × 7 (R187). -/
def tapOrder (kt kh kw : Nat) : List (Nat × Nat × Nat) :=
  (List.range (ceilDiv kh 7)).flatMap (fun ph => (List.range (ceilDiv kw 7)).flatMap (fun pw =>
    (List.range kt).flatMap (fun t =>
      ((List.range 7).filter (fun i => decide (7 * ph + i < kh))).flatMap (fun i =>
        ((List.range 7).filter (fun j => decide (7 * pw + j < kw))).map (fun j => (t, 7 * ph + i, 7 * pw + j))))))

/-- An input coordinate under a padding kind: 0 zero (masked outside), 1 replicate, 2 reflect (R188). -/
def padCoord (kind i : Nat) (x : Int) : Option Nat :=
  if 0 ≤ x ∧ x < i then some x.toNat
  else match kind with
    | 1 => some (if x < 0 then 0 else i - 1)
    | 2 => some (if x < 0 then (-x).toNat else (2 * ((i : Int) - 1) - x).toNat)
    | _ => none

/-- A masked K position (R34). -/
def MElem.hole : MElem := ⟨0, ⟨.fin false 0 0, 256⟩⟩

/-- B of R184: the channel block of two formats. -/
def channelBlock (a b : Nat) : Nat := if fmtBits a ≥ 16 ∨ fmtBits b ≥ 16 then 16 else 32

/-- The channels of one tap, padded to n positions: masked, or +0 under pad mode (R187, R189). -/
def tapChannels (pad : Bool) (n : Nat) (xs : List MElem) : List MElem :=
  xs ++ List.replicate (n - xs.length) (if pad then MElem.zero else MElem.hole)

/-- The fields of a CONV's body (Table 07-1). -/
structure ConvBody where
  sh : Nat
  sw : Nat
  st : Nat
  dh : Nat
  dw : Nat
  dt : Nat
  top : Nat
  left : Nat
  front : Nat
  kindHw : Nat
  kindT : Nat
  groups : Nat
deriving DecidableEq, Repr

def convBody (e : Env) : ConvBody :=
  let s := e.f 123 1
  let d := e.f 124 1
  ⟨s % 8 + 1, s / 8 % 8 + 1, s / 64 + 1, d % 8 + 1, d / 8 % 8 + 1, d / 64 + 1, e.f 125 1 % 16, e.f 125 1 / 16, e.f 126 1 % 16,
    e.f 126 1 / 16 % 4, e.f 126 1 / 64, 2 ^ (e.f 127 1 % 16)⟩

/-- The K positions of output position q for the group whose channels start at c0: tap by tap, each at its input element or, where zero
padding applies, masked (R187, R188). `at'` gives the channels of a position of the map. -/
def convRow (b : ConvBody) (X : Tensor) (pad : Bool) (cg cgp c0 : Nat) (taps : List (Nat × Nat × Nat)) (at' : Nat → Nat → Nat → Nat → List MElem)
    (q : Nat × Nat × Nat × Nat) : List MElem :=
  taps.flatMap (fun t =>
    let cx := padCoord b.kindHw (X.l 1) (((q.1 * b.sw + t.2.2 * b.dw : Nat) : Int) - b.left)
    let cy := padCoord b.kindHw (X.l 2) (((q.2.1 * b.sh + t.2.1 * b.dh : Nat) : Int) - b.top)
    let ct := padCoord b.kindT X.frames (((q.2.2.1 * b.st + t.1 * b.dt : Nat) : Int) - b.front)
    match cx, cy, ct with
    | some x, some y, some f => tapChannels pad cgp (((at' x y f q.2.2.2).drop c0).take cg)
    | _, _, _ => List.replicate cgp MElem.hole)

/-- The pad fields of a CONV against the extents, in its own offsets (R185, R186). -/
def convPads (b : ConvBody) (X W Y : Tensor) (known : Bool) : Checks :=
  let five := X.rank == 5
  allChecks
    [given X.got (need 0 123 (five || b.st == 1)), given X.got (need 0 124 (five || b.dt == 1)),
     given known (need 0 125 (padOkDim (X.l 2) (Y.l 2) (W.l 2) b.sh b.dh b.top (b.kindHw == 2)
       && padOkDim (X.l 1) (Y.l 1) (W.l 1) b.sw b.dw b.left (b.kindHw == 2))),
     need 0 126 (b.kindHw != 3 && b.kindT != 3),
     given X.got (need 0 126 (five || (b.front == 0 && b.kindT == 0))),
     given (known && five) (need 0 126 (padOkDim X.frames Y.frames (W.l 3) b.st b.dt b.front (b.kindT == 2)))]

/-- CONV's checks and its work (R185 to R190). Runtime extents hold throughout: those of the checks (R186), the channels per group, and
the output channels that are computed at all (R159, R160; log entry 92). -/
def planConv (s : State) (e : Env) : Plan :=
  let c := e.ctx
  let xt := s.tensorAt c (e.f 88 8) 1 none false true true
  let wt := s.tensorAt c (e.f 96 8) 2 none false true true
  let yt := s.tensorAt c (e.f 104 8) 3 none true false true
  let X := xt.2
  let W := wt.2
  let Y := yt.2
  let pb := s.paramAt c (e.f 112 8) 256
  let p := parseParam pb.2
  let bd := convBody e
  let S := e.f 120 1
  let lane := parseLane (e.f 121 1)
  let G := bd.groups
  let five := X.rank == 5
  let all := X.got && W.got && Y.got
  let ranks := all && (X.rank == 4 || five) && W.rank == X.rank && Y.rank == X.rank
  let known := ranks && X.logd && W.logd && Y.logd
  let kt := if five then W.l 3 else 1
  let cg := min (W.l 0) (X.l 0 / G)
  let co := W.l (W.rank - 1)
  let n := min co (Y.l 0)
  let pad := X.pad == 1 || W.pad == 1
  let cgp := if pad then alignUp cg 128 else channelBlock X.fmt W.fmt * ceilDiv cg (channelBlock X.fmt W.fmt)
  let taps := tapOrder kt (W.l 2) (W.l 1)
  let kLog := taps.length * cgp
  let segLen := segmentLen kLog S
  let coG := co / G
  let body := allChecks [descPtr e 88, descPtr e 96, descPtr e 104, need 0 112 (e.f 112 8 % 64 == 0),
    need 0 120 (decide (1 ≤ S) && decide (S ≤ 64)), given known (need 0 120 (segmentsOk kLog S)),
    need 0 121 (lane.mode == 0 && !lane.lineage && lane.mapping != 3), outChecks e 122 3, convPads bd X W Y known,
    need 0 127 (decide (e.f 127 1 < 16)), given (W.logd && decide (1 ≤ W.rank)) (need 0 127 (co % G == 0))]
  let last := X.rank - 1
  let shapes := allChecks [mapRanks X Y 3, given (X.got && W.got) (need 2 9 (W.rank == X.rank)),
    given ranks (allChecks [need 2 16 (X.ext.getD 0 0 == G * W.ext.getD 0 0), need 3 16 (Y.ext.getD 0 0 == W.ext.getD last 0)]),
    given known (allChecks [need 2 20 (decide (W.l 1 ≤ 31)), need 2 24 (decide (W.l 2 ≤ 31)), need 2 28 (!five || decide (W.l 3 ≤ 7)),
      need 3 (16 + 4 * last) (Y.l last == X.l last)]),
    given (X.got && W.got) ((need 1 8 (!(badPair X.fmt W.fmt && !fmtMx X.fmt))).and (need 2 8 (!(badPair X.fmt W.fmt && fmtMx X.fmt))))]
  let dims := n :: (List.range (Y.rank - 1)).map (fun k => Y.l (k + 1))
  let outIdx := outerIndices (dims.drop 1)
  let sh : Shape := if known then ⟨true, Y.outerSize, Y.e 0, flatIndex Y.ext ((dims.drop 1).map (· - 1)) + 1, n, Y.ext, dims, Y.rank⟩
    else ⟨Y.got, Y.outerSize, Y.e 0, 0, 0, Y.ext, [], Y.rank⟩
  let slots := s.slotTensors c p sh
  let use : ChainUse := ⟨Y.got, Y.fmt, if known then n else 0, false, false, false⟩
  let checks := allChecks [body, xt.1, wt.1, yt.1, shapes, pb.1,
    given (pb.1 == Checks.none) ((paramChecks p use false false).and slots.1)]
  let quarters := s.tenantQuarters c
  let work : Except AccFault Work := do
    let od ← s.slotsRead c p ⟨outIdx.map (fun ix => (flatIndex Y.ext ix, 1)), outIdx.map (fun ix => (ix, n)), n⟩ slots.2
    let inIdx := outerIndices ((List.range last).map (fun k => X.l (k + 1)))
    let xs ← s.readRows c X (X.l 0) inIdx
    let xRows := xs.map (rowElems X.fmt)
    let at' := fun (x y f m : Nat) => xRows.getD (inIdx.findIdx (· == mapIndex X.rank x y f m)) []
    let wIdx := (List.range n).flatMap (fun o => taps.map (fun t => if five then [t.2.2, t.2.1, t.1, o] else [t.2.2, t.2.1, o]))
    let ws ← s.readRows c W cg wIdx
    let wRows := ws.map (rowElems W.fmt)
    let bCol := fun (o : Nat) => (List.range taps.length).flatMap (fun t => tapChannels pad cgp (wRows.getD (o * taps.length + t) []))
    -- the columns of each group that are computed, ascending; together they are the channels in order
    let colsOf := fun (g : Nat) => (List.range coG).map (g * coG + ·) |>.filter (· < n)
    let prods := (List.range G).map (fun g =>
      ({ a := outIdx.map (fun ix => unflagged (convRow bd X pad cg cgp (g * cg) taps at' (mapCoords Y.rank ix))),
         b := (colsOf g).map (fun o => unflagged (bCol o)),
         mode := 0, s := S, all := S, segLen := segLen, fmtA := X.fmt, fmtB := W.fmt, lineage := false } : Product))
    let reds := prods.map (fun pr => (List.range outIdx.length).map pr.row)
    let fin : Finish := ⟨Y.fmt, outMode (e.f 122 1), outSat (e.f 122 1), false, Y.e 0, n, none, if W.pad = 1 then alignUp n 128 - n else 0⟩
    let rows := (List.range outIdx.length).map (fun i =>
      let ix := outIdx.getD i []
      let r := flatIndex Y.ext ix
      chainRow p od fin (s.rowKey e (Y.e 0) r) RowExtra.none i r ix
        ((reds.flatMap (fun g => g.getD i [])).map (fun x => (x.value, (0 : Flags)))))
    let cfs := rows.map RowOut.colFlags
    let tiles := (List.range G).flatMap (fun g =>
      match prods[g]? with
      | none => []
      | some pr => (layoutTiles quarters (pr.lay g pr.b.length lane)).map (fun t =>
          { t with flags := tileFlags S t (fun _ _ => 0) (fun _ _ => 0) (fun i j => ((reds.getD g []).getD i []).getD j ⟨[], acxZero false, 0⟩)
                              (fun i j => (cfs.getD i []).getD (g * coG + j) 0) }))
    let cells ← s.writeRows c Y rows
    let st ← s.writeStats c p od rows
    return { Work.none with writes := cells ++ st, tiles := tiles, stationary := prods.map (·.stationary (fun _ => true)),
                            digest := digestParts e Y.fmt rows }
  (checks, workOf work)

end Sys2Proof.Machine
end

