-- ==== Sys2Proof/Machine/Attend.lean ====
section
/-! DEFINITION. ATTEND (R201 to R223, R227): its checks, its keys and values from tensors or stalls, the online softmax and its fold. -/

namespace Sys2Proof.Machine

/-! ## Stall pools (R218, R219) -/

/-- `TENANT_STALL_POOL_CONFIG` (Table 08-5). -/
structure Pool where
  base : Nat
  count : Nat
  rank : Nat
  dRope : Nat
  latFmt : Nat
  ropeFmt : Nat
  layers : Nat
  post : Nat
  postEn : Bool
deriving DecidableEq, Repr

def State.pool (s : State) (t : Nat) : Pool :=
  let c := s.obj (oTenantStallPoolConfig t)
  ⟨leN c 0 8, leN c 8 4, leN c 12 2, leN c 14 2, leN c 16 1, leN c 17 1, leN c 18 2, leN c 20 4, bit (leN c 24 1) 0⟩

def Pool.elemBytes (p : Pool) : Nat := fmtBits p.latFmt / 8
def Pool.scaleBytes (p : Pool) : Nat := if fmtMx p.latFmt then ceilDiv p.rank 32 else 0
def Pool.ropeBytes (p : Pool) : Nat := if p.dRope = 0 then 0 else fmtBits p.ropeFmt / 8
/-- ROW_BYTES. -/
def Pool.rowBytes (p : Pool) : Nat := 64 * ceilDiv (p.rank * p.elemBytes + p.scaleBytes + p.dRope * p.ropeBytes) 64
/-- STALL_BYTES. -/
def Pool.stallBytes (p : Pool) : Nat := p.layers * 256 * p.rowBytes
/-- Address of position q of stall s in a layer. -/
def Pool.rowAddr (p : Pool) (st layer q : Nat) : Nat := p.base + st * p.stallBytes + (layer * 256 + q) * p.rowBytes

/-- Stall behind a list index of an entry, none where it is empty (R220). -/
def Entry.stallAt (e : Entry) (x : Nat) : Option Nat := match Store.get 0 e.dir x with | 0 => none | n + 1 => some n

/-- An active autoregressive sequence of the tenant (R227). -/
def State.activeSequence (s : State) (t ix : Nat) : Bool :=
  let r := s.obj (oTenantRemudaRange t)
  let img := (s.entry ix).image
  decide (bits r 0 12 ≤ ix) && decide (ix < bits r 0 12 + bits r 12 13) && imgKind img == 2 && imgState img != 0 && imgState img != 5

/-! ## The parameter block's bytes 256 to 511 (Table 08-2) -/

structure AttendParam where
  kvFmt : Nat
  pFmt : Nat
  latent : Nat
  rotQ : Bool
  rotK : Bool
  layout : Nat
  headsQ : Nat
  headsKv : Nat
  dqk : Nat
  dv : Nat
  off : Nat
  dims : Nat
  frame : Nat
  window : Nat
  globalKv : Nat
  layer : Nat
deriving DecidableEq, Repr

def parseAttend (b : List Byte) : AttendParam :=
  let l := le b 258 1
  ⟨le b 256 1, le b 257 1, l % 4, bit l 2, bit l 3, bits l 4 1, le b 260 2, le b 262 2, le b 264 2, le b 266 2, le b 268 2, le b 270 2,
    le b 272 4, le b 276 4, le b 280 4, le b 284 4⟩

def AttendParam.rot (p : AttendParam) : Bool := p.rotQ || p.rotK
/-- Keys' non-rotary elements in stall mode. -/
def AttendParam.plain (p : AttendParam) : Nat := p.dqk - p.dims

/-- The fields of Table 08-1 that stand alone (R202, R204). -/
def attendBody (e : Env) : Checks :=
  let src := e.f 112 1
  let stall := bit src 0
  let append := bit src 1
  let mask := e.f 113 1
  let kind := mask % 8
  let fuse := e.f 115 1 % 4
  allChecks
   [descPtr e 88, descPtr e 96, need 0 104 (e.f 104 8 % 64 == 0),
    need 0 112 (decide (src < 8) && (stall || src == 0) && (!append || e.step.isSome) && (!bit src 2 || (append && kind == 3 && !bit mask 4))),
    need 0 113 (decide (kind ≤ 3) && decide (mask < 32) && (!bit mask 4 || kind == 3)), outChecks e 114 3,
    need 0 115 (fuse != 3 && (fuse != 1 || !stall)), need 0 116 (decide (1 ≤ e.f 116 1) && decide (e.f 116 1 ≤ 64)), need 0 117 (e.f 117 3 == 0),
    need 0 120 (fp32Finite (e.f 120 4)), need 0 124 (e.f 124 4 == 0)]

/-- The fields of Table 08-2 that stand alone (R203, R204). -/
def attendFieldChecks (e : Env) (b : List Byte) (p : AttendParam) : Checks :=
  let stall := bit (e.f 112 1) 0
  let append := bit (e.f 112 1) 1
  let mask := e.f 113 1
  let kind := mask % 8
  let fuse := e.f 115 1 % 4
  allChecks
   [need 9 56 (if fuse = 0 then le b 56 8 == 0 else le b 56 8 != 0),
    need 9 256 (if p.latent != 0 || p.rot then p.kvFmt == 2 || p.kvFmt == 4 else p.kvFmt == 0),
    need 9 257 (p.pFmt == 2 || p.pFmt == 4),
    need 9 258 (p.latent != 3 && decide (le b 258 1 < 32) && decide ((p.latent = 0) ↔ (stall = false))), need 9 259 (le b 259 1 == 0),
    need 9 260 (decide (1 ≤ p.headsQ) && decide (p.headsQ ≤ 256)), need 9 262 (decide (1 ≤ p.headsKv) && decide (p.headsKv ≤ p.headsQ) && p.headsQ % p.headsKv == 0),
    need 9 264 (decide (16 ≤ p.dqk) && decide (p.dqk ≤ 1024) && p.dqk % 16 == 0), need 9 266 (decide (16 ≤ p.dv) && decide (p.dv ≤ 1024) && p.dv % 16 == 0),
    need 9 268 (if p.rot then p.off % 2 == 0 && decide (p.off < p.dqk) && (!(stall && p.rotK) || p.off + p.dims == p.dqk) else p.off == 0),
    need 9 270 (if p.rot then p.dims % 2 == 0 && decide (2 ≤ p.dims) && decide (p.dims + p.off ≤ p.dqk) else p.dims == 0),
    need 9 272 ((kind == 2) == (p.frame != 0)), need 9 276 ((kind == 3) == (p.window != 0)), need 9 280 ((fuse == 1 || fuse == 2) == (p.globalKv != 0)),
    need 9 284 (stall || p.layer == 0),
    need 9 288 (!stall || le b 288 8 == 0), need 9 296 (!stall || le b 296 8 == 0), need 9 304 (bit mask 3 || le b 304 8 == 0),
    need 9 312 (p.rot || le b 312 8 == 0), need 9 320 (p.rot || le b 320 8 == 0), need 9 328 (le b 328 8 % 4 == 0),
    need 9 336 (stall || le b 336 8 == 0), need 9 344 (stall || le b 344 8 == 0),
    need 9 352 (if stall && e.step.isNone then le b 352 8 != 0 else le b 352 8 == 0),
    need 9 360 (append || le b 360 8 == 0), need 9 368 (append || le b 368 8 == 0), need 9 376 (((b.drop 376).take 136).all (fun x => x == 0))]

/-! ## Scores and the online softmax -/

/-- A dot product as one segment in ascending index (R208). -/
def dotRow (fa fb : Nat) (a b : List MElem) : Flagged Acx :=
  let r := reducePair 0 (groupElems fa fb) (max a.length 1) false a b
  (r.value, orFlags r.segFlags ||| r.endFlags)

/-- One key position as a query sees it: whether it is real, its score, and its value row. -/
structure KeyPos where
  real : Bool
  score : Flagged Acx
  value : List MElem
deriving DecidableEq, Repr

/-- The running result of a segment: maximum, denominator, numerators. -/
structure Soft where
  m : Acx
  l : Acx
  o : List Acx
deriving DecidableEq, Repr

/-- One block of the online softmax (R209); the rescaling raises IX as R541 has it. -/
def softBlock (pFmt vFmt dv : Nat) (acc : Flagged (Option Soft)) (block : List KeyPos) : Flagged (Option Soft) :=
  if block.all (fun k => !k.real) then acc
  else
    let cur := acc.1.getD ⟨acxInf true, acxZero false, List.replicate dv (acxZero false)⟩
    let scores := (block.filter KeyPos.real).map KeyPos.score
    let mb := scores.foldl (fun (a : Flagged Acx) x => Flagged.bind a (fun u => Flagged.bind x (fun v => acxMax u v))) (acxInf true, 0)
    let mn := Flagged.bind mb (fun v => acxMax cur.m v)
    let f := (acxSub cur.m mn.1).bind acxRescale
    let l1 := acxMul cur.l f.1
    let ps := block.map (fun k => if k.real then
        let p := ((k.score.1 |> fun v => acxSub v mn.1).bind acxExp).bind (fun v => roundOut pFmt 0 false 0 v.toNum)
        ((⟨p.1, ⟨decodeElem pFmt p.1, 127⟩⟩ : MElem), p.2) else (MElem.hole, (0 : Flags)))
    let sum := (ps.filter (fun p => !p.1.el.masked)).foldl (fun (a : Flagged Acx) p => Flagged.bind a (fun u => acxAdd u (acxOf p.1.el.v))) (acxZero false, 0)
    let l2 := acxAdd l1.1 sum.1
    let os := mapFlagged (fun d => (acxMul (cur.o.getD d (acxZero false)) f.1).bind (fun old =>
        (dotRow pFmt vFmt (ps.map (·.1)) (block.map (fun k => if k.real then k.value.getD d MElem.zero else MElem.hole))).bind (fun t => acxAdd old t)))
      (List.range dv)
    (some ⟨mn.1, l2.1, os.1⟩, acc.2 ||| mn.2 ||| f.2 ||| l1.2 ||| orFlags (ps.map (·.2)) ||| sum.2 ||| l2.2 ||| os.2)

/-- One segment, block by block (R209). -/
def softSegment (pFmt vFmt dv : Nat) (keys : List KeyPos) : Flagged (Option Soft) :=
  (chunks 256 keys).foldl (softBlock pFmt vFmt dv) (none, 0)

/-- The fold over segments in ascending order (R210). -/
def softFold (acc : Flagged (Option Soft)) (seg : Option Soft) : Flagged (Option Soft) :=
  match acc.1, seg with
  | none, x => (x, acc.2)
  | some a, none => (some a, acc.2)
  | some a, some b =>
    let mn := acxMax a.m b.m
    let fa := (acxSub a.m mn.1).bind acxRescale
    let fb := (acxSub b.m mn.1).bind acxRescale
    let mix := fun (x y : Acx) => (acxMul x fa.1).bind (fun u => (acxMul y fb.1).bind (fun v => acxAdd u v))
    let l := mix a.l b.l
    let os := mapFlagged (fun d => mix (a.o.getD d (acxZero false)) (b.o.getD d (acxZero false))) (List.range a.o.length)
    (some ⟨mn.1, l.1, os.1⟩, acc.2 ||| mn.2 ||| fa.2 ||| fb.2 ||| l.2 ||| os.2)

/-- x of R210, or +0 where no position is real (R207). -/
def softResult (dv : Nat) : Option Soft → Flagged (List Acx)
  | none => (List.replicate dv (acxZero false), 0)
  | some f => let r := boundedDiv 0x0C 1 acxOne f.l; let xs := mapFlagged (fun o => acxMul o r.1) f.o; (xs.1, r.2 ||| xs.2)

/-- A segment's result as the values that leave for its owner (R216). -/
def softImages : Option Soft → List Acx
  | none => []
  | some f => f.m :: f.l :: f.o

def softOfImages : List Acx → Option Soft
  | m :: l :: o => some ⟨m, l, o⟩
  | _ => none

/-- Whether the mask kind admits query position i and key position j (Table 08-4). -/
def maskAdmits (kind frame window : Nat) (sym : Bool) (i j : Nat) : Bool :=
  match kind with
  | 0 => true
  | 1 => decide (j ≤ i)
  | 2 => decide (j / frame ≤ i / frame)
  | _ => if sym then decide (((i : Int) - j).natAbs < window) else decide ((i : Int) - window < j) && decide (j ≤ i)

/-! ## Keys and values -/

/-- The keys of one batch index and KV head: positions held here, their key rows, value rows and the rows' flags. -/
structure KeySet where
  start : Nat                    -- position of the first
  present : List Bool            -- R206 condition 4
  key : List (Flagged (List MElem))      -- non-rotary and rotary parts; in absorbed mode the latent
  rope : List (Flagged (List MElem))     -- absorbed mode: rotated k_R
  value : List (Flagged (List MElem))
deriving DecidableEq, Repr

def KeySet.none : KeySet := ⟨0, [], [], [], []⟩

/-- A stall row's latent and k_R (R219). -/
def State.stallRow (s : State) (c : Ctx) (p : Pool) (st layer q : Nat) : Except AccFault (List MElem × List MElem) := do
  let b ← s.readVa c (p.rowAddr st layer q) p.rowBytes
  let codes := unpackCodes (fmtBits p.latFmt) p.rank (b.take (p.rank * p.elemBytes))
  let sc := ((b.drop (p.rank * p.elemBytes)).take p.scaleBytes).map BitVec.toNat
  let rope := unpackCodes (fmtBits p.ropeFmt) p.dRope ((b.drop (p.rank * p.elemBytes + p.scaleBytes)).take (p.dRope * p.ropeBytes))
  return (rowElems p.latFmt ⟨codes, sc⟩, rope.map (fun x => ⟨x, ⟨decodeElem p.ropeFmt x, 127⟩⟩))

/-- Rotate one row at a position and round it to the KV format; without rotation it is only rounded. -/
def roundedRow (p : AttendParam) (fmt : Nat) (rot : Bool) (headDim off : Nat) (tb : RotTable) (pos : Nat) (row : List MElem) : Flagged (List MElem) :=
  let r := acxRow row
  joinRow ((if rot then rotateRow p.layout headDim off p.dims tb pos r else r).map (proRound fmt))

/-- Expand a latent by the rows of U for a head (R167, R212). -/
def expandRow (fmt uFmt latFmt : Nat) (u : Mat) (lat : List MElem) : Flagged (List MElem) :=
  joinRow (u.map (fun ur => let x := dotRow uFmt latFmt ur lat; proRound fmt x))

/-- The keys of a sequence for one KV head (R205, R206, R212, R213). -/
def State.stallKeys (s : State) (c : Ctx) (pool : Pool) (p : AttendParam) (tb : RotTable) (ent : Entry) (count : Nat) (uk uv : Mat) (ukF uvF : Nat) :
    Except AccFault KeySet := do
  let rows ← (List.range count).mapM (fun j => match ent.stallAt (j / 256) with
    | none => .ok (none : Option (List MElem × List MElem))
    | some st => (s.stallRow c pool st p.layer (j % 256)).map some)
  let per := (List.range count).map (fun j => match rows.getD j none with
    | none => (false, (([] : List MElem), (0 : Flags)), (([] : List MElem), (0 : Flags)), (([] : List MElem), (0 : Flags)))
    | some r =>
      let rope := roundedRow p p.kvFmt p.rotK (max p.dims 1) 0 tb j r.2
      if p.latent = 2 then (true, (r.1, 0), rope, (r.1, 0))
      else
        let k := expandRow p.kvFmt ukF pool.latFmt uk r.1
        (true, (k.1 ++ rope.1, k.2 ||| rope.2), rope, expandRow p.kvFmt uvF pool.latFmt uv r.1))
  return ⟨0, per.map (·.1), per.map (·.2.1), per.map (·.2.2.1), per.map (·.2.2.2)⟩

/-- The rows an appending ATTEND writes, as cells (R220). -/
def State.appendCells (s : State) (c : Ctx) (e : Env) (pool : Pool) (p : AttendParam) (ent : Entry) (b n : Nat) (lat rope : Tensor) :
    Except AccFault (List (Nat × Byte) × Flags) :=
  (List.range n).foldlM (fun (acc : List (Nat × Byte) × Flags) i => do
    let pos := imgLength ent.image + i
    match ent.stallAt (pos / 256) with
    | none => .ok acc
    | some st => do
      let l ← s.readRow c lat [i, b] pool.rank
      let key := s.rowKey e pool.rank (i + n * b)
      let lo := movedRow lat.fmt pool.latFmt (outMode (e.f 114 1)) (outSat (e.f 114 1)) key l
      let base := pool.rowAddr st p.layer (pos % 256)
      let w1 ← s.cellsVa c base (toLe (pool.rank * pool.elemBytes) (packCodes (fmtBits pool.latFmt) lo.codes) ++ lo.scales.map (BitVec.ofNat 8))
      if pool.dRope = 0 then .ok (acc.1 ++ w1, acc.2 ||| orFlags lo.flags)
      else do
        let r ← s.readRow c rope [i, b] pool.dRope
        let ro := movedRow rope.fmt pool.ropeFmt (outMode (e.f 114 1)) (outSat (e.f 114 1)) key r
        let w2 ← s.cellsVa c (base + pool.rank * pool.elemBytes + pool.scaleBytes) (toLe (pool.dRope * pool.ropeBytes) (packCodes (fmtBits pool.ropeFmt) ro.codes))
        .ok (acc.1 ++ w1 ++ w2, acc.2 ||| orFlags lo.flags ||| orFlags ro.flags)) ([], 0)

/-! ## The plan -/

/-- A batch dimension of K, V or MASK: its own index, or 0 where it has extent 1. -/
def batchIdx (t : Tensor) (d i : Nat) : Nat := if t.e d = 1 then 0 else i

/-- A dimension equals n, or is 1 with stride 0 (Table 08-3). -/
def dimOrOne (t : Tensor) (d n : Nat) : Bool := t.ext.getD d 0 == n || (t.ext.getD d 0 == 1 && t.stride.getD d 1 == 0)

/-- The OBJECT_STATE of R227: the lowest entry index that offends, and its reason. -/
def stallStateFail (l : List (Nat × Nat)) : Option Fail :=
  match sortBy (·.1) (l.filter (fun x => x.2 != 0)) with
  | [] => none
  | x :: _ => some ⟨stObjectState, x.1 % 4096 + x.2 * 4096, none⟩

/-- The operands of ATTEND (Table 08-3), and the logical query rows, heads and batch indices. Where two operands' runtime extents differ
the smaller holds (log entry 92). -/
structure AttendOps where
  q : Tensor
  o : Tensor
  k : Tensor
  v : Tensor
  m : Tensor
  uk : Tensor
  uv : Tensor
  nl : Tensor                    -- NEW_LAT_DESC
  nr : Tensor                    -- NEW_ROPE_DESC
  p : AttendParam
  pool : Pool
  stall : Bool
  append : Bool
  explicit : Bool
  fuse : Nat
  sv : Nat
  nKv : Nat                      -- logical key count of tensor mode
  rows : Nat                     -- query rows computed, all ranks' under FUSE_MODE 2
  heads : Nat
  batch : Nat
deriving DecidableEq, Repr

/-- Formats of q, k and v as the products take them (R212, R213). -/
def AttendOps.qf (a : AttendOps) : Nat := if a.p.rotQ then a.p.kvFmt else a.q.fmt
def AttendOps.kf (a : AttendOps) : Nat := if a.p.rotK || a.stall then a.p.kvFmt else a.k.fmt
def AttendOps.vf (a : AttendOps) : Nat := if a.stall then (if a.p.latent = 2 then a.pool.latFmt else a.p.kvFmt) else a.v.fmt
/-- Elements of a value row: D_V, or r in absorbed mode. -/
def AttendOps.width (a : AttendOps) : Nat := if a.p.latent = 2 then a.pool.rank else a.p.dv

/-- The shape rules of Table 08-3, R56 for each product, and R214's key counts. `kp`: the parameter block could be read; `own`: rows of O under
FUSE_MODE 2, `localKv` the keys of this rank. -/
def AttendOps.checks (a : AttendOps) (e : Env) (b : List Byte) (kp : Bool) (own : Nat) (localKv : Nat) : Checks :=
  let p := a.p
  let B := a.q.ext.getD 3 0
  let mq := a.q.ext.getD 1 0
  let pair := fun (fx fy : Nat) => !badPair fx fy
  allChecks
   [given a.q.got (need 1 9 (a.q.rank == 4)), given a.o.got (need 2 9 (a.o.rank == 4)),
    given (a.q.got && kp) (allChecks [need 1 16 (a.q.ext.getD 0 0 == p.dqk), need 1 24 (a.q.ext.getD 2 0 == p.headsQ)]),
    given (a.o.got && kp) (allChecks [need 2 16 (a.o.ext.getD 0 0 == p.dv), need 2 24 (a.o.ext.getD 2 0 == p.headsQ)]),
    given (a.q.got && a.o.got) (need 2 28 (a.o.ext.getD 3 0 == B)),
    given (a.q.got && a.o.got && a.fuse != 2) (need 2 20 (a.o.ext.getD 1 0 == mq)),
    given (a.q.logd && a.o.logd && a.fuse == 2) (need 2 20 (a.o.l 1 == own)),
    given a.k.got (need 9 288 (a.k.rank == 4 && a.k.ext.getD 0 0 == p.dqk && a.k.ext.getD 2 0 == p.headsKv)),
    given (a.k.got && a.q.got) (need 9 288 (dimOrOne a.k 3 B)),
    given (a.k.logd && a.v.logd) (need 9 288 ((a.fuse != 1 || a.nKv == p.globalKv) && (a.fuse != 2 || a.nKv == localKv))),
    given a.v.got (need 9 296 (a.v.rank == 4 && a.v.ext.getD 0 0 == p.dv && a.v.ext.getD 2 0 == p.headsKv)),
    given (a.k.got && a.v.got) (need 9 296 (a.v.ext.getD 1 0 == a.k.ext.getD 1 0)), given (a.v.got && a.q.got) (need 9 296 (dimOrOne a.v 3 B)),
    given a.m.got (need 9 304 (a.m.fmt == 9 && a.m.rank == 4 && dimOrOne a.m 2 p.headsQ)),
    given (a.m.got && (a.fuse != 0 || a.k.got)) (need 9 304 (a.stall || a.m.ext.getD 0 0 == (if a.fuse = 0 then a.k.ext.getD 1 0 else p.globalKv))),
    given (a.m.got && a.q.got) (need 9 304 (a.m.ext.getD 1 0 == mq && dimOrOne a.m 3 B)),
    given a.uk.got (need 9 336 (a.uk.rank == 2 && a.uk.ext.getD 1 0 == p.headsKv * p.plain)),
    given a.uv.got (need 9 344 (a.uv.rank == 2 && a.uv.ext.getD 1 0 == p.headsKv * p.dv)),
    given a.nl.got (need 9 360 (a.nl.rank == 3 && (!a.q.got || a.nl.ext.getD 2 0 == B))),
    given a.nl.logd (need 9 360 (match e.run with | some r => r.appended.getD (a.nl.l 1) == a.nl.l 1 | none => true)),
    given a.nr.got (need 9 368 (a.nr.rank == 3 && (!a.q.got || a.nr.ext.getD 2 0 == B))),
    given (a.nl.logd && a.nr.logd) (need 9 368 (a.nr.l 1 == a.nl.l 1)),
    given kp (need 9 368 ((a.append && a.pool.dRope != 0) || le b 368 8 == 0)),
    -- R56 for each product; in stall mode every key, and in absorbed mode the rotary part, is in KV_FORMAT
    given (a.q.got && a.k.got && kp) (need 1 8 (pair a.qf a.kf || fmtMx a.qf)),
    given (a.q.got && a.k.got && kp) (need 9 288 (pair a.qf a.kf || !fmtMx a.qf)),
    given (kp && (a.stall || a.v.got)) (need 9 257 (pair p.pFmt a.vf)),
    given kp (need 9 256 (!(a.stall && p.latent == 2) || pair p.kvFmt a.pool.latFmt)),
    given (a.q.got && kp) (need 9 256 (!a.stall || pair a.qf a.kf)),
    given (a.uk.got && a.q.got) (need 9 336 (pair a.uk.fmt (if p.latent = 2 then a.qf else a.pool.latFmt))),
    given a.uv.got (need 9 344 (pair a.uv.fmt (if p.latent = 2 then p.kvFmt else a.pool.latFmt))),
    given kp (need 9 270 (!(a.stall && p.rotK && a.pool.count != 0 && p.dims != a.pool.dRope)))]

/-- What of the entries and the pool a stall-mode ATTEND finds wrong (R227). -/
def State.attendState (s : State) (t : Nat) (a : AttendOps) (es : List (Option Nat)) : Option Fail :=
  let n := a.nl.l 1
  stallStateFail (es.filterMap (fun x => x.map (fun i => (i,
    if !s.activeSequence t i then 1
    else if a.pool.count == 0 || decide (a.pool.layers ≤ a.p.layer) || a.p.dims != a.pool.dRope || a.uk.ext.getD 0 0 != a.pool.rank
      || a.uv.ext.getD 0 0 != a.pool.rank || (a.append && a.nl.ext.getD 0 0 != a.pool.rank)
      || (a.append && a.pool.dRope != 0 && a.nr.ext.getD 0 0 != a.pool.dRope) then 2
    else if decide (262144 < imgLength (s.entry i).image + n) && a.append then 3 else 0))))

/-- The keys and values of one batch index and KV head in tensor mode (R205, R213). -/
def State.tensorKeys (s : State) (c : Ctx) (a : AttendOps) (tb : RotTable) (first g bi : Nat) : Except AccFault KeySet := do
  let kr ← s.readRows c a.k a.p.dqk ((List.range a.nKv).map (fun j => [j, g, batchIdx a.k 3 bi]))
  let vr ← s.readRows c a.v a.p.dv ((List.range a.nKv).map (fun j => [j, g, batchIdx a.v 3 bi]))
  let ks := (List.range a.nKv).map (fun j =>
    let r := rowElems a.k.fmt (kr.getD j ⟨[], []⟩)
    if a.p.rotK then roundedRow a.p a.p.kvFmt true a.p.dqk a.p.off tb (first + j) r else (r, (0 : Flags)))
  return ⟨first, ks.map (fun _ => true), ks, [], vr.map (fun r => (rowElems a.v.fmt r, (0 : Flags)))⟩

/-- Key position j of a key set as the query with rows q (and, in absorbed mode, q′) at position `pos` sees it (R206, R208). -/
def keySeen (a : AttendOps) (kind : Nat) (sym : Bool) (scale : Acx) (q qq : List MElem) (pos : Nat) (mrow : Nat → Bool) (set : KeySet) (j : Nat) : KeyPos :=
  let jl := j - set.start
  let real := decide (set.start ≤ j) && set.present.getD jl false && maskAdmits kind a.p.frame a.p.window sym pos j && mrow j
  let k := set.key.getD jl ([], 0)
  let rope := set.rope.getD jl ([], 0)
  let dot := if a.p.latent = 2 then
      (dotRow a.p.kvFmt a.pool.latFmt qq k.1).bind (fun x => (dotRow a.qf a.p.kvFmt (q.drop a.p.plain) rope.1).bind (fun r => acxAdd x r))
    else dotRow a.qf a.kf q k.1
  let score := dot.bind (fun d => acxMul scale d)
  let v := set.value.getD jl ([], 0)
  ⟨real, if real then (score.1, score.2 ||| k.2 ||| v.2 ||| rope.2) else (acxZero false, 0), v.1⟩

/-- ATTEND's checks and its work. `fz` gives the ranks, the own rank and the landed segment results of a fused command. -/
def planAttend (s : State) (e : Env) (fz : Option Fuse) : Plan :=
  let c := e.ctx
  let t := c.getD 0
  let qt := s.tensorAt c (e.f 88 8) 1 none false false true
  let ot := s.tensorAt c (e.f 96 8) 2 none true false true
  let pb := s.paramAt c (e.f 104 8) 512
  let kp := pb.1 == Checks.none
  let b := pb.2
  let pr := parseParam b
  let p := parseAttend b
  let src := e.f 112 1
  let stall := bit src 0
  let append := bit src 1
  let mask := e.f 113 1
  let fuse := e.f 115 1 % 4
  let segBase := e.f 115 1 / 4
  let sv := e.f 116 1
  let pool := s.pool t
  let opt := fun (use : Bool) (off : Nat) => if use && kp then s.tensorAt c (le b off 8) 9 (some off) false false true else (Checks.none, Tensor.zero)
  let kt := opt (!stall) 288
  let vt := opt (!stall) 296
  let mt := opt (bit mask 3) 304
  let uk := opt stall 336
  let uv := opt stall 344
  let nl := opt append 360
  let nr := opt (append && pool.dRope != 0) 368
  let Q := qt.2
  let O := ot.2
  let tb := if p.rot && kp then s.rotTensors c (le b 312 8) (le b 320 8) (p.dims / 2) 312 320 else (Checks.none, Tensor.zero, Tensor.zero)
  let nRank := (fz.map Fuse.n).getD 1
  let rk := (fz.map Fuse.rank).getD 0
  let mq := Q.ext.getD 1 0
  let own := if fuse = 2 then ownedRows (Q.l 1) nRank rk else (0, min (Q.l 1) (O.l 1))
  let a : AttendOps := ⟨Q, O, kt.2, vt.2, mt.2, uk.2, uv.2, nl.2, nr.2, p, pool, stall, append, bit mask 3, fuse, sv, min (kt.2.l 1) (vt.2.l 1),
    if fuse = 2 then Q.l 1 else own.2, min (Q.l 2) (O.l 2), min (Q.l 3) (O.l 3)⟩
  let cPer := sv / max nRank 1
  let localKv := let L := segmentLen p.globalKv sv; min p.globalKv ((segBase + cPer) * L) - min p.globalKv (segBase * L)
  let known := Q.logd && O.logd && Q.rank == 4 && O.rank == 4
  let nc := O.l 0
  let outIdx := outerIndices [own.2, a.heads, a.batch]
  let dims := [nc, own.2, a.heads, a.batch]
  let sh : Shape := if known then ⟨true, O.outerSize, O.e 0, flatIndex O.ext ((dims.drop 1).map (· - 1)) + 1, nc, O.ext, dims, 4⟩
    else ⟨O.got && O.rank == 4, O.outerSize, O.e 0, 0, 0, O.ext, [], 4⟩
  let slots := s.slotTensors c pr sh
  let fuseCk := need 0 115 (fuse == 0 || fz.isNone || (sv % max nRank 1 == 0 && segBase == rk * cPer))
  let checks := allChecks [attendBody e, fuseCk, qt.1, ot.1, pb.1, a.checks e b kp own.2 localKv, kt.1, vt.1, mt.1, uk.1, uv.1, nl.1, nr.1, tb.1,
    given kp (allChecks [attendFieldChecks e b p, paramChecks pr ⟨O.got, O.fmt, if known then nc else 0, false, false, false⟩ false (fuse != 0), slots.1])]
  let quarters := s.tenantQuarters c
  let entryOf : Except AccFault (List (Option Nat)) :=
    if !stall then .ok []
    else match e.step with
      | some r => .ok ((List.range (Q.ext.getD 3 0)).map (fun i => r.batch[i]?))
      | none => (s.readArray c (le b 352 8) 2 (Q.ext.getD 3 0)).map (fun l => l.map some)
  let n := if append then nl.2.l 1 else 0
  let bad := match entryOf with
    | .error _ => none
    | .ok es => if !stall then none else s.attendState t a es
  let work : Except AccFault Work := do
    let es ← entryOf
    let ent := fun i => match es.getD i none with | some x => s.entry x | none => Entry.free
    let app ← (if append then (List.range (min a.batch (nl.2.l 2))).foldlM (fun (acc : List (Nat × Byte) × Flags) bi => do
        let r ← s.appendCells c e pool p (ent bi) bi n nl.2 nr.2
        .ok (acc.1 ++ r.1, acc.2 ||| r.2)) ([], 0) else .ok (([] : List (Nat × Byte)), (0 : Flags)))
    let s1 := s.withMem (s.mem.store app.1)
    let od ← s1.slotsRead c pr ⟨(outerIndices [a.heads, a.batch]).map (fun hb => (flatIndex O.ext (0 :: hb), own.2)), outIdx.map (fun ix => (ix, nc)), nc⟩ slots.2
    let qpos ← (if le b 328 8 != 0 then (List.range a.batch).mapM (fun bi => s.readArray c (le b 328 8 + 4 * mq * bi) 4 a.rows) else .ok [])
    let ukM : Mat ← (if stall then (s1.readTensor c uk.2).map (fun l => l.map (rowElems uk.2.fmt)) else .ok [])
    let uvM : Mat ← (if stall then (s1.readTensor c uv.2).map (fun l => l.map (rowElems uv.2.fmt)) else .ok [])
    let posOf := fun (i bi : Nat) => if le b 328 8 != 0 then (qpos.getD bi []).getD i 0 else if stall then imgLength (ent bi).image + i else i
    let countOf := fun bi => if stall then imgLength (ent bi).image + (if (es.getD bi none).isSome then n else 0) else a.nKv
    let segOf := fun bi => segmentLen (if fuse = 0 then countOf bi else p.globalKv) sv
    let first := fun bi => if fuse = 2 && !stall then segBase * segOf bi else 0
    -- the rows of the rotary tables that positions name
    let rot ← (if p.rot then s1.rotRows c tb.2 ((List.range a.batch).flatMap (fun bi =>
        (if p.rotQ then (List.range a.rows).map (fun i => posOf i bi) else []) ++ (if p.rotK then (List.range (countOf bi)).map (first bi + ·) else [])))
      else .ok ⟨[], [], 0⟩)
    let sets ← (List.range a.batch).mapM (fun bi => (List.range p.headsKv).mapM (fun g =>
        if stall then s1.stallKeys c pool p rot (ent bi) (countOf bi) ((ukM.drop (g * p.plain)).take p.plain) ((uvM.drop (g * p.dv)).take p.dv) uk.2.fmt uv.2.fmt
        else s1.tensorKeys c a rot (first bi) g bi))
    let width := a.width
    -- the segment results of query row i, head h, batch index bi, computed here, with their flags
    let segs := fun (i h bi : Nat) (q : Flagged (List MElem)) (mrow : Nat → Bool) =>
      let g := h / (p.headsQ / max p.headsKv 1)
      let set := (sets.getD bi []).getD g KeySet.none
      let L := segOf bi
      let N := if fuse = 0 then countOf bi else p.globalKv
      let qq := if p.latent = 2 then
          joinRow ((List.range pool.rank).map (fun cc => proRound p.kvFmt (dotRow a.qf uk.2.fmt (q.1.take p.plain)
            (((ukM.drop (g * p.plain)).take p.plain).map (fun r => r.getD cc MElem.zero))))) else (q.1, (0 : Flags))
      let keyAt := keySeen a (mask % 8) (bit mask 4) (fp32Acx (e.f 120 4)) q.1 qq.1 (posOf i bi) mrow set
      (List.range sv).map (fun sg =>
        if fuse = 2 ∧ ¬(segBase ≤ sg ∧ sg < segBase + cPer) then ((none : Option Soft), (0 : Flags))
        else
          let r := softSegment p.pFmt a.vf width ((List.range (min N ((sg + 1) * L) - sg * L)).map (fun d => keyAt (sg * L + d)))
          (r.1, r.2 ||| (if r.1.isSome then q.2 ||| qq.2 else 0)))
    let qRow := fun (i h bi : Nat) => do
      let r ← s1.readRow c Q [i, h, bi] p.dqk
      let el := rowElems Q.fmt r
      let m ← (if a.explicit then (s1.readRow c a.m [i, batchIdx a.m 2 h, batchIdx a.m 3 bi] (a.m.l 0)).map (fun d => d.codes) else .ok [])
      (.ok ((if p.rotQ then roundedRow p p.kvFmt true p.dqk p.off rot (posOf i bi) el else (el, (0 : Flags))),
        fun j => !a.explicit || m.getD j 0 != 0) : Except AccFault (Flagged (List MElem) × (Nat → Bool)))
    let fin : Finish := ⟨O.fmt, outMode (e.f 114 1), outSat (e.f 114 1), false, O.e 0, nc, none, 0⟩
    let remote := (fz.map Fuse.remote).getD []
    let rows ← (List.range outIdx.length).mapM (fun k => do
      let ix := outIdx.getD k []
      let i := own.1 + ix.getD 0 0
      let h := ix.getD 1 0
      let bi := ix.getD 2 0
      let q ← qRow i h bi
      let r := flatIndex O.ext ix
      let rQ := flatIndex Q.ext [i, h, bi]
      let ss := segs i h bi q.1 q.2
      let mine := (List.range sv).map (fun sg => match remote.find? (fun z => z.1 == (rQ, 0, sg)) with
        | some z => softOfImages z.2
        | none => (ss.getD sg (none, 0)).1)
      let f := mine.foldl softFold ((none : Option Soft), (0 : Flags))
      let x := softResult width f.1
      let g := h / (p.headsQ / max p.headsKv 1)
      let vals : List (Flagged Acx) := if p.latent = 2 then
          (let xr := joinRow (x.1.map (fun v => proRound p.kvFmt (v, 0)))
           (List.range p.dv).map (fun d => match f.1 with
             | none => (acxZero false, (0 : Flags))
             | some _ => let y := dotRow p.kvFmt uv.2.fmt xr.1 (((uvM.drop (g * p.dv)).getD d [])); (y.1, y.2 ||| xr.2)))
        else x.1.map (fun v => (v, (0 : Flags)))
      -- the draws are those of the whole operation, whichever rank owns the row (R217)
      let out := chainRow pr od fin (s.rowKey e (O.e 0) (if fuse = 2 then rQ else r)) RowExtra.none k r ix (vals.take nc)
      return (out, orFlags (ss.map (·.2)), f.2 ||| x.2 ||| orFlags out.colFlags))
    -- the segment results computed here: the partial store holds them (R210), and those of rows owned elsewhere leave (R216)
    let away ← (if sv ≤ 1 then .ok [] else (outerIndices [a.rows, a.heads, a.batch]).mapM (fun ix => do
        let i := ix.getD 0 0
        let q ← qRow i (ix.getD 1 0) (ix.getD 2 0)
        let ss := segs i (ix.getD 1 0) (ix.getD 2 0) q.1 q.2
        let at' := if fuse = 2 then (List.range cPer).map (segBase + ·) else List.range sv
        return (at'.map (fun g => ((flatIndex Q.ext ix, 0, g), softImages (ss.getD g (none, 0)).1)),
          if own.1 ≤ i ∧ i < own.1 + own.2 then (0 : Flags) else orFlags (ss.map (·.2)))))
    let cells ← s.writeRows c O (rows.map (·.1))
    let st ← s.writeStats c pr od (rows.map (·.1))
    -- the folds and the chain over segments of other ranks are no tile's (R216)
    let ends := orFlags (rows.map (·.2.2))
    let fl := orFlags (rows.map (·.2.1)) ||| orFlags (away.map (·.2)) ||| app.2 ||| (if fuse = 2 then 0 else ends)
    let blocks := if sv = 1 then vectorTile quarters fl
      else (List.range (a.batch * a.heads * ceilDiv a.rows 256)).flatMap (fun k => (vectorTile quarters (if k = 0 then fl else 0)).map (fun tl =>
        { tl with prod := k, row0 := 256 * (k % ceilDiv a.rows 256), state := .waitGrant, grant := 16 * (width + 2) * 256 * sv }))
    return { Work.none with writes := app.1 ++ cells ++ st, flags := if fuse = 2 then ends else 0, tiles := blocks, digest := digestParts e O.fmt (rows.map (·.1)),
                            partials := away.flatMap (·.1) }
  (checks, match bad with | some f => .error f | none => workOf work)

end Sys2Proof.Machine
end

