-- ==== Sys2Proof/Machine/Trace.lean ====
section
/-! DEFINITION. Trace records (R507 to R511), attribution (R498 to R501), and the fault information a command leaves (R104, R118). -/

namespace Sys2Proof.Machine

/-! ## Trace records -/

/-- Whether a record is generated (R508, R509): under FILTER 1 not one of a tenant other than the one named. -/
def State.traceOn (s : State) (typ tenant : Nat) : Bool :=
  let c := s.obj oTraceConfig
  s.obj oTraceEnable == 1 && (decide (7 ≤ typ) || bit (leN c 6 2) (typ - 1))
    && (leN c 8 1 == 0 || decide (1024 ≤ tenant) || tenant == leN c 10 2)

/-- A record (R509). TIME is a free value: the spec's commands carry no device time (log entry 2). -/
def traceRecord (typ sub tenant time : Nat) (tail : List Byte) : List Byte :=
  toLe 1 typ ++ toLe 1 sub ++ toLe 2 tenant ++ toLe 4 0 ++ toLe 8 time ++ tail

/-- Once there is room again, one type 8 record carries the number dropped (R510). -/
def State.reportDrops (s : State) : State :=
  if s.obs.traceOwed = 0 ∨ 2048 ≤ s.obs.trace.length ∨ !s.traceOn 8 0xFFFF then s
  else
    let f := s.free
    { f.2 with obs := { f.2.obs with trace := f.2.obs.trace ++ [traceRecord 8 0 0xFFFF f.1 (toLe 8 s.obs.traceOwed ++ toLe 8 0)], traceOwed := 0 } }

/-- Generate a record; one that finds the buffer full is dropped and counted (R510). -/
def State.trace (s : State) (typ sub tenant : Nat) (tail : List Byte) : State :=
  if !s.traceOn typ tenant then s
  else
    let s0 := s.reportDrops
    if 2048 ≤ s0.obs.trace.length then
      { s0 with obs := { s0.obs with traceOwed := s0.obs.traceOwed + 1, traceDropSec := s0.obs.traceDropSec + 1 } }.count oTraceRecordsDropped 1
    else
      let f := s0.free
      { f.2 with obs := { f.2.obs with trace := f.2.obs.trace ++ [traceRecord typ sub tenant f.1 tail] } }

/-- The tenant field of a record (R509). -/
def traceTenant (c : Ctx) : Nat := c.getD 0x0401

/-- The queue and SQ index a command's records carry (R509). -/
def State.srcOrigin (s : State) (src : Src) : Nat × Nat :=
  match src with
  | .queue q idx => (q, idx)
  | .program run _ => ((s.remuda.runs.find? (fun r => r.id == run)).map Run.origin).getD (0, 0)

def srcList (src : Src) : Nat := match src with | .queue _ _ => 0xFFFFFFFF | .program _ i => i

def isMark (b : List Byte) : Bool := le b 0 1 == 0x7F

/-- Types 1 and 2 (Table 20-6). -/
def State.traceCommand (s : State) (typ : Nat) (src : Src) (c : Ctx) (b : List Byte) (status flags : Nat) : State :=
  let o := s.srcOrigin src
  if isMark b then s
  else s.trace typ 0 (traceTenant c) (toLe 2 o.1 ++ toLe 2 o.2 ++ toLe 1 (le b 0 1) ++ toLe 1 status ++ toLe 1 flags ++ [0]
    ++ toLe 2 (le b 4 2) ++ toLe 2 (le b 6 2) ++ toLe 4 (srcList src))

/-- Type 7, at a MARK's completion (R511). -/
def State.traceMark (s : State) (src : Src) (c : Ctx) (b : List Byte) : State :=
  let o := s.srcOrigin src
  s.trace 7 0 (traceTenant c) (toLe 2 o.1 ++ toLe 2 o.2 ++ toLe 2 (le b 4 2) ++ toLe 2 (le b 6 2) ++ toLe 8 (le b 88 8))

/-- Types 3 and 4: a post update applied, a wait acquired. -/
def State.tracePost (s : State) (typ sub : Nat) (c : Ctx) (queue ref value : Nat) : State :=
  s.trace typ sub (traceTenant c) (toLe 4 ref ++ toLe 8 value ++ toLe 2 queue ++ toLe 2 0)

/-- Type 5 (R509): a link state change. -/
def State.traceLink (s : State) (port st width : Nat) : State :=
  s.trace 5 0 0xFFFF (toLe 1 port ++ toLe 1 st ++ toLe 1 width ++ [0] ++ toLe 4 (s.obj oRoutingEpoch) ++ toLe 8 0)

/-- Type 6: a divider change. -/
def State.traceGait (s : State) (gait cause : Nat) : State :=
  s.trace 6 0 0xFFFF (toLe 1 gait ++ toLe 1 cause ++ toLe 2 0 ++ toLe 4 (s.obj oCoreClockKhz) ++ toLe 8 0)

/-! ## Attribution -/

def State.attribOf (s : State) (t : Nat) : List AttribEntry := Store.get [] s.obs.attrib t
def State.setAttrib (s : State) (t : Nat) (l : List AttribEntry) : State :=
  { s with obs := { s.obs with attrib := Store.set [] s.obs.attrib t l } }

/-- Charge a tenant's key (R500); with no entry to be had, stable-ns go to TENANT_ATTRIB_OTHER_NS. -/
def State.charge (s : State) (t key ns bytes commands : Nat) : State :=
  let l := s.attribOf t
  let add := fun (e : AttribEntry) => (⟨e.key, satAdd 64 e.ns ns, satAdd 64 e.bytes bytes, satAdd 64 e.commands commands⟩ : AttribEntry)
  if key ≠ 0 ∧ l.any (fun e => e.key == key) then s.setAttrib t (l.map (fun e => if e.key = key then add e else e))
  else if key ≠ 0 ∧ l.length < s.obj (oTenantAttribQuota t) then s.setAttrib t (l ++ [add ⟨key, 0, 0, 0⟩])
  else s.count (oTenantAttribOtherNs t) ns

/-- The key of a command (R499). -/
def cmdKey (b : List Byte) : Nat := le b 4 2 * 65536 + le b 6 2

/-- Engine time of a tile, charged when it reaches Done or is discarded (R395, R500). -/
def State.chargeEngine (s : State) (c : Ctx) (key ns : Nat) : State :=
  match c with
  | some t => (s.count (oTenantEngineNs t) ns).charge t key ns 0 0
  | none => s.count oEngineNsUncharged ns

/-- Paddock and HBM bytes (R396, R500). -/
def State.chargeBytes (s : State) (c : Ctx) (key paddock hbm : Nat) : State :=
  match c with
  | some t => ((s.count (oTenantPaddockBytes t) paddock).count (oTenantHbmBytes t) hbm).charge t key 0 (paddock + hbm) 0
  | none => s

/-! ## Fault information -/

/-- Fault information of an access: TENANT_FAULT_INFO and the fault event, or ADMIN_FAULT_INFO and event 0x0014 (R104, R118). -/
def State.faultInfo (s : State) (c : Ctx) (queue : Nat) (f : AccFault) : State :=
  let key := match c with | some t => oTenantFaultInfo t | none => oAdminFaultInfo
  let n := satAdd 32 (leN (s.obj key) 12 4) 1
  let s1 := s.setObj key (f.va % 2 ^ 64 + f.typ * 2 ^ 64 + (if c.isSome then f.level else 0xFF) * 2 ^ 72 + n * 2 ^ 96)
  match c with
  | some t => s1.tenantEvent t 0
  | none => s1.event ⟨0x0014, 2, 6, queue, f.typ⟩

end Sys2Proof.Machine
end

