-- ==== Sys2Proof/Machine/Arbiter.lean ====
section
/-! DEFINITION. Share-tag arbiters (R391 to R394, Table 15-1) and those of a Square output port (R356): deficit round-robin over tags. -/

namespace Sys2Proof.Machine

/-! ## Numbers of the arbiters -/

/-- Stable assignment in partition p. -/
def arbStables (p : Nat) : Nat := p
def arbPartialStore : Nat := 8
def arbStaging : Nat := 9
def arbEncoders : Nat := 10
def arbDecoders : Nat := 11
/-- Output port p of the Square: its local packets by share tag, local against transit packets, and transit packets by class. -/
def arbLocal (p : Nat) : Nat := 32 + p
def arbGroups (p : Nat) : Nat := 64 + p
def arbTransit (p : Nat) : Nat := 96 + p

/-! ## Tags and shares (R391) -/

def tagAdmin : Nat := 1024
def tagDevice : Nat := 1025

/-- The tag of a tenant's work, or of the administrative queues'. -/
def ctxTag (c : Ctx) : Nat := c.getD tagAdmin

def State.shareOf (s : State) (tag : Nat) : Nat :=
  if tag < tagAdmin then s.obj (oTenantShare tag) else if tag = tagAdmin then s.obj oAdminShare else s.obj oDeviceShare

/-- The partition a tag's work runs in, for Spur kind 0. -/
def State.tagPartition (s : State) (tag : Nat) : Option Nat := if tag < tagAdmin then some (s.obj (oTenantPartition tag)) else none

/-! ## Deficit round-robin (R392) -/

def Arbiter.deficit (a : Arbiter) (t : Nat) : Int := Store.get 0 a.deficits t
def Arbiter.setDeficit (a : Arbiter) (t : Nat) (v : Int) : Arbiter := { a with deficits := Store.set 0 a.deficits t v }

/-- A tag put into an ascending list of tags, once. -/
def insertTag (t : Nat) : List Nat → List Nat
  | [] => [t]
  | x :: xs => if t < x then t :: x :: xs else if t = x then x :: xs else x :: insertTag t xs

def tagsOf (reqs : List (Nat × Nat)) : List Nat := reqs.foldr (fun r l => insertTag r.1 l) []

/-- Visits a tag needs until its deficit is above 0, at `inc` a visit. -/
def visitsNeeded (d : Int) (inc : Nat) : Nat := if 0 ≤ d then 1 else (-d).toNat / max inc 1 + 1

/-- The waiting tags in the order of their visits: ascending, wrapping, from the one after the tag last visited. -/
def Arbiter.order (a : Arbiter) (tags : List Nat) : List Nat := tags.filter (fun t => decide (a.last < t)) ++ tags.filter (fun t => decide (t ≤ a.last))

/-- The visits up to the one that grants: every waiting tag's deficit grows at each of its visits, `inc` at a time. -/
def Arbiter.visits (a : Arbiter) (inc : Nat → Nat) (rounds : Nat) (winner : Nat) : Bool → List Nat → Arbiter
  | _, [] => a
  | past, t :: ts =>
    let n := if past then rounds - 1 else rounds
    (a.setDeficit t (a.deficit t + n * inc t)).visits inc rounds winner (past || t == winner) ts

/-- The tag whose oldest request is granted next, and the arbiter after the visits that lead to it; `tags`: those with a request waiting. -/
def Arbiter.next (a : Arbiter) (inc : Nat → Nat) (tags : List Nat) : Option (Nat × Arbiter) :=
  if a.visiting && tags.contains a.last && decide (0 < a.deficit a.last) then some (a.last, a)
  else
    let order := a.order tags
    let need := fun t => visitsNeeded (a.deficit t) (inc t)
    match (order.map need).min? with
    | none => none
    | some k =>
      match order.find? (fun t => need t == k) with
      | none => none
      | some w => some (w, { a.visits inc k w false order with last := w, visiting := true })

/-- A grant's cost is charged; a tag with no request left banks nothing. -/
def Arbiter.charge (a : Arbiter) (t cost : Nat) (more : Bool) : Arbiter :=
  if more then a.setDeficit t (a.deficit t - cost)
  else { a.setDeficit t 0 with visiting := a.visiting && a.last != t }

def State.arb (s : State) (n : Nat) : Arbiter := Store.get Arbiter.idle s.sched.arbs n
def State.setArb (s : State) (n : Nat) (a : Arbiter) : State := { s with sched := { s.sched with arbs := Store.set Arbiter.idle s.sched.arbs n a } }

/-- The request an arbiter grants, of those that wait, oldest first, as (tag, name): the oldest of the tag that is next, or, when Spur kind
0 takes the opportunity, any of them, and then the arbiter stays as it is (Table 12-6). -/
def State.arbitrate (s : State) (n : Nat) (inc : Nat → Nat) (reqs : List (Nat × Nat)) : State × Option (Nat × Nat) :=
  match (s.arb n).next inc (tagsOf reqs) with
  | none => (s, none)
  | some w =>
    let d := s.spurDraw 0 (s.tagPartition w.1)
    if d.2 then (let f := d.1.free; (f.2, reqs[f.1 % reqs.length]?)) else (d.1.setArb n w.2, reqs.find? (fun r => r.1 == w.1))

/-- Charge a grant; `more`: its tag has another request waiting. -/
def State.chargeArb (s : State) (n tag cost : Nat) (more : Bool) : State := s.setArb n ((s.arb n).charge tag cost more)

/-- A cost that becomes known after the grant (R392): the deficit may fall below zero. -/
def State.chargeLate (s : State) (n tag cost : Nat) : State := s.setArb n ((s.arb n).setDeficit tag ((s.arb n).deficit tag - cost))

/-- An arbiter of Table 15-1: what a visit adds is the tag's share times the quantum. -/
def State.shareInc (s : State) (quantum tag : Nat) : Nat := s.shareOf tag * quantum

/-- Whether the request named is the one an arbiter grants now. -/
def State.grantTo (s : State) (n quantum name : Nat) (reqs : List (Nat × Nat)) : Option (State × Nat) :=
  match s.arbitrate n (s.shareInc quantum) reqs with
  | (s1, some r) => if r.2 = name then some (s1, r.1) else none
  | (_, none) => none

end Sys2Proof.Machine
end

