-- ==== Sys2Proof/Machine/Fabric.lean ====
section
/-! DEFINITION. Sending: ports and their replay buffers and credits (R345 to R348), routing in the borough and the city (R352 to
R357), end-to-end streams (R351, R371) and link-state advertisements (R344). -/

namespace Sys2Proof.Machine

/-! ## Who this device is -/

def State.deviceNumber (s : State) : Nat := s.obj oTopoDeviceNumber
def State.boroughNumber (s : State) : Nat := s.obj oTopoBoroughNumber
/-- This device as a packet names it: device + 64 × borough (R11). -/
def State.self (s : State) : Nat := s.deviceNumber % 64 + 64 * s.boroughNumber

def coord (d a : Nat) : Nat := d / 4 ^ a % 4

/-! ## Ports -/

def State.port (s : State) (p : Nat) : Port := Store.get Port.idle s.fabric.ports p
def State.setPort (s : State) (p : Nat) (v : Port) : State :=
  { s with fabric := { s.fabric with ports := Store.set Port.idle s.fabric.ports p v } }

def State.linkState (s : State) (p : Nat) : Nat := s.obj (oLinkState p)
/-- ACTIVE or DEGRADED (R338). -/
def State.portUp (s : State) (p : Nat) : Bool := s.linkState p == 4 || s.linkState p == 5

/-- Bit of port p of device d in the link map (R344). -/
def State.mapBit (s : State) (d p : Nat) : Bool := bit (s.obj oLinkMap) (16 * d + p)

/-- Record an output packet; one leaving a Street port is an opportunity of Spur kind 3. -/
def State.outPacket (s0 : State) (p : Nat) (k : Packet) : State :=
  let s := if p < 12 then (s0.spurDraw 3 none).1 else s0
  { s with fabric := { s.fabric with outbox := s.fabric.outbox ++ [(p, k)] } }

def Packet.slots (k : Packet) : Nat := 2 + k.len

/-- The flits a packet of n slots takes, each packet in flits of its own. -/
def flitsOf (n : Nat) : Nat := ceilDiv n 15

/-- Whether a port can put a packet on the wire now: a credit for every slot and room in the replay buffer (R347, R348). -/
def Port.canSend (v : Port) (k : Packet) : Bool :=
  decide (k.slots ≤ v.credits.getD k.hdr.vc 0) && decide (v.replay.length + flitsOf k.slots ≤ 1024)

/-- The port after a packet has gone out. -/
def Port.send (v : Port) (tag : Option Nat) (k : Packet) : Port :=
  let n := flitsOf k.slots
  { v with txSeq := (v.txSeq + n) % 4096,
           replay := v.replay ++ (List.range n).map (fun i => ⟨(v.txSeq + i) % 4096, k, i + 1 == n, tag⟩),
           credits := v.credits.set k.hdr.vc (v.credits.getD k.hdr.vc 0 - k.slots) }

def Packet.cls (k : Packet) : Nat := k.hdr.vc / 4

/-- The packets a port can send now, as (share tag or class, place in its queue): the local ones, or those in transit. Class 3 is served ahead
of the other classes of its group (R356). -/
def Port.ready (v : Port) (transit : Bool) : List (Nat × Nat) :=
  let all := (List.range v.txq.length).filterMap (fun i => match v.txq[i]? with
    | some (some tag, k) => if v.canSend k && !transit then some ((tag, i), k.cls) else none
    | some (none, k) => if v.canSend k && transit then some ((k.cls, i), k.cls) else none
    | none => none)
  let top := all.filter (fun x => x.2 == 3)
  (if top.isEmpty then all else top).map (·.1)

/-- The place of the packet a port sends next: transit and local packets share the port by weight, local packets by share tag, transit packets
by class (R356, R392; the quantum of R393 for each, log entry 101). -/
def State.pickOut (s : State) (p : Nat) : State × Option Nat :=
  let v := s.port p
  let near := v.ready false
  let far := v.ready true
  let groups := (if near.isEmpty then [] else [0]) ++ (if far.isEmpty then [] else [1])
  match (s.arb (arbGroups p)).next (fun g => 64 * (if g = 0 then 16 else s.obj oLinkTransitWeight)) groups with
  | none => (s, none)
  | some g =>
    let s1 := s.setArb (arbGroups p) g.2
    if g.1 = 0 then (let r := s1.arbitrate (arbLocal p) (s1.shareInc 64) near; (r.1, r.2.map (·.2)))
    else match (s1.arb (arbTransit p)).next (fun _ => 64) (tagsOf far) with
      | none => (s1, none)
      | some c => (s1.setArb (arbTransit p) c.2, (far.find? (fun r => r.1 == c.1)).map (·.2))

/-- The packet sent is charged to its group, and to its tag or its class, in bytes. -/
def State.chargeOut (s : State) (p : Nat) (left : List (Option Nat × Packet)) (tag : Option Nat) (k : Packet) : State :=
  let cost := 16 * k.slots
  let s1 := s.chargeArb (arbGroups p) (if tag.isSome then 0 else 1) cost (left.any (fun x => x.1.isSome == tag.isSome))
  match tag with
  | some t => s1.chargeArb (arbLocal p) t cost (left.any (fun x => x.1 == some t))
  | none => s1.chargeArb (arbTransit p) k.cls cost (left.any (fun x => x.1.isNone && x.2.cls == k.cls))

/-- Send what a port can send. -/
def State.pumpFuel (s : State) (p : Nat) : Nat → State
  | 0 => s
  | fuel + 1 =>
    if !s.portUp p then s
    else match s.pickOut p with
      | (_, none) => s
      | (s1, some i) =>
        let v := s1.port p
        match v.txq[i]? with
        | none => s
        | some x =>
          let left := v.txq.eraseIdx i
          (((s1.chargeOut p left x.1 x.2).setPort p ({ v with txq := left }.send x.1 x.2)).outPacket p x.2).pumpFuel p fuel

def State.pump (s : State) (p : Nat) : State := s.pumpFuel p (s.port p).txq.length

/-- Hand a packet to a port, with the tag of the work it serves, none for a packet in transit. -/
def State.sendOn (s : State) (p : Nat) (tag : Option Nat) (k : Packet) : State :=
  let v := s.port p
  (s.setPort p { v with txq := v.txq ++ [(tag, k)] }).pump p

/-! ## Routing -/

/-- The two ports of a direction: axis and + or − (Table 13-2). -/
def dirPorts (a : Nat) (plus : Bool) : List Nat := let b := 4 * a + (if plus then 0 else 2); [b, b + 1]

/-- The axis a Street port serves. -/
def portAxis (p : Nat) : Option Nat := if p < 12 then some (p / 4) else none

/-- The lane of a packet leaving by a Street port, having come in by `inp` (R352). -/
def nextLane (self : Nat) (inp : Option Nat) (lane : Nat) (detour : Bool) (out : Nat) : Nat :=
  let a := out / 4
  let plus := decide (out % 4 < 2)
  let fresh := inp.isNone || (inp.bind portAxis) != some a
  let wrap := if plus then coord self a == 3 else coord self a == 0
  (if wrap then 1 else if fresh then 0 else lane % 2) + (if detour then 2 else 0)

/-- The port with the most credits on the packet's virtual channel there, the lowest among equals. -/
def State.bestPort (s : State) (cls : Nat) (inp : Option Nat) (lane : Nat) (detour : Bool) : List Nat → Option Nat
  | [] => none
  | p :: ps =>
    let cr := fun q => (s.port q).credits.getD (4 * cls + nextLane s.deviceNumber inp lane detour q) 0
    match s.bestPort cls inp lane detour ps with
    | none => some p
    | some q => if cr p < cr q then some q else some p

/-- How a packet leaves, or why it is dropped. -/
inductive Route where
  | street (port : Nat) (detour : Bool)
  | ttl
  | dropped
deriving DecidableEq, Repr

/-- R353 toward device `dst` of this borough. -/
def State.route (s : State) (k : Packet) (dst : Nat) (inp : Option Nat) : Route :=
  if k.hdr.ttl = 0 then .ttl
  else
    let self := s.deviceNumber
    let off := fun a => (coord dst a + 4 - coord self a) % 4
    let cls := k.hdr.vc / 4
    let lane := k.hdr.vc % 4
    let live := fun (ps : List Nat) => ps.filter (s.mapBit self)
    match [0, 1, 2].find? (fun a => off a != 0) with
    | none => .dropped
    | some d =>
      let ports := live ((if off d = 3 then [] else dirPorts d true) ++ (if off d = 1 then [] else dirPorts d false))
      match s.bestPort cls inp lane k.hdr.detour ports with
      | some p => .street p k.hdr.detour
      | none =>
        if k.hdr.detour then .dropped
        else
          let tries := [(d + 1) % 3, (d + 2) % 3].flatMap (fun e => [live (dirPorts e true), live (dirPorts e false)])
          match tries.find? (fun ps => !ps.isEmpty) with
          | none => .dropped
          | some ps => match s.bestPort cls inp lane true ps with
            | none => .dropped
            | some p => .street p true

/-- The neighbour of R335 in the direction of a Street port. -/
def neighbour (self p : Nat) : Nat :=
  let a := p / 4
  let c := (coord self a + (if p % 4 < 2 then 1 else 3)) % 4
  self - coord self a * 4 ^ a + c * 4 ^ a

/-- Torus hops between two devices. -/
def torusHops (x y : Nat) : Nat :=
  ([0, 1, 2].map (fun a => let o := (coord y a + 4 - coord x a) % 4; min o (4 - o))).sum

/-- The gateways of a borough: (gateway device, Avenue port), in entry order (Table 13-10). -/
def State.cityRoute (s : State) (b : Nat) : List (Nat × Nat) :=
  let v := s.obj (oCityRoute b)
  (List.range (min 4 (byteOf v 0))).map (fun i => (byteOf v (1 + 2 * i), byteOf v (2 + 2 * i)))

/-- The live entry with the fewest hops, the first among equals (R357 step 1). -/
def bestGateway (self : Nat) : List (Nat × Nat) → Option (Nat × Nat)
  | [] => none
  | g :: gs => match bestGateway self gs with
    | none => some g
    | some h => if torusHops self h.1 < torusHops self g.1 then some h else some g

def State.gateway (s : State) (b : Nat) : Option (Nat × Nat) :=
  bestGateway s.deviceNumber ((s.cityRoute b).filter (fun g => s.mapBit g.1 (12 + g.2)))

/-- A packet as it leaves by a Street port. -/
def leaveStreet (self : Nat) (k : Packet) (inp : Option Nat) (p : Nat) (detour : Bool) : Packet :=
  { k with hdr := { k.hdr with vc := k.hdr.vc / 4 * 4 + nextLane self inp (k.hdr.vc % 4) detour p, detour := detour,
                               ttl := k.hdr.ttl - (if inp.isSome then 1 else 0) } }

/-- Toward a device of this borough. -/
def State.forwardTo (s : State) (k : Packet) (dst : Nat) (inp tag : Option Nat) : State :=
  match s.route k dst inp with
  | .street p d => s.sendOn p tag (leaveStreet s.deviceNumber k inp p d)
  | .ttl => s.count oLinkTtlDrops 1
  | .dropped => s.count oLinkDetourDrops 1

/-- A packet enters the Square: an opportunity of Spur kind 1 (Table 12-6), whose hold is time alone. -/
def State.enterSquare (s : State) : State := (s.spurDraw 1 none).1

/-- Route a packet (R353, R357). `inp`: the port it came in by, none at its source; `tag`: the share tag it leaves under, none in transit. -/
def State.forward (s0 : State) (k : Packet) (inp tag : Option Nat) : State :=
  let s := s0.enterSquare
  let b := k.hdr.dst / 64
  if k.hdr.dst = s.self then s.outPacket 18 k
  else if b = s.boroughNumber then s.forwardTo k (k.hdr.dst % 64) inp tag
  else if (inp.map (fun p => decide (12 ≤ p))).getD false then s.count oLinkDetourDrops 1
  else
    let chosen := if k.hdr.gwValid ∧ (k.hdr.gw ≠ s.deviceNumber ∨ (s.cityRoute b).any (fun g => g.1 == s.deviceNumber && s.mapBit g.1 (12 + g.2)))
      then some k.hdr.gw else (s.gateway b).map (·.1)
    match chosen with
    | none => s.count oLinkDetourDrops 1
    | some g =>
      if g = s.deviceNumber then
        match (s.cityRoute b).find? (fun e => e.1 == s.deviceNumber && s.mapBit e.1 (12 + e.2)) with
        | none => s.count oLinkDetourDrops 1
        | some e => s.sendOn (12 + e.2) tag
            { k with hdr := { k.hdr with vc := k.hdr.vc / 4 * 4, detour := false, gwValid := false, ttl := k.hdr.ttl - (if inp.isSome then 1 else 0) } }
      else s.forwardTo { k with hdr := { k.hdr with gw := g, gwValid := true } } g inp tag

/-! ## Packets this device originates -/

/-- Class of a packet type (Table 13-7). -/
def typeClass (t : Nat) : Nat :=
  match t with | 3 => 1 | 5 => 2 | 6 => 1 | 7 => 3 | 8 => 3 | 9 => 3 | 10 => 3 | 11 => 3 | _ => 0

/-- Types sequenced end to end (R371). -/
def sequenced (t : Nat) : Bool := [1, 2, 3, 4, 5, 7].contains t

/-- Payload slots of a body: only bulk data takes any (log entry 9). -/
def PktBody.slots : PktBody → Nat
  | .write b => ceilDiv b.data.length 16
  | .readResp _ _ _ sl => min 256 (ceilDiv ((sl.elems.length * fmtBits sl.fmt + 7) / 8 + (if fmtMx sl.fmt then ceilDiv sl.elems.length 32 else 0)) 16)
  | .data (.partials _ _ _ vals _) => min 256 ((vals.map (fun v => v.2.length)).sum)
  | _ => 0

def mkPacket (src dst typ seq : Nat) (body : PktBody) : Packet :=
  ⟨⟨typ, 4 * typeClass typ, false, 32, dst, src, 0, false, seq, true, false⟩, body.slots, body⟩

def StreamOut.idle : StreamOut := ⟨0, [], [], 1⟩
def StreamIn.idle : StreamIn := ⟨0, [], 0⟩

def State.streamOut (s : State) (dst cls : Nat) : StreamOut := Store.get StreamOut.idle s.fabric.streamsOut (4 * dst + cls)
def State.setStreamOut (s : State) (dst cls : Nat) (v : StreamOut) : State :=
  { s with fabric := { s.fabric with streamsOut := Store.set StreamOut.idle s.fabric.streamsOut (4 * dst + cls) v } }
def State.streamIn (s : State) (src cls : Nat) : StreamIn := Store.get StreamIn.idle s.fabric.streamsIn (4 * src + cls)
def State.setStreamIn (s : State) (src cls : Nat) (v : StreamIn) : State :=
  { s with fabric := { s.fabric with streamsIn := Store.set StreamIn.idle s.fabric.streamsIn (4 * src + cls) v } }

/-- Bytes the retransmit buffer holds (R371). -/
def State.retransmitBytes (s : State) : Nat := ((s.fabric.streamsOut.map (fun x => (x.2.unacked.map (fun k => 16 * k.2.slots)).sum))).sum

/-- Send the waiting packets of a stream while it has room: 65,536 unacknowledged, 256 MiB of buffer (R371). -/
def State.drainStream (s : State) (dst cls : Nat) : Nat → State
  | 0 => s
  | fuel + 1 =>
    let v := s.streamOut dst cls
    match v.waiting with
    | [] => s
    | k :: ks =>
      if 65536 ≤ v.unacked.length ∨ 2 ^ 28 < s.retransmitBytes + 16 * k.2.slots then s
      else
        let k' := { k.2 with hdr := { k.2.hdr with seq := v.next } }
        ((s.setStreamOut dst cls { v with waiting := ks, unacked := v.unacked ++ [(k.1, k')], next := (v.next + 1) % 2 ^ 32 }).forward k' none (some k.1)).drainStream dst cls fuel

/-- Originate a packet under a share tag (R351, R371, R391, R396); nothing goes to a device declared unreachable, and nothing after a
device-fatal fault (R493). -/
def State.originate (s : State) (tag : Nat) (dst typ : Nat) (body : PktBody) : State :=
  if s.regs.fatal || s.fabric.unreachable.contains dst then s
  else
    let k := mkPacket s.self dst typ 0 body
    let s1 := if tag < tagAdmin ∧ dst ≠ s.self then s.count (oTenantLinkBytes tag) (16 * k.slots) else s
    if sequenced typ then
      let v := s1.streamOut dst (typeClass typ)
      let s2 := s1.setStreamOut dst (typeClass typ) { v with waiting := v.waiting ++ [(tag, k)] }
      s2.drainStream dst (typeClass typ) (v.waiting.length + 1)
    else s1.forward k none (some tag)

/-- The acknowledgement for a stream: the highest E2E_SEQ applied in order (R371). -/
def State.sendE2eAck (s : State) (src cls : Nat) : State :=
  let v := s.streamIn src cls
  (s.setStreamIn src cls { v with sinceAck := 0 }).originate tagDevice src 6 (.ack cls ((v.next + 2 ^ 32 - 1) % 2 ^ 32))

/-! ## Link-state advertisements -/

/-- The advertisement of a device as this one knows it. -/
def State.lsaOf (s : State) (d : Nat) : PktBody :=
  .lsa d (bits (s.obj oLinkMap) (16 * d) 16) (if d = s.deviceNumber then s.obj oRoutingEpoch else Store.get 0 s.fabric.mapEpochs d)
    (if d = s.deviceNumber then s.obj oBootEpoch else Store.get 0 s.fabric.peerBoot d)

/-- Send an advertisement on every live Street port but those to the neighbour it came from (Table 13-2). -/
def State.floodLsa (s : State) (d : Nat) (but : Option Nat) : State :=
  (((List.range 12).filter (fun p => s.portUp p && but.map (· / 2) != some (p / 2))).foldl
    (fun (acc : State) p => acc.sendOn p (some tagDevice) (mkPacket s.self s.self 9 0 (s.lsaOf d))) s)

/-- A port of this device entered or left ACTIVE or DEGRADED: its map bit, the routing epoch and the advertisement (R344). -/
def State.mapChanged (s : State) (p : Nat) (up : Bool) : State :=
  if 16 ≤ p ∨ 64 ≤ s.deviceNumber ∨ s.mapBit s.deviceNumber p = up then s
  else
    let s1 := s.setObj oLinkMap (setBits (s.obj oLinkMap) (16 * s.deviceNumber + p) 1 (b2n up))
    let e := (s1.obj oRoutingEpoch + 1) % 2 ^ 32
    let s2 := (s1.setObj oRoutingEpoch e).event ⟨0x0204, 0, 0, 0, e⟩
    s2.floodLsa s2.deviceNumber none

end Sys2Proof.Machine
end

