-- ==== Sys2Proof/Machine/Posts.lean ====
section
/-! DEFINITION. Posts: their rights (R364, R366), signals (R365), waits here and on other devices (R129, R367), and the latching of
waits that have been satisfied. -/

namespace Sys2Proof.Machine

def State.postValue (s : State) (p : Nat) : Nat := Store.get 0 s.fabric.posts p

def rangeBase (r : Nat) : Nat := bits r 0 18
def rangeCount (r : Nat) : Nat := bits r 18 19

/-- Whether a post lies in a tenant's range (R364). -/
def State.postInRange (s : State) (t p : Nat) : Bool :=
  let r := s.obj (oTenantPostRange t)
  decide (rangeBase r ≤ p) && decide (p < rangeBase r + rangeCount r)

/-- The tenant whose range holds a post. -/
def State.postTenant (s : State) (p : Nat) : Option Nat := (List.range 1024).find? (fun t => s.postInRange t p)

/-- The holder's rule for remote use of a post by a job (R366). -/
def State.remoteUseOk (s : State) (p job : Nat) : Bool :=
  match s.postTenant p with
  | some t => s.obj (oTenantJobId t) == job && job != 0
  | none => false

/-- The device a reference names: this one in scope 0 (Table 05-8). -/
def State.refDevice (s : State) (r : PostRef) : Nat :=
  match r.scope with
  | 0 => s.self
  | 1 => r.dev + 64 * s.boroughNumber
  | _ => r.dev + 64 * r.brg

/-- Whether a reference is refused here: a scope-0 post outside the tenant's range, or a remote one on an administrative queue. -/
def State.refDenied (s : State) (c : Ctx) (r : PostRef) : Bool :=
  match c with
  | some t => r.scope == 0 && !s.postInRange t r.post
  | none => r.scope != 0

/-! ## Streams of commands -/

/-- Where stream `src` reads its next command: its address space and address. -/
def State.headAddr (s : State) (src : Src) : Option (Ctx × Nat) :=
  match src with
  | .queue q idx => some (queueCtx q, cfgSqBase (s.queueCfg q) + 128 * idx)
  | .program run idx => (s.remuda.runs.find? (fun r => r.id == run)).map (fun r => (some r.tenant, r.listAddr + 64 + 128 * idx))

/-- The command a queue would begin next. -/
def State.queueHead (s : State) (q : Nat) : Option Src :=
  let v := s.queue q
  if v.state = 1 ∧ v.sqHead ≠ v.sqTail then some (.queue q v.sqHead) else none

/-- The command a running program would begin next. -/
def Run.head (r : Run) : Option Src := if r.phase = 1 ∧ r.failed = none ∧ r.next < r.total then some (.program r.id r.next) else none

def State.headBytes (s : State) (src : Src) : Except AccFault (List Byte) :=
  match s.headAddr src with
  | some a => s.readVa a.1 a.2 128
  | none => .error ⟨1, 0, 0xFF⟩

def State.waitsMet (s : State) (src : Src) : List Nat :=
  match src with
  | .queue q _ => (s.queue q).waitsMet
  | .program run _ => ((s.remuda.runs.find? (fun r => r.id == run)).map Run.waitsMet).getD []

def State.setRun (s : State) (r : Run) : State :=
  { s with remuda := { s.remuda with runs := s.remuda.runs.map (fun x => if x.id = r.id then r else x) } }
def State.run? (s : State) (id : Nat) : Option Run := s.remuda.runs.find? (fun r => r.id == id)

def State.setWaitsMet (s : State) (src : Src) (l : List Nat) : State :=
  match src with
  | .queue q _ => s.setQueue q { s.queue q with waitsMet := l }
  | .program run _ => match s.run? run with
    | some r => s.setRun { r with waitsMet := l }
    | none => s

def srcCtx (s : State) (src : Src) : Ctx :=
  match src with
  | .queue q _ => queueCtx q
  | .program run _ => (s.run? run).map Run.tenant

/-! ## Waits -/

def cmdNwait (b : List Byte) : Nat := bits (le b 2 1) 0 3
def cmdThreshold (b : List Byte) (i : Nat) : Nat := le b (16 + 8 * i) 8
def cmdWaitRef (b : List Byte) (i : Nat) : PostRef := parsePostRef (le b (48 + 4 * i) 4)

/-- How a wait slot stands (R129). -/
inductive WaitIs where
  | open
  | met
  | badField
  | denied
  | unreachable
deriving DecidableEq, Repr

/-- A remote wait of a stream's head. -/
def State.remoteWait (s : State) (src : Src) (i : Nat) : Option RemoteWait := s.fabric.waits.find? (fun w => w.src == src && w.slot == i)

def State.waitIs (s : State) (src : Src) (b : List Byte) (i : Nat) : WaitIs :=
  let r := cmdWaitRef b i
  if !r.ok then .badField
  else if s.refDenied (srcCtx s src) r then .denied
  else if r.scope = 0 then
    (if (s.waitsMet src).contains i ∨ cmdThreshold b i ≤ s.postValue r.post then .met else .open)
  else match s.remoteWait src i with
    | none => .open
    | some w => match w.state with | 1 => .met | 2 => .denied | 3 => .unreachable | _ => .open

/-- Every wait slot below NWAIT; an NWAIT above 4 breaks Table 05-5, and the four slots there are lie below it (R129). -/
def waitSlots (b : List Byte) : List Nat := List.range (min (cmdNwait b) 4)

/-- Condition 1 of R129; a slot whose holder is unreachable ends the wait (R368). -/
def State.waitsReady (s : State) (src : Src) (b : List Byte) : Bool :=
  let l := (waitSlots b).map (s.waitIs src b)
  l.all (fun w => w != .open) || l.contains .unreachable

/-- Latch the scope-0 waits of a stream's head that hold now: a wait once satisfied stays satisfied (R129). -/
def State.latch (s : State) (src : Src) : State :=
  match s.headBytes src with
  | .error _ => s
  | .ok b =>
    let met := (waitSlots b).filter (fun i => (cmdWaitRef b i).scope == 0 && s.waitIs src b i == .met)
    let new := met.filter (fun i => !(s.waitsMet src).contains i)
    if new.isEmpty then s
    else new.foldl (fun (acc : State) i =>
      acc.tracePost 4 0 (srcCtx s src) (s.srcOrigin src).1 (le b (48 + 4 * i) 4) (s.postValue (cmdWaitRef b i).post)) (s.setWaitsMet src met)

def State.heads (s : State) : List Src :=
  (s.queues.filterMap (fun p => s.queueHead p.1)) ++ s.remuda.runs.filterMap Run.head

def State.latchAll (s : State) : State := s.heads.foldl State.latch s

/-- Send the subscriptions of a head command's remote waits that have none (R367). -/
def State.subscribe (s : State) (src : Src) (b : List Byte) : State :=
  (waitSlots b).foldl (fun (acc : State) i =>
    let r := cmdWaitRef b i
    match srcCtx acc src with
    | none => acc
    | some t =>
      if !r.ok || r.scope == 0 || (acc.remoteWait src i).isSome then acc
      else
        let dev := acc.refDevice r
        let job := acc.obj (oTenantJobId t)
        let w : RemoteWait := ⟨acc.fabric.nextWait, src, i, dev, r.post, cmdThreshold b i, job, if acc.fabric.unreachable.contains dev then 3 else 0⟩
        let s1 := { acc with fabric := { acc.fabric with waits := acc.fabric.waits ++ [w], nextWait := acc.fabric.nextWait + 1 } }
        s1.originate t dev 4 (.subscribe r.post job w.threshold w.waiter)) s

/-- Forget the remote waits of a stream's head, when it begins or its stream goes away. -/
def State.dropWaits (s : State) (p : Src → Bool) : State :=
  { s with fabric := { s.fabric with waits := s.fabric.waits.filter (fun w => !p w.src) } }

/-- What a remote wait has come to. -/
def State.setWait (s : State) (waiter st : Nat) : State :=
  { s with fabric := { s.fabric with waits := s.fabric.waits.map (fun w => if w.waiter = waiter then { w with state := st } else w) } }

/-! ## Signals -/

/-- Reply to the subscriptions a post now meets and discard them (R367). -/
def State.replySubs (s : State) (p : Nat) : State :=
  let v := s.postValue p
  let hit := s.fabric.subs.filter (fun x => x.post == p && decide (x.threshold ≤ v))
  let s1 := { s with fabric := { s.fabric with subs := s.fabric.subs.filter (fun x => !(x.post == p && decide (x.threshold ≤ v))) } }
  let s2 := s1.setObj oRemoteSubscriptionsHeld s1.fabric.subs.length
  hit.foldl (fun (acc : State) x => acc.originate tagDevice x.device 4 (.post (.reply p v x.waiter))) s2

/-- A lineage contribution has arrived once its post has reached its threshold (R382 step 1). -/
def State.arrivals (s : State) : State :=
  { s with fabric := { s.fabric with colls := s.fabric.colls.map (fun c =>
      { c with hosted := c.hosted.map (fun h =>
          match c.ranks[h.rank]? with
          | some e => if !h.arrived && decide (e.arriveThreshold ≤ s.postValue e.arrivePost) then { h with arrived := true } else h
          | none => h) }) } }

/-- Apply a signal to a post of this device (R365): 1 SIGNAL_ADD, 2 SIGNAL_SET. Its delivery is an opportunity of Spur kind 4, which
changes time only. -/
def State.signalPost (s : State) (p op v : Nat) : State :=
  let s0 := s.latchAll
  let new := if op = 1 then (s0.postValue p + v) % 2 ^ 64 else v
  let s1 := { s0 with fabric := { s0.fabric with posts := Store.set 0 s0.fabric.posts p new } }
  ((s1.spurDraw 4 none).1.latchAll.replySubs p).arrivals

/-- A post this device sets without a signal: an assigned range starts at 0 (R364). -/
def State.clearPosts (s : State) (lo hi : Nat) : State :=
  { s with fabric := { s.fabric with posts := s.fabric.posts.filter (fun p => decide (p.1 < lo) || decide (hi ≤ p.1)) } }

end Sys2Proof.Machine
end

