-- ==== Sys2Proof/Machine/Gate.lean ====
section
/-! DEFINITION. The step-reuse gate: the decision at a block's FIRST_CMD, the copies at its LAST_CMD, and the state update at Commit
(R257 to R260). -/

namespace Sys2Proof.Machine

def gateEnabled (desc : List Byte) : Bool := bit (le desc 5 1) 0
def gateBlocks (desc : List Byte) : Nat := bits (le desc 5 1) 1 4
def gateFirst (desc : List Byte) (b : Nat) : Nat := le desc (384 + 32 * b) 2
def gateLast (desc : List Byte) (b : Nat) : Nat := le desc (386 + 32 * b) 2
def gateInDesc (desc : List Byte) (b : Nat) : Nat := le desc (392 + 32 * b) 8
def gateOutDesc (desc : List Byte) (b : Nat) : Nat := le desc (400 + 32 * b) 8
def gateBudget (desc : List Byte) : Acx := fp32Acx (le desc 56 4)
def gateTau0 (desc : List Byte) : Nat := le desc 60 4
def gateTauMin (desc : List Byte) : Acx := fp32Acx (le desc 64 4)
def gateTauMax (desc : List Byte) : Acx := fp32Acx (le desc 68 4)
def gateGain (desc : List Byte) : Acx := fp32Acx (le desc 72 4)

/-- Gate tiles of one slot in one block. -/
def gateTiles (desc : List Byte) : Nat := ceilDiv (penRows desc) 256

/-- The bytes of an element row of a gate tensor. -/
def gateRow (t : Tensor) : Nat := rowBytes t.fmt (t.ext.getD 0 1)

/-- SZ_b of R258. -/
def gateSize (desc : List Byte) (t : Tensor) : Nat := alignUp (penRows desc * gateRow t) 4096

/-- The two tensors of a block. -/
def State.gateTensors (s : State) (c : Ctx) (desc : List Byte) (b : Nat) : Tensor × Tensor :=
  ((s.tensorAt c (gateInDesc desc b) 9 none false false true).2, (s.tensorAt c (gateOutDesc desc b) 9 none false false true).2)

/-- Where area `out` of half `h` of block b starts in an entry's gate cache (R258). -/
def State.gateArea (s : State) (c : Ctx) (desc : List Byte) (cache b h : Nat) (out : Bool) : Nat :=
  let size := fun k => gateSize desc (s.gateTensors c desc k).1
  cache + ((List.range b).map (fun k => 4 * size k)).sum + (2 * h + b2n out) * size b

/-- The elements of the rows of one gate tile, row-major; from the tensor, or from an area of the cache. -/
def State.gateElems (s : State) (c : Ctx) (t : Tensor) (row0 n : Nat) : Except AccFault (List RowData) :=
  s.readRows c t (t.ext.getD 0 1) ((List.range n).map (fun i => [row0 + i]))

def State.gateCached (s : State) (c : Ctx) (t : Tensor) (area row0 n : Nat) : Except AccFault (List RowData) :=
  (List.range n).mapM (fun i => do
    let b ← s.readVa c (area + (row0 + i) * gateRow t) (gateRow t)
    return ⟨unpackCodes (fmtBits t.fmt) (t.ext.getD 0 1) b, List.replicate (ceilDiv (t.ext.getD 0 1) 32) 127⟩)

def gateLane (t : Tensor) (rows : List RowData) : List LaneElem := rows.flatMap (fun r => r.elems t.fmt)

/-- ρ of a tile (R258). -/
def gateRho (t : Tensor) (x cached : List LaneElem) : Flagged Acx :=
  let g := groupElems t.fmt t.fmt
  let d2 := segmentPartial 2 g (List.zipWith (fun a b => (a, b)) x cached)
  let n2 := segmentPartial 0 g (x.map (fun a => (a, a)))
  d2.bind (fun d => n2.bind (fun n =>
    if n.toNum.isZero then (if d.toNum.isZero then acxZero false else acxInf false, 0)
    else (boundedDiv 0x0F 2 d n).bind (boundedRoot 0x0E false)))

/-- One slot's decision for a block: spend so far, tiles to reuse, flags. -/
structure GateChoice where
  spend : Acx
  reuse : List Nat
  flags : Flags
deriving DecidableEq, Repr

def State.gateSlot (s : State) (run : Run) (b slot : Nat) (spend : Acx) : Except AccFault GateChoice := do
  let c : Ctx := some run.tenant
  let desc := run.desc
  let img := (s.entry (run.batch.getD slot 4096)).image
  let T := (s.gateTensors c desc b).1
  let rows := penRows desc
  let nt := acxNat (gateBlocks desc * gateTiles desc)
  let tau := fp32Acx (if imgGateValid img then imgGateTau img else gateTau0 desc)
  (List.range (gateTiles desc)).foldlM (fun (g : GateChoice) i => do
    let n := min 256 (rows - 256 * i)
    let x ← s.gateElems c T (slot * rows + 256 * i) n
    let old ← s.gateCached c T (s.gateArea c desc (imgGateAddr img) b (imgCur img) false) (256 * i) n
    let rho := gateRho T (gateLane T x) (gateLane T old)
    let step := boundedDiv 0x0F 2 rho.1 nt
    let total := (acxAdd (fp32Acx (imgGateUsed img)) g.spend).bind (fun u => acxAdd u step.1)
    if imgGateValid img && leNum rho.1.toNum tau.toNum && leNum total.1.toNum (gateBudget desc).toNum then
      let sp := acxAdd g.spend step.1
      return ⟨sp.1, g.reuse ++ [i], g.flags ||| rho.2 ||| step.2 ||| total.2 ||| sp.2⟩
    else return { g with flags := g.flags ||| rho.2 ||| (if imgGateValid img then step.2 ||| total.2 else 0) }) ⟨spend, [], 0⟩

/-- The bytes of a row of codes. -/
def gateBytes (t : Tensor) (r : RowData) : List Byte := toLe (gateRow t) (packCodes (fmtBits t.fmt) r.codes)

/-- The cells that keep a block's input in half 1 − CUR. They are written at FIRST_CMD, while IN_DESC still holds the input: a block may
write its output over it (R258). -/
def State.gateInputs (s : State) (run : Run) (b : Nat) : Except AccFault (List (Nat × Byte)) :=
  let c : Ctx := some run.tenant
  let t := (s.gateTensors c run.desc b).1
  let rows := penRows run.desc
  (List.range (run.batch.length * rows)).foldlM (fun (acc : List (Nat × Byte)) r => do
    let img := (s.entry (run.batch.getD (r / max rows 1) 4096)).image
    let x ← s.gateElems c t r 1
    let w ← s.cellsVa c (s.gateArea c run.desc (imgGateAddr img) b (1 - imgCur img) false + r % max rows 1 * gateRow t) (gateBytes t (x.headD ⟨[], []⟩))
    return acc ++ w) []

/-- At FIRST_CMD of a block: every slot's decision (R258). -/
def State.gateOpen (s : State) (src : Src) : Except AccFault State :=
  match src with
  | .queue _ _ => .ok s
  | .program id i =>
    match s.run? id with
    | none => .ok s
    | some run =>
      if run.handoff || !gateEnabled run.desc then .ok s
      else match (List.range (gateBlocks run.desc)).find? (fun b => gateFirst run.desc b == i) with
        | none => .ok s
        | some b => do
          let r ← (List.range run.batch.length).foldlM (fun (acc : Run) slot => do
            let g ← s.gateSlot run b slot (Store.get (acxZero false) acc.spend slot)
            return { acc with spend := Store.set (acxZero false) acc.spend slot g.spend, reuse := acc.reuse ++ g.reuse.map (fun t => (b, slot, t)),
                              own := acc.own ||| g.flags }) run
          let keep ← s.gateInputs run b
          let tiles := run.batch.length * gateTiles run.desc
          return (((s.withMem (s.mem.store keep)).setRun r).count (oTenantGateTiles run.tenant) tiles).count (oTenantGateReused run.tenant) (r.reuse.length - run.reuse.length)

/-- At LAST_CMD's completion: cached outputs of reused tiles into OUT_DESC, and every tile's output into half 1 − CUR (R258). -/
def State.gateClose (s : State) (run : Run) (i : Nat) : Except AccFault State :=
  if run.handoff || !gateEnabled run.desc then .ok s
  else match (List.range (gateBlocks run.desc)).find? (fun b => gateLast run.desc b == i) with
    | none => .ok s
    | some b =>
      let c : Ctx := some run.tenant
      let desc := run.desc
      let t := s.gateTensors c desc b
      let rows := penRows desc
      (List.range run.batch.length).foldlM (fun (acc : State) slot => do
        let img := (s.entry (run.batch.getD slot 4096)).image
        let area := fun h out => s.gateArea c desc (imgGateAddr img) b h out
        (List.range rows).foldlM (fun (acc : State) lr => do
          let r := slot * rows + lr
          let out ← (if run.reuse.contains (b, slot, lr / 256) then
              (acc.gateCached c t.2 (area (imgCur img) true) lr 1)
            else acc.gateElems c t.2 r 1)
          let o := out.headD ⟨[], []⟩
          let w1 ← (if run.reuse.contains (b, slot, lr / 256) then acc.cellsVa c (t.2.base + strideSum t.2.stride [r]) (gateBytes t.2 o) else .ok [])
          let w2 ← acc.cellsVa c (area (1 - imgCur img) true + lr * gateRow t.2) (gateBytes t.2 o)
          return acc.withMem (acc.mem.store (w1 ++ w2))) acc) s

/-- GATE_USED, GATE_TAU, GATE_VALID and GATE_REUSED at the Commit of a successful STEP; STEP_INDEX is that after it (R259). -/
def gateCommit (desc : List Byte) (img : Nat) (spend : Acx) (reused : Nat) : Flagged Nat :=
  let used := acxAdd (fp32Acx (imgGateUsed img)) spend
  let tau := fp32Acx (if imgGateValid img then imgGateTau img else gateTau0 desc)
  let left := imgTotal img - imgStep img
  let newTau : Flagged Acx := if left = 0 then (tau, 0) else
    (acxSub (gateBudget desc) used.1).bind (fun d => (boundedDiv 0x0F 2 d (acxNat left)).bind (fun target =>
      (acxSub target spend).bind (fun e => (acxMul (gateGain desc) e).bind (fun g => (acxAdd tau g).bind (fun t =>
        (acxMax (gateTauMin desc) t).bind (fun m => acxMin (gateTauMax desc) m))))))
  let u := toFp32 used.1
  let t := toFp32 newTau.1
  (setLeN (setLeN (setLeN (setLeN img 100 4 u.1) 96 4 t.1) 5 1 (setBits (imgFlags img) 2 1 1)) 112 4 (satAdd 32 (imgGateReused img) reused),
    used.2 ||| newTau.2 ||| u.2 ||| t.2)

end Sys2Proof.Machine
end

