-- ==== Sys2Proof/Machine/Pixels.lean ====
section
/-! DEFINITION. Frames of the codec engines: descriptors (Table 11-3), planes in memory, and the samples an encoder codes (R287, R288). -/

namespace Sys2Proof.Machine

/-- A frame descriptor (Table 11-3). -/
structure Frame where
  plane : List Nat
  pitch : List Nat
  width : Nat
  height : Nat
  fmt : Nat
  colour : Nat
deriving DecidableEq, Repr

def parseFrame (b : List Byte) : Frame :=
  ⟨[le b 0 8, le b 8 8, le b 16 8], [le b 24 4, le b 28 4, le b 32 4], le b 36 2, le b 38 2, le b 40 1, le b 41 1⟩

/-- NV12 0, P010 1: two planes; the others three. -/
def pixPlanes (fmt : Nat) : Nat := if fmt < 2 then 2 else 3
def pixBytes (fmt : Nat) : Nat := if fmt = 0 ∨ fmt = 4 then 1 else 2
/-- Rows of plane p. -/
def Frame.rows (f : Frame) (p : Nat) : Nat := if f.fmt < 2 ∧ p = 1 then f.height / 2 else f.height
def Frame.rowLen (f : Frame) : Nat := f.width * pixBytes f.fmt

/-- The fields of a descriptor that break Table 11-3, as byte offsets. -/
def frameRules (b : List Byte) (jpeg input : Bool) : List (Nat × Bool) :=
  let f := parseFrame b
  let n := pixPlanes f.fmt
  let lo := if jpeg then 8 else 16
  (List.range 3).map (fun p => (8 * p, if p < n then f.plane.getD p 0 % 64 == 0 else f.plane.getD p 0 == 0))
  ++ (List.range 3).map (fun p => (24 + 4 * p, if p < n then f.pitch.getD p 0 % 64 == 0 && decide (f.rowLen ≤ f.pitch.getD p 0) else f.pitch.getD p 0 == 0))
  ++ [(36, f.width % 2 == 0 && decide (lo ≤ f.width) && decide (f.width ≤ if jpeg then 8192 else 4096)),
      (38, f.height % 2 == 0 && decide (lo ≤ f.height) && decide (f.height ≤ if jpeg then 8192 else 2304)),
      (40, if input then decide (f.fmt < 4) || (f.fmt == 4 && jpeg) else if jpeg then f.fmt == 4 else decide (f.fmt < 2)),
      (41, decide (f.colour < 8) && f.colour % 4 != 3), (42, (b.drop 42).all (fun x => x == 0))]

/-- The rows of a frame as (address, length) runs, plane by plane. -/
def Frame.runs (f : Frame) : List (Nat × Nat) :=
  (List.range (pixPlanes f.fmt)).flatMap (fun p => (List.range (f.rows p)).map (fun y => (f.plane.getD p 0 + y * f.pitch.getD p 0, f.rowLen)))

/-- The 64 × 64 blocks of a frame, by row and in all. -/
def blocksWide (w : Nat) : Nat := ceilDiv w 64
def blocksOf (w h : Nat) : Nat := blocksWide w * ceilDiv h 64

/-- The descriptor addresses of an OUT_LIST (Table 11-10). -/
def State.outAddrs (s : State) (c : Ctx) (addr n : Nat) : Except AccFault (List Nat) := s.readArray c addr 8 n

/-- The frames a DECODE names, where they can be read. -/
def State.outFrames (s : State) (c : Ctx) (addr n : Nat) : Except AccFault (List (List Byte)) := do
  let l ← s.outAddrs c addr n
  l.mapM (fun a => s.readVa c a 64)

/-! ## Colour conversion (R288) -/

/-- A 16-bit float component clamped to [0, 1], a NaN taken as 0 (step 1). -/
def component (fmt code : Nat) : Rat :=
  match decodeElem (if fmt = 2 then 3 else 2) code with
  | .nan => 0
  | .inf n => if n then 0 else 1
  | .fin n m e => if n then 0 else min 1 (m * (if 0 ≤ e then ((2 ^ e.toNat : Nat) : Rat) else 1 / ((2 ^ (-e).toNat : Nat) : Rat)))

/-- Kr and Kb of MATRIX: BT.709, BT.2020 non-constant, BT.601. -/
def matrixCoeff (m : Nat) : Rat × Rat :=
  match m with | 0 => (2126 / 10000, 722 / 10000) | 1 => (2627 / 10000, 593 / 10000) | _ => (299 / 1000, 114 / 1000)

/-- Y′, Cb′ and Cr′ of a pixel (step 2); Cb′ and Cr′ lie in [−1/2, 1/2]. -/
def yuvOf (matrix fmt r g b : Nat) : Rat × Rat × Rat :=
  let k := matrixCoeff matrix
  let y := k.1 * component fmt r + (1 - k.1 - k.2) * component fmt g + k.2 * component fmt b
  (y, (component fmt b - y) / (2 * (1 - k.2)), (component fmt r - y) / (2 * (1 - k.1)))

/-- Scaling to the depth and range of COLOUR (step 3). The rule states Y of limited range; the other scales and offsets are those of the
recommendations MATRIX names (log entry 108). -/
def scaleSample (colour depth : Nat) (chroma : Bool) (v : Rat) : Rat :=
  let u : Rat := ((2 ^ (depth - 8) : Nat) : Rat)
  let top : Rat := ((2 ^ depth - 1 : Nat) : Rat)
  if chroma then ((2 ^ (depth - 1) : Nat) : Rat) + (if bit colour 2 then top else 224 * u) * v
  else if bit colour 2 then top * v else 16 * u + 219 * u * v

/-- Nearest integer, ties to even, of a rational that is not negative. -/
def nearestEven (r : Rat) : Nat :=
  let f := r.floor.toNat
  let d := r - (f : Rat)
  if d < 1 / 2 then f else if 1 / 2 < d then f + 1 else if f % 2 = 0 then f else f + 1

/-- Step 5: the device's fixed-point value, of 24 fractional bits or more, where it lies within its error of the exact one; and no larger
than the depth holds. -/
def roundSample (depth : Nat) (v : Rat) (inputs : List Nat) : Nat :=
  let c := Config.codecFn 2 (depth :: inputs)
  min (2 ^ depth - 1) (if |(c : Rat) - v| ≤ 1 / 2 + 1 / 4096 then c else nearestEven v)

/-- The code of component p of an RGB frame at (x, y), from its rows as read. -/
def rgbCode (f : Frame) (rows : List (List Byte)) (p x y : Nat) : Nat := le (rows.getD (p * f.height + y) []) (2 * x) 2

/-- Sample (x, y) of component c as the encoder codes it: the frame's own where it holds Y, Cb and Cr, converted where it is RGB. Cb and Cr
have half the resolution, and in PIXFMT 4 the full one. -/
def codedSample (f : Frame) (depth : Nat) (rows : List (List Byte)) (c x y : Nat) : Nat :=
  match f.fmt with
  | 0 => if c = 0 then le (rows.getD y []) x 1 else le (rows.getD (f.height + y) []) (2 * x + (c - 1)) 1
  | 1 => (if c = 0 then le (rows.getD y []) (2 * x) 2 else le (rows.getD (f.height + y) []) (4 * x + 2 * (c - 1)) 2) / 64
  | 4 => le (rows.getD (c * f.height + y) []) x 1
  | k =>
    let px := fun (i j : Nat) => [rgbCode f rows 0 i j, rgbCode f rows 1 i j, rgbCode f rows 2 i j]
    let yuv := fun (i j : Nat) => yuvOf (f.colour % 4) k (rgbCode f rows 0 i j) (rgbCode f rows 1 i j) (rgbCode f rows 2 i j)
    if c = 0 then roundSample depth (scaleSample f.colour depth false (yuv x y).1) (0 :: f.colour :: k :: px x y)
    else
      let at4 := [(2 * x, 2 * y), (2 * x + 1, 2 * y), (2 * x, 2 * y + 1), (2 * x + 1, 2 * y + 1)]
      let part := fun (v : Rat × Rat × Rat) => if c = 1 then v.2.1 else v.2.2
      roundSample depth (scaleSample f.colour depth true ((at4.map (fun q => part (yuv q.1 q.2))).sum / 4)) (c :: f.colour :: k :: at4.flatMap (fun q => px q.1 q.2))

/-- Whether the coded chroma has the full resolution. -/
def fullChroma (f : Frame) : Bool := f.fmt == 4

/-- Every sample the encoder codes, plane by plane in raster order. -/
def codedSamples (f : Frame) (depth : Nat) (rows : List (List Byte)) : List Nat :=
  (List.range 3).flatMap (fun c =>
    let d := if c = 0 ∨ fullChroma f then 1 else 2
    (List.range (f.height / d)).flatMap (fun y => (List.range (f.width / d)).map (fun x => codedSample f depth rows c x y)))

end Sys2Proof.Machine
end

