-- ==== Sys2Proof/Machine/Unspecified.lean ====
section
/-! DEFINITION. What a fault leaves behind: after one, the contents of the command's destinations are not specified (R104, R319), so
each of their bytes takes a free value. The destinations are the bytes a command's fields name for writing. -/

namespace Sys2Proof.Machine

def opcodeOf (b : List Byte) : Nat := le b 0 1

/-- Cells whose bytes are free: one free value, byte by byte (log entry 10). -/
def freeCells (v : Nat) (keys : List Nat) : List (Nat × Byte) :=
  (keys.zip (List.range keys.length)).map (fun x => (x.1, BitVec.ofNat 8 (leN v x.2 1)))

/-- The bytes of a tensor, as (address, length) runs, scales included. -/
def Tensor.runs (t : Tensor) : List (Nat × Nat) :=
  (outerIndices ((List.range (t.rank - 1)).map (fun d => t.e (d + 1)))).flatMap (fun ix =>
    (t.base + strideSum t.stride ix, rowBytes t.fmt (t.e 0))
      :: (if fmtMx t.fmt then [(t.sbase + strideSum t.sstride ix, ceilDiv (t.e 0) 32)] else []))

/-- The bytes a descriptor names, nothing where it cannot be read. -/
def State.descRuns (s : State) (c : Ctx) (addr : Nat) : List (Nat × Nat) :=
  let t := s.tensorAt c addr 0 none true true true
  if t.1 = Checks.none then t.2.runs else []

/-- The parameter block of an opcode that has one with a chain. -/
def chainBlock (b : List Byte) : Option Nat :=
  match opcodeOf b with
  | 0x01 | 0x03 => some (le b 112 8) | 0x02 | 0x07 | 0x08 => some (le b 104 8) | _ => none

/-- The statistic vectors a chain writes (R171). -/
def State.statRuns (s : State) (c : Ctx) (p : Param) : List (Nat × Nat) :=
  (statSlots p 16).flatMap (fun n => let sl := p.slots.getD n ⟨0, 0, 0⟩; if sl.kind = 2 then s.descRuns c sl.addr else [])

/-- What a sampler writes: every slot's new latent and its newest history (R246, R247). -/
def State.samplerRuns (s : State) (run : Run) : List (Nat × Nat) :=
  (List.range (run.batch.length * penRows run.desc)).flatMap (fun r =>
    let img := (s.entry (run.batch.getD (slotOfRow run r) 4096)).image
    (samplerDest run img r, latRowBytes run.desc)
      :: (if penHistDepth run.desc = 0 then [] else [(histAge run.desc img 0 + r % penRows run.desc * histRowBytes run.desc, histRowBytes run.desc)]))

/-- The C tensors of a MATMUL_LIST (R173). -/
def State.listRuns (s : State) (c : Ctx) (b : List Byte) : List (Nat × Nat) :=
  let t := s.tensorAt c (le b 88 8 + 256) 3 none true false false
  if t.1 != Checks.none then []
  else (List.range (min (le b 112 4) 65536)).flatMap (fun i =>
    match s.readVa c (le b 96 8 + 64 * i) 64 with
    | .ok en => { t.2 with base := le en 32 8, sbase := le en 40 8 }.runs
    | .error _ => [])

/-- The stall rows an appending ATTEND writes (R220). -/
def State.appendRuns (s : State) (run : Option Run) (c : Ctx) (b : List Byte) : List (Nat × Nat) :=
  match c, s.readVa c (le b 104 8) 512 with
  | some t, .ok pb =>
    let p := parseAttend pb
    let n := (s.tensorAt c (le pb 360 8) 9 none false false true).2.l 1
    let batch := match run with
      | some r => r.batch
      | none => []
    if le b 112 1 % 4 != 3 then []
    else batch.flatMap (fun ix => (List.range n).filterMap (fun i =>
      let pos := imgLength (s.entry ix).image + i
      ((s.entry ix).stallAt (pos / 256)).map (fun st => ((s.pool t).rowAddr st p.layer (pos % 256), (s.pool t).rowBytes))))
  | _, _ => []

/-- Rows of the Course an ADMIT generates (Table 09-11): Heun drops the corrector of a step to σ = 0. -/
def State.courseRows (s : State) (c : Ctx) (b : List Byte) : Nat :=
  let n := le b 108 2
  match le b 98 1 with
  | 4 => (match s.readVa c (le b 112 8 + 12 * n + 4) 4 with
    | .ok x => if le x 0 4 % 2 ^ 31 = 0 then 2 * n - 1 else 2 * n
    | .error _ => 2 * n)
  | 7 => 2 * n
  | _ => n

/-- Every byte a command names for writing, as (address, length) runs. -/
def State.destRuns (s : State) (c : Ctx) (run : Option Run) (b : List Byte) : List (Nat × Nat) :=
  let par := match chainBlock b with
    | some a => (match s.readVa c a 256 with | .ok p => some (parseParam p) | .error _ => none)
    | none => none
  let sampler := (par.map hasSampler).getD false
  let stats := match par with | some p => s.statRuns c p | none => []
  let main := fun (off : Nat) => if sampler then (match run with | some r => s.samplerRuns r | none => []) else s.descRuns c (le b off 8)
  match opcodeOf b with
  | 0x01 => main 104 ++ stats
  | 0x02 => (if sampler then main 0 else s.listRuns c b) ++ stats
  | 0x03 => main 104 ++ stats
  | 0x04 | 0x05 | 0x40 => s.descRuns c (le b 96 8)
  | 0x06 => s.descRuns c (le b 96 8) ++ s.appendRuns run c b
  | 0x07 | 0x08 => main 96 ++ stats
  | 0x09 | 0x0A => s.descRuns c (le b 112 8)
  | 0x0B =>
    let o := s.tensorAt c (le b 104 8) 3 none true false true
    s.descRuns c (le b 104 8) ++ (if o.1 = Checks.none ∧ le b 122 2 ≠ 0 then [(le b 112 8, 4 * o.2.e 0 * o.2.e 1)] else [])
  | 0x10 => (match s.readVa c (le b 88 8) 640 with | .ok d => [(le d 32 8, le d 48 4)] | .error _ => [])
  | 0x11 => if le b 98 1 = 0 then [] else [(le b 120 8, 64 + 64 * s.courseRows c b)]
  | 0x12 => if le b 100 8 = 0 then [] else [(le b 100 8, 128 * le b 96 2)]
  | 0x13 =>
    let d := s.tensorAt c (le b 88 8) 1 none false false true
    if d.1 != Checks.none then []
    else (le b 96 8, 4 * d.2.l 1) :: (match run with
      | some r => (List.range (d.2.l 1)).filterMap (fun k =>
          let img := (s.entry (r.batch.getD (slotOfRow r k) 4096)).image
          if imgLat img 0 = 0 then none else some (imgLat img 0 + 4 * (imgLength img + k % penRows r.desc), 4))
      | none => [])
  | 0x14 | 0x41 => s.descRuns c (le b 88 8)
  | 0x20 => s.descRuns c (le b 104 8)
  | 0x30 => if le b 88 1 % 4 = 0 then [(le b 120 8, 128)] else []
  | 0x31 => (le b 120 8, 256) :: (match s.outFrames c (le b 104 8) (min 16 (le b 91 1)) with
      | .ok l => l.flatMap (fun d => (parseFrame d).runs)
      | .error _ => [])
  | _ => []

/-- The numbers of the bytes of a run that translate for writing. -/
def State.runKeys (s : State) (c : Ctx) (r : Nat × Nat) : List Nat :=
  match s.cellsVa c r.1 (List.replicate r.2 0) with
  | .ok l => l.map (fun x => x.1)
  | .error _ => []

/-- The numbers of a command's destination bytes; a PUT to this device names them in its destination tenant's space (R370). -/
def State.destKeys (s : State) (c : Ctx) (run : Option Run) (b : List Byte) : List Nat :=
  if opcodeOf b = 0x21 then (if bits (le b 104 8) 12 2 = 0 then s.runKeys (some (bits (le b 104 8) 14 10)) (le b 96 8, le b 112 8) else [])
  else (s.destRuns c run b).flatMap (s.runKeys c)

/-- A failed command's destinations, every byte free. -/
def State.faultCells (s : State) (c : Ctx) (run : Option Run) (b : List Byte) (v : Nat) : List (Nat × Byte) :=
  freeCells v (s.destKeys c run b)

/-- Whether a failure leaves its destinations unspecified: a fault, or an end that cut the command short (R104, R319, R381, R391). -/
def leavesOpen (status : Nat) : Bool := [stTranslation, stPoisoned, stAborted, stContained, stPeer].contains status

end Sys2Proof.Machine
end

