-- ==== Sys2Proof/Machine/Pens.lean ====
section
/-! DEFINITION. Pen descriptors, their bucket sets and gate blocks, as a STEP or a hand-off checks them (R235, R236, R241, R257). -/

namespace Sys2Proof.Machine

/-! ## Pens and bucket sets -/

/-- A bucket set with one bucketed dimension: its bounds and programs (Table 06-5). -/
structure Buckets where
  ok : Bool
  entries : List (Nat × Nat)
deriving DecidableEq, Repr

def parseBuckets (b : List Byte) : Buckets :=
  let n := le b 0 1
  let es := (List.range (min n 16)).map (fun e => (le b (16 + 32 * e) 4, le b (40 + 32 * e) 8))
  ⟨decide (1 ≤ n) && decide (n ≤ 16) && le b 1 1 == 1 && ((b.drop 2).take 14).all (fun x => x == 0)
    && (List.range (min n 16)).all (fun e => decide (1 ≤ le b (16 + 32 * e) 4) && ((b.drop (20 + 32 * e)).take 20).all (fun x => x == 0) && le b (40 + 32 * e) 8 % 64 == 0)
    && (b.drop (16 + 32 * n)).all (fun x => x == 0), es⟩

/-- The smallest bound that holds n, the lowest entry among equals (R162). -/
def bestBucket (es : List (Nat × Nat)) (n : Nat) : Option Nat :=
  (List.range es.length).foldl (fun acc e =>
    let b := (es.getD e (0, 0)).1
    if b < n then acc
    else match acc with
      | some a => if b < (es.getD a (0, 0)).1 then some e else acc
      | none => some e) none

def maxBound (es : List (Nat × Nat)) : Nat := es.foldl (fun m e => max m e.1) 0

/-- A command list's header: COUNT (R241). -/
def State.listCount (s : State) (c : Ctx) (addr : Nat) : Except AccFault (Option Nat) := do
  let b ← s.readVa c addr 64
  let n := le b 0 4
  return if 1 ≤ n ∧ n ≤ 65536 ∧ (b.drop 4).all (fun x => x == 0) then some n else none

def State.bucketsAt (s : State) (c : Ctx) (addr : Nat) : Except AccFault Buckets := (s.readVa c addr 528).map parseBuckets

/-- The fields of a pen descriptor (Table 09-3) that stand alone. -/
def penFieldChecks (d : List Byte) : Checks :=
  let fp := fun off => decodeElem 1 (le d off 4)
  let zero := Num.fin false 0 0
  let gate := le d 5 1
  let nb := bits gate 1 4
  allChecks
   [need 9 0 (le d 0 1 == 1), need 9 1 (le d 1 1 == 1 || le d 1 1 == 2), need 9 2 (decide (le d 2 1 ≤ 3)),
    need 9 3 (decide (1 ≤ le d 3 1) && decide (le d 3 1 ≤ 3)), need 9 4 (if le d 2 1 = 0 then le d 4 1 == 0 else decide (1 ≤ le d 4 1) && decide (le d 4 1 ≤ 3)),
    need 9 5 (decide (gate < 32) && (if bit gate 0 then decide (1 ≤ nb) && decide (nb ≤ 8) else nb == 0)), need 9 6 (decide (le d 6 1 < 8)), need 9 7 (le d 7 1 == 0),
    need 9 8 (decide (1 ≤ penRows d) && decide (penRows d ≤ 1048576)), need 9 12 (decide (1 ≤ penLatCols d) && decide (penLatCols d ≤ 65536)),
    need 9 16 (le d 16 8 != 0 && le d 16 8 % 64 == 0), need 9 24 (le d 24 8 % 64 == 0), need 9 32 (le d 32 8 % 4096 == 0),
    need 9 40 (le d 40 8 % 4096 == 0 && (le d 24 8 != 0 || le d 40 8 == 0)),
    need 9 56 (leNum zero (fp 56)), need 9 60 (leNum (fp 64) (fp 60) && leNum (fp 60) (fp 68)), need 9 64 (leNum zero (fp 64)),
    need 9 68 (fp32Finite (le d 68 4)), need 9 72 (fp32Finite (le d 72 4)), need 9 76 (((d.drop 76).take 52).all (fun x => x == 0)),
    allChecks ((List.range 8).flatMap (fun v => (List.range 3).map (fun k => need 9 (128 + 16 * v + k) (decide (le d (128 + 16 * v + k) 1 ≤ 7)))
      ++ [need 9 (131 + 16 * v) (le d (131 + 16 * v) 1 == 0)])),
    allChecks ((List.range 4).map (fun i => need 9 (280 + 32 * i) (le d (280 + 32 * i) 8 == 0))),
    allChecks ((List.range 8).flatMap (fun b => if b < nb then [need 9 (388 + 32 * b) (le d (388 + 32 * b) 4 == 0), need 9 (408 + 32 * b) (le d (408 + 32 * b) 8 == 0)]
      else [(0, 2), (2, 2), (4, 4), (8, 8), (16, 8), (24, 8)].map (fun (f : Nat × Nat) => need 9 (384 + 32 * b + f.1) (le d (384 + 32 * b + f.1) f.2 == 0))))]

/-- A bucket set and the headers of its command lists, reported at the pen field that names the set. -/
def State.setChecks (s : State) (c : Ctx) (addr off : Nat) : Checks :=
  match s.bucketsAt c addr with
  | .error f => ⟨[], [f]⟩
  | .ok b =>
    if !b.ok then need 9 off false
    else allChecks (b.entries.map (fun e => match s.listCount c e.2 with
      | .error f => ⟨[], [f]⟩
      | .ok n => need 9 off n.isSome))

/-- A command a gate block may mark: MATMUL, MATMUL_LIST, CHAIN, or NORM of KIND 0 or 1, without FUSE (R257). -/
def gateCommandOk (b : List Byte) : Bool :=
  match opcodeOf b with
  | 0x01 => le b 123 1 % 4 == 0
  | 0x02 => true
  | 0x08 => true
  | 0x07 => decide (le b 116 1 < 2)
  | _ => false

/-- The conditions of R257 over every bucket entry's list. -/
def State.gateChecks (s : State) (c : Ctx) (d : List Byte) (es : List (Nat × Nat)) : Checks :=
  if !gateEnabled d then Checks.none
  else allChecks ((List.range (gateBlocks d)).map (fun b =>
    let ti := s.tensorAt c (gateInDesc d b) 9 (some (392 + 32 * b)) false false true
    let tx := s.tensorAt c (gateOutDesc d b) 9 (some (400 + 32 * b)) true false true
    allChecks
     [need 9 (384 + 32 * b) (decide (gateFirst d b ≤ gateLast d b) && (b == 0 || decide (gateLast d (b - 1) < gateFirst d b))),
      ti.1, tx.1,
      given ti.2.got (need 9 (392 + 32 * b) (ti.2.rank == 2 && es.any (fun e => ti.2.ext.getD 1 0 == e.1 * penRows d))),
      given tx.2.got (need 9 (400 + 32 * b) (tx.2.rank == 2)),
      given (ti.2.got && tx.2.got) (need 9 (400 + 32 * b) (tx.2.ext.getD 1 0 == ti.2.ext.getD 1 0 && gateSize d tx.2 == gateSize d ti.2)),
      allChecks (es.map (fun e => match s.listCount c e.2 with
        | .ok (some n) => (need 9 (386 + 32 * b) (decide (gateLast d b < n))).and
            (allChecks ((List.range (gateLast d b + 1 - gateFirst d b)).map (fun k =>
              match s.readVa c (e.2 + 64 + 128 * (gateFirst d b + k)) 128 with
              | .ok cb => need 9 (384 + 32 * b) (gateCommandOk cb)
              | .error f => ⟨[], [f]⟩)))
        | .ok none => Checks.none
        | .error f => ⟨[], [f]⟩))]))

/-- Every check of a pen descriptor; `hand` checks the hand-off set. -/
def State.penChecks (s : State) (c : Ctx) (addr : Nat) : Checks × List Byte :=
  match s.readVa c addr 640 with
  | .error f => (⟨[], [f]⟩, [])
  | .ok d =>
    let es := match s.bucketsAt c (le d 16 8) with | .ok b => b.entries | .error _ => []
    (allChecks [penFieldChecks d, (if le d 16 8 = 0 then Checks.none else s.setChecks c (le d 16 8) 16), (if le d 24 8 = 0 then Checks.none else s.setChecks c (le d 24 8) 24), s.gateChecks c d es], d)

end Sys2Proof.Machine
end

