-- ==== Sys2Proof/Machine/Begin.lean ====
section
/-! DEFINITION. Beginning a command: conditions (R126, R129, R134, R241, R257, R398), the checks of the header (R125 to R128, R130), and
the record of a begun command. Every opcode's row uses `beginRow`. -/

namespace Sys2Proof.Machine

/-! ## Opcodes (Table 05-7) -/

def validOpcode (op : Nat) : Bool :=
  [0x01, 0x02, 0x03, 0x04, 0x05, 0x06, 0x07, 0x08, 0x09, 0x0A, 0x0B, 0x10, 0x11, 0x12, 0x13, 0x14, 0x20, 0x21, 0x30, 0x31, 0x40, 0x41, 0x50, 0x51, 0x7F].contains op

/-- Accepted on the administrative queues (R127). -/
def adminOpcode (op : Nat) : Bool := [0x40, 0x41, 0x50, 0x51, 0x7F].contains op

/-- Refused inside a program (R241). -/
def programRefused (op : Nat) : Bool := [0x10, 0x11, 0x12].contains op

/-- Opcodes with a digestible output (Table 20-3). -/
def digestible (op : Nat) : Bool :=
  [0x01, 0x02, 0x03, 0x04, 0x05, 0x06, 0x07, 0x08, 0x09, 0x0A, 0x0B, 0x14, 0x40, 0x41, 0x10].contains op

/-- The array class of Table 15-3, and STEP: they need an active stable in their partition (R485). -/
def needsStables (op : Nat) : Bool := decide (1 ≤ op) && decide (op ≤ 0x0B) || [0x10, 0x13, 0x14].contains op

/-! ## Conditions -/

def inQueue (q : Nat) (c : Cmd) : Bool := match c.src with | .queue q' _ => q' == q | .program _ _ => false

/-- Commands of a queue begun and not completed. -/
def State.begunOf (s : State) (q : Nat) : Nat := (s.exec.cmds.filter (inQueue q)).length

def cqSize (c : Nat) : Nat := 2 ^ cfgCqLog c
def sqSize (c : Nat) : Nat := 2 ^ cfgSqLog c

/-- Room in the CQ for n more records (R134). -/
def State.cqRoom (s : State) (q n : Nat) : Bool :=
  decide (s.begunOf q + (s.queue q).unread + (s.queue q).heldRoom + n ≤ cqSize (s.queueCfg q))

/-- Whether the streams of a context may begin a command (R397, R398, R406, R493); none does before the scrubs of R488 have ended. -/
def State.mayBegin (s : State) (c : Ctx) (b : List Byte) : Bool :=
  !s.regs.fatal && s.power.scrubs.isEmpty &&
  match c with
  | none => true
  | some t => s.obj (oTenantRunState t) == 1 || (s.obj (oTenantRunState t) == 2 && !bit (le b 1 1) 0)

/-! ## Pre-emption requests (R397) -/

def State.preempt (s : State) (t : Nat) : Preempt := Store.get Preempt.none s.sched.preempt t
def State.setPreempt (s : State) (t : Nat) (v : Preempt) : State :=
  { s with sched := { s.sched with preempt := Store.set Preempt.none s.sched.preempt t v } }

/-- A running tenant with a request starts dismounting; one that no request holds any more starts resuming. -/
def State.preemptCheck (s : State) (t : Nat) : State :=
  let v := s.preempt t
  let st := s.obj (oTenantRunState t)
  if st = 1 ∧ v.requests ≠ 0 then (s.setObj (oTenantRunState t) 2).setPreempt t { v with actions := [], late := false }
  else if (st = 2 ∨ st = 3) ∧ v.requests = 0 then s.setObj (oTenantRunState t) 4
  else s

/-- A pre-emption request is made or withdrawn: bit 0 the Carousel, 1 `TENANT_HOLD`, 2 Spur kind 5. -/
def State.holdTenant (s : State) (t b : Nat) (on : Bool) : State :=
  let v := s.preempt t
  (s.setPreempt t { v with requests := setBits v.requests b 1 (b2n on) }).preemptCheck t

/-- Spur kind 5: a dismount point of a running tenant with a save area is an opportunity (Table 12-6). -/
def State.spurDismount (s : State) (c : Ctx) (b : List Byte) : State × Bool :=
  match c with
  | none => (s, false)
  | some t =>
    if !bit (le b 1 1) 0 || leN (s.obj (oTenantSaveArea t)) 8 8 == 0 || s.obj (oTenantRunState t) != 1 then (s, false)
    else
      let d := s.spurDraw 5 (some (s.obj (oTenantPartition t)))
      if d.2 then (d.1.holdTenant t 2 true, true) else d

/-- Opcodes of Table 15-3 that use no stable: they go on while their tenant is dismounted. -/
def carriedOp (op : Nat) : Bool := !(needsStables op || op == 0x11 || op == 0x12)

/-- A command that has been pre-empted (R98, R399). -/
def State.preempted (s : State) (c : Cmd) : Bool :=
  match c.tenant with
  | some t => (s.preempt t).away && !carriedOp (opcodeOf c.bytes)
  | none => false

/-- The gate's order of a program's commands: FIRST_CMD waits for every earlier command, LAST_CMD + 1 for LAST_CMD (R257). -/
def gateOrder (r : Run) (i : Nat) : Bool :=
  (List.range (bits (le r.desc 5 1) 1 4)).all (fun b =>
    (le r.desc (384 + 32 * b) 2 != i || r.opened.isEmpty) && (le r.desc (386 + 32 * b) 2 + 1 != i || !r.opened.contains (i - 1)))

/-- A command that drives a collective: COLLECTIVE, or a fused MATMUL or ATTEND (R374, R375). -/
def drivesColl (b : List Byte) : Bool :=
  match opcodeOf b with
  | 0x20 => true
  | 0x01 => le b 123 1 % 4 == 1 || le b 123 1 % 4 == 2
  | 0x06 => le b 115 1 % 4 == 1 || le b 115 1 % 4 == 2
  | _ => false

/-- Conditions 2 and 3 of R129, the 1,024 collectives of R380, and the room a STEP holds for its hand-off record (R255); a
STEP whose pen descriptor fails its checks hands nothing off and needs none. -/
def State.roomToBegin (s : State) (src : Src) (b : List Byte) : Bool :=
  let barrier := bit (le b 1 1) 2
  decide (s.exec.cmds.length < 16384) && (!drivesColl b || decide (s.fabric.colls.length < 1024)) &&
  match src with
  | .queue q _ =>
    let hq := if opcodeOf b != 0x10 || le b 88 8 % 64 != 0 then none
      else match s.penChecks (queueCtx q) (le b 88 8) with
        | (ck, d) => if ck == Checks.none && le d 24 8 != 0 then some (8 * (q / 8) + le d 6 1 % 8) else none
    decide (s.begunOf q < 64) && (!barrier || s.begunOf q == 0) && s.cqRoom q (if hq = some q then 2 else 1)
      && (match hq with | some h => (s.queue h).state == 1 && s.cqRoom h 1 | none => true)
  | .program run i =>
    match s.run? run with
    | some r => decide (r.opened.length < 64) && (!barrier || r.opened.isEmpty) && gateOrder r i
    | none => false

/-! ## Header checks -/

/-- The fields of Tables 05-5, 05-6 and 05-8 that do not depend on the opcode's body. -/
def State.headerChecks (s : State) (src : Src) (b : List Byte) : Checks :=
  let c := srcCtx s src
  let n := cmdNwait b
  let sig := bits (le b 2 1) 3 2
  let ref := parsePostRef (le b 72 4)
  let ctrl := le b 1 1
  allChecks
    [need 0 1 (decide (ctrl < 32) && (!bit ctrl 1 || digestible (opcodeOf b))),
     need 0 2 (decide (n ≤ 4) && sig != 3 && decide (le b 2 1 < 32)),
     need 0 3 (le b 3 1 == 0), need 0 12 (le b 12 4 == 0),
     allChecks ((List.range 4).map (fun i => (need 0 (16 + 8 * i) (decide (i < n) || cmdThreshold b i == 0)).and
       (need 0 (48 + 4 * i) (decide (i < n) || le b (48 + 4 * i) 4 == 0)))),
     allChecks ((waitSlots b).map (fun i => match s.waitIs src b i with
       | .badField => ⟨[(0, 48 + 4 * i, stInvalidField)], []⟩
       | .denied => ⟨[(0, 48 + 4 * i, stPostAccess)], []⟩
       | _ => Checks.none)),
     need 0 64 (sig != 0 || le b 64 8 == 0),
     (if sig = 0 then need 0 72 (le b 72 4 == 0)
      else if !ref.ok then need 0 72 false
      else if s.refDenied c ref then ⟨[(0, 72, stPostAccess)], []⟩ else Checks.none),
     need 0 76 (le b 76 4 == 0),
     need 0 80 (if bit ctrl 1 then le b 80 8 % 64 == 0 else le b 80 8 == 0)]

/-! ## The begun command -/

/-- Where command `b` of `src` runs. -/
def State.envOf (s : State) (src : Src) (b : List Byte) : Env :=
  match src with
  | .queue q _ => ⟨queueCtx q, b, none, 0⟩
  | .program run i => ⟨srcCtx s src, b, s.run? run, i⟩

/-- The digest records of a command, at DIGEST_ADDR and on, one per slot inside a program (R505). -/
def State.digestCells (s : State) (c : Ctx) (addr : Nat) : List DigestPart → Except AccFault (List (Nat × Byte))
  | [] => .ok []
  | p :: ps => do
    let a ← s.cellsVa c (addr + 128 * p.slot) (digestRecord p.fmt p.entry p.flushed p.rows)
    let r ← s.digestCells c addr ps
    return a ++ r

/-- The digest area translates for writing (R506). -/
def State.digestArea (s : State) (c : Ctx) (addr slots : Nat) : Except AccFault Unit :=
  (s.cellsVa c addr (List.replicate (128 * slots) 0)).map (fun _ => ())

/-- The values a command that begins now goes on using (R266, R323). -/
def State.beganNow (s : State) (c : Ctx) : Began :=
  match c with
  | some t => ⟨s.obj (oTenantPtRoot t), s.obj (oTenantPasid t), s.obj (oTenantJobId t), s.obj (oTenantRngSeed t), s.obj (oTenantCodecPoolConfig t)⟩
  | none => Began.none

/-! ## Requests for HBM frames (Table 04-8) -/

def frOp (v : Nat) : Nat := leN v 0 1
def frOwner (v : Nat) : Nat := leN v 2 2
def frFirst (v : Nat) : Nat := leN v 4 4
def frCount (v : Nat) : Nat := leN v 8 4
def frRange (v : Nat) : List Nat := (List.range (frCount v)).map (fun i => frFirst v + i)

def State.setFrame (s : State) (f o : Nat) : State := s.withMem { s.mem with frameOwner := Store.set ownerFree s.mem.frameOwner f o }

/-- What commands begun before a free or a release still find (R98, R104): the state as command `id` sees it. -/
def State.beforeFrees (s : State) (id : Nat) : State :=
  s.mem.delayed.foldl (fun (acc : State) r =>
    if !r.waitFor.contains id ∨ r.status ≠ 0 then acc
    else if r.obj = oHbmFrameRequest then (frRange r.value).foldl (fun (a : State) f => a.setFrame f (frOwner r.value)) acc
    else match r.alloc with
      | some al =>
        let t := r.obj / 256 - 0x4000
        acc.withMem { acc.mem with allocs := Store.set [] acc.mem.allocs t (Store.get [] acc.mem.allocs t ++ [al]) }
      | none => acc) s

/-- The state as a begun command reads it: those objects as they stood at its beginning, and the memory freed since. Only results are computed
from it. -/
def State.asBegan (s : State) (c : Cmd) : State :=
  let s := s.beforeFrees c.id
  match c.tenant with
  | some t => ((((s.setObj (oTenantPtRoot t) c.began.root).setObj (oTenantPasid t) c.began.pasid).setObj (oTenantJobId t) c.began.job).setObj
      (oTenantRngSeed t) c.began.seed).setObj (oTenantCodecPoolConfig t) c.began.pool
  | none => s

/-- A command that has begun, as its result stands. Its summary has no flag yet: those of a tile join at its commit, those no tile holds when
the command succeeds (R78). -/
def newCmd (id : Nat) (src : Src) (c : Ctx) (b : List Byte) (r : Except Fail Work) (dig : List (Nat × Byte)) (v : Began) : Cmd :=
  match r with
  | .ok w => ⟨id, src, c, b, stSuccess, 0, none, 0, w.writes, w.stats, dig, w.tiles, w.stationary, w.wait, [], w.marks, false, 0, v, w.flags, w.bufs⟩
  | .error f => ⟨id, src, c, b, f.status, f.detail, f.fault, 0, [], [], [], [], [], Wait.none, [], [], false, 0, v, 0, []⟩

/-- The stream moves past its head (R129). -/
def State.advance (s : State) (src : Src) : State :=
  let s1 := s.dropWaits (fun x => x == src)
  match src with
  | .queue q idx =>
    let v := s1.queue q
    s1.setQueue q { v with sqHead := (idx + 1) % sqSize (s1.queueCfg q), waitsMet := [] }
  | .program run i =>
    match s1.run? run with
    | some r => s1.setRun { r with next := i + 1, opened := r.opened ++ [i], waitsMet := [] }
    | none => s1

/-- A command begins with a given result; a fault leaves its destinations open (R104, R319). What it reads of a granule of a replicated
allocation that it writes itself, which R94 does not specify, is the content from before it (log entry 102). -/
def State.startCmd (s : State) (src : Src) (b : List Byte) (r : Except Fail Work) (dig : List (Nat × Byte)) : State :=
  let open' := match r with | .error f => leavesOpen f.status | .ok _ => false
  let s1 := if open' then (s.advance src).free.2 else s.advance src
  let c0 := newCmd s1.exec.nextCmd src (srcCtx s src) b r dig (s.beganNow (srcCtx s src))
  let c := if open' then { c0 with writes := s.faultCells (srcCtx s src) (s.envOf src b).run b (s.advance src).free.1 } else c0
  ({ s1 with exec := { s1.exec with cmds := s1.exec.cmds ++ [c], nextCmd := s1.exec.nextCmd + 1 } }).traceCommand 1 src (srcCtx s src) b 0 0

/-- The digest the STEP of a program asks for, where this command is its sampler's: the STEP's DIGEST_ADDR (R505). -/
def State.stepDigest (s : State) (e : Env) : Option Nat :=
  match e.step with
  | none => none
  | some run => match run.cmd.bind (fun id => s.exec.cmds.find? (fun c => c.id == id)) with
    | some c => if bit (le c.bytes 1 1) 1 ∧ s.carriesSampler e.ctx e.cmd then some (le c.bytes 80 8) else none
    | none => none

/-- The environment a command's plan runs in, with its digest asked for where the STEP asks for it, and where the STEP wants it. -/
def State.planEnv (s : State) (src : Src) (b : List Byte) : Env × Option Nat :=
  let e := s.envOf src b
  let sd := s.stepDigest e
  (if sd.isSome then { e with cmd := b.set 1 (BitVec.ofNat 8 (le b 1 1 ||| 2)) } else e, sd)

/-- Where the status of an execution failure stands in the order of R140; other statuses come after. -/
def failRank (f : Fail) : Nat :=
  if f.status = stTranslation then 0 else if f.status = stPoisoned then 1 else if f.status = stContained then 2 else if f.status = stPeer then 3 else 4

/-- The failure R140 reports of those a command meets. -/
def firstFail (l : List (Option Fail)) : Option Fail :=
  l.foldl (fun a b => match a, b with
    | some x, some y => if failRank y < failRank x then some y else some x
    | none, y => y
    | x, none => x) none

/-- How a command's execution would fail. One that meets poison meets a translation fault first where it would with no line poisoned (R140). -/
def planFail (s : State) (plan : State → Env → Plan) (e : Env) : Option Fail :=
  match (plan s e).2 with
  | .ok _ => none
  | .error f =>
    if f.status = stPoisoned then
      (match (plan (s.withMem { s.mem with poison := [] }) e).2 with
       | .error g => if g.status = stTranslation then some g else some f
       | .ok _ => some f)
    else some f

/-- The failure of a command at its beginning, in the order of R130 and R140; none where it executes. -/
def State.beginFail (s : State) (src : Src) (b : List Byte) (plan : State → Env → Plan) : Option Fail :=
  let op := opcodeOf b
  let e := s.envOf src b
  let pe := (s.planEnv src b).1
  if !validOpcode op then some ⟨stInvalidOpcode, fieldDetail 0 0, none⟩
  else if (e.ctx.isNone && !adminOpcode op) || (e.run.isSome && programRefused op) then some ⟨stNotPermitted, fieldDetail 0 0, none⟩
  else
    let area := if !bit (le b 1 1) 1 then none
      else match s.digestArea e.ctx (le b 80 8) (match e.run with | some r => r.bound | none => if op = 0x10 then 0 else 1) with
        | .error f => some f.fail
        | .ok _ => none
    let array := if needsStables op ∧ noStables (s.tenantQuarters e.ctx) then some ⟨stContained, 4, none⟩ else none
    let peer := if (waitSlots b).any (fun i => s.waitIs src b i == .unreachable) then some ⟨stPeer, 0, none⟩ else none
    match ((s.headerChecks src b).and (plan s pe).1).fail? with
    | some f => if f.status = stPoisoned then firstFail [some f, area, array, peer] else some f
    | none => firstFail [area, planFail s plan pe, array, peer]

/-- The digest records of a result, at an address. -/
def State.workDigest (s : State) (e : Env) (w : Work) (a : Nat) : List (Nat × Byte) :=
  match s.digestCells e.ctx a w.digest with | .ok d => d | .error _ => []

/-- The digest records a program's command leaves for its STEP (R505). -/
def State.addStepDigest (s : State) (e : Env) (sd : Option Nat) (w : Work) : State :=
  match sd, e.run.bind (fun r => s.run? r.id) with
  | some a, some r => s.setRun { r with digest := r.digest ++ s.workDigest e w a }
  | _, _ => s

/-- Begin the head of a stream once its conditions hold. `plan` gives the opcode's checks and result, `launch` what else begins with
it, given the command's name. -/
def State.beginNow (s : State) (src : Src) (b : List Byte) (plan : State → Env → Plan) (launch : State → Env → Nat → State) : State :=
  let e := s.envOf src b
  let pe := s.planEnv src b
  match s.beginFail src b plan with
  | some f => s.startCmd src b (.error f) []
  | none =>
    match (plan s pe.1).2 with
    | .error f => s.startCmd src b (.error f) []
    | .ok w =>
      let s1 := s.startCmd src b (.ok w) (if e.wantsDigest then s.workDigest e w (le b 80 8) else [])
      launch (s1.addStepDigest e pe.2 w) e (s1.exec.nextCmd - 1)

/-! ## Rows -/

/-- A fault on reading an SQ entry: the queue enters ERROR (R145); a program's STEP fails with it. An administrative queue, of which R145 does
not speak, does the same, with the record and event of R118 in place of event 0x0013 (log entry 103). -/
def State.fetchFault (s : State) (src : Src) (f : AccFault) : State :=
  match src with
  | .queue q _ =>
    let s1 := (s.setQueue q { s.queue q with state := 3 }).faultInfo (queueCtx q) q f
    match queueCtx q with
    | some t => (s1.event ⟨0x0013, 2, 6, q, 0⟩).tenantEvent t 2
    | none => s1
  | .program run i =>
    match s.run? run with
    | some r => (s.setRun { r with failed := some (r.failed.getD (i, f.fail.status, f.typ)), next := i }).faultInfo (some r.tenant) r.origin.1 f
    | none => s

def State.headOf (s : State) : From → Option Src
  | .queue q => s.queueHead q.val
  | .program run => (s.run? run).bind Run.head

/-- Begin the head, the gate's decision first where it is a block's FIRST_CMD (R258). -/
def State.beginGated (s : State) (src : Src) (b : List Byte) (plan : State → Env → Plan) (launch : State → Env → Nat → State) : State :=
  match s.gateOpen src with
  | .ok s1 => s1.beginNow src b plan launch
  | .error f => s.startCmd src b (.error f.fail) []

/-- A row of an opcode: the head of the stream begins, if it carries one of `ops` — an opcode outside Table 05-7 begins under any row —
and R129's conditions hold. Satisfied waits are latched and remote waits subscribed either way. -/
def State.beginRow (s : State) (f : From) (mine : List Byte → Bool) (plan : State → Env → Plan) (launch : State → Env → Nat → State) : State :=
  match s.headOf f with
  | none => s
  | some src =>
    if s.regs.fatal then s
    else match s.headBytes src with
    | .error flt => s.fetchFault src flt
    | .ok b =>
      if !mine b && validOpcode (opcodeOf b) then s
      else
        let s1 := (s.latch src).subscribe src b
        if s1.waitsReady src b && s1.mayBegin (srcCtx s1 src) b && s1.roomToBegin src b then
          (let d := s1.spurDismount (srcCtx s1 src) b
           if d.2 then d.1 else d.1.beginGated src b plan launch)
        else s1

def noLaunch (s : State) (_ : Env) (_ : Nat) : State := s

end Sys2Proof.Machine
end

