-- ==== Sys2Proof/Machine/Record.lean ====
section
/-! DEFINITION. Completion records and interrupts (R139, R142, R145), and the commands begun as a list. -/

namespace Sys2Proof.Machine

def State.cmd? (s : State) (id : Nat) : Option Cmd := s.exec.cmds.find? (fun c => c.id == id)
def State.setCmd (s : State) (c : Cmd) : State :=
  { s with exec := { s.exec with cmds := s.exec.cmds.map (fun x => if x.id = c.id then c else x) } }
def State.dropCmd (s : State) (id : Nat) : State := { s with exec := { s.exec with cmds := s.exec.cmds.filter (fun x => x.id != id) } }

/-- The numbers of the bytes a begun command would write. -/
def State.cmdKeys (s : State) (c : Cmd) : List Nat :=
  if c.writes.isEmpty then
    s.destKeys c.tenant (match c.src with | .program r _ => s.run? r | .queue _ _ => none) c.bytes
  else c.writes.map (fun x => x.1)

/-- What the array holds for a command's tiles is given up: its partial-store grants with the images there, and its items in the mangers
(R39, R158). -/
def State.dropGrants (s : State) (c : Cmd) : State :=
  { s with exec := { s.exec with
      granted := s.exec.granted - (c.tiles.map Tile.granted).sum, partials := s.exec.partials.filter (fun x => x.cmd != c.id),
      stables := s.exec.stables.map (fun x => (x.1, { x.2 with manger := x.2.manger.filter (fun m => m.tag.1 != c.id) })) } }

/-- The stable time of tiles discarded because their command fails, which no command of the table measures: a free value (R500; log entry 119).
What a retirement threw away is not the tenant's (R395); a tenant reset measures its own. -/
def State.chargeDiscard (s : State) (c : Cmd) (status detail : Nat) : State :=
  if status = stAborted ∨ !c.tiles.any (fun t => t.state == .fill || t.state == .run || t.state == .drain) then s
  else
    let f := s.free
    if status = stContained ∧ detail = 4 then f.2.count oEngineNsUncharged f.1 else f.2.chargeEngine c.tenant (cmdKey c.bytes) f.1

/-- A command's status once it is known to fail, and its end of waiting; `wide`: its destinations become open (R104). -/
def State.failCmdAs (s : State) (id status detail : Nat) (f : Option AccFault) (wide : Bool) : State :=
  match s.cmd? id with
  | some c =>
    let s0 := s.chargeDiscard c status detail
    let v := s0.free
    let s1 := (if wide then v.2 else s0).dropGrants c
    s1.setCmd { c with status := status, detail := detail, fault := f, wait := Wait.none, digest := [], tiles := [],
                       writes := if wide then freeCells v.1 (s.cmdKeys c) else [] }
  | none => s

/-- A failure whose status says whether its destinations stay as they are. -/
def State.failCmd (s : State) (id status detail : Nat) (f : Option AccFault) : State := s.failCmdAs id status detail f (leavesOpen status)

/-- Coalescing: the vector after IRQ_COUNT records, at once for IRQ_NOW, or when IRQ_DELAY_US has passed (R142). -/
def State.irq (s : State) (q : Nat) (now : Bool) : State :=
  let cfg := s.queueCfg q
  let v := s.queue q
  if !cfgIrqEn cfg then s
  else if now || decide (cfgIrqCount cfg ≤ v.sinceIrq + 1) then (s.setQueue q { v with sinceIrq := 0, delayArmed := false }).sendQueueVector q
  else s.setQueue q { v with sinceIrq := v.sinceIrq + 1, delayArmed := v.delayArmed || cfgIrqDelay cfg != 0 }

/-- The 32 bytes of a completion record (Table 05-11). -/
def recordBytes (tag sqHead q status : Nat) (fl : Flags) (p : Bool) (detail dig : Nat) : List Byte :=
  toLe 4 tag ++ toLe 2 sqHead ++ toLe 2 q ++ toLe 1 status ++ toLe 1 fl.toNat ++ toLe 1 (b2n p) ++ [0] ++ toLe 4 detail ++ toLe 8 dig ++ toLe 8 0

/-- Write a completion record of queue q and send its interrupt; a CQ write that faults puts the queue in ERROR and its records are
dropped (R139, R142, R145). An administrative queue, of which R145 does not speak, does the same, with the record and event of R118 in place
of event 0x0013 (log entry 103). -/
def State.putRecord (s : State) (q tag status : Nat) (fl : Flags) (detail dig : Nat) (now : Bool) : State :=
  let v := s.queue q
  let cfg := s.queueCfg q
  if v.state = 0 ∨ v.dropRecords then s
  else match s.cellsVa (queueCtx q) (cfgCqBase cfg + 32 * v.cqTail) (recordBytes tag v.sqHead q status fl v.phase detail dig) with
    | .error f =>
      let s1 := ((s.setQueue q { v with state := 3, dropRecords := true }).faultInfo (queueCtx q) q f)
      (match queueCtx q with
       | some t => (s1.event ⟨0x0013, 2, 6, q, 1⟩).tenantEvent t 2
       | none => s1)
    | .ok w =>
      let last := v.cqTail + 1 == cqSize cfg
      ((s.withMem (s.mem.store w)).setQueue q
        { v with cqTail := if last then 0 else v.cqTail + 1, phase := if last then !v.phase else v.phase, unread := v.unread + 1 }).irq q now

end Sys2Proof.Machine
end

