-- ==== Sys2Proof/Machine/Stalls.lean ====
section
/-! DEFINITION. Stall pools: reference counts, pins, drops and returns (R221 to R226, R230), and one step's reservation (R220, R225). -/

namespace Sys2Proof.Machine

def stallKey (t i : Nat) : Nat := t * 2 ^ 20 + i
def Stall.none : Stall := ⟨0, 0, 0⟩

def State.stall (s : State) (t i : Nat) : Stall := Store.get Stall.none s.remuda.stalls (stallKey t i)
def State.putStall (s : State) (t i : Nat) (v : Stall) : State :=
  { s with remuda := { s.remuda with stalls := Store.set Stall.none s.remuda.stalls (stallKey t i) v } }

/-- Stalls of a tenant in use. -/
def State.stallsHeld (s : State) (t : Nat) : Nat :=
  (s.remuda.stalls.filter (fun p => decide (stallKey t 0 ≤ p.1) && decide (p.1 < stallKey (t + 1) 0))).length

/-- The pool's telemetry (R229). -/
def State.syncStalls (s : State) (t : Nat) : State :=
  let held := s.stallsHeld t
  (s.setObj (oTenantStallsHeld t) held).setObj (oTenantStallsFree t) ((s.pool t).count - held)

/-- The n lowest free stalls of a pool, or fewer (which stall is taken shows in no result, R223). -/
def State.freeStalls (s : State) (t n : Nat) : List Nat :=
  ((List.range (min (s.pool t).count (s.stallsHeld t + n))).filter (fun i => s.stall t i == Stall.none)).take n

/-- A reference goes (R221): 1 when the stall returns. -/
def State.dropRef (s : State) (t i : Nat) : State × Nat :=
  let v := s.stall t i
  let v' : Stall := ⟨v.count - 1, v.pins, v.drops⟩
  (s.putStall t i v', if v'.count = 0 ∧ v'.pins = 0 then 1 else 0)

/-- Apply f to each of a list, adding up what returned. -/
def State.sumDrops (s : State) (f : State → Nat → State × Nat) (l : List Nat) : State × Nat :=
  l.foldl (fun (acc : State × Nat) i => let r := f acc.1 i; (r.1, acc.2 + r.2)) (s, 0)

def State.pin (s : State) (t : Nat) (l : List Nat) : State :=
  l.foldl (fun (acc : State) i => let v := acc.stall t i; acc.putStall t i { v with pins := v.pins + 1 }) s

def State.unpin (s : State) (t : Nat) (l : List Nat) : State × Nat :=
  s.sumDrops (fun acc i =>
    let v := acc.stall t i
    let v' : Stall := { v with pins := v.pins - 1 }
    (acc.putStall t i v', if v'.count = 0 ∧ v'.pins = 0 ∧ v ≠ v' then 1 else 0)) l

/-- Signal n returned stalls on POOL_POST (R226, R364). -/
def State.returned (s : State) (t n : Nat) : State :=
  let s1 := s.syncStalls t
  let p := s1.pool t
  if n = 0 ∨ !p.postEn then s1 else s1.signalPost (p.post % 2 ^ 18) 1 n

/-- The stalls an entry's list names. -/
def Entry.stalls (e : Entry) : List Nat := e.dir.map (fun p => p.2 - 1)

/-- The list is emptied and its references dropped (R221). -/
def State.emptyList (s : State) (t ix : Nat) : State × Nat :=
  let e := s.entry ix
  (s.setEntry ix { e with dir := [] }).sumDrops (fun acc i => acc.dropRef t i) e.stalls

/-- A child takes its parent's stalls and length as they stand (R221, R252). -/
def State.share (s : State) (t child parent : Nat) : State :=
  let p := s.entry parent
  let c := s.entry child
  let s1 := s.setEntry child { c with dir := p.dir, image := setLeN c.image 20 4 (imgLength p.image) }
  p.stalls.foldl (fun (acc : State) i => let v := acc.stall t i; acc.putStall t i { v with count := v.count + 1 }) s1

/-! ## One step's reservation -/

/-- What a step must do at a list index it appends into: nothing, a new stall, or a copy of the one it shares. -/
structure Need where
  entry : Nat
  index : Nat
  old : Option Nat
deriving DecidableEq, Repr

/-- The copies and new stalls a batch needs to append n positions, in entry and list order (R221, R225). -/
def State.stallNeeds (s : State) (t n : Nat) (batch : List Nat) : List Need :=
  batch.flatMap (fun ix =>
    let e := s.entry ix
    let len := imgLength e.image
    if n = 0 then [] else
      ((List.range ((len + n - 1) / 256 + 1 - len / 256)).map (· + len / 256)).filterMap (fun x =>
        match e.stallAt x with
        | none => some ⟨ix, x, none⟩
        | some st => if 1 < (s.stall t st).count then some ⟨ix, x, some st⟩ else none))

/-- Copy every row of a stall (R221). -/
def State.copyStall (s : State) (t src dst : Nat) : Except AccFault State := do
  let p := s.pool t
  let b ← s.readVa (some t) (p.base + src * p.stallBytes) p.stallBytes
  let w ← s.cellsVa (some t) (p.base + dst * p.stallBytes) b
  return s.withMem (s.mem.store w)

/-- Give each need its stall: the list points to it, a copy is made, and a drop of the shared one is requested. -/
def State.takeStalls (s : State) (t : Nat) (needs : List (Need × Nat)) : Except AccFault State :=
  needs.foldlM (fun (acc : State) x => do
    let e := acc.entry x.1.entry
    let s1 := (acc.setEntry x.1.entry { e with dir := Store.set 0 e.dir x.1.index (x.2 + 1) }).putStall t x.2 ⟨1, 0, 0⟩
    match x.1.old with
    | none => return s1
    | some o => do
      let s2 ← s1.copyStall t o x.2
      let v := s2.stall t o
      return (s2.putStall t o { v with drops := v.drops + 1 }).count (oTenantStallCopies t) 1) s

/-- The requested drops of a step are applied at its boundary (R221). -/
def State.applyDrops (s : State) (t : Nat) (l : List Nat) : State × Nat :=
  s.sumDrops (fun acc i =>
    let v := acc.stall t i
    (acc.putStall t i { v with drops := v.drops - 1 }).dropRef t i) l

/-- DROP: list indices whose positions all lie at or below len − window (R221). -/
def State.applyWindow (s : State) (t ix len window : Nat) : State × Nat :=
  let e := s.entry ix
  let gone := e.dir.filter (fun p => decide (256 * p.1 + 255 + window ≤ len))
  (s.setEntry ix { e with dir := e.dir.filter (fun p => !decide (256 * p.1 + 255 + window ≤ len)) }).sumDrops
    (fun acc i => acc.dropRef t i) (gone.map (fun p => p.2 - 1))

end Sys2Proof.Machine
end

