-- ==== Sys2Proof/Machine/Remuda.lean ====
section
/-! DEFINITION. The Remuda: entries (R231 to R234), STEP with its phases Check, Select, Reserve and Lay out (R237 to R243, R545),
and the work list (R239, R240). -/

namespace Sys2Proof.Machine

/-! ## Entries -/

def stFree : Nat := 0
def stIdle : Nat := 1
def stInStep : Nat := 2
def stFinished : Nat := 3
def stPending : Nat := 4
def stHandoff : Nat := 5

def withState (img st : Nat) : Nat := setLeN img 3 1 st

def State.inRange (s : State) (t ix : Nat) : Bool :=
  let r := s.obj (oTenantRemudaRange t)
  decide (bits r 0 12 ≤ ix) && decide (ix < bits r 0 12 + bits r 12 13)

/-- Entries of a tenant that are not FREE. -/
def State.activeEntries (s : State) (t : Nat) : List Nat :=
  (s.remuda.entries.filter (fun p => s.inRange t p.1 && imgState p.2.image != stFree)).map (·.1)

/-- The counts of Table 09-15. -/
def State.syncRemuda (s : State) (t : Nat) : State :=
  (s.setObj (oTenantRemudaActive t) (s.activeEntries t).length).setObj oRemudaEntriesFree
    (4096 - (s.remuda.entries.filter (fun p => imgState p.2.image != stFree)).length)

def State.setImage (s : State) (ix img : Nat) : State := let e := s.entry ix; s.setEntry ix { e with image := img }

/-- An entry's image as `TENANT_REMUDA_READ` reports it (R261). -/
def State.imageOf (s : State) (ix : Nat) : Nat :=
  let i := (s.entry ix).image
  if imgState i = stFree then ix % 2 ^ 16 else i

/-! ## STEP -/

/-- STEP's checks; it does its work in STEP_SELECT, its program and STEP_COMMIT (R237, R238). -/
def planStep (s : State) (e : Env) : Plan :=
  let p := s.penChecks e.ctx (e.f 88 8)
  (allChecks [need 0 88 (e.f 88 8 % 64 == 0), need 0 97 (e.f 97 1 == 0), need 0 98 (decide (e.f 98 2 ≤ 4096)), need 0 100 (e.f 100 28 == 0), p.1,
    need 0 1 (!(p.1 == Checks.none && e.wantsDigest && le p.2 1 1 == 2))], .ok { Work.none with wait := Wait.step 0 })

def handoffQueue (t : Nat) (desc : List Byte) : Nat := 8 * t + le desc 6 1 % 8

def State.holdRoom (s : State) (q : Nat) (n : Int) : State :=
  s.setQueue q { s.queue q with heldRoom := ((s.queue q).heldRoom + n).toNat }

def newRun (id t pen : Nat) (hand : Bool) (cmd : Option Nat) (desc : List Byte) (holds : Bool) (origin : Nat × Nat) (after : Option Nat) (batch : List Nat) : Run :=
  ⟨id, t, pen, hand, cmd, 0, desc, batch, 0, 0, 0, 0, 0, [], none, 0, [], false, none, [], [], [], none, [], [], holds, [], [], origin, after, 0⟩

/-- A STEP that has begun waits for its turn (R236) and holds room for its hand-off record (R255). -/
def launchStep (s : State) (e : Env) (id : Nat) : State :=
  match e.ctx, s.cmd? id, s.readVa e.ctx (e.f 88 8) 640 with
  | some t, some c, .ok d =>
    let hold := le d 24 8 != 0
    let r := newRun s.remuda.nextRun t (e.f 96 1) false (some id) d hold (match c.src with | .queue q i => (q, i) | .program _ _ => (0, 0)) none []
    let s1 := { s with remuda := { s.remuda with runs := s.remuda.runs ++ [r], nextRun := s.remuda.nextRun + 1 } }
    (if hold then s1.holdRoom (handoffQueue t d) 1 else s1).setCmd { c with wait := Wait.step r.id }
  | _, _, _ => s

def State.dropRun (s : State) (id : Nat) : State := { s with remuda := { s.remuda with runs := s.remuda.runs.filter (fun r => r.id != id) } }

/-- Room held for a hand-off record is given back. -/
def State.releaseRoom (s : State) (r : Run) : State := if r.holdsRoom then s.holdRoom (handoffQueue r.tenant r.desc) (-1) else s

/-! ## Work lists -/

/-- RT_TEMPLATE value V (R240). -/
def rtValue (b rows v : Nat) : Nat :=
  if v = 0xFFFFFFFF then b * rows else if v = 0xFFFFFFFE then b else if v = 0xFFFFFFFD then 2 * b * rows else v

/-- What the work list says of one slot: image, TIME and GUIDE. -/
structure SlotInfo where
  image : Nat
  time : Nat
  guide : Nat
deriving DecidableEq, Repr

/-- The 64-byte header (Table 09-6). -/
def wlHeader (ba b bucket ps : Nat) : List Byte := toLe 4 ba ++ toLe 4 b ++ toLe 4 bucket ++ toLe 4 ps ++ toLe 48 0

/-- The work list below HOLD (R239, R240). -/
def wlBytes (run : Run) (b bucket : Nat) (slots : List SlotInfo) : List Byte :=
  let d := run.desc
  let rows := penRows d
  let ba := slots.length
  let rt := (List.range 4).flatMap (fun i => (List.range 6).flatMap (fun k => toLe 4 (rtValue ba rows (le d (256 + 32 * i + 4 * k) 4))) ++ toLe 8 0)
  let recs := (List.range b).flatMap (fun k => match slots[k]? with | some x => toLe 128 x.image | none => toLe 128 0)
  let views := (List.range 8).flatMap (fun v => (List.range b).flatMap (fun k =>
    let base := 128 + 16 * v
    let addr := fun src => match slots[k]? with
      | some x => (match viewSource d run.handoff run.hold b k x.image src with | 0 => 0 | a => (a + le d (base + 12) 4) % 2 ^ 64)
      | none => 0
    let live := decide (k < ba)
    toLe 8 (addr (le d base 1)) ++ toLe 8 0 ++ toLe 8 (addr (le d (base + 1) 1)) ++ toLe 8 0 ++ toLe 8 (addr (le d (base + 2) 1)) ++ toLe 8 0
      ++ toLe 4 (if live then le d (base + 4) 4 else 0) ++ toLe 4 (if live then le d (base + 8) 4 else 0) ++ toLe 8 0))
  let vec := fun (f : SlotInfo → Nat) => (List.range (b * rows)).flatMap (fun r => toLe 4 (match slots[r / rows]? with | some x => f x | none => 0))
  wlHeader ba b bucket run.penStep ++ rt ++ toLe 64 0 ++ recs ++ views ++ vec SlotInfo.time ++ vec SlotInfo.guide

/-- Bytes the work list needs (R239). -/
def wlNeed (run : Run) (b : Nat) : Nat :=
  if run.hold then holdBase run.desc run.handoff b - penWl run.desc run.handoff + b * penRows run.desc * latRowBytes run.desc
  else 256 + 640 * b + 8 * b * penRows run.desc

/-- A view source or gate field that resolves to 0, or a KIND that differs (R243 reason 5). -/
def slotBad (run : Run) (b k img : Nat) : Bool :=
  let d := run.desc
  imgKind img != le d 1 1
    || (List.range 8).any (fun v => (List.range 3).any (fun j =>
        let n := le d (128 + 16 * v + j) 1
        n != 0 && viewSource d run.handoff run.hold b k img n == 0))
    || (gateEnabled d && !run.handoff && imgGateAddr img == 0)

/-- A term E_j with j above HIST_DEPTH (R243 reason 4). -/
def termsBad (depth terms : Nat) : Bool := (bit terms 3 && decide (depth < 1)) || (bit terms 4 && decide (depth < 2)) || (bit terms 5 && decide (depth < 3))

/-! ## Select, Reserve, Lay out -/

/-- The pen's IDLE entries, in the order they are taken (R238, R545). -/
def State.candidates (s : State) (t pen : Nat) : List Nat :=
  sortBy (fun ix => (s.entry ix).order) ((s.activeEntries t).filter (fun ix => imgState (s.entry ix).image == stIdle && imgPen (s.entry ix).image == pen))

/-- A STEP that fails before its program runs. -/
def State.stepFails (s : State) (r : Run) (f : Fail) : State :=
  let s1 := (s.setRun { r with phase := 2, holdsRoom := false }).releaseRoom r
  match r.cmd with | some id => s1.failCmd id f.status f.detail f.fault | none => s1

/-- n of the first appending ATTEND of a command list, 0 where there is none (R220). -/
def State.appendCount (s : State) (c : Ctx) (list count : Nat) : Except AccFault Nat :=
  (fun (o : Option Nat) => o.getD 0) <$> (List.range count).foldlM (fun (acc : Option Nat) i =>
    match acc with
    | some n => (Except.ok (some n) : Except AccFault (Option Nat))
    | none => do
      let b ← s.readVa c (list + 64 + 128 * i) 128
      if opcodeOf b = 0x06 ∧ le b 112 1 % 4 = 3 then do
        let p ← s.readVa c (le b 104 8) 512
        return some ((s.tensorAt c (le p 360 8) 9 none false false true).2.l 1)
      else .ok none) none

/-- Reserve for a sequence pen: n, or why the STEP fails (R225, R227, R238). -/
def State.reserve (s : State) (r : Run) (n : Nat) (batch : List Nat) : Except Fail State :=
  let t := r.tenant
  let seqs := batch.filter (fun ix => imgKind (s.entry ix).image == 2)
  let needs := s.stallNeeds t n seqs
  match seqs.find? (fun ix => decide (262144 < imgLength (s.entry ix).image + n)) with
  | some ix => .error ⟨stObjectState, ix % 4096 + 3 * 4096, none⟩
  | none =>
    if !needs.isEmpty ∧ (s.pool t).count = 0 then .error ⟨stObjectState, (seqs.headD 0) % 4096 + 2 * 4096, none⟩
    else
      let free := s.freeStalls t needs.length
      if free.length < needs.length then .error ⟨stExhausted, needs.length % 2 ^ 21, none⟩
      else match s.takeStalls t (needs.zip free) with
        | .error f => .error f.fail
        | .ok s1 =>
          let pins := seqs.flatMap (fun ix => (s1.entry ix).stalls)
          let r1 := { r with pinned := pins, appended := if n = 0 then none else some n }
          let r2 := { r1 with copies := (needs.zip free).filterMap (fun (x : Need × Nat) => x.1.old.map (fun o => (o, x.2))) }
          .ok (((s1.pin t pins).setRun { r2 with layers := (needs.zip free).map (fun (x : Need × Nat) => (x.1.entry * 1024 + x.1.index, x.2)) }).syncStalls t)

/-- TIME and GUIDE of a slot: T, and GUIDANCE × G rounded to FP32 (R240, R256). -/
def slotInfo (img t g : Nat) : SlotInfo × Flags :=
  let p := (acxMul (fp32Acx (imgGuidance img)) (fp32Acx g)).bind toFp32
  (⟨img, t, p.1⟩, p.2)

/-- The Course row of each entry of a trajectory pen; zeros where none is read. -/
def State.courses (s : State) (r : Run) (batch : List Nat) : Except AccFault (List CourseRow) :=
  batch.mapM (fun ix =>
    let img := (s.entry ix).image
    if r.handoff || le r.desc 1 1 != 1 || imgKind img != 1 then .ok ⟨1, 0, List.replicate 8 0, 0, 0, 0, 0, 0, true⟩
    else s.courseRow (some r.tenant) (imgCourse img) (imgStep img))

/-- Lay out: the bucket entry, the checks of R243 and the work list (R239, R240). The batch is in ascending entry index. -/
def State.layOut (s : State) (r : Run) (set : Buckets) (batch : List Nat) (images : List Nat) : Except Fail State :=
  match bestBucket set.entries batch.length with
  | none => .error ⟨stInvalidField, fieldDetail 9 0, none⟩
  | some e =>
    let b := (set.entries.getD e (0, 0)).1
    let list := (set.entries.getD e (0, 0)).2
    let c : Ctx := some r.tenant
    let put := fun (s : State) (r : Run) (bytes : List Byte) (total : Nat) => (match s.cellsVa c (penWl r.desc r.handoff) bytes with
      | .error f => (.error f.fail : Except Fail State)
      | .ok w => .ok ((s.withMem (s.mem.store w)).setRun { r with phase := 1, batch := batch, bound := b, listAddr := list, total := total }))
    if batch.isEmpty then put s r (wlHeader 0 b e r.penStep) 0
    else match s.courses r batch, s.listCount c list with
      | .error f, _ => .error f.fail
      | _, .error f => .error f.fail
      | .ok rows, .ok n =>
        let r1 := { r with hold := rows.any (fun x => bit x.mask 1), bound := b }
        let reason := fun k =>
          let img := images.getD k 0
          let row := rows.getD k ⟨1, 0, [], 0, 0, 0, 0, 0, true⟩
          if !row.ok || termsBad (penHistDepth r.desc) row.mask then 4
          else if slotBad r1 b k img then 5
          else if le r.desc 48 4 < wlNeed r1 b then 6 else 0
        let gate := (List.range (gateBlocks r.desc)).find? (fun k => gateEnabled r.desc && !r.handoff
          && (s.gateTensors c r.desc k).1.ext.getD 1 0 != b * penRows r.desc)
        match gate, (List.range batch.length).find? (fun k => reason k != 0) with
        | some k, _ => .error ⟨stInvalidField, fieldDetail 9 (392 + 32 * k), none⟩
        | none, some k => .error ⟨stObjectState, batch.getD k 0 % 4096 + reason k * 4096, none⟩
        | none, none =>
          let infos := (List.range batch.length).map (fun k => let row := rows.getD k ⟨1, 0, [], 0, 0, 0, 0, 0, true⟩; slotInfo (images.getD k 0) row.t row.g)
          put s { r1 with own := r1.own ||| orFlags (infos.map (fun (x : SlotInfo × Flags) => x.2)) } (wlBytes r1 b e (infos.map (fun (x : SlotInfo × Flags) => x.1))) (n.getD 0)

/-- A run whose tenant is being reset or has been dismounted does not end (R398, R406). -/
def State.runStands (s : State) (r : Run) : Bool := s.regs.fatal || s.obj (oTenantRunState r.tenant) == 5 || (s.preempt r.tenant).away

/-- Whether an earlier STEP of the pen has not completed, or the tenant's streams may not start (R236, R398). -/
def State.mayStart (s : State) (r : Run) : Bool :=
  !s.regs.fatal && s.obj (oTenantRunState r.tenant) == 1
    && !s.remuda.runs.any (fun x => x.handoff == r.handoff && x.tenant == r.tenant && x.pen == r.pen && decide (x.id < r.id))
    && (match r.after with | some id => (s.cmd? id).isNone | none => true)

/-- The positions a sequence step appends, from its command list (R220). -/
def State.stepAppends (s : State) (r : Run) (set : Buckets) (batch : List Nat) : Except AccFault Nat :=
  if le r.desc 1 1 = 2 ∧ !batch.isEmpty then
    (match bestBucket set.entries batch.length with
     | some e => do
       let list := (set.entries.getD e (0, 0)).2
       let cnt ← s.listCount (some r.tenant) list
       s.appendCount (some r.tenant) list (cnt.getD 0)
     | none => .ok 0)
  else .ok 0

/-- Reserve and Lay out of a batch that has been selected, and the translation of the STEP's digest area (R239, R240, R242, R505). -/
def State.stepPrepare (s : State) (r : Run) (set : Buckets) (batch images : List Nat) (appends : Except AccFault Nat) : Except Fail State := do
  let n ← (match appends with | .ok n => .ok n | .error f => .error f.fail)
  let s3 ← (if le r.desc 1 1 = 2 ∧ !batch.isEmpty then s.reserve r n batch else .ok s)
  let s4 ← s3.layOut ((s3.run? r.id).getD r) set batch images
  match r.cmd.bind s.cmd? with
  | some c => if bit (le c.bytes 1 1) 1 && !batch.isEmpty then (match s4.digestArea (some r.tenant) (le c.bytes 80 8) (((s4.run? r.id).getD r).bound) with
      | .ok _ => .ok s4 | .error f => .error f.fail) else .ok s4
  | none => .ok s4

/-- A step that fails before its program begins. EXHAUSTED changes no entry (R238), nor does OBJECT_STATE (R243); another status is left in
LAST_STATUS of the entries it took (R242). -/
def State.stepRefused (s : State) (r : Run) (batch : List Nat) (f : Fail) : State :=
  let s3 := if f.status = stExhausted then s.count (oTenantStallExhausted r.tenant) 1 else s
  let s4 := if f.status = stObjectState ∨ f.status = stExhausted then s3
    else batch.foldl (fun (acc : State) ix => acc.setImage ix (setLeN (acc.entry ix).image 6 1 f.status)) s3
  s4.stepFails r f

/-- The entries a STEP selects: up to BATCH_MAX and the set's largest bound of the pen's IDLE entries, in ascending index (R238, R545). -/
def State.stepBatch (s : State) (r : Run) (set : Buckets) : List Nat :=
  let limit := match r.cmd.bind s.cmd? with | some c => le c.bytes 98 2 | none => 0
  let most := if limit = 0 then maxBound set.entries else min limit (maxBound set.entries)
  sortBy (fun x => x) ((s.candidates r.tenant r.pen).take most)

/-- The steps a run's pen has taken. -/
def State.stepsTaken (s : State) (r : Run) : Nat := Store.get 0 s.remuda.penSteps (256 * r.tenant + r.pen)

/-- The run with its place among its pen's steps. -/
def State.stepRun (s : State) (r : Run) : Run := { r with penStep := s.stepsTaken r % 2 ^ 32 }

/-- The pen's count of steps goes on, whatever becomes of this one. -/
def State.stepCounted (s : State) (r : Run) : State :=
  { s with remuda := { s.remuda with penSteps := Store.set 0 s.remuda.penSteps (256 * r.tenant + r.pen) (s.stepsTaken r + 1) } }

/-- Select: the entries are IN_STEP (R238). -/
def State.stepTake (s : State) (r : Run) (batch : List Nat) : State :=
  batch.foldl (fun (acc : State) ix => acc.setImage ix (withState (acc.entry ix).image stInStep)) ((s.stepCounted r).setRun (s.stepRun r))

/-- The images of the work list: the entries as Select leaves them. -/
def State.stepImages (s : State) (batch : List Nat) : List Nat := batch.map (fun ix => withState (s.entry ix).image stInStep)

/-- STEP_SELECT: Select, Reserve and Lay out of a waiting STEP (R238); the digest area of the selected bound translates, or the STEP
fails without executing (R505, R506). In a partition left with no active stable it fails (R46, R485). -/
def State.stepSelect (s : State) (id : Nat) : State :=
  match s.run? id with
  | none => s
  | some r =>
    if r.handoff || r.phase != 0 || !s.mayStart r then s
    else if noStables (s.tenantQuarters (some r.tenant)) then s.stepFails r ⟨stContained, 4, none⟩
    else match s.bucketsAt (some r.tenant) (le r.desc 16 8) with
      | .error f => s.stepFails r f.fail
      | .ok set =>
        let batch := s.stepBatch r set
        match (s.stepTake r batch).stepPrepare (s.stepRun r) set batch (s.stepImages batch) (s.stepAppends r set batch) with
        | .ok a => a
        | .error f => (s.stepCounted r).stepRefused r batch f

end Sys2Proof.Machine
end

