-- ==== Sys2Proof/Machine/Commit.lean ====
section
/-! DEFINITION. The end of a step: Commit (R242, R248, R545), retirement (R254) and hand-off batches (R255, R256). -/

namespace Sys2Proof.Machine

/-! ## Retirement -/

/-- The bytes of an image over translated keys, replica after replica. -/
def imageCells (keys : List Nat) (img : Nat) : List (Nat × Byte) :=
  (keys.zip (List.range keys.length)).map (fun x => (x.1, BitVec.ofNat 8 (leN img (x.2 % 128) 1)))

def State.retireReq? (s : State) (cmd : Nat) : Option RetireReq := s.remuda.retires.find? (fun r => r.cmd == cmd)

/-- A retirement takes effect: stalls dropped, the image written for the RETIRE that named it, and the entry FREE or in HANDOFF (R254).
`img` holds the state it had or would have had. -/
def State.retire (s : State) (t ix img : Nat) (by' : Option Nat) (hand : Bool) : State × Nat :=
  let d := s.emptyList t ix
  let req := by'.bind d.1.retireReq?
  let s1 := match req with
    | some r => (match (List.range r.entries.length).find? (fun k => r.entries.getD k 4096 == ix) with
      | some k => d.1.withMem (d.1.mem.store (imageCells (r.outs.getD k []) img))
      | none => d.1)
    | none => d.1
  let e := s1.entry ix
  let s2 := if hand then s1.setEntry ix { e with image := withState img stHandoff, retireBy := none } else s1.setEntry ix Entry.free
  (s2.syncRemuda t, d.2)

def State.addRun (s : State) (f : Nat → Run) : State :=
  { s with remuda := { s.remuda with runs := s.remuda.runs ++ [f s.remuda.nextRun], nextRun := s.remuda.nextRun + 1 } }

def State.endWait (s : State) (id : Nat) : State :=
  match s.cmd? id with | some c => s.setCmd { c with wait := Wait.none } | none => s

def cmdOrigin (s : State) (id : Nat) : Nat × Nat := match s.cmd? id with | some c => s.srcOrigin c.src | none => (0, 0)

/-- A RETIRE whose entries have all been retired runs its hand-off batch, or ends (R254). -/
def State.finishRetires (s : State) : State :=
  s.remuda.retires.foldl (fun (acc : State) r =>
    if r.entries.any (fun ix => (acc.entry ix).retireBy == some r.cmd) then acc
    else
      let s1 := { acc with remuda := { acc.remuda with retires := acc.remuda.retires.filter (fun x => x.cmd != r.cmd) } }
      if r.handoff && le r.desc 24 8 != 0 then
        s1.addRun (fun id => newRun id r.tenant (imgPen ((s1.entry (r.entries.headD 0)).image)) true (some r.cmd) r.desc false (cmdOrigin s1 r.cmd) none
          (sortBy (fun x => x) r.entries))
      else s1.endWait r.cmd) s

/-- The shares waiting for a parent's boundary are taken (R221, R252); an ADMIT with none left can end. -/
def State.shareChildren (s : State) (t parent : Nat) : State :=
  let mine := fun (a : AdmitReq) => a.shares.filter (fun p => a.tenant == t && p.2 == parent)
  let s1 := s.remuda.admits.foldl (fun (acc : State) a => (mine a).foldl (fun (acc : State) p => acc.share t p.1 parent) acc) s
  let left := s1.remuda.admits.map (fun (a : AdmitReq) => { a with shares := a.shares.filter (fun p => !(a.tenant == t && p.2 == parent)) })
  let s2 := { s1 with remuda := { s1.remuda with admits := left } }
  left.foldl (fun (acc : State) (a : AdmitReq) => if a.shares.isEmpty then acc.endWait a.cmd else acc) s2

/-! ## Commit -/

/-- An entry's image after a successful step (R242). -/
def commitImage (desc : List Byte) (img n : Nat) (finish : Bool) (spend : Acx) (reused : Nat) : Flagged Nat :=
  let i1 := setLeN img 8 4 (imgStep img + 1)
  let i2 := if imgKind img = 2 then setLeN i1 20 4 (imgLength img + n) else i1
  let f1 := setBits (setBits (imgFlags img) 1 1 (1 - imgCur img)) 4 2 ((imgHistHead img + 1) % (penHistDepth desc + 1))
  let f2 := if finish then setBits f1 3 1 1 else f1
  let i3 := setLeN (setLeN i2 5 1 f2) 6 1 0
  let g := if gateEnabled desc then gateCommit desc i3 spend reused else (i3, 0)
  (withState g.1 (if imgStep img + 1 = imgTotal img ∨ finish then stFinished else stIdle), g.2)

/-- How many bytes of HBM and of paddock a list of byte numbers takes. -/
def hbmOf (keys : List Nat) : Nat := (keys.filter (fun k => decide (k < 2 ^ 60))).length
def paddockOf (keys : List Nat) : Nat := (keys.filter (fun k => decide (2 ^ 60 ≤ k) && decide (k < 2 ^ 64))).length

/-- The bytes a HOLD copy of `slots` slots reads, as byte numbers (R248). -/
def State.holdReads (s : State) (r : Run) (slots : Nat) : List Nat :=
  s.runKeys (some r.tenant) (holdBase r.desc r.handoff r.bound, slots * (penRows r.desc * latRowBytes r.desc))

/-- The HOLD rows of one slot as cells of its LAT_NEXT. -/
def State.holdSlot (s : State) (r : Run) (k : Nat) : Except AccFault (List (Nat × Byte)) := do
  let n := penRows r.desc * latRowBytes r.desc
  let img := (s.entry (r.batch.getD k 4096)).image
  let b ← s.readVa (some r.tenant) (holdBase r.desc r.handoff r.bound + k * n) n
  s.cellsVa (some r.tenant) (imgLat img (1 - imgCur img)) b

/-- The slots whose copy goes well before the first fault, and that fault. -/
def State.holdCopies (s : State) (r : Run) : List Nat → List (Nat × Byte) → List (Nat × Byte) × Option AccFault
  | [], acc => (acc, none)
  | k :: ks, acc => match s.holdSlot r k with
    | .ok w => s.holdCopies r ks (acc ++ w)
    | .error f =>
      let img := (s.entry (r.batch.getD k 4096)).image
      (acc ++ (s.runKeys (some r.tenant) (imgLat img (1 - imgCur img), penRows r.desc * latRowBytes r.desc)).map (fun x => (x, (0 : Byte))), some f)

/-- The end of a step for its stalls: shares, pins, drops and windows, then its retirements; what returned is signalled once (R221, R230). -/
def State.boundary (s : State) (r : Run) (retiring : List (Nat × Nat × Option Nat × Bool)) (window : Option Nat) : State :=
  let s0 := r.batch.foldl (fun (acc : State) ix => acc.shareChildren r.tenant ix) s
  let a := s0.unpin r.tenant r.pinned
  let b := a.1.applyDrops r.tenant (r.copies.map (fun x => x.1))
  let c := match window with
    | some w => r.batch.foldl (fun (acc : State × Nat) ix =>
        let x := acc.1.applyWindow r.tenant ix (imgLength (acc.1.entry ix).image) w
        (x.1, acc.2 + x.2)) (b.1, 0)
    | none => (b.1, 0)
  let d := retiring.foldl (fun (acc : State × Nat) x =>
    let y := acc.1.retire r.tenant x.1 x.2.1 x.2.2.1 x.2.2.2
    (y.1, acc.2 + y.2)) (c.1, 0)
  (d.1.returned r.tenant (a.2 + b.2 + c.2 + d.2)).finishRetires

/-- What a pending RETIRE will do with an entry. -/
def State.pendingHand (s : State) (e : Entry) : Bool :=
  match e.retireBy.bind s.retireReq? with | some q => q.handoff && le q.desc 24 8 != 0 | none => false

/-- A STEP whose program failed, or whose HOLD copy did: LAST_STATUS only, and the pending retirements (R242). -/
def State.commitFails (s : State) (r : Run) (status detail : Nat) (f : Option AccFault) : State :=
  let imgs := r.batch.map (fun ix => (ix, withState (setLeN (s.entry ix).image 6 1 status) stIdle))
  let pending := imgs.filterMap (fun x => let e := s.entry x.1; if e.retireBy.isSome then some (x.1, x.2, e.retireBy, s.pendingHand e) else none)
  let s1 := imgs.foldl (fun (acc : State) x => acc.setImage x.1 x.2) s
  let s2 := ((s1.setRun { r with phase := 2, holdsRoom := false }).releaseRoom r).boundary r pending none
  match r.cmd with
  | some id => (match s2.cmd? id with
    | some c => s2.setCmd { c with status := status, detail := detail, fault := f, wait := Wait.none, flags := c.flags ||| r.flags, writes := [], digest := [] }
    | none => s2)
  | none => s2

/-- The Commit of a STEP whose program succeeded (R242). -/
def State.commitOk (s : State) (r : Run) : State :=
  let n := r.appended.getD 0
  let slots := List.range r.batch.length
  let made := slots.map (fun k =>
    let ix := r.batch.getD k 4096
    let img := (s.entry ix).image
    let c := commitImage r.desc img n (r.finish.contains k) (Store.get (acxZero false) r.spend k) ((r.reuse.filter (fun x => x.2.1 == k)).length)
    (ix, c.1, c.2))
  let auto := fun (ix img : Nat) => imgState img == stFinished && imgAutoRetire img && ((s.entry ix).retireBy.isNone)
  let hand := le r.desc 24 8 != 0
  let retiring := made.filterMap (fun x =>
    let e := s.entry x.1
    if e.retireBy.isSome then some (x.1, x.2.1, e.retireBy, s.pendingHand e)
    else if auto x.1 x.2.1 then some (x.1, x.2.1, none, hand) else none)
  let handed := if hand then (made.filter (fun x => auto x.1 x.2.1)).map (fun x => x.1) else []
  let s1 := made.foldl (fun (acc : State) x => acc.setEntry x.1 { acc.entry x.1 with image := x.2.1, order := r.penStep }) s
  let recs := made.flatMap (fun x => toLe 128 x.2.1)
  let s2 := match s1.cellsVa (some r.tenant) (penWl r.desc false + 256) recs with | .ok w => s1.withMem (s1.mem.store w) | .error _ => s1
  let s3 := (s2.setRun { r with phase := 2, holdsRoom := false }).boundary r retiring r.dropWindow
  let s4 := if handed.isEmpty then s3.releaseRoom r
    else s3.addRun (fun id => newRun id r.tenant r.pen true none r.desc r.holdsRoom r.origin r.cmd handed)
  match r.cmd.bind s4.cmd? with
  | some c => s4.setCmd { c with wait := Wait.none, flags := c.flags ||| r.flags, endFlags := c.endFlags ||| r.own ||| orFlags (made.map (fun x => x.2.2)), digest := r.digest }
  | none => s4

/-- STEP_COMMIT (R238, R242, R248). -/
def State.stepCommit (s : State) (id : Nat) : State :=
  match s.run? id with
  | none => s
  | some r =>
    if r.handoff || r.phase != 1 || !r.opened.isEmpty || (r.failed.isNone && r.next != r.total) || s.runStands r then s
    else match r.failed with
      | some f => s.commitFails r f.2.1 f.2.2 none
      | none =>
        if !r.hold then s.commitOk r
        else
          let h := s.holdCopies r (List.range r.batch.length) []
          match h.2 with
          | some f =>
            let v := s.free
            (v.2.withMem (v.2.mem.store (freeCells v.1 (h.1.map (fun x => x.1))))).commitFails r f.fail.status f.fail.detail (some f)
          | none =>
            let keys := s.holdReads r r.batch.length ++ h.1.map (fun x => x.1)
            let key := match r.cmd.bind s.cmd? with | some c => cmdKey c.bytes | none => 0
            ((s.withMem (s.mem.store h.1)).chargeBytes (some r.tenant) key (paddockOf keys) (hbmOf keys)).commitOk r

/-! ## Hand-off -/

/-- A hand-off batch that cannot run: it ends with that failure. -/
def State.handFails (s : State) (r : Run) (f : Fail) : State :=
  let s1 := s.setRun { r with phase := 1, total := 0, failed := some (0, f.status, f.detail) }
  match r.cmd.bind s1.cmd?, f.fault with
  | some c, flt => s1.setCmd { c with fault := flt }
  | none, some flt => s1.faultInfo (some r.tenant) r.origin.1 flt
  | none, none => s1

/-- HANDOFF_BATCH_START (R255, R256): the work list at HANDOFF_WL_ADDR, then the HANDOFF_SET program. In a partition left with no active
stable the batch fails (R46, R485). -/
def State.handoffStart (s : State) (id : Nat) : State :=
  match s.run? id with
  | none => s
  | some r =>
    if !r.handoff || r.phase != 0 || !s.mayStart r then s
    else if noStables (s.tenantQuarters (some r.tenant)) then s.handFails r ⟨stContained, 4, none⟩
    else match s.bucketsAt (some r.tenant) (le r.desc 24 8) with
      | .error f => s.handFails r f.fail
      | .ok set =>
        let images := r.batch.map (fun ix => setLeN (s.entry ix).image 8 4 0)
        match s.layOut r set r.batch images with
        | .ok s1 => s1
        | .error f => s.handFails r f

/-- The record of an auto hand-off batch would overwrite an unconsumed one: it waits for room (R134, R255). -/
def State.recordBlocked (s : State) (r : Run) : Bool :=
  let q := handoffQueue r.tenant r.desc
  r.cmd.isNone && (s.queue q).state != 0 && decide (cqSize (s.queueCfg q) ≤ (s.queue q).unread)

/-- HANDOFF_BATCH_COMPLETE: the entries become FREE; the record goes to HANDOFF_QUEUE, or the RETIRE ends with the batch's outcome
(R254, R255, R256). -/
def State.handoffComplete (s : State) (id : Nat) : State :=
  match s.run? id with
  | none => s
  | some r =>
    if !r.handoff || r.phase != 1 || !r.opened.isEmpty || (r.failed.isNone && r.next != r.total) || s.runStands r || s.recordBlocked r then s
    else
      let s1 := (r.batch.foldl (fun (acc : State) ix => acc.setEntry ix Entry.free) s).syncRemuda r.tenant
      let s2 := ((s1.count oRemudaHandoffs 1).dropRun id).releaseRoom r
      let st := match r.failed with | some f => f.2.1 | none => stSuccess
      let det := match r.failed with | some f => f.2.2 | none => 0
      match r.cmd with
      | some cid => (match s2.cmd? cid with
        | some c => s2.setCmd { c with status := st, detail := det, flags := c.flags ||| r.flags, endFlags := c.endFlags ||| r.own, wait := Wait.none }
        | none => s2)
      | none => s2.putRecord (handoffQueue r.tenant r.desc) (le r.desc 52 4) st (if st = stSuccess then r.flags ||| r.own else r.flags) det 0 false

/-! ## RETIRE -/

def retireEntries (b : List Byte) (s : State) (c : Ctx) : Except AccFault (List Nat) := s.readArray c (le b 88 8) 2 (le b 96 2)

/-- The lowest reason at the lowest index (R254). -/
def State.retireFail (s : State) (t : Nat) (ids : List Nat) (hand : Bool) : Option Fail :=
  let pen := fun (ix : Nat) => imgPen (s.entry ix).image
  let reason := fun (k : Nat) =>
    let ix := ids.getD k 4096
    let e := s.entry ix
    let st := imgState e.image
    if !s.inRange t ix || (ids.take k).contains ix then 1
    else if st = stFree then 2 else if st = stHandoff then 3 else if st = stPending then 4
    else if hand && pen ix != pen (ids.headD 0) then 5 else 0
  match (List.range ids.length).find? (fun k => reason k != 0) with
  | some k => some ⟨stObjectState, k % 4096 + reason k * 4096, none⟩
  | none => none

def planRetire (s : State) (e : Env) : Plan :=
  let hand := bit (e.f 98 1) 0
  let t := e.ctx.getD 0
  let pen := if hand && e.f 108 8 != 0 && e.f 108 8 % 64 == 0 then s.penChecks e.ctx (e.f 108 8) else (Checks.none, [])
  let work : Except Fail Work := do
    let ids ← (match retireEntries e.cmd s e.ctx with | .ok l => .ok l | .error f => .error f.fail)
    let _ ← (if e.f 100 8 = 0 then (.ok [] : Except Fail (List (Nat × Byte))) else match s.cellsVa e.ctx (e.f 100 8) (List.replicate (128 * e.f 96 2) 0) with
      | .ok w => .ok w | .error f => .error f.fail)
    match s.retireFail t ids hand with
    | some f => .error f
    | none => .ok { Work.none with wait := Wait.step 0 }
  (allChecks [need 0 88 (e.f 88 8 % 2 == 0), need 0 96 (decide (1 ≤ e.f 96 2) && decide (e.f 96 2 ≤ 4096)), need 0 98 (decide (e.f 98 1 < 2)), need 0 99 (e.f 99 1 == 0),
    need 0 100 (e.f 100 8 % 128 == 0), need 0 108 (if hand then e.f 108 8 != 0 && e.f 108 8 % 64 == 0 else e.f 108 8 == 0), need 0 116 (e.f 116 12 == 0), pen.1], work)

/-- A RETIRE that passed its checks: IDLE and FINISHED entries go at once, IN_STEP entries at their step's boundary (R254). -/
def launchRetire (s : State) (e : Env) (id : Nat) : State :=
  match e.ctx, retireEntries e.cmd s e.ctx with
  | some t, .ok ids =>
    let hand := bit (e.f 98 1) 0
    let desc := if hand then (match s.readVa e.ctx (e.f 108 8) 640 with | .ok d => d | .error _ => []) else []
    let outs := if e.f 100 8 = 0 then [] else (List.range ids.length).map (fun k => s.runKeys e.ctx (e.f 100 8 + 128 * k, 128))
    let s1 := { s with remuda := { s.remuda with retires := s.remuda.retires ++ [⟨id, t, ids, outs, hand, desc⟩] } }
    let toHand := hand && le desc 24 8 != 0
    let r := ids.foldl (fun (acc : State × Nat) ix =>
      let en := acc.1.entry ix
      if imgState en.image = stInStep then (acc.1.setEntry ix { en with image := withState en.image stPending, retireBy := some id }, acc.2)
      else
        let x := acc.1.retire t ix en.image (some id) toHand
        (x.1, acc.2 + x.2)) (s1, 0)
    (r.1.returned t r.2).finishRetires
  | _, _ => s

end Sys2Proof.Machine
end

