-- ==== Sys2Proof/Machine/Admit.lean ====
section
/-! DEFINITION. ADMIT and the built-in Course generators (R251 to R253). -/

namespace Sys2Proof.Machine

/-! ## Course generators (Table 09-11) -/

abbrev FA := Flagged Acx

def fa (x : Acx) : FA := (x, 0)
def FA.op2 (f : Acx → Acx → FA) (x y : FA) : FA := Flagged.bind x (fun a => Flagged.bind y (fun b => f a b))
def FA.add : FA → FA → FA := FA.op2 acxAdd
def FA.sub : FA → FA → FA := FA.op2 acxSub
def FA.mul : FA → FA → FA := FA.op2 acxMul
def FA.div : FA → FA → FA := FA.op2 (boundedDiv 0x0F 2)
def FA.min' : FA → FA → FA := FA.op2 acxMin
def FA.neg (x : FA) : FA := Flagged.bind x acxNeg
def FA.sqrt (x : FA) : FA := Flagged.bind x (boundedRoot 0x0E false)
def FA.exp (x : FA) : FA := Flagged.bind x acxExp
def FA.ln (x : FA) : FA := Flagged.bind x (acxLog 0x12)
def FA.sq (x : FA) : FA := FA.mul x x

/-- One triple of a schedule, as FP32 codes. -/
structure Sched where
  a : Nat
  s : Nat
  t : Nat
deriving DecidableEq, Repr

def numOf (code : Nat) : Num := decodeElem 1 code
def posNum (x : Num) : Bool := ltNum (.fin false 0 0) x
def isZeroCode (code : Nat) : Bool := (numOf code).isZero

/-- The lowest index at which a schedule breaks Table 09-11 (R252 reason 5). -/
def schedBad (gen n : Nat) (l : List Sched) : Option Nat :=
  let at' := fun k => l.getD k ⟨0, 0, 0⟩
  let one : Num := .fin false 1 0
  let ok := fun k =>
    let x := at' k
    let y := at' (k + 1)
    let last := k == n
    match gen with
    | 1 => posNum (numOf x.a) && (last || (posNum (numOf x.s) && leNum (numOf x.a) (numOf y.a)))
    | 2 | 3 | 4 => eqNum (numOf x.a) one && (last || ltNum (numOf y.s) (numOf x.s))
    | 5 => posNum (numOf x.a) && (last || (posNum (numOf x.s) && leNum (.fin false 0 0) (numOf y.s)
        && ltNum (mulNum (numOf x.a) (numOf y.s)).1 (mulNum (numOf y.a) (numOf x.s)).1))
    | _ => leNum (numOf x.s) one && leNum (.fin false 0 0) (numOf x.s) && (last || ltNum (numOf y.s) (numOf x.s))
  (List.range (n + 1)).find? (fun k => !ok k)

/-- A Course row to be written: (term, coefficient) pairs, T, DX and DE. -/
structure GenRow where
  terms : List (Nat × FA)
  t : Nat
  dx : FA
  de : FA
deriving DecidableEq, Repr

def fzero : FA := fa (acxZero false)
def fone : FA := fa acxOne

/-- The rows of solver step k (Table 09-11). -/
def genRows (gen n eta clamp : Nat) (l : List Sched) (k : Nat) : List GenRow :=
  let x := l.getD k ⟨0, 0, 0⟩
  let y := l.getD (k + 1) ⟨0, 0, 0⟩
  let f := fun c => fa (fp32Acx c)
  let a := f x.a
  let s := f x.s
  let a' := f y.a
  let s' := f y.s
  let e := f eta
  let h := FA.sub s' s
  let row := fun (terms : List (Nat × FA)) (t : Nat) => (⟨terms, t, fzero, fzero⟩ : GenRow)
  let heun := fun (corr : Bool) => row [(0, fone), (2, h)] x.t
      :: (if corr then [row [(1, fone), (3, FA.div h (fa (acxNat 2))), (2, FA.div h (fa (acxNat 2)))] y.t] else [])
  match gen with
  | 1 =>
    let sg := FA.mul (FA.mul e (FA.div s' s)) (FA.sqrt (FA.sub fone (FA.div (FA.sq a) (FA.sq a'))))
    let root := FA.sqrt (FA.sub (FA.sq s') (FA.sq sg))
    let z := if posNum sg.1.toNum then [(6, sg)] else []
    if posNum (numOf clamp) then [⟨[(7, a'), (2, root)] ++ z, x.t, FA.div fone a, FA.div (FA.neg s) a⟩]
    else [row ([(0, FA.div a' a), (2, FA.sub root (FA.div (FA.mul a' s) a))] ++ z) x.t]
  | 2 => [row [(0, fone), (2, h)] x.t]
  | 3 =>
    let u := FA.min' s' (FA.mul e (FA.sqrt (FA.div (FA.mul (FA.sq s') (FA.sub (FA.sq s) (FA.sq s'))) (FA.sq s))))
    [row ([(0, fone), (2, FA.sub (FA.sqrt (FA.sub (FA.sq s') (FA.sq u))) s)] ++ (if posNum u.1.toNum then [(6, u)] else [])) x.t]
  | 4 => heun (!(k + 1 == n && isZeroCode y.s))
  | 5 =>
    let lam := fun (p q : FA) => FA.ln (FA.div p q)
    let last := isZeroCode y.s
    let b := if last then a' else FA.mul a' (FA.sub fone (FA.exp (FA.neg (FA.sub (lam a' s') (lam a s)))))
    if k = 0 ∨ last then [row [(0, FA.add (FA.div s' s) (FA.div b a)), (2, FA.div (FA.mul (FA.neg b) s) a)] x.t]
    else
      let p := l.getD (k - 1) ⟨0, 0, 0⟩
      let w := FA.div (FA.sub (lam a' s') (lam a s)) (FA.mul (fa (acxNat 2)) (FA.sub (lam a s) (lam (f p.a) (f p.s))))
      let w1 := FA.add fone w
      [row [(0, FA.add (FA.div s' s) (FA.div (FA.mul b w1) a)), (2, FA.div (FA.mul (FA.mul (FA.neg b) w1) s) a),
            (1, FA.div (FA.mul (FA.neg b) w) (f p.a)), (3, FA.div (FA.mul (FA.mul b w) (f p.s)) (f p.a))] x.t]
  | 6 => [row [(0, fone), (2, h)] x.t]
  | _ => heun true

/-- One row's 64 bytes, each coefficient rounded once to FP32 (R253). -/
def GenRow.bytes (r : GenRow) : Flagged (List Byte) :=
  let rd := fun (v : FA) => Flagged.bind v toFp32
  let c := (List.range 8).map (fun i => match r.terms.find? (fun p => p.1 == i) with | some p => rd p.2 | none => ((0, 0) : Flagged Nat))
  let dx := rd r.dx
  let de := rd r.de
  let mask := ((r.terms.map (fun p => 2 ^ p.1))).sum
  (c.flatMap (fun x => toLe 4 x.1) ++ toLe 4 dx.1 ++ toLe 4 de.1 ++ toLe 4 0x3F800000 ++ toLe 4 r.t ++ toLe 1 mask ++ toLe 15 0,
    orFlags (c.map (fun x => x.2)) ||| dx.2 ||| de.2)

/-- The Course a generator writes. -/
def genCourse (gen n eta clamp : Nat) (l : List Sched) : Flagged (List Byte) :=
  let rows := ((List.range n).flatMap (genRows gen n eta clamp l)).map GenRow.bytes
  (toLe 1 1 ++ toLe 1 gen ++ toLe 2 rows.length ++ toLe 4 clamp ++ toLe 56 0 ++ rows.flatMap (fun x => x.1), orFlags (rows.map (fun x => x.2)))

/-! ## ADMIT -/

/-- A record keeps Table 09-1; `steps`: STEPS of its Course where the header keeps Table 09-7. -/
def recordOk (r : Nat) (steps : Option Nat) : Bool :=
  let kind := imgKind r
  (kind == 1 || kind == 2) && imgState r == 0 && decide (imgFlags r < 2) && leN r 6 1 == 0 && leN r 7 1 == 0
    && decide (imgStep r < imgTotal r) && fp32Finite (imgGuidance r) && leN r 20 4 == 0 && imgGateAddr r % 4096 == 0
    && leN r 96 8 == 0 && leN r 106 2 == 0 && leN r 112 16 == 0
    && (if kind = 2 then imgCourse r == 0 && imgLat r 1 == 0
        else imgCourse r != 0 && imgCourse r % 64 == 0 && (match steps with | some n => decide (imgTotal r ≤ n) | none => false))

/-- The records and, for each, its Course's STEPS, as the ADMIT reads them after generating (R252). -/
def State.admitRecords (s : State) (c : Ctx) (addr n : Nat) : Except AccFault (List (Nat × Option Nat)) :=
  (List.range n).mapM (fun i => do
    let b ← s.readVa c (addr + 128 * i) 128
    let r := ofLe b
    if imgKind r = 1 ∧ imgCourse r ≠ 0 ∧ imgCourse r % 64 = 0 then
      let h ← s.readVa c (imgCourse r) 64
      return (r, if courseHeaderOk h then some (le h 2 2) else none)
    else return (r, none))

/-- The lowest reason at the lowest record (R252). -/
def State.admitFail (s : State) (t : Nat) (recs : List (Nat × Option Nat)) : Option (Nat × Nat) :=
  let ids := recs.map (fun r => leN r.1 0 2)
  let reason := fun (k : Nat) =>
    let r := recs.getD k (0, none)
    let ix := ids.getD k 4096
    let e := s.entry ix
    let p := imgParent r.1
    let pe := s.entry p
    if !s.inRange t ix || (ids.take k).contains ix then 1
    else if imgState e.image != stFree || e.heldBy.isSome then 2
    else if !recordOk r.1 r.2 then 3
    else if p != 0xFFFF && (imgKind r.1 != 2 || !s.inRange t p || imgState pe.image == stFree || imgKind pe.image != 2) then 4 else 0
  ((List.range recs.length).find? (fun k => reason k != 0)).map (fun k => (k, reason k))

def planAdmit (s : State) (e : Env) : Plan :=
  let gen := e.f 98 1
  let n := e.f 108 2
  let on := gen != 0
  let eta := numOf (e.f 100 4)
  let zero : Num := .fin false 0 0
  let checks := allChecks
    [need 0 88 (e.f 88 8 % 128 == 0), need 0 96 (decide (1 ≤ e.f 96 2) && decide (e.f 96 2 ≤ 256)), need 0 98 (decide (gen ≤ 7)), need 0 99 (e.f 99 1 == 0),
     need 0 100 (if gen = 1 ∨ gen = 3 then leNum zero eta && leNum eta (.fin false 1 0) else e.f 100 4 == 0),
     need 0 104 (on || e.f 104 4 == 0),
     need 0 108 (if on then decide (1 ≤ n) && decide (n ≤ 2048) else n == 0), need 0 110 (e.f 110 2 == 0),
     need 0 112 (if on then e.f 112 8 % 4 == 0 else e.f 112 8 == 0), need 0 120 (if on then e.f 120 8 % 64 == 0 else e.f 120 8 == 0)]
  let work : Except Fail Work := do
    let course ← (if !on then .ok (([] : List (Nat × Byte)), (0 : Flags)) else
      match s.readVa e.ctx (e.f 112 8) (12 * (n + 1)) with
      | .error f => .error f.fail
      | .ok b =>
        let l := (List.range (n + 1)).map (fun k => (⟨le b (12 * k) 4, le b (12 * k + 4) 4, le b (12 * k + 8) 4⟩ : Sched))
        match schedBad gen n l with
        | some k => .error ⟨stObjectState, k % 4096 + 5 * 4096, none⟩
        | none =>
          let g := genCourse gen n (e.f 100 4) (e.f 104 4) l
          match s.cellsVa e.ctx (e.f 120 8) g.1 with
          | .ok w => .ok (w, g.2)
          | .error f => .error f.fail)
    let _ ← (match (s.withMem (s.mem.store course.1)).admitRecords e.ctx (e.f 88 8) (e.f 96 2) with
      | .ok r => (.ok r : Except Fail (List (Nat × Option Nat))) | .error f => .error f.fail)
    return { Work.none with writes := course.1, flags := course.2 }
  (checks, work)

/-- An ADMIT that passed its field checks: its records are checked, its entries held and its shares taken or awaited (R252). -/
def launchAdmit (s : State) (e : Env) (id : Nat) : State :=
  match e.ctx, s.cmd? id with
  | some t, some c =>
    (match (s.withMem (s.mem.store c.writes)).admitRecords e.ctx (e.f 88 8) (e.f 96 2) with
    | .error _ => s
    | .ok recs =>
      match s.admitFail t recs with
      | some f => s.setCmd { c with status := stObjectState, detail := f.1 % 4096 + f.2 * 4096 }
      | none =>
        let imgs := recs.map (fun r => r.1)
        let s1 := imgs.foldl (fun (acc : State) r => acc.setEntry (leN r 0 2) { Entry.free with heldBy := some id }) s
        let busy := fun (p : Nat) => let st := imgState (s.entry p).image; st == stInStep || st == stPending
        let kids := (imgs.filter (fun r => imgParent r != 0xFFFF)).map (fun r => (leN r 0 2, imgParent r))
        let s2 := (kids.filter (fun p => !busy p.2)).foldl (fun (acc : State) p => acc.share t p.1 p.2) s1
        let wait := kids.filter (fun p => busy p.2)
        let s3 := { s2 with remuda := { s2.remuda with admits := s2.remuda.admits ++ [⟨id, t, imgs, wait⟩] } }
        if wait.isEmpty then s3 else s3.setCmd { c with wait := Wait.step 0 })
  | _, _ => s

/-- At the ADMIT's completion every admitted entry becomes IDLE (R252, R545). -/
def State.admitDone (s : State) (id : Nat) : State :=
  match s.remuda.admits.find? (fun a => a.cmd == id) with
  | none => s
  | some a =>
    let s1 := a.images.foldl (fun (acc : State) r =>
      let ix := leN r 0 2
      let e := acc.entry ix
      let img := withState (setLeN r 20 4 (imgLength e.image)) stIdle
      acc.setEntry ix { e with image := img, order := Store.get 0 acc.remuda.penSteps (256 * a.tenant + imgPen r), heldBy := none }) s
    { s1 with remuda := { s1.remuda with admits := s1.remuda.admits.filter (fun x => x.cmd != id) } }.syncRemuda a.tenant

end Sys2Proof.Machine
end

