-- ==== Sys2Proof/Machine/Bitstream.lean ====
section
/-! DEFINITION. The forms of a bitstream (Table 11-2) with the profiles and tools of Table 11-1 in their headers: HEVC as an Annex B byte
stream, AV1 as OBUs, JPEG as marker segments; written by the encoders (R284, R286, R291) and read by the decoders (R285). The syntax is
that of the standards the spec names (log entry 109); what a revision of an encoder chooses in it is `choice` (R325). -/

namespace Sys2Proof.Machine

/-! ## Bits, most significant first -/

def bitsBE (n v : Nat) : List Bool := (List.range n).map (fun i => v.testBit (n - 1 - i))
def beBytes (n v : Nat) : List Byte := (toLe n v).reverse

/-- Unsigned Exp-Golomb code. -/
def ueBits (v : Nat) : List Bool := List.replicate (bitLen (v + 1) - 1) false ++ bitsBE (bitLen (v + 1)) (v + 1)

def ofBitsBE (l : List Bool) : Nat := l.foldl (fun a b => 2 * a + b2n b) 0

/-- Bytes of a bit string, zeros after its end. -/
def packBits (l : List Bool) : List Byte :=
  (List.range (ceilDiv l.length 8)).map (fun i => BitVec.ofNat 8 (ofBitsBE ((List.range 8).map (fun k => l.getD (8 * i + k) false))))

/-- Trailing bits of a payload: a one and zeros up to a byte. -/
def closeBits (l : List Bool) : List Byte := packBits (l ++ [true])

/-- Bits [at, at + n) of a byte string. -/
def bitsAt (b : List Byte) (at' n : Nat) : Nat := ofBitsBE ((List.range n).map (fun i => (b.getD ((at' + i) / 8) 0).toNat.testBit (7 - (at' + i) % 8)))

/-- A choice an encoder's revision makes where Table 11-1 leaves one: below `n`. -/
def choice (codec rev i n : Nat) : Nat := Config.codecFn 6 [codec, rev, i] % max n 1

/-! ## HEVC: Annex B (Table 11-2) -/

/-- Emulation prevention: a 03 before a byte of 3 or less that two zeros precede; `z`: the zeros just before. -/
def escapeFrom : Nat → List Byte → List Byte
  | _, [] => []
  | z, b :: bs =>
    if 2 ≤ z ∧ b.toNat ≤ 3 then 3 :: b :: escapeFrom (if b = 0 then 1 else 0) bs
    else b :: escapeFrom (if b = 0 then z + 1 else 0) bs

def unescapeFrom : Nat → List Byte → List Byte
  | _, [] => []
  | z, b :: bs => if 2 ≤ z ∧ b = 3 then unescapeFrom 0 bs else b :: unescapeFrom (if b = 0 then z + 1 else 0) bs

/-- Zeros at the end of a byte string. -/
def tailZeros (l : List Byte) : Nat := (l.reverse.takeWhile (fun b => b == 0)).length

def nalVps : Nat := 32
def nalSps : Nat := 33
def nalPps : Nat := 34
def nalIdr : Nat := 20
def nalTrail : Nat := 1

/-- A NAL unit behind its start code, layer 0, temporal identifier 0. -/
def nalUnit (typ : Nat) (payload : List Byte) : List Byte := [0, 0, 0, 1, BitVec.ofNat 8 (2 * typ), 1] ++ escapeFrom 0 payload

/-- What a sequence's headers depend on. -/
structure SeqInfo where
  codec : Nat
  rev : Nat
  profile : Nat
  depth : Nat
  intra : Bool
  nref : Nat
  width : Nat
  height : Nat
  colour : Nat               -- COLOUR_SIGNAL: primaries, transfer, matrix, full-range flag
  fpsNum : Nat
  fpsDen : Nat
deriving DecidableEq, Repr

/-- Profile, tier and level, 96 bits; the level, thirty times its number, is at most 5.1 (Table 11-1). -/
def profileTierLevel (q : SeqInfo) : List Bool :=
  let idc := q.profile + 1
  bitsBE 3 0 ++ bitsBE 5 idc ++ (List.range 32).map (fun j => j == idc || j == 2) ++ [true, false, false, true] ++ bitsBE 44 0
    ++ bitsBE 8 ([30, 60, 63, 90, 93, 120, 123, 150, 153].getD (choice 0 q.rev 0 9) 153)

/-- Decoded-picture buffer of NREF references and the current picture; no reordering (R284). -/
def dpbBits (q : SeqInfo) : List Bool := [true] ++ ueBits q.nref ++ ueBits 0 ++ ueBits 0

def timingBits (q : SeqInfo) : List Bool := bitsBE 32 q.fpsDen ++ bitsBE 32 q.fpsNum ++ [false]

def vpsBytes (q : SeqInfo) : List Byte :=
  closeBits (bitsBE 4 0 ++ [true, true] ++ bitsBE 6 0 ++ bitsBE 3 0 ++ [true] ++ bitsBE 16 0xFFFF ++ profileTierLevel q ++ dpbBits q ++ bitsBE 6 0 ++ ueBits 0
    ++ [false] ++ [false])

/-- VUI: the colour description of COLOUR_SIGNAL and chroma sample location type 1 (R288), and the frame rate. -/
def vuiBits (q : SeqInfo) : List Bool :=
  [false, false, true] ++ bitsBE 3 5 ++ [bit (leN q.colour 3 1) 0, true] ++ bitsBE 8 (leN q.colour 0 1) ++ bitsBE 8 (leN q.colour 1 1) ++ bitsBE 8 (leN q.colour 2 1)
    ++ [true] ++ ueBits 1 ++ ueBits 1 ++ [false, false, false, false, true] ++ timingBits q ++ [false] ++ [false]

/-- Reference picture sets: for every count of past pictures up to NREF, the pictures just before. -/
def refSetBits (q : SeqInfo) : List Bool :=
  ueBits q.nref ++ (List.range q.nref).flatMap (fun i =>
    (if i = 0 then [] else [false]) ++ ueBits (i + 1) ++ ueBits 0 ++ (List.range (i + 1)).flatMap (fun _ => ueBits 0 ++ [true]))

/-- SPS: 4:2:0; CTU 64 × 64, CU 8 to 64, TU 4 to 32; no scaling lists, AMP or PCM; SAO; short-term references; temporal MVP. -/
def spsBytes (q : SeqInfo) : List Byte :=
  let w := alignUp q.width 8
  let h := alignUp q.height 8
  let crop := w != q.width || h != q.height
  closeBits (bitsBE 4 0 ++ bitsBE 3 0 ++ [true] ++ profileTierLevel q ++ ueBits 0 ++ ueBits 1 ++ ueBits w ++ ueBits h
    ++ (if crop then [true] ++ ueBits 0 ++ ueBits ((w - q.width) / 2) ++ ueBits 0 ++ ueBits ((h - q.height) / 2) else [false])
    ++ ueBits (q.depth - 8) ++ ueBits (q.depth - 8) ++ ueBits (choice 0 q.rev 1 13) ++ dpbBits q
    ++ ueBits 0 ++ ueBits 3 ++ ueBits 0 ++ ueBits 3 ++ ueBits (choice 0 q.rev 2 5) ++ ueBits (choice 0 q.rev 3 5)
    ++ [false, false, true, false] ++ refSetBits q ++ [false, true, choice 0 q.rev 4 2 == 1] ++ [true] ++ vuiBits q ++ [false])

/-- PPS: sign data hiding, transform skip, cu_qp_delta at 64 × 64, no weighted prediction, one tile, WPP, no scaling lists. -/
def ppsBytes (q : SeqInfo) : List Byte :=
  let c := fun (i : Nat) => choice 0 q.rev i 2 == 1
  closeBits (ueBits 0 ++ ueBits 0 ++ [false, false] ++ bitsBE 3 0 ++ [true, c 5] ++ ueBits (q.nref - 1) ++ ueBits (q.nref - 1) ++ ueBits (choice 0 q.rev 6 51)
    ++ [false, true, true] ++ ueBits 0 ++ ueBits (choice 0 q.rev 7 25) ++ ueBits (choice 0 q.rev 8 25) ++ [c 9, false, false, false, false, true]
    ++ [true, false, false, false] ++ ueBits (choice 0 q.rev 10 5) ++ [false, false])

/-- Everything before the coded rows of a HEVC frame: parameter sets on a key frame, and the start of its one slice. -/
def hevcHeader (q : SeqInfo) (key : Bool) (slice : List Byte) : List Byte :=
  (if key then nalUnit nalVps (vpsBytes q) ++ nalUnit nalSps (spsBytes q) ++ nalUnit nalPps (ppsBytes q) else [])
    ++ nalUnit (if key then nalIdr else nalTrail) slice

/-! ## AV1: OBUs (Table 11-2) -/

/-- An OBU header with a size field, no extension. -/
def obuHeader (typ : Nat) : Byte := BitVec.ofNat 8 (8 * typ + 2)

/-- A size as a five-byte leb128, so that its length does not depend on it. -/
def leb128 (v : Nat) : List Byte := (List.range 5).map (fun i => BitVec.ofNat 8 (v / 2 ^ (7 * i) % 128 + if i < 4 then 128 else 0))

def temporalDelimiter : List Byte := [obuHeader 2, 0]

/-- Sequence header: profile 0; for a still picture the reduced form; no 128 × 128 superblocks, and none of the tools Table 11-1 leaves out
(filter-intra, inter-intra, masked and distance-weighted compound, warped motion, temporal motion fields, superres, film grain); CDEF and loop
restoration on; colour config with COLOUR_SIGNAL and CSP_UNKNOWN (R288). -/
def seqHeaderBits (q : SeqInfo) : List Bool :=
  let c := fun (i : Nat) => choice 1 q.rev i 2 == 1
  let level := min 13 (choice 1 q.rev 0 14)
  bitsBE 3 0 ++ [q.intra, q.intra]
    ++ (if q.intra then bitsBE 5 level else [false, false] ++ bitsBE 5 0 ++ bitsBE 12 0 ++ bitsBE 5 level ++ (if 7 < level then [false] else []))
    ++ bitsBE 4 (bitLen (q.width - 1) - 1) ++ bitsBE 4 (bitLen (q.height - 1) - 1) ++ bitsBE (bitLen (q.width - 1)) (q.width - 1)
    ++ bitsBE (bitLen (q.height - 1)) (q.height - 1)
    ++ (if q.intra then [] else [false]) ++ [false, false, c 1]
    ++ (if q.intra then [] else [false, false, false, c 2, true, false, false, false, false] ++ bitsBE 3 (choice 1 q.rev 3 8))
    ++ [false, true, true] ++ [q.depth == 10, false, true] ++ bitsBE 8 (leN q.colour 0 1) ++ bitsBE 8 (leN q.colour 1 1) ++ bitsBE 8 (leN q.colour 2 1)
    ++ [bit (leN q.colour 3 1) 0] ++ bitsBE 2 0 ++ [c 4, false]

def seqHeaderObu (q : SeqInfo) : List Byte :=
  let b := closeBits (seqHeaderBits q)
  [obuHeader 1] ++ leb128 b.length ++ b

/-- Everything before the frame OBU of a temporal unit. -/
def av1Front (q : SeqInfo) (key : Bool) : List Byte := (if q.intra then [] else temporalDelimiter) ++ (if key then seqHeaderObu q else [])

/-! ## JPEG (Table 11-2): the tables of ITU-T T.81 Annex K -/

def jpegZigzag : List Nat :=
  [0, 1, 8, 16, 9, 2, 3, 10, 17, 24, 32, 25, 18, 11, 4, 5] ++ [12, 19, 26, 33, 40, 48, 41, 34, 27, 20, 13, 6, 7, 14, 21, 28]
    ++ [35, 42, 49, 56, 57, 50, 43, 36, 29, 22, 15, 23, 30, 37, 44, 51] ++ [58, 59, 52, 45, 38, 31, 39, 46, 53, 60, 61, 54, 47, 55, 62, 63]

/-- Table K.1, row by row. -/
def jpegLuma : List Nat :=
  [16, 11, 10, 16, 24, 40, 51, 61] ++ [12, 12, 14, 19, 26, 58, 60, 55] ++ [14, 13, 16, 24, 40, 57, 69, 56] ++ [14, 17, 22, 29, 51, 87, 80, 62]
    ++ [18, 22, 37, 56, 68, 109, 103, 77] ++ [24, 35, 55, 64, 81, 104, 113, 92] ++ [49, 64, 78, 87, 103, 121, 120, 101] ++ [72, 92, 95, 98, 112, 100, 103, 99]

/-- Table K.2, row by row. -/
def jpegChroma : List Nat :=
  [17, 18, 24, 47, 99, 99, 99, 99] ++ [18, 21, 26, 66, 99, 99, 99, 99] ++ [24, 26, 56, 99, 99, 99, 99, 99] ++ [47, 66, 99, 99, 99, 99, 99, 99]
    ++ List.replicate 32 99

/-- JPEG_QUALITY's scale (R291). -/
def jpegScale (q : Nat) : Nat := if q < 50 then 5000 / q else 200 - 2 * q

/-- An entry of an example table at a quality (R291). -/
def jpegQuant (q e : Nat) : Nat := min (max ((e * jpegScale q + 50) / 100) 1) 255

/-- A marker segment: marker, length and content. -/
def jpegSegment (marker : Nat) (b : List Byte) : List Byte := [0xFF, BitVec.ofNat 8 marker] ++ beBytes 2 (b.length + 2) ++ b

def jpegDqt (q : Nat) : List Byte :=
  let tab := fun (id : Nat) (l : List Nat) => BitVec.ofNat 8 id :: jpegZigzag.map (fun k => BitVec.ofNat 8 (jpegQuant q (l.getD k 0)))
  jpegSegment 0xDB (tab 0 jpegLuma ++ tab 1 jpegChroma)

/-- Frame header: baseline, 8 bits, three components; luma sampled twice as often where chroma has half its resolution. -/
def jpegSof (w h : Nat) (full : Bool) : List Byte :=
  jpegSegment 0xC0 ([8] ++ beBytes 2 h ++ beBytes 2 w ++ [3] ++ [1, if full then 0x11 else 0x22, 0] ++ [2, 0x11, 1] ++ [3, 0x11, 1])

/-- Tables K.3 to K.6: the counts of each code length, then the values. -/
def jpegDcLuma : List Byte := beBytes 16 0x00010501010101010100000000000000 ++ beBytes 12 0x000102030405060708090A0B
def jpegDcChroma : List Byte := beBytes 16 0x00030101010101010101010000000000 ++ beBytes 12 0x000102030405060708090A0B
def jpegAcLuma : List Byte :=
  beBytes 16 0x0002010303020403050504040000017D
    ++ beBytes 16 0x01020300041105122131410613516107 ++ beBytes 16 0x227114328191A1082342B1C11552D1F0
    ++ beBytes 16 0x2433627282090A161718191A25262728 ++ beBytes 16 0x292A3435363738393A43444546474849
    ++ beBytes 16 0x4A535455565758595A63646566676869 ++ beBytes 16 0x6A737475767778797A83848586878889
    ++ beBytes 16 0x8A92939495969798999AA2A3A4A5A6A7 ++ beBytes 16 0xA8A9AAB2B3B4B5B6B7B8B9BAC2C3C4C5
    ++ beBytes 16 0xC6C7C8C9CAD2D3D4D5D6D7D8D9DAE1E2 ++ beBytes 16 0xE3E4E5E6E7E8E9EAF1F2F3F4F5F6F7F8 ++ beBytes 2 0xF9FA
def jpegAcChroma : List Byte :=
  beBytes 16 0x00020102040403040705040400010277
    ++ beBytes 16 0x00010203110405213106124151076171 ++ beBytes 16 0x1322328108144291A1B1C109233352F0
    ++ beBytes 16 0x156272D10A162434E125F11718191A26 ++ beBytes 16 0x2728292A35363738393A434445464748
    ++ beBytes 16 0x494A535455565758595A636465666768 ++ beBytes 16 0x696A737475767778797A828384858687
    ++ beBytes 16 0x88898A92939495969798999AA2A3A4A5 ++ beBytes 16 0xA6A7A8A9AAB2B3B4B5B6B7B8B9BAC2C3
    ++ beBytes 16 0xC4C5C6C7C8C9CAD2D3D4D5D6D7D8D9DA ++ beBytes 16 0xE2E3E4E5E6E7E8E9EAF2F3F4F5F6F7F8 ++ beBytes 2 0xF9FA

def jpegDht : List Byte := jpegSegment 0xC4 ([0x00] ++ jpegDcLuma ++ [0x10] ++ jpegAcLuma ++ [0x01] ++ jpegDcChroma ++ [0x11] ++ jpegAcChroma)

/-- Luma rows of an MCU. -/
def mcuSize (full : Bool) : Nat := if full then 8 else 16

/-- Everything before the coded rows: SOI, DQT, SOF0, DHT, DRI with one restart interval per MCU row, SOS. -/
def jpegHeader (q w h : Nat) (full : Bool) : List Byte :=
  [0xFF, 0xD8] ++ jpegDqt q ++ jpegSof w h full ++ jpegDht ++ jpegSegment 0xDD (beBytes 2 (ceilDiv w (mcuSize full)))
    ++ jpegSegment 0xDA [3, 1, 0x00, 2, 0x11, 3, 0x11, 0, 63, 0]

/-- Byte stuffing of entropy-coded data. -/
def jpegStuff (l : List Byte) : List Byte := l.flatMap (fun b => if b = 0xFF then [0xFF, 0x00] else [b])

/-- The restart marker before MCU row m, none before the first. -/
def jpegRestart (m : Nat) : List Byte := if m = 0 then [] else [0xFF, BitVec.ofNat 8 (0xD0 + (m - 1) % 8)]

def jpegEnd : List Byte := [0xFF, 0xD9]

/-! ## What the decoders read of an input (R285, R286) -/

/-- What the decoder needs of a JPEG image's header: size and sampling factors. -/
structure StreamInfo where
  width : Nat
  height : Nat
  sampling : List (Nat × Nat)
deriving DecidableEq, Repr

def StreamInfo.none : StreamInfo := ⟨0, 0, []⟩

/-- Why decoding stops (R309) and at which byte. -/
structure StreamError where
  reason : Nat
  offset : Nat
deriving DecidableEq, Repr

/-- The NAL units of an Annex B byte stream with their offsets, trailing zeros left out. -/
def nalScan : List Byte → Nat → Nat → Option (Nat × List Byte) → List (Nat × List Byte)
  | [], _, _, cur => (cur.map (fun c => (c.1, (c.2.dropWhile (fun b => b == 0)).reverse))).toList
  | b :: bs, off, z, cur =>
    if b = 1 ∧ 2 ≤ z then (cur.map (fun c => (c.1, (c.2.dropWhile (fun x => x == 0)).reverse))).toList ++ nalScan bs (off + 1) 0 (some (off + 1, []))
    else nalScan bs (off + 1) (if b = 0 then z + 1 else 0) (cur.map (fun c => (c.1, b :: c.2)))

/-- The checks common to both NAL codecs: start codes, and in each unit its header with the forbidden bit 0. -/
def nalForm (b : List Byte) (head : Nat) : Except StreamError (List (Nat × List Byte)) :=
  match nalScan b 0 0 none with
  | [] => .error ⟨1, 0⟩
  | n :: ns =>
    if !((b.take (n.1 - 1)).all (fun x => x == 0)) then .error ⟨1, 0⟩
    else match (n :: ns).find? (fun u => decide (u.2.length ≤ head) || bit (le u.2 0 1) 7) with
      | some u => .error ⟨1, u.1⟩
      | none => .ok (n :: ns)

/-- An SPS of HEVC: Main or Main 10 by its profile or a compatibility flag, level 5.1 or below. -/
def hevcSupported (sps : List Byte) : Bool :=
  let p := unescapeFrom 0 (sps.drop 2)
  (decide (1 ≤ le p 1 1 % 32) && decide (le p 1 1 % 32 ≤ 2) || bitsAt p 17 1 == 1 || bitsAt p 18 1 == 1) && decide (le p 12 1 ≤ 153)

/-- An SPS of H.264: High, Main, or the constraint set they share; level 5.2 or below. -/
def avcSupported (sps : List Byte) : Bool :=
  let p := unescapeFrom 0 (sps.drop 1)
  (le p 0 1 == 100 || le p 0 1 == 77 || bit (le p 1 1) 6) && decide (le p 2 1 ≤ 52)

def hevcForm (b : List Byte) : Except StreamError StreamInfo := do
  let l ← nalForm b 2
  match l.find? (fun u => bits (le u.2 0 1) 1 6 == nalSps && !hevcSupported u.2) with
  | some u => .error ⟨2, u.1⟩
  | none => .ok StreamInfo.none

def avcForm (b : List Byte) : Except StreamError StreamInfo := do
  let l ← nalForm b 1
  match l.find? (fun u => le u.2 0 1 % 32 == 7 && !avcSupported u.2) with
  | some u => .error ⟨2, u.1⟩
  | none => .ok StreamInfo.none

/-- A leb128 value and the bytes it takes, at most eight. -/
def readLeb : Nat → List Byte → Option (Nat × Nat)
  | 0, _ => none
  | _, [] => none
  | k + 1, b :: bs => if b.toNat < 128 then some (b.toNat, 1) else (readLeb k bs).map (fun r => (b.toNat % 128 + 128 * r.1, r.2 + 1))

/-- The OBUs of a temporal unit: (offset, type, payload). Every one has a size field (low-overhead format). -/
def obuScan : Nat → List Byte → Nat → Except StreamError (List (Nat × Nat × List Byte))
  | 0, _, _ => .ok []
  | _, [], _ => .ok []
  | fuel + 1, h :: bs, off =>
    if bit h.toNat 7 || bit h.toNat 0 || !bit h.toNat 1 then .error ⟨1, off⟩
    else
      let ext := b2n (bit h.toNat 2)
      match readLeb 8 (bs.drop ext) with
      | none => .error ⟨1, off⟩
      | some (n, used) =>
        if (bs.drop (ext + used)).length < n then .error ⟨1, off⟩
        else do
          let rest ← obuScan fuel (bs.drop (ext + used + n)) (off + 1 + ext + used + n)
          return (off, bits h.toNat 3 4, (bs.drop (ext + used)).take n) :: rest

/-- Where seq_level_idx of operating point 0 stands in a sequence header. -/
def levelBit (p : List Byte) : Nat :=
  if bitsAt p 4 1 = 1 then 5
  else if bitsAt p 5 1 = 0 then 24
  else
    let z := ((List.range 32).find? (fun k => bitsAt p (71 + k) 1 == 1)).getD 32
    let n := if bitsAt p 70 1 = 1 then 71 + 2 * z + 1 else 71
    n + 1 + (if bitsAt p n 1 = 1 then 47 else 0) + 18

/-- A sequence header of Main profile at level 5.1 or below. -/
def av1Supported (p : List Byte) : Bool := bitsAt p 0 3 == 0 && decide (bitsAt p (levelBit p) 5 ≤ 13)

def av1Form (b : List Byte) : Except StreamError StreamInfo := do
  let l ← obuScan b.length b 0
  let lone := match l with
    | (_, 1, p) :: _ => bitsAt p 3 2 == 3
    | (_, 2, _) :: _ => true
    | _ => false
  if !lone then .error ⟨1, 0⟩
  else match l.find? (fun u => u.2.1 == 1 && !av1Supported u.2.2) with
    | some u => .error ⟨2, u.1⟩
    | none => .ok StreamInfo.none

/-- The marker segments of a JPEG image up to its first scan, and the frame header found (R285). -/
def jpegScan : Nat → List Byte → Nat → Option StreamInfo → Except StreamError StreamInfo
  | 0, _, off, _ => .error ⟨1, off⟩
  | fuel + 1, b, off, info =>
    match b with
    | 0xFF :: m :: rest =>
      let n := le rest 1 1 + 256 * le rest 0 1
      let k := m.toNat
      if k = 0xFF then jpegScan fuel (m :: rest) (off + 1) info
      else if rest.length < n ∨ n < 2 ∨ (0xD0 ≤ k ∧ k ≤ 0xD9) then .error ⟨1, off⟩
      else if k = 0xDA then (match info with | some i => .ok i | none => .error ⟨1, off⟩)
      else if k = 0xC0 then
        let nf := le rest 7 1
        let sm := (List.range nf).map (fun i => (le rest (9 + 3 * i) 1 / 16, le rest (9 + 3 * i) 1 % 16))
        if nf = 0 ∨ n ≠ 8 + 3 * nf ∨ le rest 2 1 ≠ 8 ∨ info.isSome then .error ⟨1, off⟩
        else if 3 < nf ∨ sm.any (fun q => decide (2 < q.1) || decide (2 < q.2) || q.1 == 0 || q.2 == 0) then .error ⟨2, off⟩
        else jpegScan fuel (rest.drop n) (off + 2 + n) (some ⟨le rest 6 1 + 256 * le rest 5 1, le rest 4 1 + 256 * le rest 3 1, sm⟩)
      else if (0xC1 ≤ k ∧ k ≤ 0xCF ∧ k ≠ 0xC4 ∧ k ≠ 0xC8) then .error ⟨2, off⟩
      else jpegScan fuel (rest.drop n) (off + 2 + n) info
    | _ => .error ⟨1, off⟩

def jpegForm (b : List Byte) : Except StreamError StreamInfo :=
  match b with
  | 0xFF :: 0xD8 :: rest => jpegScan b.length rest 2 none
  | _ => .error ⟨1, 0⟩

/-- The form of an input of a codec. -/
def streamForm (codec : Nat) (b : List Byte) : Except StreamError StreamInfo :=
  match codec with | 0 => hevcForm b | 1 => av1Form b | 2 => jpegForm b | _ => avcForm b

end Sys2Proof.Machine
end

