-- ==== Sys2Proof/Machine/Codec.lean ====
section
/-! DEFINITION. The codec engines (chapter 11): ENCODE and DECODE, rate control, stream contexts and bitstream buffer pools. What an engine
makes of its inputs beyond these rules and the forms of Table 11-2 is `Config.codecFn` and `Config.codecBytes` (log entry 11). -/

namespace Sys2Proof.Machine

/-! ## Pools (Table 11-8, R302 to R304) -/

structure CodecPool where
  base : Nat
  count : Nat
  bytes : Nat
  post : Nat
  postEn : Bool
deriving DecidableEq, Repr

def State.codecPool (s : State) (t : Nat) : CodecPool :=
  let v := s.obj (oTenantCodecPoolConfig t)
  ⟨leN v 0 8, leN v 8 4, leN v 12 4, leN v 16 4, bit (leN v 20 1) 0⟩

def bufKey (t b : Nat) : Nat := t * 2 ^ 17 + b
def State.buf (s : State) (t b : Nat) : Nat := Store.get 0 s.codec.bufs (bufKey t b)
def State.setBuf (s : State) (t b v : Nat) : State := { s with codec := { s.codec with bufs := Store.set 0 s.codec.bufs (bufKey t b) v } }

/-- Buffers of a tenant reserved or held. -/
def State.bufsHeld (s : State) (t : Nat) : Nat :=
  (s.codec.bufs.filter (fun p => decide (bufKey t 0 ≤ p.1) && decide (p.1 < bufKey (t + 1) 0))).length

/-- The pool's telemetry (Table 11-13). -/
def State.syncBufs (s : State) (t : Nat) : State :=
  let h := s.bufsHeld t
  (s.setObj (oTenantCodecBufsHeld t) h).setObj (oTenantCodecBufsFree t) ((s.codecPool t).count - h)

/-- Buffers return to the pool, signalled on POOL_POST (R304). -/
def State.returnBufs (s : State) (t : Nat) (l : List Nat) : State :=
  let s1 := (l.foldl (fun (acc : State) b => acc.setBuf t b 0) s).syncBufs t
  let p := s1.codecPool t
  if l.isEmpty ∨ !p.postEn then s1 else s1.signalPost (p.post % 2 ^ 18) 1 l.length

/-! ## Configuration blocks (Table 11-5) -/

structure EncCfg where
  codec : Nat
  profile : Nat
  depth : Nat
  rc : Nat
  intra : Bool
  nref : Nat
  keyInterval : Nat
  fpsNum : Nat
  fpsDen : Nat
  bitrate : Nat
  maxBitrate : Nat
  vbv : Nat
  cap : Nat
  qpBase : Nat
  qpMin : Nat
  qpMax : Nat
  colour : Nat
deriving DecidableEq, Repr

def parseEnc (b : List Byte) : EncCfg :=
  ⟨le b 1 1, le b 2 1, le b 3 1, le b 4 1, bit (le b 5 1) 0, bits (le b 5 1) 1 3, le b 6 2, le b 8 2, le b 10 2, le b 12 4, le b 16 4, le b 20 4,
   le b 24 4, le b 28 1, le b 29 1, le b 30 1, le b 112 4⟩

/-- `drain` of R298: bytes of one frame period at the rate that fills the buffer. -/
def EncCfg.drain (c : EncCfg) : Nat := (if c.rc = 1 then c.bitrate else c.maxBitrate) * c.fpsDen / (8 * c.fpsNum)

/-- The fields of a configuration block that break Table 11-5; `pool`: BUF_BYTES, 0 for a tenant without a pool; `f`: the frame, where its
descriptor could be read. -/
def encRules (b : List Byte) (f : Option Frame) (pool : Nat) : List (Nat × Bool) :=
  let c := parseEnc b
  let jpeg := c.codec == 2
  let top := if c.codec = 0 then 51 else 255
  let rate := c.rc != 0
  let roi := le b 32 1
  let n := le b 33 1
  [(0, le b 0 1 == 1), (1, decide (c.codec ≤ 2)), (2, if c.codec = 0 then decide (c.profile ≤ 1) else c.profile == 0),
   (3, c.depth == 8 || (c.depth == 10 && (c.codec == 1 || (c.codec == 0 && c.profile == 1)))),
   (4, decide (c.rc ≤ 2) && (!jpeg || c.rc == 0)),
   (5, decide (le b 5 1 < 16) && (if c.intra then c.nref == 0 else decide (1 ≤ c.nref) && decide (c.nref ≤ 4)) && (!jpeg || c.intra)),
   (8, decide (1 ≤ c.fpsNum)), (10, decide (1 ≤ c.fpsDen)),
   (12, !rate || decide (10000 ≤ c.bitrate)), (16, !rate || (if c.rc = 1 then c.maxBitrate == c.bitrate else decide (c.bitrate ≤ c.maxBitrate))),
   (20, !rate || decide (c.drain ≤ c.vbv)),
   (24, (match f with | some f => decide (16 * blocksOf f.width f.height + 4096 ≤ c.cap) | none => true) && (pool == 0 || decide (c.cap ≤ 16 * pool))),
   (28, jpeg || (decide (c.qpMin ≤ c.qpBase) && decide (c.qpBase ≤ c.qpMax))), (29, jpeg || decide (c.qpMin ≤ top)),
   (30, jpeg || (decide (c.qpMin ≤ c.qpMax) && decide (c.qpMax ≤ top))),
   (31, !jpeg || (decide (1 ≤ le b 31 1) && decide (le b 31 1 ≤ 100))),
   (32, decide (roi ≤ 2) && (!jpeg || roi == 0)), (33, decide (n ≤ 8)), (34, le b 34 6 == 0), (116, (b.drop 116).all (fun x => x == 0))]
  ++ (List.range 8).map (fun i => (48 + 8 * i,
      if roi = 1 ∧ i < n then decide (-16 ≤ signed 8 (le b (52 + 8 * i) 1)) && decide (signed 8 (le b (52 + 8 * i) 1) ≤ 15) && le b (53 + 8 * i) 3 == 0
      else le b (48 + 8 * i) 8 == 0))

def limitInt (lo hi x : Int) : Int := min (max x lo) hi

/-! ## Regions of interest (R300) -/

/-- The offset of block (x, y): that of the lowest-numbered rectangle that contains it, or the map's. A map byte outside −16 to 15, of which
the rule does not speak, gives an offset within them that it does not state (log entry 110). -/
def roiOffset (cfg roi : List Byte) (wide x y : Nat) : Int :=
  match le cfg 32 1 with
  | 1 => (match (List.range (le cfg 33 1)).find? (fun i =>
        let r := fun (k : Nat) => le cfg (48 + 8 * i + k) 1
        decide (r 0 ≤ x) && decide (x < r 0 + r 2) && decide (r 1 ≤ y) && decide (y < r 1 + r 3)) with
    | some i => signed 8 (le cfg (52 + 8 * i) 1)
    | none => 0)
  | 2 =>
    let v := signed 8 (le roi (y * wide + x) 1)
    if -16 ≤ v ∧ v ≤ 15 then v else (Config.unstated 40 [le roi (y * wide + x) 1] % 32 : Nat) - 16
  | _ => 0

/-- The quantisers of the blocks of row y, coded at q. -/
def blockQps (c : EncCfg) (cfg roi : List Byte) (wide y q : Nat) : List Nat :=
  (List.range wide).map (fun x => (limitInt c.qpMin c.qpMax ((q : Int) + (if c.codec = 1 then 4 else 1) * roiOffset cfg roi wide x y)).toNat)

/-! ## Rate control (R298, R299) -/

/-- floor(256 × log2(max(x, 1))). -/
def lgInt (x : Int) : Int := ((bitLen ((max x 1).toNat ^ 256) : Nat) : Int) - 1

/-- a ÷ b rounded to nearest, halves away from zero. -/
def roundDivInt (a : Int) (b : Nat) : Int := if 0 ≤ a then (2 * a + b) / (2 * b) else -((2 * -a + b) / (2 * b))

/-- `div`, in the direction the device rounds negative numbers (log entry 11). -/
def divInt (a : Int) (b : Nat) : Int := if Config.divTowardZero then Int.tdiv a b else a / (b : Int)

/-- The frame's target in bytes and its starting quantiser; `prev`: qp_prev, bytes_prev, cplx_prev. -/
def frameTarget (c : EncCfg) (x : StreamCtx) (blocks : Nat) (cplx : Nat) : Int × Int :=
  let h : Int := if c.codec = 0 then 6 else 24
  if c.rc = 0 then (c.cap, c.qpBase)
  else
    let drain : Int := c.drain
    let avg := c.bitrate * c.fpsDen / (8 * c.fpsNum)
    let t0 : Int := if c.rc = 1 then drain + divInt ((c.vbv / 2 : Nat) - (x.fullness : Int)) 8
      else avg + divInt ((avg * x.frames : Nat) - (x.total : Int)) 64
    let t := min (min (max t0 (16 * blocks + 4096)) ((c.vbv : Int) - x.fullness + drain)) c.cap
    let q := match x.prev with
      | none => (c.qpBase : Int)
      | some p => p.1 + roundDivInt (h * (lgInt ((p.2.1 * cplx / max p.2.2 1 : Nat) : Int) - lgInt t)) 256
    (t, limitInt c.qpMin c.qpMax q)

/-- What an encoder has coded of a frame. -/
structure Coded where
  out : List Byte
  qps : List Nat
  floorAt : Option Nat
deriving DecidableEq, Repr

/-- What the coding of a frame depends on (R297): the opaque coder sees `key`. -/
structure CodeInput where
  cfg : EncCfg
  block : List Byte          -- the configuration block, its addresses zero
  roi : List Byte
  seq : SeqInfo
  isKey : Bool
  full : Bool                -- chroma at full resolution
  quality : Nat              -- JPEG_QUALITY
  key : List Nat
deriving DecidableEq, Repr

/-- The most bytes before row 0: what MAX_FRAME_BYTES leaves beside floor mode for every row and the reserve of 64 (Table 11-5, R299). -/
def headerMost : Nat := 4032

/-- The bytes before the first row in the codec's form (Table 11-2). The start of the slice or frame is the engine's; an AV1 frame's size is
filled in when it is known. -/
def codedHeader (x : CodeInput) : List Byte :=
  let start := Config.codecBytes 0 x.key
  match x.cfg.codec with
  | 0 => let fixed := (hevcHeader x.seq x.isKey []).length; hevcHeader x.seq x.isKey (start.take ((headerMost - fixed) / 2))
  | 1 => let front := av1Front x.seq x.isKey ++ [obuHeader 6] ++ leb128 0; front ++ start.take (headerMost - front.length)
  | _ => jpegHeader x.quality x.seq.width x.seq.height x.full

/-- The MCU rows of block row y. -/
def mcuRows (x : CodeInput) (y : Nat) : List Nat :=
  let n := 64 / mcuSize x.full
  (List.range n).map (fun i => n * y + i) |>.filter (fun m => decide (m < ceilDiv x.seq.height (mcuSize x.full)))

/-- A block row in the codec's form: a HEVC row escaped behind what precedes it, an AV1 row as it is, a JPEG row as restart intervals. In
floor mode it takes at most `most` bytes. -/
def rowForm (x : CodeInput) (before : List Byte) (y : Nat) (most : Option Nat) (emit : Nat → List Byte) : List Byte :=
  match x.cfg.codec with
  | 0 => let r := escapeFrom (tailZeros before) (emit 0); (match most with | some n => r.take n | none => r)
  | 1 => (match most with | some n => (emit 0).take n | none => emit 0)
  | _ =>
    let ms := mcuRows x y
    ms.flatMap (fun m => jpegRestart m ++ jpegStuff (match most with | some n => (emit m).take ((n / max ms.length 1 - 2) / 2) | none => emit m))

/-- Code row y (R298 to R300): its blocks at its quantiser and their offsets, or again in floor mode where the rest of the frame would not
fit. -/
def codeRow (x : CodeInput) (wide rows : Nat) (target qf : Int) (cplx : List Nat) (st : Coded) (y : Nat) : Coded :=
  let c := x.cfg
  let h : Int := if c.codec = 0 then 6 else 24
  let total := cplx.sum
  let plan := target * ((cplx.drop y).sum : Nat) / (max total 1 : Nat)
  let dq := roundDivInt (h * (lgInt plan - lgInt (target - st.out.length))) 256
  let q1 := qf + limitInt (-(2 * h / 3)) (2 * h / 3) dq
  let q2 := if 0 < y then limitInt ((st.qps.getLastD 0 : Nat) - h / 3) ((st.qps.getLastD 0 : Nat) + h / 3) q1 else q1
  let q := if c.rc = 0 then c.qpBase else (limitInt c.qpMin c.qpMax q2).toNat
  let emit := fun (qs : List Nat) (fl : Bool) (m : Nat) => Config.codecBytes 1 (x.key ++ st.qps ++ [y, m, b2n fl] ++ qs)
  let floor' := fun (at' : Nat) =>
    (⟨st.out ++ rowForm x st.out y (some (16 * wide)) (emit (List.replicate wide c.qpMax) true), st.qps ++ [c.qpMax], some at'⟩ : Coded)
  match st.floorAt with
  | some a => floor' a
  | none =>
    let r := rowForm x st.out y none (emit (blockQps c x.block x.roi wide y q) false)
    if (c.cap : Int) - (st.out.length + r.length : Nat) < 16 * (wide * (rows - 1 - y)) + 64 then floor' y
    else ⟨st.out ++ r, st.qps ++ [q], none⟩

/-- The end of a frame: a HEVC unit does not end in a zero byte, an AV1 frame's size is filled in, a JPEG image ends in EOI. -/
def closeFrame (x : CodeInput) (out : List Byte) : List Byte :=
  match x.cfg.codec with
  | 0 => if 0 < tailZeros out then out ++ [3] else out
  | 1 =>
    let n := (av1Front x.seq x.isKey).length + 1
    out.take n ++ leb128 (out.length - n - 5) ++ out.drop (n + 5)
  | _ => out ++ jpegEnd

/-- The coded frame: header, then every row, and its end. -/
def codeFrame (x : CodeInput) (wide rows : Nat) (target qf : Int) (cplx : List Nat) : Coded :=
  let c := (List.range rows).foldl (codeRow x wide rows target qf cplx) ⟨codedHeader x, [], none⟩
  { c with out := closeFrame x c.out }

/-- The rate-control state a frame starts from (R301). -/
def rateStart (c : EncCfg) (init : Bool) (x : Option StreamCtx) : StreamCtx :=
  let fresh : StreamCtx := ⟨c.codec, c.profile, c.nref, 0, 0, 0, 0, c.rc, c.bitrate, c.maxBitrate, c.vbv, c.vbv / 2, 0, 0, none, 0, 0, 0⟩
  match x with
  | none => fresh
  | some p =>
    if init then fresh
    else if c.rc = 0 then p
    else if p.rc = 0 then { p with fullness := c.vbv / 2, frames := 0, total := 0, prev := none }
    else if c.rc ≠ p.rc ∨ c.bitrate ≠ p.bitrate ∨ c.maxBitrate ≠ p.maxBitrate ∨ c.vbv ≠ p.vbv then { p with fullness := min p.fullness c.vbv, frames := 0, total := 0 }
    else p

/-- Whether a frame is coded as a key frame (R294). -/
def keyFrame (c : EncCfg) (f : Frame) (init force : Bool) (x : Option StreamCtx) : Bool :=
  match x with
  | none => true
  | some p => init || force || c.intra || (c.keyInterval != 0 && decide (c.keyInterval ≤ p.sinceKey))
      || p.width != f.width || p.height != f.height || p.depth != c.depth || p.colour != c.colour

/-! ## Complexity (R298) -/

/-- The 8 × 8 Hadamard transform's ±1 at (u, v). -/
def hadamard (u v : Nat) : Int := if ((List.range 3).map (fun b => b2n (bit u b && bit v b))).sum % 2 = 0 then 1 else -1

/-- The sum of the absolute values of the transform of a block minus its mean: its first coefficient is 0. -/
def blockCost (px : Nat → Nat → Int) : Nat :=
  ((List.range 8).flatMap (fun u => (List.range 8).map (fun v =>
    if u = 0 ∧ v = 0 then 0
    else (((List.range 8).flatMap (fun i => (List.range 8).map (fun j => hadamard u i * hadamard v j * px i j))).sum : Int).natAbs))).sum

/-- cplx of every 64-row block row. -/
def complexity (w h : Nat) (px : Nat → Nat → Int) : List Nat :=
  (List.range (ceilDiv h 64)).map (fun y =>
    1 + ((List.range 8).flatMap (fun by' => (List.range (ceilDiv w 8)).map (fun bx =>
      if 64 * y + 8 * by' < h then blockCost (fun i j => px (8 * bx + j) (64 * y + 8 * by' + i)) else 0))).sum)

/-- Luma of a pixel of the rows as read; beyond the frame it is the engine's own. -/
def lumaPx (f : Frame) (depth : Nat) (rows : List (List Byte)) (x y : Nat) : Nat :=
  if f.width ≤ x ∨ f.height ≤ y then Config.codecFn 4 [x, y, f.width, f.height] else codedSample f depth rows 0 x y

/-! ## ENCODE -/

def streamKey (t a : Nat) : Nat := t * 2 ^ 57 + a

def ruleChecks (st : Nat) (l : List (Nat × Bool)) : Checks := allChecks (l.map (fun r => need st r.1 r.2))

/-- Encoders 0 to 3, decoders 4 and 5, still in service (R492). -/
def State.enginesUp (s : State) (enc : Bool) : List Nat := ((if enc then [0, 1, 2, 3] else [4, 5]) : List Nat).filter (fun e => !s.codec.down.contains e)

/-- ENCODE of a frame: the checks of R290, R291 and R287, and its ROI map, which it reads once (R293); the frame is coded by its engine. -/
def planEncode (s : State) (e : Env) : Plan :=
  let t := e.ctx.getD 0
  let fd := match s.readVa e.ctx (e.f 96 8) 64 with | .ok b => (Checks.none, b) | .error f => (⟨[], [f]⟩, [])
  let cb := match s.readVa e.ctx (e.f 104 8) 256 with | .ok b => (Checks.none, b) | .error f => (⟨[], [f]⟩, [])
  let c := parseEnc cb.2
  let f := parseFrame fd.2
  let alone := c.intra || c.codec == 2
  let checks := allChecks
    [need 0 88 (decide (e.f 88 1 < 16) && e.f 88 1 % 4 == 0), need 0 89 (e.f 89 3 == 0), need 0 92 (e.f 92 4 == 0), need 0 96 (e.f 96 8 % 64 == 0),
     need 0 104 (e.f 104 8 % 64 == 0),
     given (cb.1 == Checks.none) (need 0 112 (if alone then e.f 112 8 == 0 else e.f 112 8 != 0 && e.f 112 8 % 4096 == 0)), need 0 120 (e.f 120 8 % 128 == 0),
     fd.1, given (fd.1 == Checks.none) (ruleChecks 1 (frameRules fd.2 (c.codec == 2 || cb.1 != Checks.none) true)),
     cb.1, given (cb.1 == Checks.none) (ruleChecks 9 (encRules cb.2 (if fd.1 = Checks.none then some f else none) (s.codecPool t).bytes))]
  let work : Except Fail Work :=
    match (if le cb.2 32 1 = 2 then s.readVa e.ctx (le cb.2 40 8) (blocksOf f.width f.height) else .ok []) with
    | .error flt => .error flt.fail
    | .ok _ => if (s.enginesUp true).isEmpty then .error ⟨stContained, 3, none⟩ else .ok { Work.none with wait := Wait.buffer }
  (checks, work)

/-- The requester identifier of an ENCODE (R303). -/
def State.requesterOf (s : State) (src : Src) : Nat :=
  match src with
  | .queue q i => q * 65536 + i
  | .program r i => match s.run? r with
    | some x => (if x.handoff then 2 ^ 30 else 2 ^ 31) + x.pen * 65536 + i
    | none => i

/-- The wait for its stream context and its buffers begins (R292, R303). -/
def launchEncode (s : State) (e : Env) (id : Nat) : State :=
  let rd := fun (a n : Nat) => match s.readVa e.ctx a n with | .ok b => b | .error _ => []
  let cfg := rd (e.f 104 8) 256
  let fr := rd (e.f 96 8) 64
  let f := parseFrame fr
  let roi := if le cfg 32 1 = 2 then rd (le cfg 40 8) (blocksOf f.width f.height) else []
  let req := match s.cmd? id with | some c => s.requesterOf c.src | none => 0
  { s with codec := { s.codec with jobs := s.codec.jobs ++ [⟨id, e.ctx.getD 0, true, e.f 112 8, cfg, fr, roi, [], false, none, req, none⟩] } }

def State.setJob (s : State) (j : CodecJob) : State :=
  { s with codec := { s.codec with jobs := s.codec.jobs.map (fun x => if x.cmd = j.cmd then j else x) } }

def State.job? (s : State) (id : Nat) : Option CodecJob := s.codec.jobs.find? (fun j => j.cmd == id)

/-- Whether a job names a context: every DECODE does, an ENCODE unless STREAM_ADDR is 0 (Tables 11-4 and 11-10). -/
def CodecJob.hasCtx (j : CodecJob) : Bool := !j.enc || j.ctx != 0

/-- Whether an earlier job holds the same context (R292, R305). -/
def State.ctxBusy (s : State) (j : CodecJob) : Bool :=
  j.hasCtx && (s.codec.jobs.takeWhile (fun x => x.cmd != j.cmd)).any (fun x => x.tenant == j.tenant && x.ctx == j.ctx && x.enc == j.enc)

/-! ## Engines (R283, R392) -/

def codecArb (enc : Bool) : Nat := if enc then arbEncoders else arbDecoders

/-- The frames that wait for an engine of one kind, as (tag, command), oldest first. -/
def State.engineReqs (s : State) (enc : Bool) : List (Nat × Nat) :=
  (s.codec.jobs.filter (fun j => j.enc == enc && j.ready && j.engine.isNone && j.done.isNone && !s.ctxBusy j)).map (fun j => (j.tenant, j.cmd))

/-- The 64 × 64 blocks of an ENCODE's frame; those of a DECODE are known when it is decoded. -/
def CodecJob.cost (j : CodecJob) : Nat := if j.enc then (let f := parseFrame j.frame; blocksOf f.width f.height) else 0

/-- A free engine goes to the frame its arbiter grants (Table 15-1). Which engine runs a frame shows in no result (R297). -/
def State.assignOne (s : State) (enc : Bool) : State :=
  match (s.enginesUp enc).find? (fun e => !s.codec.jobs.any (fun x => x.engine == some e)) with
  | none => s
  | some e =>
    match s.arbitrate (codecArb enc) (s.shareInc 1) (s.engineReqs enc) with
    | (s1, some r) => (match s1.job? r.2 with
      | some j =>
        let s2 := s1.setJob { j with engine := some e }
        s2.chargeArb (codecArb enc) r.1 j.cost ((s2.engineReqs enc).any (fun x => x.1 == r.1))
      | none => s1)
    | (s1, none) => s1

/-- Every free engine is granted, encoders and decoders. -/
def State.assignEngines (s : State) : State :=
  let s1 := (List.range 4).foldl (fun (acc : State) _ => acc.assignOne true) s
  (List.range 2).foldl (fun (acc : State) _ => acc.assignOne false) s1

/-- A frame command has no more to do with the engines. -/
def State.dropJob (s : State) (id : Nat) : State :=
  { s with codec := { s.codec with jobs := s.codec.jobs.filter (fun j => j.cmd != id) } }.assignEngines

/-- A frame that fails: its buffers return, its context stays (R296, R309). -/
def State.jobFails (s : State) (j : CodecJob) (status detail : Nat) (f : Option AccFault) : State :=
  ((s.returnBufs j.tenant j.bufs).dropJob j.cmd).failCmd j.cmd status detail f

/-- What a stream's context refuses: another CODEC, PROFILE or NREF without INIT (R294), as the field of the configuration block. -/
def streamChange (c : EncCfg) (init : Bool) (prev : Option StreamCtx) : Option Nat :=
  match prev with
  | some x => if init then none else if x.codec ≠ c.codec then some 1 else if x.profile ≠ c.profile then some 2 else if x.nref ≠ c.nref then some 5 else none
  | none => none

/-- The least size of a REF area (R292). -/
def refBytes (c : EncCfg) (f : Frame) : Nat := let n := (c.nref + 1) * 3 * f.width * f.height; if f.fmt = 1 then n else n / 2

/-- The state of the stream a job codes, none for one without a context. -/
def State.streamOf (s : State) (j : CodecJob) : Option StreamCtx := if j.hasCtx then Store.find? s.codec.streams (streamKey j.tenant j.ctx) else none

/-- Why a frame cannot be coded, in the order of its statuses: a change the stream refuses, no pool (R302), a context that cannot be read, a
REF area too small (R292) or not aligned (log entry 99). -/
def State.frameRefused (s : State) (j : CodecJob) (init : Bool) : Option Fail :=
  let c := parseEnc j.cfg
  match streamChange c init (s.streamOf j) with
  | some off => some ⟨stInvalidField, fieldDetail 9 off, none⟩
  | none =>
    if (s.codecPool j.tenant).count = 0 then some ⟨stObjectState, 2 * 4096, none⟩
    else if !j.hasCtx then none
    else match s.readVa (some j.tenant) j.ctx 64 with
      | .error flt => some flt.fail
      | .ok hd => if le hd 8 4 < refBytes c (parseFrame j.frame) ∨ le hd 0 8 % 4096 ≠ 0 then some ⟨stObjectState, 3 * 4096, none⟩ else none

/-- The N lowest-numbered free buffers of a tenant's pool; fewer where it has fewer (R303). -/
def State.freeBufs (s : State) (t n : Nat) : List Nat :=
  ((List.range (min (s.codecPool t).count (s.bufsHeld t + n))).filter (fun b => s.buf t b == 0)).take n

/-- The request itself, for a frame whose own command begins in `g` (R292, R294, R303): it is refused, or finds too few buffers free, or holds the
lowest-numbered ones and waits for an engine. -/
def State.takeBuffers (s : State) (j : CodecJob) (g : State) (init : Bool) : State :=
  match g.frameRefused j init with
  | some f => s.jobFails j f.status f.detail f.fault
  | none =>
    let n := ceilDiv (parseEnc j.cfg).cap (g.codecPool j.tenant).bytes
    let free := g.freeBufs j.tenant n
    if free.length < n then (s.count (oTenantCodecExhausted j.tenant) 1).jobFails j stExhausted (n % 2 ^ 21) none
    else
      let s1 := (free.foldl (fun (acc : State) b => acc.setBuf j.tenant b 1) s).syncBufs j.tenant
      let s2 := (s1.setJob { j with bufs := free, ready := true }).assignEngines
      match s2.cmd? j.cmd with
      | some cm => s2.setCmd { cm with wait := Wait.engine }
      | none => s2

/-- ENCODE_BUFFER_REQUEST (R302, R303): after the context wait, N buffers or EXHAUSTED. Each such row reaches the allocation point in a
cycle of its own, so R224 orders them as they come. -/
def State.bufferRequest (s : State) (id : Nat) : State :=
  match s.job? id with
  | none => s
  | some j =>
    if !j.enc || j.ready || s.ctxBusy j || s.regs.fatal then s
    else match s.cmd? id with
      | some cm => s.takeBuffers j (s.asBegan cm) (bit (le cm.bytes 88 1) 2)
      | none => s.takeBuffers j s false

/-- The result record (Table 11-6). -/
def encResult (bytes nbuf typ floorRows number avg full : Nat) (bufs : List Nat) : List Byte :=
  toLe 4 bytes ++ toLe 1 nbuf ++ toLe 1 typ ++ toLe 2 floorRows ++ toLe 4 number ++ toLe 1 avg ++ toLe 3 0 ++ toLe 4 full ++ toLe 4 0
    ++ (List.range 16).flatMap (fun i => toLe 4 (if i < nbuf then bufs.getD i 0xFFFFFFFF else 0xFFFFFFFF)) ++ toLe 40 0

/-- Read runs of bytes, one string each. -/
def State.readPieces (s : State) (c : Ctx) (l : List (Nat × Nat)) : Except AccFault (List (List Byte)) := l.mapM (fun r => s.readVa c r.1 r.2)

/-- A frame is coded (R294 to R301): its bytes, the result record, the context after it, the buffers it keeps. -/
structure FrameDone where
  writes : List (Nat × Byte)
  ctx : StreamCtx
  keep : List Nat
  floorAt : Option Nat
  blocks : Nat
deriving DecidableEq, Repr

/-- The encoder revision in force for a codec (Table 12-4). -/
def State.encoderRev (s : State) (codec : Nat) : Nat := leN (s.obj (oCodecOutputDecl 0)) (4 + 4 * codec) 4

/-- The areas that hold a stream's device-formatted bytes, as (address, length): its context behind the first 64 bytes, and its REF area
(R292). -/
def State.streamAreas (s : State) (t : Ctx) (ctx : Nat) : Except AccFault (List (Nat × Nat)) := do
  let hd ← s.readVa t ctx 64
  return [(ctx + 64, 65536 - 64), (le hd 0 8, le hd 8 4)]

/-- Areas the device will write translate for writing. -/
def State.areasWritable (s : State) (t : Ctx) (l : List (Nat × Nat)) : Except AccFault Unit :=
  l.foldlM (fun (_ : Unit) r => (s.cellsVa t r.1 (List.replicate r.2 0)).map (fun _ => ())) ()

/-- What an ENCODE's output depends on (R297): frame, configuration, stream and the revision of its own codec. -/
def State.codeInput (s : State) (j : CodecJob) (x : StreamCtx) (key : Bool) (rows : List (List Byte)) : CodeInput :=
  let c := parseEnc j.cfg
  let f := parseFrame j.frame
  let rev := s.encoderRev c.codec
  let block := j.cfg.take 40 ++ toLe 8 0 ++ j.cfg.drop 48
  let refs := if key then 0 else x.refs
  ⟨c, block, j.roi, ⟨c.codec, rev, c.profile, c.depth, c.intra, c.nref, f.width, f.height, c.colour, c.fpsNum, c.fpsDen⟩, key, fullChroma f, le j.cfg 31 1,
    [c.codec, rev, f.width, f.height, f.fmt, refs, x.number, b2n key] ++ block.map BitVec.toNat ++ codedSamples f c.depth rows⟩

def State.encodeFrame (s : State) (j : CodecJob) (cm : List Byte) : Except AccFault FrameDone := do
  let c := parseEnc j.cfg
  let f := parseFrame j.frame
  let t : Ctx := some j.tenant
  let p := s.codecPool j.tenant
  let init := bit (le cm 88 1) 2
  let prev := s.streamOf j
  let x := rateStart c init prev
  let key := keyFrame c f init (bit (le cm 88 1) 3) prev
  let rows ← s.readPieces t f.runs
  let areas ← (if j.hasCtx then s.streamAreas t j.ctx else .ok [])
  let _ ← s.areasWritable t areas
  let refs := if key then 0 else x.refs
  let px := fun (a b : Nat) => (lumaPx f c.depth rows a b : Int) - (if key then 0 else (Config.codecFn 3 [refs, a, b] : Int))
  let cplx := if c.codec = 2 then [] else complexity f.width f.height px
  let wide := blocksWide f.width
  let nrows := ceilDiv f.height 64
  let tg := frameTarget c x (wide * nrows) cplx.sum
  let inp := s.codeInput j x key rows
  let cd := codeFrame inp wide nrows tg.1 tg.2 cplx
  let n := max 1 (ceilDiv cd.out.length p.bytes)
  let spent := cd.out.length
  let rate := c.rc != 0
  let full := if rate then (max 0 ((x.fullness : Int) + spent - c.drain)).toNat else x.fullness
  let after : StreamCtx := { x with
    codec := c.codec, profile := c.profile, nref := c.nref, depth := c.depth, width := f.width, height := f.height, colour := c.colour,
    rc := c.rc, bitrate := c.bitrate, maxBitrate := c.maxBitrate, vbv := c.vbv, fullness := full,
    frames := if rate then x.frames + 1 else x.frames, total := if rate then x.total + spent else x.total,
    prev := if rate then some (tg.2.toNat, spent, cplx.sum) else x.prev,
    number := (if init then 0 else x.number) + 1, sinceKey := if key then 1 else x.sinceKey + 1, refs := Config.codecFn 5 (inp.key ++ cd.qps) }
  let avg := if c.codec = 2 then 0 else (cd.qps.map (fun q => q * wide)).sum / max 1 (wide * nrows)
  let floorRows := match cd.floorAt with | some y => nrows - y | none => 0
  let wb ← (List.range n).foldlM (fun (acc : List (Nat × Byte)) i => do
    let w ← s.cellsVa t (p.base + j.bufs.getD i 0 * p.bytes) ((cd.out.drop (i * p.bytes)).take p.bytes)
    return acc ++ w) []
  let wr ← s.cellsVa t (le cm 120 8) (encResult spent n (if key then 0 else 1) floorRows after.number avg (if rate then full else 0) j.bufs)
  return ⟨wb ++ wr, after, j.bufs.take n, cd.floorAt, wide * nrows⟩

/-! ## DECODE -/

def parseCtxHeader (b : List Byte) : Nat × Nat × Nat := (le b 0 4, le b 4 2, le b 6 2)

/-- DECODE's checks (R305, R308): of every entry of OUT_LIST its address and, where that is good, its descriptor (R287). -/
def planDecode (s : State) (e : Env) : Plan :=
  let jpeg := e.f 89 1 == 2
  let n := min 16 (e.f 91 1)
  let list := match s.outAddrs e.ctx (e.f 104 8) n with | .ok l => (Checks.none, l) | .error f => (⟨[], [f]⟩, [])
  let outs := list.2.map (fun a => if a % 64 ≠ 0 then need 9 0 false else match s.readVa e.ctx a 64 with
    | .ok b => need 9 0 ((frameRules b jpeg false).all (fun r => r.2))
    | .error f => ⟨[], [f]⟩)
  let bad := (List.range outs.length).map (fun i => let c := outs.getD i Checks.none; { c with bad := c.bad.map (fun x => (x.1, 8 * i, x.2.2)) })
  let checks := allChecks
    ([need 0 88 (decide (e.f 88 1 < 4)), need 0 89 (decide (e.f 89 1 ≤ 3)), need 0 90 (decide (e.f 90 1 ≤ 2)), need 0 91 (decide (1 ≤ e.f 91 1) && decide (e.f 91 1 ≤ 16)),
      need 0 92 (e.f 88 1 == 2 || decide (1 ≤ e.f 92 4)), need 0 112 (e.f 112 8 % 4096 == 0), need 0 120 (e.f 120 8 % 64 == 0), list.1] ++ bad)
  let work : Except Fail Work :=
    match s.readVa e.ctx (e.f 112 8) 64 with
    | .error f => .error f.fail
    | .ok b =>
      let h := parseCtxHeader b
      if h.1 < 65536 + 17 * 3 * h.2.1 * h.2.2 then .error ⟨stObjectState, 3 * 4096, none⟩
      else if (s.enginesUp false).isEmpty then .error ⟨stContained, 3, none⟩ else .ok { Work.none with wait := Wait.engine }
  (checks, work)

def launchDecode (s : State) (e : Env) (id : Nat) : State :=
  let j : CodecJob := ⟨id, e.ctx.getD 0, false, e.f 112 8, [], [], [], [], true, none, 0, none⟩
  { s with codec := { s.codec with jobs := s.codec.jobs ++ [j] } }.assignEngines

/-- ACTION of a frame against its descriptor (R307). -/
def sizeAction (policy w h W H : Nat) : Nat :=
  if w = W ∧ h = H then 0
  else if policy = 1 ∧ W ≤ w ∧ H ≤ h then 1
  else if policy = 2 ∧ w ≤ W ∧ h ≤ H then 2 else 3

/-- A sample of a decoded frame, component c, in its own resolution. -/
def DecFrame.sample (f : DecFrame) (c x y : Nat) : Nat := Config.codecFn 20 (f.key ++ [c, x, y]) % 2 ^ f.depth
/-- How many luma columns (axis 0) or rows one sample of a component covers: half the resolution in 4:2:0, the sampling factors' in JPEG. -/
def DecFrame.sub (f : DecFrame) (jpeg : Bool) (c axis : Nat) : Nat :=
  let part := fun (q : Nat × Nat) => if axis = 0 then q.1 else q.2
  if !jpeg then (if c = 0 then 1 else 2)
  else (f.sampling.map part).foldl max 1 / max 1 (part (f.sampling.getD c (1, 1)))
def DecFrame.comps (f : DecFrame) (jpeg : Bool) : Nat := if jpeg then f.sampling.length else 3

/-- A sample at the descriptor's depth (R308). -/
def toDepth (src dst v : Nat) : Nat := if src = dst then v else if src < dst then 4 * v else min ((v + 2) / 4) 255

/-- Component c at luma position (x, y): beyond the frame the last real column or row repeats (R307); JPEG components that are missing
hold 128, subsampled ones are replicated (R306, R308). -/
def DecFrame.at (f : DecFrame) (jpeg : Bool) (depth c x y : Nat) : Nat :=
  if f.comps jpeg ≤ c then 128
  else toDepth f.depth depth (f.sample c (min x (f.width - 1) / f.sub jpeg c 0) (min y (f.height - 1) / f.sub jpeg c 1))

/-- Row y of plane p of a frame as written. -/
def decodedRow (f : DecFrame) (d : Frame) (p y : Nat) : List Byte :=
  match d.fmt with
  | 4 => (List.range d.width).map (fun x => BitVec.ofNat 8 (f.at true 8 p x y))
  | k =>
    let depth := if k = 1 then 10 else 8
    let put := fun (v : Nat) => if k = 1 then toLe 2 (64 * v) else toLe 1 v
    if p = 0 then (List.range d.width).flatMap (fun x => put (f.at false depth 0 x y))
    else (List.range (d.width / 2)).flatMap (fun x => put (f.at false depth 1 (2 * x) (2 * y)) ++ put (f.at false depth 2 (2 * x) (2 * y)))

def State.decodedCells (s : State) (c : Ctx) (f : DecFrame) (d : Frame) : Except AccFault (List (Nat × Byte)) :=
  (List.range (pixPlanes d.fmt)).foldlM (fun (acc : List (Nat × Byte)) p =>
    (List.range (d.rows p)).foldlM (fun (acc : List (Nat × Byte)) y => do
      let w ← s.cellsVa c (d.plane.getD p 0 + y * d.pitch.getD p 0) (decodedRow f d p y)
      return acc ++ w) acc) []

/-- What a DECODE gives: its writes, its context after it, its events. -/
structure DecodeDone where
  writes : List (Nat × Byte)
  ctx : DecCtx
  events : List EventRec
  blocks : Nat
deriving DecidableEq, Repr

/-- The pictures an input decodes: one of an access unit or an image, in AV1 the coded frames of the temporal unit. Their sizes and depths are
what the standard says of the input; JPEG's are its frame header's. -/
def newPictures (codec : Nat) (key : List Nat) (info : StreamInfo) : List DecFrame :=
  (List.range (if codec = 1 then Config.codecFn 18 key % 17 else 1)).map (fun i =>
    let k := key ++ [i]
    if codec = 2 then ⟨k, info.width, info.height, 8, info.sampling⟩
    else ⟨k, Config.codecFn 12 k % 2 ^ 16, Config.codecFn 13 k % 2 ^ 16, if codec = 3 ∨ Config.codecFn 14 k % 2 = 0 then 8 else 10, []⟩)

/-- What stops the decoding of an input (R309): a form it does not have, what the standard says of it beyond the form (a violation; in H.264 a
field picture or MBAFF), or a picture beyond the context's size. The one met first counts. -/
def streamErrors (codec : Nat) (key : List Nat) (form : Except StreamError StreamInfo) (big : Bool) : List StreamError :=
  (match form with | .error e => [e] | .ok _ => [])
    ++ (if Config.codecFn 10 key % 2 = 1 then [⟨1, Config.codecFn 15 key⟩] else [])
    ++ (if codec = 3 ∧ Config.codecFn 19 key % 2 = 1 then [⟨2, Config.codecFn 23 key⟩] else [])
    ++ (if big then [⟨3, Config.codecFn 24 key⟩] else [])

/-- The first of them in the input. -/
def firstError : List StreamError → Option StreamError
  | [] => none
  | e :: es => match firstError es with
    | none => some e
    | some x => if x.offset < e.offset then some x else some e

/-- The pictures that become ready for output, in output order, and those that go on waiting (R306): an image at once, everything on FLUSH,
otherwise as many and in the order the standard says. -/
def readyPictures (codec : Nat) (key : List Nat) (flush : Bool) (wait : List DecFrame) : List DecFrame × List DecFrame :=
  let order := sortBy (fun (f : DecFrame) => Config.codecFn 16 f.key) wait
  let n := if flush ∨ codec = 2 then wait.length else Config.codecFn 11 key
  (order.take n, order.drop n)

/-- R309: the failure, as DETAIL. -/
def State.decodeFrame (s : State) (j : CodecJob) (cm : List Byte) : Except (Fail × List EventRec) DecodeDone := do
  let t : Ctx := some j.tenant
  let lift := fun {α : Type} (x : Except AccFault α) => ((match x with | .ok v => .ok v | .error f => .error ((f.fail, []) : Fail × List EventRec)) : Except (Fail × List EventRec) α)
  let codec := le cm 89 1
  let init := bit (le cm 88 1) 0
  let flush := bit (le cm 88 1) 1
  let old := Store.find? s.codec.decs (streamKey j.tenant j.ctx)
  let x : DecCtx := match old with | some d => (if init then ⟨codec, 0, [], [], none⟩ else d : DecCtx) | none => ⟨codec, 0, [], [], none⟩
  if x.codec ≠ codec then .error ((⟨stInvalidField, fieldDetail 0 89, none⟩, []) : Fail × List EventRec)
  else do
    let b ← lift (s.readVa t (le cm 96 8) (le cm 92 4))
    let hd ← lift (s.readVa t j.ctx 64)
    let h := parseCtxHeader hd
    let descs ← lift (s.outFrames t (le cm 104 8) (le cm 91 1))
    let key := [codec, x.refs, b2n flush] ++ b.map BitVec.toNat
    let form := if b.isEmpty then .ok StreamInfo.none else streamForm codec b
    let fresh := if b.isEmpty then [] else newPictures codec key (match form with | .ok i => i | .error _ => StreamInfo.none)
    let big := fresh.any (fun f => decide (h.2.1 < f.width) || decide (h.2.2 < f.height))
    let errs := if b.isEmpty then [] else streamErrors codec key form big
    match firstError errs with
    | some e =>
      let det := e.reason + 16 * min e.offset (2 ^ 28 - 1)
      .error (⟨stBitstream, det, none⟩, [⟨0x0303, 2, 1, j.tenant, det⟩])
    | none =>
      let _ ← lift (s.areasWritable t [(j.ctx + 64, h.1 - 64)])
      let shown := fresh.filter (fun f => codec == 2 || Config.codecFn 22 f.key % 2 == 0)
      let ready := readyPictures codec key flush (x.wait ++ shown)
      let all := x.held ++ ready.1
      let outs := all.take descs.length
      let acts := (List.range outs.length).map (fun i =>
        let f := outs.getD i ⟨[], 0, 0, 8, []⟩
        let d := parseFrame (descs.getD i [])
        (f, d, sizeAction (le cm 90 1) f.width f.height d.width d.height))
      let ev := acts.foldl (fun (acc : List EventRec × Option (Nat × Nat)) a =>
        let sz := (a.1.width, a.1.height)
        let code := match a.2.2 with | 3 => 0x0300 | 1 => 0x0301 | _ => 0x0302
        if a.2.2 = 0 ∨ acc.2 = some sz then (acc.1, some sz)
        else (acc.1 ++ [⟨code, 0, 1, j.tenant, sz.1 % 2 ^ 16 + 2 ^ 16 * (sz.2 % 2 ^ 16)⟩], some sz)) ([], x.size)
      let w ← acts.foldlM (fun (acc : List (Nat × Byte)) a => if a.2.2 = 3 then .ok acc else do
        let c ← lift (s.decodedCells t a.1 a.2.1)
        return acc ++ c) []
      let rest := all.drop descs.length
      let rec' := toLe 1 outs.length ++ toLe 1 (rest.length + ready.2.length) ++ toLe 6 0
        ++ (List.range 16).flatMap (fun i => match acts[i]? with
            | some a => toLe 2 a.1.width ++ toLe 2 a.1.height ++ toLe 1 a.2.2 ++ toLe 3 0
            | none => toLe 8 0) ++ toLe 120 0
      let wr ← lift (s.cellsVa t (le cm 120 8) rec')
      return ⟨w ++ wr, ⟨codec, if flush then 0 else Config.codecFn 17 key, ready.2, rest, ev.2⟩, ev.1, (fresh.map (fun f => blocksOf f.width f.height)).sum⟩

/-! ## Completion -/

/-- Device-formatted bytes take values only the device knows (R292). -/
def State.openAreas (s : State) (t : Nat) (l : List (Nat × Nat)) : State :=
  let v := s.free
  v.2.withMem (v.2.mem.store (freeCells v.1 (l.flatMap (s.runKeys (some t)))))

/-- CODEC_FRAME_COMPLETE (R295, R306): the frame of a command on its engine is done. What it leaves in the context and the pool takes effect
when the command completes (R296, R304). -/
def State.frameComplete (s : State) (id : Nat) : State :=
  match s.job? id, s.cmd? id with
  | some j, some cm =>
    (match j.engine with
    | none => s
    | some eng =>
      if s.regs.fatal then s
      else if j.enc then
        match (s.asBegan cm).encodeFrame j cm.bytes with
        | .error f => s.jobFails j f.fail.status f.fail.detail (some f)
        | .ok d =>
          let s1 := match d.floorAt with | some y => s.event ⟨0x0304, 0, 1, j.tenant, y⟩ | none => s
          let s2 := (s1.count (oEncoderBlocks eng) d.blocks).setJob { j with engine := none, done := some ⟨some d.ctx, none, d.keep⟩ }
          s2.assignEngines.setCmd { cm with wait := Wait.none, writes := d.writes }
      else
        match (s.asBegan cm).decodeFrame j cm.bytes with
        | .error f =>
          let s1 := f.2.foldl (fun (acc : State) ev => acc.event ev) s
          let v := s1.free
          let open' := f.1.status == stBitstream
          let s2 := if open' then v.2.withMem (v.2.mem.store (freeCells v.1 ((s.destRuns (some j.tenant) none cm.bytes).flatMap (s.runKeys (some j.tenant))))) else s1
          s2.jobFails j f.1.status f.1.detail f.1.fault
        | .ok d =>
          let s1 := d.events.foldl (fun (acc : State) ev => acc.event ev) s
          let s2 := (s1.count (oDecoderBlocks (eng - 4)) d.blocks).setJob { j with engine := none, done := some ⟨none, some d.ctx, []⟩ }
          (s2.chargeLate arbDecoders j.tenant d.blocks).assignEngines.setCmd { cm with wait := Wait.none, writes := d.writes })
  | _, _ => s

/-- The contexts a frame leaves (R296, R307). -/
def State.putContexts (s : State) (j : CodecJob) (d : CodecDone) : State :=
  let key := streamKey j.tenant j.ctx
  let streams := match d.enc with
    | some x => if j.hasCtx then Store.put s.codec.streams key x else s.codec.streams
    | none => s.codec.streams
  let decs := match d.dec with
    | some x => Store.put s.codec.decs key x
    | none => s.codec.decs
  { s with codec := { s.codec with streams := streams, decs := decs } }

/-- The areas of memory the context of a frame command in the view `g` takes. -/
def CodecJob.areas (j : CodecJob) (g : State) (c : Ctx) : List (Nat × Nat) :=
  if !j.hasCtx then []
  else if j.enc then (match g.streamAreas c j.ctx with | .ok l => l | .error _ => [])
  else (match g.readVa c j.ctx 64 with | .ok hd => [(j.ctx + 64, le hd 0 4 - 64)] | .error _ => [])

/-- A frame command completes with success: its context and references change at once (R296), the buffers its frame fills stay held and the
others return (R304). -/
def State.codecCommit (s : State) (c : Cmd) : State :=
  match s.job? c.id with
  | none => s
  | some j =>
    match j.done with
    | none => s.dropJob c.id
    | some d =>
      let s1 := (d.keep.foldl (fun (acc : State) b => acc.setBuf j.tenant b 2) s).putContexts j d
      let areas := j.areas (s.asBegan c) c.tenant
      ((if areas.isEmpty then s1 else s1.openAreas j.tenant areas).returnBufs j.tenant (j.bufs.filter (fun b => !d.keep.contains b))).dropJob c.id

/-- A frame command that fails after its frame was done: the context stays, the buffers return (R296). -/
def State.codecDrop (s : State) (c : Cmd) : State :=
  match s.job? c.id with
  | none => s
  | some j => (s.returnBufs j.tenant j.bufs).dropJob c.id

/-! ## Release -/

/-- ENCODE with OP 1 (R304). -/
def planRelease (s : State) (e : Env) : Plan :=
  let t := e.ctx.getD 0
  let work : Except Fail Work :=
    match s.readArray e.ctx (e.f 96 8) 4 (e.f 92 4) with
    | .error f => .error f.fail
    | .ok l =>
      match (List.range l.length).find? (fun i => let b := l.getD i 0; decide ((s.codecPool t).count ≤ b) || s.buf t b != 2 || (l.take i).contains b) with
      | some i => .error ⟨stObjectState, i % 4096 + 4096, none⟩
      | none => .ok { Work.none with bufs := l }
  (allChecks [need 0 88 (e.f 88 1 == 1), need 0 89 (e.f 89 3 == 0), need 0 92 (decide (1 ≤ e.f 92 4) && decide (e.f 92 4 ≤ 4096)), need 0 96 (e.f 96 8 % 4 == 0),
    need 0 104 (e.f 104 8 == 0), need 0 112 (e.f 112 8 == 0), need 0 120 (e.f 120 8 == 0)], work)

/-- A release begins: no other may name its buffers until it has completed, so that it returns all of them or none (R304). -/
def launchRelease (s : State) (e : Env) (id : Nat) : State :=
  match s.cmd? id with
  | some c => c.bufs.foldl (fun (acc : State) b => acc.setBuf (e.ctx.getD 0) b 3) s
  | none => s

/-- At a release's completion its buffers return; if it fails they stay held (R304). -/
def State.releaseDone (s : State) (c : Cmd) : State :=
  match c.tenant with
  | some t => if c.bufs.isEmpty then s else if c.status = stSuccess then s.returnBufs t c.bufs else c.bufs.foldl (fun (acc : State) b => acc.setBuf t b 2) s
  | none => s

/-- CODEC_SELF_CHECK_FAIL (R492): the engine's frame fails with unit 3 and the engine leaves service. -/
def State.selfCheckFail (s : State) (eng : Nat) : State :=
  if 6 ≤ eng ∨ s.codec.down.contains eng then s
  else
    let s1 := { s with codec := { s.codec with down := s.codec.down ++ [eng] } }
    let key := if eng < 4 then oCodecEncoders else oCodecDecoders
    let s2 := (s1.setObj key (s1.obj key - 1)).event ⟨0x0809, 1, 0, 0, eng⟩
    match s.codec.jobs.find? (fun j => j.engine == some eng) with
    | some j => s2.jobFails j stContained 3 none
    | none => s2

end Sys2Proof.Machine
end

