-- ==== Sys2Proof/Machine/Collective.lean ====
section
/-! DEFINITION. COLLECTIVE, the collectives of fused MATMUL and ATTEND (R174 to R176, R215 to R217), and how ranks exchange data (R374 to
R383). -/

namespace Sys2Proof.Machine

/-! ## Descriptors (Tables 14-3 and 14-4) -/

def parseRank (b : List Byte) : RankEntry :=
  ⟨le b 0 1, le b 2 2, le b 4 2, le b 6 2, le b 8 1, le b 10 2, le b 12 4, le b 16 8, le b 24 8, le b 32 8, le b 40 4, le b 48 8⟩

/-- The fields an entry's KIND does not use are 0. -/
def rankBytesOk (b : List Byte) : Bool :=
  le b 1 1 == 0 &&
  (if le b 0 1 = 1 then decide (le b 2 2 < 4096) && decide (le b 4 2 < 1024) && le b 6 58 == 0
   else le b 0 1 == 2 && le b 2 4 == 0 && decide (le b 8 1 ≤ 1) && le b 9 1 == 0 && (parsePostRef (le b 12 4)).ok && (parsePostRef (le b 12 4)).scope == 0
     && le b 44 4 == 0 && le b 56 8 == 0)

/-- The ranks whose data this rank holds: its own and the lineage ranks it hosts (R382). -/
def actedRanks (ranks : List RankEntry) (r : Nat) : List Nat :=
  indicesWhere ranks.length (fun j => j == r || (match ranks[j]? with | some e => e.kind == 2 && e.host == r | none => false))

/-- The device that answers for a rank. -/
def rankDevice (ranks : List RankEntry) (j : Nat) : Nat :=
  match ranks[j]? with
  | some e => if e.kind = 2 then (match ranks[e.host]? with | some h => h.device | none => 0) else e.device
  | none => 0

/-- What a collective descriptor gives. -/
structure CollInfo where
  key : CollKey
  params : CollParams
  rank : Nat
  ranks : List RankEntry
deriving DecidableEq, Repr

/-- The port of a lineage entry is trained to its node. -/
def State.lineageUp (s : State) (lport node : Nat) : Bool := s.linkState (16 + lport) == 4 && (s.port (16 + lport)).node == node

/-- Read and check a collective descriptor and its rank list. `fuse`: 0, or the FUSE_MODE of the command that names it. -/
def State.collDesc (s : State) (c : Ctx) (addr fuse : Nat) : Checks × Option CollInfo :=
  match s.readVa c addr 64 with
  | .error f => (⟨[], [f]⟩, none)
  | .ok d =>
    let t := c.getD 0
    let op := le d 1 1
    let n := le d 4 2
    let my := le d 6 2
    let ck := allChecks
      [need 9 0 (le d 0 1 == 1), need 9 1 (decide (1 ≤ op) && decide (op ≤ 5) && (fuse == 0 || op == 4 - fuse)),
       need 9 2 (if op ≤ 2 then decide (le d 2 1 ≤ 2) else le d 2 1 == 0), need 9 3 (le d 3 1 == 0),
       need 9 4 (decide (1 ≤ n) && decide (n ≤ 4096)), need 9 6 (decide (my < n)),
       need 9 8 (if op = 5 then decide (le d 8 2 < n) else le d 8 2 == 0), need 9 10 (le d 10 2 == 0), need 9 12 (le d 12 4 != 0),
       need 9 24 (le d 24 8 % 64 == 0), need 9 32 (le d 32 32 == 0)]
    if ck ≠ Checks.none then (ck, none)
    else match s.readVa c (le d 24 8) (64 * n) with
      | .error f => (⟨[], [f]⟩, none)
      | .ok rb =>
        let raw := (List.range n).map (fun i => (rb.drop (64 * i)).take 64)
        let ranks := raw.map parseRank
        let kindOf := fun j => ((ranks[j]?).map RankEntry.kind).getD 0
        let lineageOk := fun (e : RankEntry) => e.kind == 1 || (fuse == 0 && op != 2 && op != 4 && kindOf e.host == 1)
        let mine := ranks.filter (fun e => e.kind == 2 && e.host == my)
        let me := (ranks[my]?).map (fun e => e.kind == 1 && e.device == s.self && e.tenant == t)
        let ck2 := allChecks
          [need 9 24 (raw.all rankBytesOk && ranks.all lineageOk), need 9 6 (me == some true),
           need 9 24 (mine.all (fun e => s.lineageUp e.lport e.node)),
           (if mine.all (fun e => s.postInRange t (parsePostRef e.arrivePost).post) then Checks.none else ⟨[(9, 24, stPostAccess)], []⟩)]
        (ck2, some ⟨⟨s.obj (oTenantJobId t), le d 12 4, le d 16 8⟩, ⟨op, le d 2 1, n, le d 8 2, 0⟩, my, ranks⟩)

/-! ## Elements -/

def elemCount (t : Tensor) : Nat := ((List.range t.rank).map t.l).foldl (· * ·) 1

/-- The elements of a row: code and block scale. -/
def RowData.pairs (fmt : Nat) (r : RowData) : List (Nat × Nat) :=
  (List.range r.codes.length).map (fun j => (r.codes.getD j 0, if fmtMx fmt then r.scales.getD (j / 32) 127 else 127))

/-- A tensor's elements in native linear order (R376). -/
def State.tensorElems (s : State) (c : Ctx) (t : Tensor) : Except AccFault (List (Nat × Nat)) :=
  (s.readTensor c t).map (fun rows => rows.flatMap (RowData.pairs t.fmt))

def pairValue (fmt : Nat) (x : Nat × Nat) : Flagged Acx := LaneElem.decode ⟨decodeElem fmt x.1, if fmtMx fmt then x.2 else 127⟩

/-- Cut [lo, lo + n) of a tensor with rows of `row` elements where a block of 32 or a row ends. -/
def blockRuns (row : Nat) : Nat → Nat → Nat → List Nat
  | 0, _, _ => []
  | _ + 1, _, 0 => []
  | fuel + 1, lo, n + 1 =>
    let q := lo % max row 1
    let k := min (n + 1) (min (32 - q % 32) (max row 1 - q))
    k :: blockRuns row fuel (lo + k) (n + 1 - k)

/-- Values rounded to OUT's format, block by block (R66, R70, R71). -/
def roundSpan (fmt mode : Nat) (sat : Bool) (row lo : Nat) (vals : List (Flagged Acx)) : Slab :=
  let r := (blockRuns row vals.length lo vals.length).foldl (fun (acc : List (Flagged Acx) × Slab) k =>
    let o := roundRow fmt mode sat ⟨0, 0, 0, 0, 0⟩ (acc.1.take k)
    (acc.1.drop k, { acc.2 with elems := acc.2.elems ++ RowData.pairs fmt ⟨o.codes, o.scales⟩, flags := acc.2.flags ||| orFlags o.flags }))
    (vals, ⟨fmt, [], 0⟩)
  r.2

/-- Elements moved to OUT's format (R58, R59): the same codes where the formats are equal. -/
def movedSlab (fmt mode : Nat) (sat : Bool) (row lo : Nat) (x : Slab) : Slab :=
  if x.fmt = fmt then x
  else let r := roundSpan fmt mode sat row lo (x.elems.map (pairValue x.fmt)); { r with flags := r.flags ||| x.flags }

/-- Contributions in rank order, combined by the tree of R74 and rounded once (R377). -/
def reduceSpan (red fmt mode : Nat) (sat : Bool) (row lo n : Nat) (srcs : List Slab) : Slab :=
  let m := if red = 0 then 0 else if red = 1 then 3 else 4
  let one := fun i =>
    let xs := srcs.map (fun (x : Slab) => pairValue x.fmt (x.elems.getD i (0, 127)))
    let t := combineTree m 13 (xs.map (·.1))
    ((t.1, orFlags (xs.map (·.2)) ||| t.2) : Flagged Acx)
  roundSpan fmt mode sat row lo ((List.range n).map one)

def Slab.slice (x : Slab) (lo hi : Nat) : Slab := { x with elems := (x.elems.drop lo).take (hi - lo) }

/-! ## Chunks and pulls (R376, R379) -/

/-- Rank r's block of e elements. -/
def collBlock (e n r : Nat) : Nat × Nat := let p := ceilDiv e n; (min (r * p) e, min ((r + 1) * p) e)

/-- [lo, hi) cut at multiples of 65,536. -/
def cutChunks (lo hi : Nat) : List (Nat × Nat) :=
  (List.range (hi / 65536 + 1)).filterMap (fun i =>
    let a := max lo (65536 * i)
    let b := min hi (65536 * (i + 1))
    if a < b then some (a, b) else none)

def mkChunk (fmt : Nat) (x : Nat × Nat) (reduce : Bool) (pulls : List Pull) : Chunk :=
  ⟨x.1, x.2, reduce, pulls.length * ceilDiv ((x.2 - x.1) * fmtBits fmt) 8, pulls.isEmpty, pulls.map (fun p => ⟨p, 0, ⟨fmt, [], 0⟩⟩), false⟩

/-- x with its highest set bit cleared. -/
def clearTop (k : Nat) : Nat := k - 2 ^ Nat.log2 k

/-- The rank a broadcast is pulled from: the parent of the acted rank nearest the root (R379, R382). -/
def bcastParent (n root : Nat) (acts : List Nat) : Nat :=
  let rel := fun r => (r + n - root) % n
  let k := (acts.map rel).foldl min n
  (root + clearTop k) % n

/-- The chunks of rank r's OUT, and what each pulls. -/
def collChunks (p : CollParams) (ranks : List RankEntry) (fmt r : Nat) : List Chunk :=
  let n := p.nranks
  let acts := actedRanks ranks r
  let others := (List.range n).filter (fun q => !acts.contains q)
  match p.op with
  | 1 => (List.range n).flatMap (fun j => let b := collBlock p.e n j
      (cutChunks b.1 b.2).map (fun x => if acts.contains j then mkChunk fmt x true (others.map (fun q => ⟨q, 0, x.1, x.2⟩)) else mkChunk fmt x false [⟨j, 1, x.1, x.2⟩]))
  | 2 => let b := collBlock p.e n r
      (cutChunks 0 (b.2 - b.1)).map (fun x => mkChunk fmt x true (others.map (fun q => ⟨q, 0, b.1 + x.1, b.1 + x.2⟩)))
  | 3 => (List.range n).flatMap (fun j => (cutChunks (j * p.e) ((j + 1) * p.e)).map (fun x =>
      mkChunk fmt x false (if acts.contains j then [] else [⟨j, 0, x.1 - j * p.e, x.2 - j * p.e⟩])))
  | 4 => let k := p.e / n
      (List.range n).flatMap (fun j => (cutChunks (j * k) ((j + 1) * k)).map (fun x =>
        mkChunk fmt x false (if j = r then [] else [⟨j, 0, r * k + x.1 - j * k, r * k + x.2 - j * k⟩])))
  | _ => (cutChunks 0 p.e).map (fun x => mkChunk fmt x false (if acts.contains p.root then [] else [⟨bcastParent n p.root acts, 1, x.1, x.2⟩]))

/-- Where a chunk's data lie in the buffer they come from: the rank, and the range there. -/
def chunkSource (p : CollParams) (r : Nat) (ch : Chunk) : Nat × Nat × Nat :=
  match p.op with
  | 2 => let b := (collBlock p.e p.nranks r).1; (r, b + ch.lo, b + ch.hi)
  | 3 => let j := ch.lo / max p.e 1; (j, ch.lo - j * p.e, ch.hi - j * p.e)
  | 4 => let k := p.e / p.nranks; let j := ch.lo / max k 1; (j, r * k + ch.lo - j * k, r * k + ch.hi - j * k)
  | 5 => (p.root, ch.lo, ch.hi)
  | _ => (r, ch.lo, ch.hi)

/-! ## A begun collective -/

def State.coll? (s : State) (cmd : Nat) : Option Coll := s.fabric.colls.find? (fun c => c.cmd == cmd)
def State.setColl (s : State) (c : Coll) : State :=
  { s with fabric := { s.fabric with colls := s.fabric.colls.map (fun x => if x.cmd = c.cmd then c else x) } }

/-- `COLLECTIVES_ACTIVE` after the list of begun collectives changed. -/
def State.setColls (s : State) (l : List Coll) : State := ({ s with fabric := { s.fabric with colls := l } }).setObj oCollectivesActive l.length

def State.dropColl (s : State) (cmd : Nat) : State := s.setColls (s.fabric.colls.filter (fun c => c.cmd != cmd))

def Coll.acts (c : Coll) : List Nat := actedRanks c.ranks c.rank

/-- Elements this rank holds of an acted rank's IN. -/
def Coll.local (c : Coll) (q lo hi : Nat) : Option Slab :=
  let whole := fun (x : Slab) => if hi ≤ x.elems.length then some (x.slice lo hi) else none
  if q = c.rank then (c.inp.head?).bind whole else (c.hosted.find? (fun h => h.rank == q)).bind (fun h => whole h.inp)

/-- What a pull is answered with, once it exists here (R379). -/
def Coll.serve (c : Coll) (p : Pull) : Option Slab :=
  match p.part with
  | 0 => if c.fused = 0 then c.local p.rank p.lo p.hi else (c.inp.head?).map (fun x => x.slice p.lo p.hi)
  | 1 => match c.out.find? (fun o => decide (o.1 ≤ p.lo) && decide (p.hi ≤ o.1 + o.2.elems.length)) with
    | some o => some { o.2.slice (p.lo - o.1) (p.hi - o.1) with flags := if c.params.op = 1 then o.2.flags else 0 }
    | none => none
  | _ => (c.inp[1]?).map (fun x => x.slice p.lo p.hi)

/-- A chunk's finished elements, once what they need is here. -/
def Coll.finishChunk (c : Coll) (ch : Chunk) : Option Slab :=
  let src := chunkSource c.params c.rank ch
  if ch.reduce then
    let xs := (List.range c.params.nranks).mapM (fun q =>
      match ch.pulls.find? (fun p => p.pull.rank == q) with
      | some p => if p.state = 2 then some p.slab else none
      | none => c.local q src.2.1 src.2.2)
    xs.map (reduceSpan c.params.reduce c.outFmt c.outMode c.outSat c.outRow ch.lo (ch.hi - ch.lo))
  else match ch.pulls with
    | p :: _ => if p.state = 2 then some (movedSlab c.outFmt c.outMode c.outSat c.outRow ch.lo p.slab) else none
    | [] => (c.local src.1 src.2.1 src.2.2).map (movedSlab c.outFmt c.outMode c.outSat c.outRow ch.lo)

/-- Every chunk that can be finished is. -/
def Coll.finishChunks (c : Coll) : Coll :=
  if c.fused ≠ 0 then { c with chunks := c.chunks.map (fun ch => { ch with done := ch.pulls.all (fun p => p.state == 2) }) }
  else
    let r := c.chunks.map (fun ch => if ch.done then (ch, none) else match c.finishChunk ch with
      | some x => ({ ch with done := true }, some (ch.lo, x))
      | none => (ch, none))
    { c with chunks := r.map (·.1), out := c.out ++ r.filterMap (·.2) }

def Coll.allDone (c : Coll) : Bool := c.chunks.all Chunk.done

/-- The Riand ranks that pull from this one (R380). -/
def Coll.pullers (c : Coll) : List Nat :=
  let n := c.params.nranks
  let acts := c.acts
  (indicesWhere n (fun q => q != c.rank && ((c.ranks[q]?).map RankEntry.kind).getD 0 == 1)).filter (fun q =>
    if c.fused = 1 then c.inp.any (fun x => !x.elems.isEmpty)
    else if c.fused = 2 then false
    else (collChunks c.params c.ranks c.outFmt q).any (fun ch => ch.pulls.any (fun p => acts.contains p.pull.rank)))

/-- Devices with something outstanding toward them: pulls not landed, releases not received, partials not landed (R372). -/
def Coll.needs (c : Coll) : List Nat :=
  let pulls := c.chunks.flatMap (fun ch => (ch.pulls.filter (fun p => p.state != 2)).map (fun p => p.pull.rank))
  let rel := c.pullers.filter (fun q => !c.released.contains q)
  let parts := if c.fused = 2 then (List.range c.params.nranks).filter (fun q => q != c.rank && !c.from'.contains q) else []
  (pulls ++ rel ++ parts).map (rankDevice c.ranks)

/-! ## Failure and abort (R381) -/

/-- A collective ends early; `tell`: by this rank's own finding, which it sends to the others and raises as an event. -/
def State.abortColl (s : State) (c : Coll) (status detail : Nat) (tell : Bool) : State :=
  let s1 := (s.dropColl c.cmd).failCmdAs c.cmd status detail none true
  let s2 := { s1 with fabric := { s1.fabric with held := s1.fabric.held.filter (fun h => h.key != c.key),
                                                 early := s1.fabric.early.filter (fun x => x.key != c.key) } }
  if !tell then s2
  else
    let devs := (((List.range c.params.nranks).filter (fun q => q != c.rank)).map (rankDevice c.ranks)).eraseDups
    (devs.foldl (fun (acc : State) d => acc.originate c.tenant d 5 (.abort c.key status detail)) s2).event ⟨0x0401, 2, 1, c.tenant, c.key.id⟩

/-- The abort of another rank arrives (R381). -/
def State.abortReceived (s : State) (key : CollKey) (status detail : Nat) : State :=
  (s.fabric.colls.filter (fun c => c.key == key)).foldl (fun (acc : State) c => acc.abortColl c status detail false) s

/-- Collectives that need a device declared unreachable (R372). -/
def State.collsLose (s : State) (dev : Nat) : State :=
  (s.fabric.colls.filter (fun c => c.needs.contains dev)).foldl (fun (acc : State) c => acc.abortColl c stPeer 0 true) s

/-! ## Pulling and serving -/

/-- Pieces of a response of at most 4 KiB. -/
def pieceElems (fmt : Nat) : Nat := if fmt = 1 then 1024 else 2048

def pieces (n lo hi : Nat) : List (Nat × Nat) :=
  (List.range (ceilDiv (hi - lo) n)).map (fun i => (lo + n * i, min hi (lo + n * (i + 1))))

/-- Send the read requests of a chunk that are to be sent. -/
def State.sendPulls (s : State) (c : Coll) (again : Bool) : State :=
  let want := fun (ch : Chunk) (p : PullState) => ch.granted && (p.state == 0 || (again && p.state == 3))
  let s1 := s.setColl { c with chunks := c.chunks.map (fun ch => { ch with pulls := ch.pulls.map (fun p => if want ch p then { p with state := 1 } else p) }) }
  (c.chunks.flatMap (fun ch => ch.pulls.filter (want ch))).foldl (fun (acc : State) p =>
    acc.originate c.tenant (rankDevice c.ranks p.pull.rank) 2 (.readReq c.key c.params p.pull c.cmd)) s1

/-- The first field in which two descriptors differ, by offset; where only E differs the spec names none (log entry 12). -/
def paramsDiffer (a b : CollParams) : Option Nat :=
  if a.op ≠ b.op then some 1 else if a.reduce ≠ b.reduce then some 2 else if a.nranks ≠ b.nranks then some 4
  else if a.root ≠ b.root then some 8 else if a.e ≠ b.e then some (Config.unstated 1 [a.e, b.e] % 64) else none

/-- Answer a read request if its data exist; otherwise it stays held. -/
def State.tryServe (s : State) (h : HeldReq) : State × Bool :=
  match s.fabric.colls.find? (fun c => c.key == h.key && h.key.job != 0 && c.acts.contains h.pull.rank) with
  | none => (s, false)
  | some c =>
    match paramsDiffer h.params c.params with
    | some off => (s.abortColl c stInvalidField (fieldDetail 9 off) true, true)
    | none => match c.serve h.pull with
      | none => (s, false)
      | some x => ((pieces (pieceElems x.fmt) h.pull.lo h.pull.hi).foldl (fun (acc : State) r =>
          acc.originate c.tenant h.device 3 (.readResp h.key { h.pull with lo := r.1, hi := r.2 } h.requester (x.slice (r.1 - h.pull.lo) (r.2 - h.pull.lo)))) s, true)

/-- Serve what can be served of the held requests. -/
def State.serveHeld (s : State) : State :=
  s.fabric.held.foldl (fun (acc : State) h =>
    if !acc.fabric.held.contains h then acc
    else
      let r := acc.tryServe h
      if r.2 then { r.1 with fabric := { r.1.fabric with held := r.1.fabric.held.erase h } } else r.1) s

/-- Releases go to every device this rank pulled from, once its OUT is complete (R380). -/
def State.sendReleases (s : State) (c : Coll) : State :=
  if !c.allDone || c.released.contains c.rank || c.fused == 2 then s
  else
    let devs := ((c.chunks.flatMap (fun ch => ch.pulls.map (fun p => rankDevice c.ranks p.pull.rank)))).eraseDups
    devs.foldl (fun (acc : State) d => acc.originate c.tenant d 5 (.data (.release c.key c.rank)))
      (s.setColl { c with released := c.released ++ [c.rank] })

/-! ## Lineage ranks (R382) -/

/-- IN as a hosted rank's contribution has it: the same descriptor at IN_ADDR. -/
def hostedTensor (t : Tensor) (addr : Nat) : Tensor := { t with base := addr, sbase := if fmtMx t.fmt then addr + t.sbase - t.base else t.sbase }

def State.readHosted (s : State) (c : Coll) : Except AccFault Coll := do
  let b := ((s.cmd? c.cmd).map Cmd.bytes).getD []
  let hs ← c.hosted.mapM (fun h => do
    let used := c.params.op == 1 || c.params.op == 3 || (c.params.op == 5 && c.params.root == h.rank)
    if !h.arrived || !used || !h.inp.elems.isEmpty then return h
    else
      let t := (s.tensorAt (some c.tenant) (le b 96 8) 1 none false false true).2
      let x ← s.tensorElems (some c.tenant) (hostedTensor t (((c.ranks[h.rank]?).map RankEntry.inAddr).getD 0))
      return { h with inp := ⟨t.fmt, x, 0⟩ })
  return { c with hosted := hs }

/-- The elements of OUT in linear order. -/
def Coll.flat (c : Coll) : List (Nat × Nat) := (sortBy (fun (o : Nat × Slab) => o.1) c.out).flatMap (fun o => o.2.elems)

/-- OUT as dense bytes: codes, then the scales of a block-scaled format. -/
def Coll.flatBytes (c : Coll) : List Byte :=
  let x := c.flat
  toLe (ceilDiv (x.length * fmtBits c.outFmt) 8) (packCodes (fmtBits c.outFmt) (x.map (·.1)))
    ++ (if fmtMx c.outFmt then (List.range (ceilDiv x.length 32)).map (fun i => BitVec.ofNat 8 (x.getD (32 * i) (0, 127)).2) else [])

def State.lineageSend (s : State) (lport cmd tag : Nat) (x : Thrumyo) : State :=
  { s with fabric := { s.fabric with lineageOut := s.fabric.lineageOut ++ [(lport, x)], lineageWait := s.fabric.lineageWait ++ [(lport, cmd, tag)] } }

/-- Remote writes of at most 4 KiB. -/
def State.lineageWrites (s : State) (lport cmd tag addr : Nat) (bs : List Byte) : State × Nat :=
  let parts := (chunks 4096 bs).zip (List.range (ceilDiv bs.length 4096))
  (parts.foldl (fun (acc : State) p => acc.lineageSend lport cmd tag (.write (addr + 4096 * p.2) p.1)) s, parts.length)

/-- Results start on their way to the lineage ranks (R382 step 3). -/
def State.startHosted (s : State) (c : Coll) : State :=
  if !c.allDone then s
  else c.hosted.foldl (fun (acc : State) h =>
    match c.ranks[h.rank]?, acc.coll? c.cmd with
    | some e, some cc =>
      if h.arrived && h.stage == 0 then
        let r := acc.lineageWrites e.lport c.cmd (h.rank + 1) e.outAddr c.flatBytes
        r.1.setColl { cc with hosted := cc.hosted.map (fun x => if x.rank = h.rank then { x with stage := 1, unacked := r.2 } else x) }
      else acc
    | _, _ => acc) s

/-! ## The end of a collective -/

/-- The block scales of a row: one scale per block, where its elements agree on one (log entry 12). -/
def rowScales (fmt : Nat) (row : List (Nat × Nat)) : List Nat :=
  if fmtMx fmt then (chunks 32 row).map (fun b =>
    let sc := b.map (·.2)
    if sc.all (fun x => x == sc.headD 127) then sc.headD 127 else Config.unstated 2 sc % 256) else []

/-- The cells that write rows of elements over a tensor. -/
def State.elemRows (s : State) (c : Ctx) (t : Tensor) (x : List (Nat × Nat)) : Except AccFault (List (Nat × Byte)) := do
  let w ← ((outerIndices ((List.range (t.rank - 1)).map (fun d => t.l (d + 1)))).zip (chunks (t.l 0) x)).mapM (fun p => do
    let a ← s.writeRow c t p.1 (p.2.map (·.1))
    let b ← s.writeScales c t p.1 (rowScales t.fmt p.2)
    return a ++ b)
  return w.flatten

/-- A tile laid out again with the progress it has made. -/
def keepProgress (old : List Tile) (t : Tile) : Tile :=
  match old.find? (fun o => o.prod == t.prod && o.row0 == t.row0 && o.col0 == t.col0 && o.seg == t.seg) with
  | some o => { o with flags := t.flags }
  | none => t

/-- A begun command gets the result of its plan. -/
def State.setWork (s : State) (id : Nat) (pre : List (Nat × Byte)) (r : Except Fail Work) (e : Env) (sd : Option Nat) : State :=
  match s.cmd? id, r with
  | some c, .ok w =>
    let dig := if bit (le c.bytes 1 1) 1 then s.workDigest e w (le c.bytes 80 8) else []
    (s.addStepDigest e sd w).setCmd
      { c with writes := pre ++ w.writes, endFlags := w.flags, tiles := w.tiles.map (keepProgress c.tiles), stationary := w.stationary, stats := w.stats,
               slots := w.marks, wait := Wait.none, digest := dig }
  | some _, .error f => s.failCmd id f.status f.detail f.fault
  | none, _ => s

/-! ### Fused commands -/

def fuseMode (b : List Byte) : Nat := match opcodeOf b with | 0x01 => le b 123 1 % 4 | 0x06 => le b 115 1 % 4 | _ => 0

/-- COLL_DESC of a fused command's parameter block. -/
def State.fuseDesc (s : State) (c : Ctx) (b : List Byte) : Except AccFault Nat :=
  (s.readVa c (if opcodeOf b = 0x01 then le b 112 8 else le b 104 8) 64).map (fun p => le p 56 8)

def fusedPlan (b : List Byte) : State → Env → Option Fuse → Plan := if opcodeOf b = 0x01 then planMatmul else planAttend

/-- A tensor gathered by FUSE_MODE 1: its part, the dimension split by rank, and its positions there on each rank (R174, R215). -/
structure Gathered where
  part : Nat
  t : Tensor
  dim : Nat
  per : Nat
deriving DecidableEq, Repr

def Gathered.range (g : Gathered) (r : Nat) : Nat × Nat := (min (r * g.per) (g.t.l g.dim), min ((r + 1) * g.per) (g.t.l g.dim))

def State.gathered (s : State) (c : Ctx) (b : List Byte) (n : Nat) : List Gathered :=
  if opcodeOf b = 0x01 then
    let t := (s.tensorAt c (le b 88 8) 1 none false true true).2
    let tr := match s.readVa c (le b 112 8) 256 with | .ok p => (parsePrologue p).transA | .error _ => false
    let d := if tr then 0 else 1
    [⟨0, t, d, t.l d / n⟩]
  else match s.readVa c (le b 104 8) 512 with
    | .error _ => []
    | .ok p =>
      let k := (s.tensorAt c (le p 288 8) 9 none false false true).2
      let v := (s.tensorAt c (le p 296 8) 9 none false false true).2
      let per := le b 116 1 / n * segmentLen (k.l 1) (le b 116 1)
      [⟨0, k, 1, per⟩, ⟨2, v, 1, per⟩]

/-- Every index (i₀, i₁, …) of a gathered tensor with its position in [lo, hi). -/
def Gathered.indices (g : Gathered) (lo hi : Nat) : List (List Nat) :=
  (outerIndices ((List.range g.t.rank).map (fun d => if d = g.dim then hi - lo else g.t.l d))).map (fun ix => ix.set g.dim (lo + ix.getD g.dim 0))

def State.portion (s : State) (c : Ctx) (g : Gathered) (r : Nat) : Except AccFault Slab := do
  let rg := g.range r
  let x ← (g.indices rg.1 rg.2).mapM (fun ix => do
    let row ← s.readRow c g.t (ix.drop 1) (g.t.l 0)
    return (RowData.pairs g.t.fmt row).getD (ix.headD 0) (0, 127))
  return ⟨g.t.fmt, x, 0⟩

def Gathered.count (g : Gathered) (r : Nat) : Nat := let rg := g.range r; (g.indices rg.1 rg.2).length

/-- What this rank pulls under FUSE_MODE 1. -/
def fusedChunks (gs : List Gathered) (n rank : Nat) : List Chunk :=
  gs.flatMap (fun g => ((List.range n).filter (fun q => q != rank)).flatMap (fun q =>
    (cutChunks 0 (g.count q)).map (fun x => mkChunk g.t.fmt x false [⟨q, g.part, x.1, x.2⟩])))

/-- Element k of rank q's portion of a part, once the pull it came with has landed whole (R174, R215). -/
def Coll.elemAt (c : Coll) (q part k : Nat) : Option (Nat × Nat) :=
  ((c.chunks.flatMap (fun ch => ch.pulls)).find? (fun p => p.pull.rank == q && p.pull.part == part && p.state == 2
    && decide (p.pull.lo ≤ k) && decide (k < p.pull.hi))).bind (fun p => p.slab.elems[k - p.pull.lo]?)

/-- The rank that a position along the gathered dimension belongs to. -/
def Gathered.ownerOf (g : Gathered) (n pos : Nat) : Nat :=
  ((List.range n).find? (fun q => decide ((g.range q).1 ≤ pos) && decide (pos < (g.range q).2))).getD 0

/-- Where the element at an index stands in its owner's portion. -/
def Gathered.place (g : Gathered) (q : Nat) (ix : List Nat) : Nat :=
  let rg := g.range q
  let dims := (List.range g.t.rank).map g.t.l
  flatIndex (0 :: dims.set g.dim (rg.2 - rg.1)) (ix.set g.dim (ix.getD g.dim 0 - rg.1))

/-- Every element at a position is this rank's own or has landed. -/
def Coll.landedAt (c : Coll) (g : Gathered) (pos : Nat) : Bool :=
  let q := g.ownerOf c.params.nranks pos
  q == c.rank || (g.indices pos (pos + 1)).all (fun ix => (c.elemAt q g.part (g.place q ix)).isSome)

/-- The rows landed so far written into a gathered tensor; the others are written back as they are. -/
def State.gatherCells (s : State) (cx : Ctx) (c : Coll) (g : Gathered) : Except AccFault (List (Nat × Byte)) := do
  let dims := (List.range g.t.rank).map g.t.l
  let here ← (g.indices 0 (g.t.l g.dim)).mapM (fun ix => do
    let row ← s.readRow cx g.t (ix.drop 1) (g.t.l 0)
    return (RowData.pairs g.t.fmt row).getD (ix.headD 0) (0, 127))
  let elems := ((outerIndices dims).zip here).map (fun x =>
    let q := g.ownerOf c.params.nranks (x.1.getD g.dim 0)
    if q = c.rank then x.2 else (c.elemAt q g.part (g.place q x.1)).getD x.2)
  s.elemRows cx g.t elems

/-- Memory as a fused command sees it before it has gathered: what poison its operands hold shows once they have landed. -/
def State.unpoisoned (s : State) : State := s.withMem { s.mem with poison := [] }

/-- The checks of a fused command, with those of its collective. Its tiles are there from its beginning (R174, R175); its result waits for the
other ranks. -/
def withFuse (plan : State → Env → Option Fuse → Plan) (s : State) (e : Env) : Plan :=
  let m := fuseMode e.cmd
  if m ≠ 1 ∧ m ≠ 2 then plan s e none
  else match s.fuseDesc e.ctx e.cmd with
    | .error _ => plan s e none
    | .ok a =>
      if a = 0 ∨ a % 64 ≠ 0 then ((plan s e none).1.and (need 9 56 false), (plan s e none).2)
      else
        let d := s.collDesc e.ctx a m
        match d.2 with
        | none => (d.1.and (plan s e none).1, (plan s e none).2)
        | some i =>
          let p := plan s e (some ⟨i.params.nranks, i.rank, []⟩)
          let r := (plan (if m = 1 then s.unpoisoned else s) e (some ⟨i.params.nranks, i.rank, []⟩)).2
          (d.1.and p.1, r.map (fun w => { Work.none with wait := Wait.remote, tiles := w.tiles, stationary := w.stationary }))

/-- The owner of a row of partials (R175, R216). -/
def partOwner (m n row : Nat) : Nat := row % max m 1 / max (ceilDiv m n) 1

/-- The rows a fused command's collective shares out: A's, or each head's query rows. -/
def State.fusedRows (s : State) (c : Ctx) (b : List Byte) : Nat :=
  let t := (s.tensorAt c (le b 88 8) 1 none false true true).2
  if opcodeOf b = 0x01 then
    (let tr := match s.readVa c (le b 112 8) 256 with | .ok p => (parsePrologue p).transA | .error _ => false
     t.l (if tr then 0 else 1))
  else t.ext.getD 1 1

/-- A fused command's plan as it stands: `cells` what has been gathered, `partials` what has landed. -/
def State.fusedWork (s : State) (c : Coll) (cm : Cmd) (cells : List (Nat × Byte)) : Except Fail Work × Env × Option Nat :=
  let g := s.asBegan cm
  let pe := g.planEnv cm.src cm.bytes
  ((fusedPlan cm.bytes (g.withMem (g.mem.store cells)) pe.1 (some ⟨c.params.nranks, c.rank, c.partials⟩)).2, pe.1, pe.2)

/-- What FUSE_MODE 1 has gathered so far. -/
def State.fusedCells (s : State) (c : Coll) (cm : Cmd) : Except AccFault (List (Nat × Byte)) :=
  let g := s.asBegan cm
  (g.gathered (some c.tenant) cm.bytes c.params.nranks).foldlM (fun (acc : List (Nat × Byte)) x => do
    let w ← g.gatherCells (some c.tenant) c x
    return acc ++ w) []

/-- The tiles of a FUSE_MODE 1 command see what has landed (R174). -/
def State.refreshFused (s : State) (c : Coll) : State :=
  match s.cmd? c.cmd with
  | none => s
  | some cm =>
    if c.fused ≠ 1 then s
    else match s.fusedCells c cm with
      | .error _ => s
      | .ok cells => match (s.unpoisoned.fusedWork c cm cells).1 with
        | .ok w => s.setCmd { cm with tiles := w.tiles.map (keepProgress cm.tiles), stationary := w.stationary }
        | .error _ => s

/-- Whether what a tile reads is not all here yet. A MATMUL's tile needs every 128-row block of A it reads; one that gathers rows by index, and
an ATTEND's, every row (R174, R215). -/
def State.tileHeld (s : State) (cm : Cmd) (t : Tile) : Bool :=
  match s.coll? cm.id with
  | none => false
  | some c =>
    if c.fused ≠ 1 then false
    else
      let g := s.asBegan cm
      let cx : Ctx := some c.tenant
      let byIndex := match g.readVa cx (le cm.bytes 112 8) 256 with | .ok p => (parsePrologue p).gatherA | .error _ => false
      !(g.gathered cx cm.bytes c.params.nranks).all (fun x =>
        let m := x.t.l x.dim
        let rows := if opcodeOf cm.bytes = 0x01 ∧ !byIndex then
            (let lo := t.row0 / 128 * 128; (List.range (min m (alignUp (t.row0 + t.rows) 128) - lo)).map (fun i => lo + i))
          else List.range m
        rows.all (c.landedAt x))

/-- The partials of a tile that other ranks own leave as it commits (R175, R216); after the last tile each of them is told that it has all. -/
def State.pushPartials (s : State) (c : Coll) (m : Nat) (ps : Partials) (last : Bool) : State :=
  ((List.range c.params.nranks).filter (fun q => q != c.rank)).foldl (fun (acc : State) q =>
    let mine := ps.filter (fun p => partOwner m c.params.nranks p.1.1 == q)
    let dev := rankDevice c.ranks q
    let s1 := (chunks 64 mine).foldl (fun (acc : State) x => acc.originate c.tenant dev 5 (.data (.partials c.key c.rank q x false))) acc
    if last then s1.originate c.tenant dev 5 (.data (.partials c.key c.rank q [] true)) else s1) s

/-- The partials of one tile: of its rows, columns and segment in a product; of its query rows, head and batch index in an ATTEND. -/
def tilePartials (b : List Byte) (m : Nat) (t : Tile) (ps : Partials) : Partials :=
  ps.filter (fun p =>
    let row := p.1.1 % max m 1
    if opcodeOf b = 0x01 then p.1.1 / max m 1 == t.prod && decide (t.row0 ≤ row) && decide (row < t.row0 + t.rows)
      && decide (t.col0 ≤ p.1.2.1) && decide (p.1.2.1 < t.col0 + t.cols) && p.1.2.2 == le b 123 1 / 4 + t.seg
    else if t.grant = 0 then true
    else p.1.1 / max m 1 == t.prod / max (ceilDiv m 256) 1 && row / 256 == t.prod % max (ceilDiv m 256) 1)

/-- A tile of a FUSE_MODE 2 command has committed; `last`: it was the last. -/
def State.sendPartials (s : State) (cm : Cmd) (t : Tile) (last : Bool) : State :=
  match s.coll? cm.id with
  | none => s
  | some c =>
    if c.fused ≠ 2 then s
    else match (s.fusedWork c cm []).1 with
      | .ok w =>
        let m := (s.asBegan cm).fusedRows (some c.tenant) cm.bytes
        s.pushPartials c m (tilePartials cm.bytes m t w.partials) last
      | .error _ => s

/-- Partials arrive, or are found to have arrived (R175). -/
def Coll.take (c : Coll) (rank : Nat) (vals : Partials) (final : Bool) : Coll :=
  { c with partials := c.partials ++ vals, from' := if final then c.from' ++ [rank] else c.from' }

/-- A fused command's data are here: its result is that of the command computed whole (R176, R217). The partials of its own rows are
combined, and their grants go back (R158). -/
def State.finishFused (s : State) (c : Coll) : State :=
  match s.cmd? c.cmd with
  | none => s.dropColl c.cmd
  | some cm =>
    match (if c.fused = 1 then s.fusedCells c cm else (.ok [] : Except AccFault (List (Nat × Byte)))) with
    | .error f => (s.dropColl c.cmd).failCmd c.cmd f.fail.status f.typ (some f)
    | .ok w =>
      let r := s.fusedWork c cm w
      let s1 := s.dropColl c.cmd
      let s2 := if c.fused = 2 ∧ cm.tiles.all (fun t => t.state == .done) then
          (s1.dropGrants cm).setCmd { cm with tiles := cm.tiles.map (fun t => { t with granted := 0 }) } else s1
      s2.setWork c.cmd w r.1 r.2.1 r.2.2

/-- Whether a collective has all it waits for (R380, R382). -/
def Coll.ready (c : Coll) : Bool :=
  if c.fused = 2 then (List.range c.params.nranks).all (fun q => q == c.rank || c.from'.contains q)
  else c.allDone && c.pullers.all (fun q => c.released.contains q) && c.hosted.all (fun h => h.stage == 3)

/-- OUT is written and the command can complete. -/
def State.endColl (s : State) (c : Coll) : State :=
  if !c.ready then s
  else if c.fused ≠ 0 then s.finishFused c
  else match s.cmd? c.cmd with
    | none => s.dropColl c.cmd
    | some cm =>
      let t := (s.tensorAt (some c.tenant) (le cm.bytes 104 8) 2 none true false true).2
      match s.elemRows (some c.tenant) t c.flat with
      | .error f => (s.dropColl c.cmd).failCmd c.cmd f.fail.status f.typ (some f)
      | .ok w => (s.dropColl c.cmd).setCmd { cm with writes := w, endFlags := orFlags (c.out.map (fun o => o.2.flags)), wait := Wait.none }

/-- Everything a collective can do now. -/
def State.collStep (s : State) (id : Nat) : State :=
  match s.coll? id with
  | none => s
  | some c =>
    match s.readHosted c with
    | .error f => (s.dropColl id).failCmd id f.fail.status f.typ (some f)
    | .ok c1 =>
      let c2 := c1.finishChunks
      let s1 := (s.setColl c2).sendReleases c2
      let s2 := ((match s1.coll? id with | some c3 => s1.startHosted c3 | none => s1) : State).refreshFused c2
      match s2.coll? id with | some c4 => s2.endColl c4 | none => s2

/-- Everything the collectives can do now, held requests included. -/
def State.collProgress (s : State) : State := ((s.fabric.colls.map Coll.cmd).foldl State.collStep s).serveHeld

/-! ## COLLECTIVE -/

/-- The extents IN and OUT must have (R376). -/
def extentsOk (op n r e eo : Nat) : Bool :=
  match op with
  | 2 => let b := collBlock e n r; decide (b.1 < b.2) && eo == b.2 - b.1
  | 3 => eo == n * e
  | 4 => e % n == 0 && eo == e
  | _ => eo == e

/-- COLLECTIVE's checks (R374 to R376, R382). -/
def planCollective (s : State) (e : Env) : Plan :=
  let d := s.collDesc e.ctx (e.f 88 8) 0
  let root := match d.2 with
    | some i => i.params.op != 5 || (actedRanks i.ranks i.rank).contains i.params.root
    | none => true
  let hasIn := d.2.isSome && root
  let it := if hasIn then s.tensorAt e.ctx (e.f 96 8) 1 none false false true else (Checks.none, Tensor.zero)
  let ot := s.tensorAt e.ctx (e.f 104 8) 2 none true false true
  let eo := elemCount ot.2
  let ei := if hasIn then elemCount it.2 else eo
  let fits := match d.2 with
    | some i => given (it.2.logd && ot.2.logd || !hasIn && ot.2.logd) ((need 1 16 (i.params.op != 4 || ei % i.params.nranks == 0)).and (need 2 16 (extentsOk i.params.op i.params.nranks i.rank ei eo)))
    | none => Checks.none
  (allChecks
    [need 0 88 (e.f 88 8 % 64 == 0), need 0 96 (e.f 96 8 % 128 == 0 && (d.2.isNone || (hasIn == (e.f 96 8 != 0)))), need 0 104 (e.f 104 8 % 128 == 0),
     need 0 112 (decide (e.f 112 1 < 8) && decide (e.f 112 1 % 4 ≤ 1)), need 0 113 (e.f 113 15 == 0), d.1, it.1, ot.1, fits],
   if hasIn && it.1 = Checks.none then
     match s.tensorElems e.ctx it.2 with
     | .ok _ => .ok { Work.none with wait := Wait.remote }
     | .error f => .error f.fail
   else .ok { Work.none with wait := Wait.remote })

/-- A begun collective joins the others; one that needs a device already unreachable aborts at once (R381). -/
def State.startColl (s : State) (c : Coll) : State :=
  let s1 := (s.setColls (s.fabric.colls ++ [c])).arrivals
  if c.needs.any (fun d => s1.fabric.unreachable.contains d) then s1.abortColl c stPeer 0 true else s1.collProgress

def launchCollective (s : State) (e : Env) (id : Nat) : State :=
  match (s.collDesc e.ctx (e.f 88 8) 0).2 with
  | none => s
  | some i =>
    let it := if e.f 96 8 = 0 then (Checks.none, Tensor.zero) else s.tensorAt e.ctx (e.f 96 8) 1 none false false true
    let ot := (s.tensorAt e.ctx (e.f 104 8) 2 none true false true).2
    let inp : Slab := if e.f 96 8 = 0 then ⟨ot.fmt, [], 0⟩
      else match s.tensorElems e.ctx it.2 with | .ok x => ⟨it.2.fmt, x, 0⟩ | .error _ => ⟨it.2.fmt, [], 0⟩
    let p := { i.params with e := if e.f 96 8 = 0 then elemCount ot else elemCount it.2 }
    let own := if p.op = 5 ∧ p.root ≠ i.rank then [] else [inp]
    let hosted := ((actedRanks i.ranks i.rank).filter (fun q => q != i.rank)).map (fun q => (⟨q, false, ⟨inp.fmt, [], 0⟩, 0, 0⟩ : Hosted))
    s.startColl ⟨id, i.key, e.ctx.getD 0, p, i.rank, i.ranks, 0, own, ot.fmt, e.f 112 1 % 4, bit (e.f 112 1) 2, ot.l 0, [],
      collChunks p i.ranks inp.fmt i.rank, [], hosted, [], [], false⟩

/-- What a fused command's collective starts with. -/
def launchFused (s : State) (e : Env) (id : Nat) : State :=
  let m := fuseMode e.cmd
  if m ≠ 1 ∧ m ≠ 2 then s
  else match s.fuseDesc e.ctx e.cmd with
    | .error _ => s
    | .ok a => match (s.collDesc e.ctx a m).2 with
      | none => s
      | some i =>
        let n := i.params.nranks
        let gs := s.gathered e.ctx e.cmd n
        let inp := if m = 1 then gs.map (fun g => match s.portion e.ctx g i.rank with | .ok x => x | .error _ => ⟨g.t.fmt, [], 0⟩) else []
        let total := ((gs.head?).map (fun g => elemCount g.t)).getD 0
        let c0 : Coll := ⟨id, i.key, e.ctx.getD 0, { i.params with e := if m = 1 then total else 0 }, i.rank, i.ranks, m, inp, 1, 0, false, 1, [],
          if m = 1 then fusedChunks gs n i.rank else [], [], [], [], [], false⟩
        let early := s.fabric.early.filter (fun x => x.key == i.key && x.owner == i.rank)
        let c := early.foldl (fun (acc : Coll) x => acc.take x.rank x.vals x.final) c0
        let s1 := { s with fabric := { s.fabric with early := s.fabric.early.filter (fun x => !(x.key == i.key && x.owner == i.rank)) } }
        let noTiles := match s1.cmd? id with | some cm => cm.tiles.isEmpty | none => true
        let s2 := if m == 2 && noTiles then s1.pushPartials c 1 [] true else s1
        s2.startColl c

/-! ## What arrives -/

/-- The staging area (R379). -/
def stagingBytes : Nat := 2 ^ 29

def State.stagingUsed (s : State) : Nat :=
  ((s.fabric.colls.map (fun c => ((c.chunks.filter (fun ch => ch.granted && !ch.done && !ch.pulls.isEmpty)).map Chunk.bytes).sum))).sum

/-- The chunks that wait for a staging grant, as (tag, command × 2^32 + chunk), in arrival order. -/
def State.stagingReqs (s : State) : List (Nat × Nat) :=
  s.fabric.colls.flatMap (fun c => (List.range c.chunks.length).filterMap (fun i => match c.chunks[i]? with
    | some ch => if ch.granted || ch.pulls.isEmpty then none else some (ctxTag (some c.tenant), c.cmd * 2 ^ 32 + i)
    | none => none))

/-- A staging grant of a chunk: its read requests go out (R379). The arbiter's next chunk gets it, once there is room (Table 15-1). -/
def State.stagingGrant (s : State) (cmd chunk : Nat) : State :=
  match s.coll? cmd with
  | none => s
  | some c => match c.chunks[chunk]? with
    | none => s
    | some ch =>
      if ch.granted || decide (stagingBytes < s.stagingUsed + ch.bytes) then s
      else match s.grantTo arbStaging 65536 (cmd * 2 ^ 32 + chunk) s.stagingReqs with
        | none => s
        | some g =>
          let c1 := { c with chunks := c.chunks.set chunk { ch with granted := true } }
          let s1 := g.1.setColl c1
          (s1.chargeArb arbStaging g.2 ch.bytes (s1.stagingReqs.any (fun r => r.1 == g.2))).sendPulls c1 false

/-- Refused requests are sent again (R380). -/
def State.collRetry (s : State) (cmd : Nat) : State :=
  match s.coll? cmd with
  | some c => s.sendPulls c true
  | none => s

/-- A read request of another rank (R379, R380). -/
def State.readRequest (s : State) (dev : Nat) (key : CollKey) (p : CollParams) (pull : Pull) (req : Nat) : State :=
  let h : HeldReq := ⟨dev, key, p, pull, req⟩
  let r := s.tryServe h
  if r.2 then r.1
  else if s.fabric.held.length < 4096 then { s with fabric := { s.fabric with held := s.fabric.held ++ [h] } }
  else s.originate tagDevice dev 3 (.readRefused key pull req)

def Coll.onPull (c : Coll) (pull : Pull) (f : PullState → PullState) : Coll :=
  { c with chunks := c.chunks.map (fun ch => { ch with pulls := ch.pulls.map (fun p =>
      if p.pull.rank = pull.rank ∧ p.pull.part = pull.part ∧ p.pull.lo ≤ pull.lo ∧ pull.hi ≤ p.pull.hi then f p else p) }) }

/-- A piece of a pull lands. -/
def State.readResponse (s : State) (key : CollKey) (pull : Pull) (req : Nat) (x : Slab) : State :=
  match s.coll? req with
  | some c =>
    if c.key ≠ key then s
    else (s.setColl (c.onPull pull (fun p =>
      if p.state = 1 ∧ p.pull.lo + p.slab.elems.length = pull.lo then
        { p with slab := ⟨x.fmt, p.slab.elems ++ x.elems, p.slab.flags ||| x.flags⟩, state := if pull.hi = p.pull.hi then 2 else 1 }
      else p))).collProgress
  | none => s

/-- A request was refused; it is sent again later (R380). -/
def State.readRefusal (s : State) (key : CollKey) (pull : Pull) (req : Nat) : State :=
  match s.coll? req with
  | some c => if c.key ≠ key then s else s.setColl (c.onPull pull (fun p => if p.state = 1 then { p with state := 3 } else p))
  | none => s

/-- Pushed partials, or a release. -/
def State.collData (s : State) (b : DataBody) : State :=
  match b with
  | .partials key rank owner vals final =>
    (match s.fabric.colls.find? (fun c => c.key == key && c.rank == owner && c.fused == 2) with
     | some c => (s.setColl (c.take rank vals final)).collProgress
     | none => { s with fabric := { s.fabric with early := s.fabric.early ++ [⟨key, rank, owner, vals, final⟩] } })
  | .release key rank =>
    (let l : List Coll := s.fabric.colls.map (fun (c : Coll) => if c.key = key then { c with released := c.released ++ [rank] } else c)
     ({ s with fabric := { s.fabric with colls := l } } : State).collProgress)

/-- A lineage peer acknowledges the oldest transaction of its port: writes first, then the signal (R382). -/
def State.lineageAck (s : State) (lport : Nat) : State :=
  match s.fabric.lineageWait.find? (fun w => w.1 == lport) with
  | none => s
  | some w =>
    let s1 := { s with fabric := { s.fabric with lineageWait := s.fabric.lineageWait.erase w } }
    if w.2.2 = 0 then
      match s1.cmd? w.2.1 with
      | some c => s1.setCmd { c with packets := c.packets - 1, wait := if c.packets ≤ 1 ∧ c.wait = Wait.remote then Wait.none else c.wait }
      | none => s1
    else match s1.coll? w.2.1 with
      | none => s1
      | some c =>
        match c.hosted.find? (fun h => h.rank + 1 == w.2.2), c.ranks[w.2.2 - 1]? with
        | some h, some e =>
          let put := fun (x : Hosted) => { c with hosted := c.hosted.map (fun y => if y.rank = x.rank then x else y) }
          if h.stage = 2 then (s1.setColl (put { h with stage := 3, unacked := 0 })).collProgress
          else if h.unacked ≤ 1 then (s1.setColl (put { h with stage := 2, unacked := 1 })).lineageSend e.lport c.cmd (h.rank + 1) (.signal e.signal e.signalValue)
          else s1.setColl (put { h with unacked := h.unacked - 1 })
        | _, _ => s1

end Sys2Proof.Machine
end

