-- ==== Sys2Proof/Machine/Put.lean ====
section
/-! DEFINITION. PUT (R369, R370) and its write packets, and the remote waits and signals of R366 and R367. -/

namespace Sys2Proof.Machine

/-! ## PUT -/

def putScope (ref : Nat) : Nat := bits ref 12 2
def putTenant (ref : Nat) : Nat := bits ref 14 10

/-- DST_REF keeps Table 14-1. -/
def putRefOk (ref : Nat) : Bool :=
  let dev := bits ref 0 6
  let brg := bits ref 6 6
  let lp := bits ref 24 1
  let node := bits ref 25 16
  bits ref 41 23 == 0 &&
  match putScope ref with
  | 0 => dev == 0 && brg == 0 && lp == 0 && node == 0
  | 1 => brg == 0 && lp == 0 && node == 0
  | 2 => lp == 0 && node == 0
  | _ => dev == 0 && brg == 0

/-- The device a PUT goes to (scopes 1 and 2). -/
def State.putDevice (s : State) (ref : Nat) : Nat := bits ref 0 6 + 64 * (if putScope ref = 1 then s.boroughNumber else bits ref 6 6)

/-- Whether a job may write into a tenant (R370). -/
def State.putRights (s : State) (job t : Nat) : Bool := job != 0 && s.obj (oTenantJobId t) == job

/-- PUT: to this device at once, elsewhere as write packets or Thrumyo writes. -/
def planPut (s : State) (e : Env) : Plan :=
  let ref := e.f 104 8
  let n := e.f 112 8
  let job := s.obj (oTenantJobId (e.ctx.getD 0))
  let rights := if putRefOk ref ∧ putScope ref = 0 ∧ !s.putRights job (putTenant ref) then ⟨[(0, 104, stPostAccess)], []⟩ else Checks.none
  let checks := allChecks [need 0 104 (putRefOk ref), rights, need 0 112 (decide (1 ≤ n) && decide (n ≤ 2 ^ 40)), need 0 120 (e.f 120 8 == 0)]
  (checks,
    if checks ≠ Checks.none then .ok Work.none
    else if putScope ref = 3 ∧ !s.lineageUp (bits ref 24 1) (bits ref 25 16) then .error ⟨stPeer, 0, none⟩
    else match s.readVa e.ctx (e.f 88 8) n with
      | .error f => .error f.fail
      | .ok d =>
        if putScope ref = 0 then
          match s.cellsVa (some (putTenant ref)) (e.f 96 8) d with
          | .ok w => .ok { Work.none with writes := w }
          | .error f => .error f.fail
        else .ok { Work.none with wait := Wait.remote })

/-- The packets leave. -/
def launchPut (s : State) (e : Env) (id : Nat) : State :=
  let ref := e.f 104 8
  let d := match s.readVa e.ctx (e.f 88 8) (e.f 112 8) with | .ok d => d | .error _ => []
  let parts := chunks 4096 d
  match s.cmd? id with
  | none => s
  | some c =>
    if putScope ref = 0 then s
    else if putScope ref = 3 then
      let r := s.lineageWrites (bits ref 24 1) id 0 (e.f 96 8) d
      r.1.setCmd { c with packets := r.2 }
    else
      let dev := s.putDevice ref
      if s.fabric.unreachable.contains dev then s.failCmd id stPeer 0 none
      else
        let job := c.began.job
        (parts.zip (List.range parts.length)).foldl (fun (acc : State) p =>
          acc.originate (ctxTag e.ctx) dev 1 (.write ⟨job, putTenant ref, e.f 96 8 + 4096 * p.2, p.1, id⟩)) (s.setCmd { c with packets := parts.length })

/-- A write packet is applied here: rights, translation, then the bytes (R370); its answer goes back. -/
def State.applyWrite (s : State) (src : Nat) (b : WriteBody) : State :=
  let answer := fun (x : State) (st dt : Nat) (f : Option (Nat × Nat × Nat)) => x.originate tagDevice src 4 (.writeResult b.put st dt f)
  if !s.putRights b.job b.tenant then answer s stPostAccess (fieldDetail 0 104) none
  else match s.cellsVa (some b.tenant) b.va b.data with
    | .ok w => answer (s.withMem (s.mem.store w)) 0 0 none
    | .error f =>
      -- what the packet names and can be written is left open (R104, R370)
      let v := s.free
      answer (v.2.withMem (v.2.mem.store (freeCells v.1 (s.runKeys (some b.tenant) (b.va, b.data.length))))) f.fail.status f.typ (some (f.va, f.typ, f.level))

/-- The answer to one write packet. -/
def State.writeResult (s : State) (put st dt : Nat) (f : Option (Nat × Nat × Nat)) : State :=
  match s.cmd? put with
  | none => s
  | some c =>
    if c.wait ≠ Wait.remote ∨ opcodeOf c.bytes ≠ 0x21 then s
    else if st ≠ 0 then s.failCmd put st dt (f.map (fun x => (⟨x.2.1, x.1, x.2.2⟩ : AccFault)))
    else s.setCmd { c with packets := c.packets - 1, wait := if c.packets ≤ 1 then Wait.none else Wait.remote }

/-! ## Remote posts -/

/-- A subscription arrives (R366, R367). -/
def State.subscribed (s : State) (src post job th w : Nat) : State :=
  if !s.remoteUseOk post job then s.originate tagDevice src 4 (.post (.refused w))
  else if th ≤ s.postValue post then s.originate tagDevice src 4 (.post (.reply post (s.postValue post) w))
  else if 16384 ≤ s.fabric.subs.length then s.originate tagDevice src 4 (.post (.full w))
  else
    let s1 := { s with fabric := { s.fabric with subs := s.fabric.subs ++ [(⟨post, th, src, w⟩ : Sub)] } }
    s1.setObj oRemoteSubscriptionsHeld s1.fabric.subs.length

/-- A refused subscription is sent again (R367). -/
def State.resubscribe (s : State) (waiter : Nat) : State :=
  match s.fabric.waits.find? (fun w => w.waiter == waiter) with
  | some w =>
    if w.state = 4 then (s.setWait waiter 0).originate (ctxTag (srcCtx s w.src)) w.device 4 (.subscribe w.post w.job w.threshold w.waiter) else s
  | none => s

/-- A command's remote signal has been answered; a refusal gives its status to a command that had none of its own. -/
def State.signalAnswered (s : State) (cmd st dt : Nat) : State :=
  match s.cmd? cmd with
  | some c => if c.wait = Wait.signal then
      s.setCmd (if st = 0 ∨ c.status ≠ stSuccess then { c with wait := Wait.none, signalled := true }
        else { c with wait := Wait.none, signalled := true, status := st, detail := dt }) else s
  | none => s

/-- A post update arrives (R365 to R367). -/
def State.postUpdate (s : State) (src : Nat) (b : PostBody) : State :=
  match b with
  | .signal post job op value cmd =>
    if s.remoteUseOk post job then
      (((s.signalPost post op value).tracePost 3 (op - 1) (s.postTenant post) 0 post ((s.signalPost post op value).postValue post)).originate tagDevice src 4
        (.post (.applied cmd))).collProgress
    else s.originate tagDevice src 4 (.post (.denied cmd))
  | .reply post value waiter =>
    (match s.fabric.waits.find? (fun w => w.waiter == waiter) with
     | some w => if w.state = 0 ∨ w.state = 4 then
         (s.setWait waiter 1).tracePost 4 0 (srcCtx s w.src) (s.srcOrigin w.src).1 (post % 2 ^ 18 + w.device % 64 * 2 ^ 18 + w.device / 64 * 2 ^ 24 + 2 ^ 31) value else s
     | none => s)
  | .full waiter => s.setWait waiter 4
  | .refused waiter => s.setWait waiter 2
  | .applied cmd => s.signalAnswered cmd 0 0
  | .denied cmd => s.signalAnswered cmd stPostAccess (fieldDetail 0 72)

end Sys2Proof.Machine
end

