-- ==== Sys2Proof/Machine/Receive.lean ====
section
/-! DEFINITION. End-to-end delivery: receiving, acknowledging, resending, and a peer that cannot be reached (R371 to R373). -/

namespace Sys2Proof.Machine

/-- Apply a packet of classes 0 to 2 (Table 13-7). -/
def State.applyData (s : State) (k : Packet) : State :=
  match k.body with
  | .write b => s.applyWrite k.hdr.src b
  | .readReq key p pull r => s.readRequest k.hdr.src key p pull r
  | .readResp key pull r x => s.readResponse key pull r x
  | .readRefused key pull r => s.readRefusal key pull r
  | .writeResult put st dt f => s.writeResult put st dt f
  | .post b => s.postUpdate k.hdr.src b
  | .subscribe post job th w => s.subscribed k.hdr.src post job th w
  | .data b => s.collData b
  | .abort key st dt => s.abortReceived key st dt
  | _ => s

/-- A device is heard of again. -/
def State.heardFrom (s : State) (dev : Nat) : State :=
  { s with fabric := { s.fabric with unreachable := s.fabric.unreachable.filter (fun d => d != dev) } }

/-- Apply the next packet of a stream, then those held behind it; an acknowledgement at least every 16 (R351, R371). -/
def State.applyNext (s : State) (apply : State → Packet → State) (src cls : Nat) (k : Packet) : Nat → State
  | 0 => s
  | fuel + 1 =>
    let v := s.streamIn src cls
    let s1 := apply (s.setStreamIn src cls { v with next := (v.next + 1) % 2 ^ 32, early := v.early.filter (fun x => x.hdr.seq != k.hdr.seq), sinceAck := v.sinceAck + 1 }) k
    let s2 := if 16 ≤ v.sinceAck + 1 then s1.sendE2eAck src cls else s1
    match (s2.streamIn src cls).early.find? (fun x => x.hdr.seq == (s2.streamIn src cls).next) with
    | some e => s2.applyNext apply src cls e fuel
    | none => s2

/-- A sequenced packet addressed to this device arrives (R350, R351, R371, R373). -/
def State.e2eReceive (s : State) (apply : State → Packet → State) (k : Packet) : State :=
  if k.hdr.dst ≠ s.self ∨ s.regs.fatal then s
  else if !k.hdr.crcOk then s.enterSquare.count oLinkE2eCrcDrops 1
  else if k.hdr.stale then s.enterSquare.count oE2eDuplicates 1
  else
    let s0 := s.enterSquare.heardFrom k.hdr.src
    let cls := typeClass k.hdr.typ
    let v := s0.streamIn k.hdr.src cls
    let ahead := (k.hdr.seq + 2 ^ 32 - v.next) % 2 ^ 32
    if ahead = 0 then s0.applyNext apply k.hdr.src cls k (v.early.length + 1)
    else if ahead < 2 ^ 31 then
      (if v.early.any (fun x => x.hdr.seq == k.hdr.seq) ∨ 256 ≤ v.early.length then s0
       else s0.setStreamIn k.hdr.src cls { v with early := v.early ++ [k] })
    else (s0.count oE2eDuplicates 1).sendE2eAck k.hdr.src cls

/-- A packet of one of the types named arrives and is applied as data. -/
def State.receiveTyped (s : State) (types : List Nat) (k : Packet) : State :=
  if types.contains k.hdr.typ then s.e2eReceive State.applyData k else s

/-- An acknowledgement (R371, R372): what it covers leaves the retransmit buffer. -/
def State.e2eAck (s : State) (k : Packet) : State :=
  match k.body with
  | .ack cls seq =>
    if k.hdr.dst ≠ s.self ∨ s.regs.fatal then s
    else if !k.hdr.crcOk then s.enterSquare.count oLinkE2eCrcDrops 1
    else
      let s0 := s.enterSquare.heardFrom k.hdr.src
      let v := s0.streamOut k.hdr.src cls
      let left := v.unacked.filter (fun p => decide (2 ^ 31 ≤ (seq + 2 ^ 32 - p.2.hdr.seq) % 2 ^ 32))
      if left.length = v.unacked.length then s0
      else (s0.setStreamOut k.hdr.src cls { v with unacked := left, interval := 1 }).drainStream k.hdr.src cls (v.waiting.length + 1)
  | _ => s

/-- 2 µs after a packet was applied, its acknowledgement goes out (R371). -/
def State.e2eAckTimer (s : State) (src cls : Nat) : State :=
  if (s.streamIn src cls).sinceAck = 0 then s else s.sendE2eAck src cls

/-- The retransmission interval of a stream has passed (R372). -/
def State.e2eRetx (s : State) (dst cls : Nat) : State :=
  let v := s.streamOut dst cls
  if v.unacked.isEmpty then s
  else
    let s1 := (s.setStreamOut dst cls { v with interval := min 16 (2 * v.interval) }).count oE2eRetransmits v.unacked.length
    v.unacked.foldl (fun (acc : State) k => acc.forward k.2 none (some k.1)) s1

/-- Streams to and from a device are discarded. -/
def State.dropStreams (s : State) (dev : Nat) : State :=
  { s with fabric := { s.fabric with streamsOut := s.fabric.streamsOut.filter (fun p => p.1 / 4 != dev),
                                     streamsIn := s.fabric.streamsIn.filter (fun p => p.1 / 4 != dev) } }

/-- A begun command with something outstanding toward a device (R368, R372). -/
def State.cmdLoses (s : State) (dev : Nat) (c : Cmd) : State :=
  if c.wait = Wait.signal then
    (if s.refDevice (parsePostRef (le c.bytes 72 4)) = dev then
      s.setCmd (if c.status = stSuccess then { c with wait := Wait.none, signalled := true, status := stPeer, detail := 0 }
        else { c with wait := Wait.none, signalled := true }) else s)
  else if c.wait = Wait.remote ∧ opcodeOf c.bytes = 0x21 ∧ putScope (le c.bytes 104 8) ≠ 3 ∧ s.putDevice (le c.bytes 104 8) = dev then s.failCmd c.id stPeer 0 none
  else s

/-- Everything outstanding toward a device ends (R368, R372). -/
def State.loseDevice (s : State) (dev : Nat) : State :=
  let s1 := s.dropStreams dev
  let s2 := { s1 with fabric := { s1.fabric with
      waits := s1.fabric.waits.map (fun (w : RemoteWait) => if w.device = dev ∧ (w.state = 0 ∨ w.state = 4) then { w with state := 3 } else w),
      subs := s1.fabric.subs.filter (fun (x : Sub) => x.device != dev),
      held := s1.fabric.held.filter (fun (h : HeldReq) => h.device != dev),
      unreachable := s1.fabric.unreachable ++ [dev] } }
  let s3 := s2.setObj oRemoteSubscriptionsHeld s2.fabric.subs.length
  ((s3.exec.cmds.foldl (fun (acc : State) c => acc.cmdLoses dev c) s3).collsLose dev).event ⟨0x0400, 2, 0, 0, dev % 4096⟩

/-- The devices of the borough one more hop away over ports both ends show live. -/
def State.widen (s : State) (l : List Nat) : List Nat :=
  l.foldl (fun (acc : List Nat) d => (List.range 12).foldl (fun (acc : List Nat) p =>
    let n := neighbour d p
    if s.mapBit d p && s.mapBit n (if p % 4 < 2 then p + 2 else p - 2) && !acc.contains n then acc ++ [n] else acc) acc) l

/-- The devices of the borough the map shows a way to. -/
def State.reachable (s : State) : List Nat := (List.range 64).foldl (fun l _ => s.widen l) [s.deviceNumber]

/-- Whether the map shows no way to a device of the city (R353, R357). -/
def State.noRoute (s : State) (dev : Nat) : Bool :=
  let lost := fun (d : Nat) => s.route (mkPacket s.self (d + 64 * s.boroughNumber) 1 0 (.abort ⟨0, 0, 0⟩ 0 0)) d none == .dropped || !s.reachable.contains d
  if dev / 64 = s.boroughNumber then dev != s.self && lost (dev % 64)
  else match s.gateway (dev / 64) with
    | some g => g.1 != s.deviceNumber && lost g.1
    | none => true

/-- A device is declared unreachable (R372): a stream without progress, or no route, for the time the rule gives. -/
def State.e2eUnreachable (s : State) (dev : Nat) : State :=
  if s.fabric.unreachable.contains dev ∨ dev = s.self then s
  else if (List.range 4).any (fun c => !(s.streamOut dev c).unacked.isEmpty) ∨ s.noRoute dev then s.loseDevice dev
  else s

/-- A peer's boot epoch as an advertisement gives it (R373). -/
def State.peerEpoch (s : State) (d boot : Nat) : State :=
  let old := Store.get 0 s.fabric.peerBoot d
  let s1 := { s with fabric := { s.fabric with peerBoot := Store.set 0 s.fabric.peerBoot d boot } }
  if old = 0 ∨ old = boot then s1 else (s1.loseDevice (d + 64 * s1.boroughNumber)).heardFrom (d + 64 * s1.boroughNumber)

end Sys2Proof.Machine
end

