-- ==== Sys2Proof/Machine/Links.lean ====
section
/-! DEFINITION. Links: training and the states of a port (R338 to R344), flits (R345 to R348), lost ports (R355) and lineage ports
(R359, R360, R382). -/

namespace Sys2Proof.Machine

/-! ## The state of a port -/

def State.setLink (s : State) (p st : Nat) : State := (s.setObj (oLinkState p) st).traceLink p st (s.port p).width

def linkEvent (code cls p param : Nat) : EventRec := ⟨code, cls, 4, p, param⟩

/-- Packets that never leave one link. -/
def linkLocal (k : Packet) : Bool := decide (9 ≤ k.hdr.typ)

/-- A port leaves ACTIVE or DEGRADED: its map bit and the packets not acknowledged, which are routed again (R344, R355). -/
def State.unloadPort (s : State) (p : Nat) : State :=
  let v := s.port p
  let ks := ((v.replay.filter ReplayFlit.last).map (fun f => (f.tag, f.pkt)) ++ v.txq).filter (fun k => !linkLocal k.2)
  let s1 := (s.setPort p { v with replay := [], txq := [] }).mapChanged p false
  ks.foldl (fun (acc : State) k => acc.forward k.2 none k.1) s1

/-- A port stops and goes to another state; causes as event 0x0201 gives them. -/
def State.stopPort (s : State) (p st cause : Nat) : State :=
  let up := s.portUp p
  let s1 := s.setLink p st
  let s2 := if up then (s1.event (linkEvent 0x0201 1 p cause)).unloadPort p else s1
  let v := s2.port p
  s2.setPort p { Port.idle with delayNs := v.delayNs }

/-- A port is retrained (R339). -/
def State.retrain (s : State) (p cause : Nat) : State := s.stopPort p 2 cause

/-- The discovery packet of a port (R341). -/
def State.sendDiscovery (s : State) (p : Nat) : State :=
  s.outPacket p (mkPacket s.self s.self 10 0 (.discovery s.boroughNumber s.deviceNumber p (s.obj oModuleSerial)))

/-- The whole map with its epochs (R344). -/
def State.sendParams (s : State) (p : Nat) : State :=
  let lsas := (List.range 64).map (fun d => match s.lsaOf d with | .lsa _ b e _ => (b, e) | _ => (0, 0))
  s.outPacket p (mkPacket s.self s.self 11 0 (.params 512 (s.port p).width (lsas.map (·.1)) (lsas.map (·.2))))

/-- Training ends at step 4, or fails (R339, R340). -/
def State.linkTraining (s : State) (p : Nat) (ok : Bool) : State :=
  let v := s.port p
  if 16 ≤ p ∨ s.linkState p ≠ 2 ∨ v.retryArmed then s
  else if ok then
    ((s.setPort p { Port.idle with width := v.width, upper := v.upper, delayNs := v.delayNs, credits := List.replicate 16 512 }).setLink p 3).sendDiscovery p
  else if v.width = 8 then
    (if v.fails + 1 < 8 then s.setPort p { v with fails := v.fails + 1, retryArmed := true }
     else s.setPort p { v with fails := 0, width := 4, upper := false, retryArmed := true })
  else if !v.upper then s.setPort p { v with upper := true, retryArmed := true }
  else (s.setPort p { Port.idle with retryArmed := true, delayNs := v.delayNs }).setLink p 1

/-- The wait before a new attempt has passed (R340). -/
def State.trainRetry (s : State) (p : Nat) : State :=
  let v := s.port p
  if 16 ≤ p ∨ !v.retryArmed then s
  else
    let s1 := s.setPort p { v with retryArmed := false }
    if s.linkState p = 1 then s1.setLink p 2 else s1

def peerBorough (x : Nat) : Nat := byteOf x 0
def peerDevice (x : Nat) : Nat := byteOf x 1
def peerPort (x : Nat) : Nat := byteOf x 2

/-- The check of R341. -/
def State.peerOk (s : State) (p : Nat) : Bool :=
  let x := s.obj (oLinkPeer p)
  if 12 ≤ p then peerBorough x != s.boroughNumber
  else peerBorough x == s.boroughNumber && peerDevice x == neighbour s.deviceNumber p && peerPort x == (if p % 4 < 2 then p + 2 else p - 2)

/-- Whether the numbers this device needs for discovery are confirmed (R341). -/
def State.numbered (s : State) : Bool := s.deviceNumber != 0xFF && s.obj oTopoBoroughConfirmed == 1

/-- The port carries traffic: ACTIVE at width 8, else DEGRADED (R337, R338). -/
def State.portActive (s : State) (p : Nat) : State :=
  let v := s.port p
  let st := if v.width = 8 then 4 else 5
  let ev := if v.width = 8 then linkEvent 0x0200 0 p (v.width + 16 * st) else linkEvent 0x0202 1 p (b2n v.upper)
  (((s.setLink p st).event ev).mapChanged p true).pump p

/-- The check of R341, when the peer's packet arrives and when a number of this device changes. -/
def State.checkPeer (s : State) (p : Nat) : State :=
  let st := s.linkState p
  let v := s.port p
  if 16 ≤ p ∨ !v.heard ∨ !(st == 3 || st == 4 || st == 5 || st == 6) then s
  else if !s.numbered then
    (if st = 3 then s else (((s.setLink p 3).unloadPort p).setPort p { (s.port p) with replay := [], txq := [], accepted := false }))
  else if s.peerOk p then
    (if st = 4 ∨ st = 5 then s
     else
       let s1 := if st = 6 then s.setLink p 3 else s
       let s2 := if v.accepted then s1 else (s1.setPort p { v with accepted := true }).sendParams p
       if v.params then s2.portActive p else s2)
  else if st = 6 then s
  else
    let x := s.obj (oLinkPeer p)
    let s1 := (s.setLink p 6).event (linkEvent 0x0203 0 p (peerDevice x % 64 + peerBorough x % 64 * 64 + peerPort x % 16 * 4096))
    let s2 := if st = 3 then s1 else s1.unloadPort p
    s2.setPort p { (s2.port p) with accepted := false }

/-- Both numbers of this device are checked again on every port. -/
def State.recheckPeers (s : State) : State := (List.range 16).foldl State.checkPeer s

/-- A discovery packet (R341); one that arrives on a port in use tells that a number of the peer has changed. -/
def State.discovered (s : State) (p : Nat) (k : Packet) : State :=
  match k.body with
  | .discovery borough device port serial =>
    if 16 ≤ p ∨ s.linkState p < 3 then s
    else if !k.hdr.crcOk then s.count oLinkE2eCrcDrops 1
    else
      let w := (s.port p).width
      let x := borough % 256 + device % 256 * 2 ^ 8 + port % 256 * 2 ^ 16 + w * 2 ^ 24 + serial % 2 ^ 64 * 2 ^ 64
      ((s.setObj (oLinkPeer p) x).setPort p { s.port p with heard := true }).checkPeer p
  | _ => s

/-- Keep the higher epoch of each device (R344). -/
def State.mergeMaps (s : State) (bitsL epochs : List Nat) : State :=
  (List.range 64).foldl (fun (acc : State) d =>
    let e := epochs.getD d 0
    if d = acc.deviceNumber then (if acc.obj oRoutingEpoch < e then (acc.setObj oRoutingEpoch e).event ⟨0x0204, 0, 0, 0, e⟩ else acc)
    else if Store.get 0 acc.fabric.mapEpochs d < e then
      { acc with fabric := { acc.fabric with mapEpochs := Store.set 0 acc.fabric.mapEpochs d e } }.setObj oLinkMap (setBits (acc.obj oLinkMap) (16 * d) 16 (bitsL.getD d 0))
    else acc) s

/-- Credits, width and maps of the peer (Table 13-4 steps 4 and 6). A link map is of one borough: what comes over an Avenue is another's and
is not merged (R344; log entry 116). -/
def State.paramsReceived (s : State) (p : Nat) (k : Packet) : State :=
  match k.body with
  | .params _ _ b e =>
    if 16 ≤ p ∨ s.linkState p ≠ 3 then s
    else if !k.hdr.crcOk then s.count oLinkE2eCrcDrops 1
    else
      let s0 := s.setPort p { s.port p with params := true }
      let s1 := if p < 12 then s0.mergeMaps b e else s0
      if (s1.port p).accepted then s1.portActive p else s1
  | _ => s

/-- A link-state advertisement, from a Street port (R344, R373). -/
def State.lsaReceived (s : State) (p : Nat) (k : Packet) : State :=
  match k.body with
  | .lsa d b e boot =>
    if d = s.deviceNumber ∨ 64 ≤ d ∨ 12 ≤ p ∨ s.linkState p < 3 then s
    else if !k.hdr.crcOk then s.count oLinkE2eCrcDrops 1
    else
      let s0 := s.peerEpoch d boot
      if Store.get 0 s0.fabric.mapEpochs d < e then
        ({ s0 with fabric := { s0.fabric with mapEpochs := Store.set 0 s0.fabric.mapEpochs d e } }.setObj oLinkMap (setBits (s0.obj oLinkMap) (16 * d) 16 b)).floodLsa d (some p)
      else s0
  | _ => s

/-- A port is enabled or disabled (R339, R363). -/
def State.linkEnabled (s : State) (p : Nat) (on : Bool) : State :=
  if on then (if s.linkState p = 0 then (s.setPort p Port.idle).setLink p 2 else s)
  else if s.linkState p = 0 then s else s.stopPort p 0 4

/-! ## Flits -/

/-- One bit of the reflected CRC of R346. -/
def linkCrcBit (c : Nat) : Nat := if c % 2 = 1 then (c / 2) ^^^ 0x82F63B78 else c / 2

def linkCrcByte (c : Nat) (b : Byte) : Nat := (List.range 8).foldl (fun c _ => linkCrcBit c) (c ^^^ b.toNat)

/-- The CRC of R346. -/
def flitCrc (bs : List Byte) : Nat := (bs.foldl linkCrcByte 0xFFFFFFFF) ^^^ 0xFFFFFFFF

def flitType (f : List Byte) : Nat := bits (le f 0 2) 12 2

/-- A flit passes R345 and R346. -/
def flitOk (f : List Byte) : Bool :=
  flitCrc (f.take 252) == le f 252 4 && decide (flitType f ≤ 1) && bits (le f 0 2) 14 2 == 0 && bits (le f 2 2) 13 3 == 0
    && bits (le f 4 2) 14 2 == 0 && bits (le f 6 2) 14 2 == 0 && bits (le f 8 2) 15 1 == 0 && le f 10 2 == 0

/-- Send an ACK, with the credits owed (R347, R348). -/
def State.linkAck (s : State) (p : Nat) (nak : Bool) : State :=
  let v := s.port p
  let s1 := s.setPort p { v with sinceAck := 0, owed := List.replicate 16 0 }
  { s1 with fabric := { s1.fabric with acksSent := s1.fabric.acksSent ++ [(p, v.rxSeq, nak)] } }

/-- Credits a flit returns. -/
def creditIn (l : List Nat) (x : Nat) : List Nat := l.set (bits x 0 4) (min 512 (l.getD (bits x 0 4) 0 + bits x 4 10))

/-- What ACK and NAK release and resend (R347). -/
def State.ackIn (s : State) (p ack : Nat) (nak : Bool) : State :=
  let v := s.port p
  let left := match v.replay.findIdx? (fun r => r.fseq == ack) with | some i => v.replay.drop (i + 1) | none => v.replay
  if !nak then s.setPort p { v with replay := left, nakCount := 0 }
  else
    let n := if v.nakCount ≠ 0 ∧ v.nakAck = ack then v.nakCount + 1 else 1
    let s1 := (s.setPort p { v with replay := left, nakAck := ack, nakCount := n }).count (oLinkReplays p) left.length
    if 3 ≤ n then s1.retrain p 2 else s1

/-- The slots of an accepted flit, by VC (Table 13-5): (slots left of the packet, its VC, slots owed). -/
def takeSlots (f : List Byte) (left vc : Nat) (owed : List Nat) : Nat × Nat × List Nat :=
  (List.range 15).foldl (fun (a : Nat × Nat × List Nat) i =>
    let h := f.drop (12 + 16 * i)
    let a1 := if bit (le f 8 2) i then (2 + le h 4 2 % 512, le h 1 1 % 16, a.2.2) else a
    if a1.1 = 0 then a1 else (a1.1 - 1, a1.2.1, a1.2.2.set a1.2.1 (a1.2.2.getD a1.2.1 0 + 1))) (left, vc, owed)

/-- A flit arrives (R345 to R348). `fixed`: FEC codewords corrected on the port since the last one. -/
def State.flitReceived (s0 : State) (p : Nat) (f : List Byte) (fixed : Nat) : State :=
  let s := s0.count (oLinkFecCorrected p) fixed
  let v := s.port p
  if 16 ≤ p ∨ s.linkState p < 3 then s0
  else if !flitOk f then
    let s1 := s.count (oLinkCrcErrors p) 1
    if flitType f = 0 ∨ v.rxGap then s1 else (s1.setPort p { v with rxGap := true }).linkAck p true
  else
    let s1 := s.setPort p { v with credits := creditIn (creditIn v.credits (le f 4 2)) (le f 6 2) }
    let s2 := s1.ackIn p (bits (le f 2 2) 0 12) (bit (le f 2 2) 12)
    let w := s2.port p
    let s3 :=
      if flitType f = 0 ∨ s2.linkState p < 3 then s2
      else if bits (le f 0 2) 0 12 = (w.rxSeq + 1) % 4096 then
        let t := takeSlots f w.rxLeft w.rxVc w.owed
        let s4 := s2.setPort p { w with rxSeq := (w.rxSeq + 1) % 4096, rxGap := false, sinceAck := w.sinceAck + 1, rxLeft := t.1, rxVc := t.2.1, owed := t.2.2 }
        if 64 ≤ w.sinceAck + 1 then s4.linkAck p false else s4
      else if w.rxGap then s2
      else (s2.setPort p { w with rxGap := true }).linkAck p true
    s3.pump p

/-- 200 ns after a flit was accepted (R347). -/
def State.linkAckTimer (s : State) (p : Nat) : State :=
  if 16 ≤ p ∨ s.linkState p < 3 ∨ (s.port p).sinceAck = 0 then s else s.linkAck p false

/-- 5 µs without ACK progress while flits are outstanding (R347). -/
def State.replayTimeout (s : State) (p : Nat) : State :=
  if 16 ≤ p ∨ !s.portUp p ∨ (s.port p).replay.isEmpty then s else s.retrain p 2

/-- Loss of signal, or 2 µs without a valid flit (R355; Table 19-1 names lineage ports too). -/
def State.portLost (s : State) (p cause : Nat) : State :=
  if s.linkState p < 3 then s
  else if 16 ≤ p then ((s.setPort p Port.idle).setLink p 2).event (linkEvent 0x0201 1 p cause)
  else s.retrain p cause

/-- R342. -/
def State.symbolErrors (s : State) (p : Nat) : State := if 16 ≤ p ∨ !s.portUp p then s else s.retrain p 3

/-- A packet in transit (R352 to R357); its E2E_CRC is not checked here (R350). -/
def State.transit (s : State) (p : Nat) (k : Packet) : State :=
  if k.hdr.dst = s.self ∨ !s.portUp p ∨ linkLocal k then s else s.forward k (some p) none

/-! ## Lineage ports -/

/-- `LINEAGE_PORT_MODE` is written: the port retrains, or is disabled (R359). -/
def State.lineageMode (s : State) (i mode : Nat) : State :=
  let s1 := (s.setPort (16 + i) Port.idle).setLink (16 + i) (if mode = 0 then 0 else 2)
  if mode = 0 ∧ s.linkState (16 + i) = 4 then s1.event (linkEvent 0x0201 1 (16 + i) 4) else s1

/-- A lineage port has trained in a mode, or failed to (R359, R360). -/
def State.lineageTrained (s : State) (i : Nat) (mode node : Nat) : State :=
  let want := s.obj (oLineagePortMode i)
  let st := s.linkState (16 + i)
  if !(st == 1 || st == 2) then s
  else if (mode = 1 ∧ (want = 1 ∨ want = 3)) ∨ (mode = 2 ∧ (want = 2 ∨ want = 3)) then
    ((s.setPort (16 + i) { Port.idle with mode := mode, node := node }).setLink (16 + i) 4).event (linkEvent 0x0205 0 (16 + i) mode)
  else s.setLink (16 + i) 1

def State.lineageAnswer (s : State) (i : Nat) (x : Thrumyo) : State :=
  { s with fabric := { s.fabric with lineageOut := s.fabric.lineageOut ++ [(i, x)] } }

/-- A transaction the device does not implement is refused and counted (R359); no object reports the count. -/
def State.lineageRefuse (s : State) (i : Nat) : State :=
  { s with fabric := { s.fabric with lineageRefused := Store.set 0 s.fabric.lineageRefused i (Store.get 0 s.fabric.lineageRefused i + 1) } }.lineageAnswer i .unsupported

/-- Whether a transaction is one the device implements, its payload at most 4 KiB (R359). -/
def Thrumyo.known : Thrumyo → Bool
  | .write _ d => decide (d.length ≤ 4096)
  | .read _ n => decide (n ≤ 4096)
  | .signal _ _ => true
  | _ => false

/-- A Thrumyo transaction arrives (R359, R382). Whether a remote signal adds or sets, the spec does not say (log entry 12). -/
def State.lineageTransaction (s : State) (i : Nat) (x : Thrumyo) : State :=
  let t := s.obj (oLineagePortTenant i)
  if s.linkState (16 + i) ≠ 4 then s
  else if !x.known then s.lineageRefuse i
  else if t = 0xFFFF then s.lineageAnswer i .unsupported
  else match x with
    | .write a d =>
      (match s.cellsVa (some t) a d with
       | .ok w => (s.withMem (s.mem.store w)).lineageAnswer i (.ack 0)
       | .error f => (s.faultInfo (some t) 0 f).lineageAnswer i .unsupported)
    | .read a n =>
      (match s.readVa (some t) a n with
       | .ok b => s.lineageAnswer i (.readData b)
       | .error f => (s.faultInfo (some t) 0 f).lineageAnswer i .unsupported)
    | .signal id v =>
      if s.postInRange t id then ((s.signalPost id (1 + Config.unstated 3 [] % 2) v).lineageAnswer i (.ack 0)).collProgress
      else s.lineageAnswer i .unsupported
    | _ => s.lineageAnswer i .unsupported

/-- The answer to a transaction this device initiated. -/
def State.lineageResponse (s : State) (i : Nat) (x : Thrumyo) : State :=
  match x with
  | .ack _ => s.lineageAck i
  | _ => match s.fabric.lineageWait.find? (fun w => w.1 == i) with
    | some w => { s with fabric := { s.fabric with lineageWait := s.fabric.lineageWait.erase w } }
    | none => s

end Sys2Proof.Machine
end

