-- ==== Sys2Proof/Machine/Tiles.lean ====
section
/-! DEFINITION. The tile walkers: shadow fill and swap with what the lanes and their accumulator files hold (R21 to R28), partial-store
grants (R158, R182) and tile commits (R39, R40, R79). -/

namespace Sys2Proof.Machine

/-! ## Registers -/

/-- K positions of one lane-cycle of a product (R23, R81). -/
def Stationary.perSlice (p : Stationary) : Nat := if p.lineage then 16 else laneCycleElems p.fmtA p.fmtB

/-- Positions [k0, k0 + n) of a row as a register with its scale side-register above it (R21, R22). -/
def sliceReg (fmt : Nat) (row : List MElem) (k0 n : Nat) : LaneReg :=
  let xs := (row.drop k0).take n
  packSlice (containerBits fmt) (xs.map MElem.code)
    + (if fmtMx fmt then packScales ((chunks 32 xs).map (fun g => (g.headD MElem.zero).el.scale)) * 2 ^ 512 else 0)

/-- The row of its tile a lane holds (Table 02-3). -/
def laneRow (arr lane : Nat) : Nat :=
  if arr = 1 then lane else if arr = 2 then 128 * (lane / 128 % 2) + lane % 128 else lane % 128

/-- The column of entry j in a lane. -/
def entryCol (arr lane j : Nat) : Nat :=
  if arr = 1 then j else if arr = 2 then 256 * (lane / 128 / 2) + j else 256 * (lane / 128) + j

/-- Slice k of a tile in every lane. -/
def tileSlice (p : Stationary) (t : Tile) (k : Nat) : List LaneReg :=
  (List.range 512).map (fun l =>
    if laneRow t.arr l < t.rows then sliceReg p.fmtA (p.a.getD (t.row0 + laneRow t.arr l) []) (t.seg * p.segLen + k * p.perSlice) p.perSlice else 0)

/-- The distinct rows of slice k, as the walker stages them in the manger (R26), and, under the spread mapping, the weight vectors it
broadcasts from there, column by column (R86, R156; log entry 98). -/
def tileItem (p : Stationary) (t : Tile) (tag : SliceTag) : MangerItem :=
  let k0 := t.seg * p.segLen + tag.2.2 * p.perSlice
  ⟨tag, (List.range t.rows).map (fun i => sliceReg p.fmtA (p.a.getD (t.row0 + i) []) k0 p.perSlice),
    if t.spread then (List.range t.cols).map (fun j => sliceReg p.fmtB (p.b.getD (t.col0 + j) []) k0 p.perSlice) else [], []⟩

/-- What an entry holds once k slices have gone through it (R24, R27, R82). -/
def entryValue (p : Stationary) (t : Tile) (k row col : Nat) : Acx :=
  let n := min (k * p.perSlice) p.segLen
  let cutK := fun (r : List MElem) => (r.drop (t.seg * p.segLen)).take n
  let a := cutK (p.a.getD row [])
  let b := cutK (p.b.getD col [])
  if p.lineage then (lineageAccumulate (List.zipWith (fun x y => (x.el.v, y.el.v)) a b)).1
  else (segmentPartial p.mode (groupElems p.fmtA p.fmtB) (List.zipWith (fun x y => (x.el, y.el)) a b)).1

/-- The flags its lane raises on the way (R40). -/
def entryFlags (p : Stationary) (t : Tile) (k row col : Nat) : Flags :=
  let n := min (k * p.perSlice) p.segLen
  let cutK := fun (r : List MElem) => (r.drop (t.seg * p.segLen)).take n
  let a := cutK (p.a.getD row [])
  let b := cutK (p.b.getD col [])
  if p.lineage then (lineageAccumulate (List.zipWith (fun x y => (x.el.v, y.el.v)) a b)).2
  else (segmentPartial p.mode (groupElems p.fmtA p.fmtB) (List.zipWith (fun x y => (x.el, y.el)) a b)).2

/-- The accumulator files of a stable after k slices of a tile: entry 256 × lane + j. Entries that receive nothing, beside a ragged tile's rows
and columns, hold the identity of the lane mode (R27). -/
def tileAcc (p : Stationary) (t : Tile) (k : Nat) : Store Acx :=
  (List.range 512).flatMap (fun l => (List.range 256).map (fun j =>
    let r := laneRow t.arr l
    let c := entryCol t.arr l j
    (256 * l + j, if r < t.rows ∧ c < t.cols then entryValue p t k (t.row0 + r) (t.col0 + c) else laneIdentity p.mode)))

/-! ## What the walker does with a stable's registers -/

/-- The coming slice is staged in the manger and the shadow registers of every lane are filled from it (R21, R26). Slices of its tile that have
been broadcast leave the manger. -/
def Stable.fill (v : Stable) (p : Stationary) (t : Tile) (tag : SliceTag) : Stable :=
  let stays := fun (m : MangerItem) => !(m.tag.1 == tag.1 && m.tag.2.1 == tag.2.1 && m.readout.isEmpty && (decide (m.tag.2.2 + 1 < tag.2.2) || m.tag == tag))
  { v with shadow := tileSlice p t tag.2.2, shadowTag := some tag, manger := v.manger.filter stays ++ [tileItem p t tag] }

/-- The swap cycle: active and shadow registers of every lane exchange; the accumulator files are not touched (R25). -/
def Stable.swap (v : Stable) : Stable := { v with active := v.shadow, shadow := v.active, activeTag := v.shadowTag, shadowTag := v.activeTag }

/-- The weight vectors of the active slice have been broadcast: every entry has its terms (R24, R27). -/
def Stable.broadcast (v : Stable) (p : Stationary) (t : Tile) (k : Nat) : Stable := { v with acc := tileAcc p t (k + 1) }

/-- The entries of a finished tile are read out before the next tile's first column overwrites them (R30). -/
def Stable.readOut (v : Stable) (tag : SliceTag) : Stable := { v with manger := v.manger ++ [⟨tag, [], [], v.acc⟩] }

/-- A tile's commit leaves nothing of it in the manger. -/
def Stable.release (v : Stable) (id ti : Nat) : Stable := { v with manger := v.manger.filter (fun m => !(m.tag.1 == id && m.tag.2.1 == ti)) }

def State.putStable (s : State) (p : Nat) (v : Stable) : State :=
  { s with exec := { s.exec with stables := Store.put s.exec.stables p v } }

/-! ## Tiles -/

def State.setTile (s : State) (id ti : Nat) (t : Tile) : State :=
  match s.cmd? id with
  | some c => s.setCmd { c with tiles := c.tiles.set ti t }
  | none => s

/-- A tile of a command begun. -/
def State.tile? (s : State) (id ti : Nat) : Option (Cmd × Tile) :=
  match s.cmd? id with
  | some c => (c.tiles[ti]?).map (fun t => (c, t))
  | none => none

/-- Tiles of a tenant move while it is running or dismounting (R397, R399). -/
def State.tilesMove (s : State) (c : Ctx) : Bool :=
  !s.regs.fatal && match c with
    | none => true
    | some t => s.obj (oTenantRunState t) == 1 || s.obj (oTenantRunState t) == 2

/-- Another tile is in Run on a stable (R30). -/
def State.stableRuns (s : State) (p id ti : Nat) : Bool :=
  s.exec.cmds.any (fun c => (List.range c.tiles.length).any (fun i =>
    match c.tiles[i]? with
    | some t => t.stable == p && t.state == .run && !(c.id == id && i == ti)
    | none => false))

/-- No new tile goes to a stable at Walk over the power limit (R472), nor while a commit waits for its quarter (R434). -/
def State.holdsTiles (s : State) (p : Nat) : Bool :=
  s.power.walkStall || s.dict.txs.any (fun x => x.2.committing && (s.changedQuarters x.2.staged).contains (p / 17))

/-- Spur kind 6: the assignment of a tile is an opportunity to give it a uniformly chosen active stable of its partition (Table 12-6). -/
def State.spurPlace (s : State) (c : Ctx) (t : Tile) : State × Nat :=
  if t.swapped ≠ 0 then (s, t.stable)
  else
    let d := s.spurDraw 6 (c.map (fun x => s.obj (oTenantPartition x)))
    let qs := (s.tenantQuarters c).flatten
    if d.2 ∧ !qs.isEmpty then (let f := d.1.free; (f.2, qs.getD (f.1 % qs.length) t.stable)) else (d.1, t.stable)

/-- A tile's name at the arbiters. -/
def tileName (id ti : Nat) : Nat := id * 2 ^ 32 + ti

/-- A tile in Fill that could begin: its rows have landed (R174) and its tenant's work moves. -/
def State.tileWaits (s : State) (c : Cmd) (t : Tile) : Bool :=
  t.state == .fill && t.swapped == 0 && decide (0 < t.slices) && s.tilesMove c.tenant && !s.tileHeld c t

/-- The tiles in Fill that wait for a stable, as (tag, name), oldest first. -/
def State.stableReqs (s : State) (p : Nat) : List (Nat × Nat) :=
  s.exec.cmds.flatMap (fun c => (List.range c.tiles.length).filterMap (fun i => match c.tiles[i]? with
    | some t => if t.stable == p && s.tileWaits c t then some (ctxTag c.tenant, tileName c.id i) else none
    | none => none))

/-- The stable-assignment arbiter of the partition a stable belongs to (Table 15-1). -/
def State.stableArb (s : State) (p : Nat) : Nat := arbStables (s.quarterPartition (p / 17))

/-- A tile's first slice goes in only when the arbiter of its partition gives its stable to it (R392); its cost is charged at Done. -/
def State.assignStable (s : State) (p id ti : Nat) : Option State :=
  match s.grantTo (s.stableArb p) 100 (tileName id ti) (s.stableReqs p) with
  | none => none
  | some g => some (g.1.chargeArb (s.stableArb p) g.2 0 ((s.stableReqs p).any (fun r => r.1 == g.2 && r.2 != tileName id ti)))

/-- The tile of a command a stable's registers hold is in Drain: its entries are still to be read out. -/
def State.draining? (s : State) (v : Stable) : Option SliceTag :=
  v.activeTag.bind (fun g => (s.tile? g.1 g.2.1).bind (fun x => if x.2.state = .drain ∧ 0 < x.2.slices then some g else none))

/-- What the walker fills next on a stable behind slice k of a tile: the tile's next slice, or slice 0 of the next tile in Fill there. -/
def State.nextFill (s : State) (p id ti k : Nat) (t : Tile) : Option (Stationary × Tile × SliceTag) :=
  let stOf := fun (c : Cmd) (x : Tile) => c.stationary.getD x.prod ⟨1, 1, 0, false, 256, [], []⟩
  if k + 1 < t.slices then (s.cmd? id).map (fun c => (stOf c t, t, (id, ti, k + 1)))
  else match (s.stableReqs p).find? (fun r => r.2 != tileName id ti) with
    | none => none
    | some r => (s.tile? (r.2 / 2 ^ 32) (r.2 % 2 ^ 32)).map (fun x => (stOf x.1 x.2, x.2, (r.2 / 2 ^ 32, r.2 % 2 ^ 32, 0)))

/-- A stable for a tile's next slice: the first asks the arbiter. -/
def State.takeStable (s : State) (t : Tile) (id ti : Nat) : Option State := if t.swapped = 0 then s.assignStable t.stable id ti else some s

/-- The swap itself, on stable `v` of tile t: the registers exchange (R25), the slice's columns are broadcast (R24), and the walker fills the
shadow for what comes next (R21); with its last slice a tile has been broadcast and drains. -/
def State.swapNow (s : State) (c : Cmd) (t : Tile) (id ti : Nat) (v : Stable) : State :=
  let p := c.stationary.getD t.prod ⟨1, 1, 0, false, 256, [], []⟩
  let tag : SliceTag := (id, ti, t.swapped)
  let v0 := match s.draining? v with | some g => if t.swapped = 0 then v.readOut g else v | none => v
  let v1 := if v0.shadowTag = some tag then v0 else v0.fill p t tag
  let v2 := v1.swap.broadcast p t t.swapped
  let v3 := match s.nextFill t.stable id ti t.swapped t with
    | some n => v2.fill n.1 n.2.1 n.2.2
    | none => v2
  (s.putStable t.stable v3).setTile id ti { t with swapped := t.swapped + 1, state := if t.swapped + 1 = t.slices then .drain else .run }

/-- SHADOW_SWAP: a swap is issued once the shadow of every lane holds the coming slice (R26). -/
def State.shadowSwap (s : State) (id ti : Nat) : State :=
  match s.tile? id ti with
  | none => s
  | some (c, t0) =>
    if !s.tilesMove c.tenant || !(t0.state == .fill || t0.state == .run) || decide (t0.slices ≤ t0.swapped) || s.tileHeld c t0 then s
    else
      let pl := s.spurPlace c.tenant t0
      let t := { t0 with stable := pl.2 }
      let v := pl.1.stable t.stable
      if v.service != 0 || pl.1.stableRuns t.stable id ti || !pl.1.stableCurrent t.stable || (t.swapped == 0 && pl.1.holdsTiles t.stable) then s
      else match (pl.1.setTile id ti t).takeStable t id ti with
        | none => s
        | some g => g.swapNow c t id ti v

/-- The tiles of one output tile: its segments. -/
def sameOutput (a b : Tile) : Bool := a.prod == b.prod && a.row0 == b.row0 && a.col0 == b.col0 && decide (0 < a.grant) && decide (0 < b.grant)

/-- Output tiles that wait for a grant, as (tag, name of their first tile), oldest first. -/
def State.grantReqs (s : State) : List (Nat × Nat) :=
  s.exec.cmds.flatMap (fun c => if !s.tilesMove c.tenant then [] else (List.range c.tiles.length).filterMap (fun i => match c.tiles[i]? with
    | some t => if t.state == .waitGrant && !(c.tiles.take i).any (sameOutput t) then some (ctxTag c.tenant, tileName c.id i) else none
    | none => none))

/-- The first tile of an output tile: it stands for all its segments. -/
def firstTile (c : Cmd) (t : Tile) (ti : Nat) : Nat :=
  ((List.range c.tiles.length).find? (fun i => match c.tiles[i]? with | some x => sameOutput t x | none => false)).getD ti

/-- A grant of an output tile from the partial store (R158); one that does not fit is counted once (R182). The arbiter's next output tile gets
it (Table 15-1). -/
def State.partialGrant (s : State) (id ti : Nat) : State :=
  match s.tile? id ti with
  | none => s
  | some (c, t) =>
    if !s.tilesMove c.tenant || t.state != .waitGrant then s
    else if 2 ^ 30 < s.exec.granted + t.grant then
      (if (c.tiles.filter (sameOutput t)).any (fun (x : Tile) => x.waited) then s
       else (s.setTile id ti { t with waited := true }).count oPartialStoreWaits 1)
    else
      let first := firstTile c t ti
      match s.grantTo arbPartialStore 65536 (tileName id first) s.grantReqs with
      | none => s
      | some g =>
        let tiles := (List.range c.tiles.length).filterMap (fun i => (c.tiles[i]?).map (fun (x : Tile) =>
          if sameOutput t x then { x with state := if x.slices = 0 then TileState.drain else TileState.fill, granted := if i = first then t.grant else 0 } else x))
        let total := s.exec.granted + t.grant
        let s1 := ({ g.1 with exec := { g.1.exec with granted := total } }).setCmd { c with tiles := tiles }
        (s1.setObj oPartialStorePeak (max (s1.obj oPartialStorePeak) (ceilDiv total (2 ^ 20)))).chargeArb arbPartialStore g.2 t.grant
          (s1.grantReqs.any (fun r => r.1 == g.2))

/-- Output rows of a FUSE_MODE 2 command that are this rank's own wait in the partial store for the other ranks' partials (R175). -/
def State.keepsGrant (s : State) (id : Nat) : Bool := match s.coll? id with | some c => c.fused == 2 | none => false

/-- The grant of an output tile goes back when its last tile is done, and with it the images (R158). -/
def State.releaseGrant (s : State) (id : Nat) (t : Tile) : State :=
  match s.cmd? id with
  | none => s
  | some c =>
    let mine := c.tiles.filter (sameOutput t)
    if t.grant = 0 ∨ !(mine.all (fun (x : Tile) => x.state == .done)) ∨ s.keepsGrant id then s
    else
      let held := (mine.map (fun (x : Tile) => x.granted)).sum
      let rest := s.exec.partials.filter (fun x => !(x.cmd == id && x.prod == t.prod && x.row0 == t.row0 && x.col0 == t.col0))
      { s with exec := { s.exec with granted := s.exec.granted - held, partials := rest } }.setCmd
        { c with tiles := c.tiles.map (fun (x : Tile) => if sameOutput t x then { x with granted := 0 } else x) }

/-- The 16-byte images of a tile's segment partials (R64, R158, R210). -/
def State.tileImages (s : State) (c : Cmd) (t : Tile) : List Nat :=
  if 0 < t.slices then
    let p := c.stationary.getD t.prod ⟨1, 1, 0, false, 256, [], []⟩
    (List.range t.rows).flatMap (fun i => (List.range t.cols).map (fun j => ofLe (entryValue p t t.slices (t.row0 + i) (t.col0 + j)).image))
  else if opcodeOf c.bytes = 0x06 then
    (let g := s.asBegan c
     match (planAttend g (g.planEnv c.src c.bytes).1 none).2 with
     | .ok w => (tilePartials c.bytes (g.fusedRows c.tenant c.bytes) t w.partials).flatMap (fun p => p.2.map (fun a => ofLe a.image))
     | .error _ => [])
  else []

/-- A committed tile's partials go into the partial store under its grant (R158). -/
def State.storePartials (s : State) (c : Cmd) (t : Tile) : State :=
  if t.grant = 0 then s
  else { s with exec := { s.exec with partials := s.exec.partials ++ [⟨c.id, t.prod, t.row0, t.col0, t.seg, s.tileImages c t⟩] } }

/-- Flags of a commit join the stable's set, under its logical number, and the tenant's (R40, R79). -/
def State.flagSets (s : State) (c : Ctx) (stable : Option Nat) (f : Flags) : State :=
  let s1 := match stable.bind (fun p => (s.stable p).logical) with
    | some l => s.setObj (oStableFlags l) (s.obj (oStableFlags l) ||| f.toNat)
    | none => s
  match c with
  | some t => s1.setObj (oTenantFlags t) (s1.obj (oTenantFlags t) ||| f.toNat)
  | none => s1

/-- Whether every other segment of an output tile is done (R74, R158). -/
def lastSegmentReady (c : Cmd) (t : Tile) : Bool :=
  let mine := c.tiles.filter (sameOutput t)
  !(mine.all (fun (x : Tile) => decide (x.seg ≤ t.seg))) || mine.all (fun (x : Tile) => x.seg == t.seg || x.state == .done)

/-- What a commit does beyond the tile itself: flag sets, charges (R395, R500), the partial store, the manger, and the partials of other
ranks' rows (R175). -/
def State.tileDone (s : State) (c : Cmd) (t : Tile) (ti ns : Nat) : State :=
  let s1 := ((s.flagSets c.tenant (some t.stable) t.flags).chargeEngine c.tenant (cmdKey c.bytes) ns).chargeLate (s.stableArb t.stable) (ctxTag c.tenant) ns
  let s2 := if (Store.find? s1.exec.stables t.stable).isSome then s1.putStable t.stable ((s1.stable t.stable).release c.id ti) else s1
  let last := match s2.cmd? c.id with | some x => x.tiles.all (fun y => y.state == .done) | none => false
  ((s2.storePartials c t).sendPartials c t last).releaseGrant c.id t

/-- TILE_COMMIT: a drained tile's output and flags become its command's (R39, R40); `ns` is the stable time measured (R395, R500). Spur
kind 7 may discard it once, to be replayed (Table 12-6); a tile that streams no slices is assigned as it drains, which is its opportunity of
kind 6. -/
def State.tileCommit (s0 : State) (id ti ns : Nat) : State :=
  match s0.tile? id ti with
  | none => s0
  | some (c, t0) =>
    if !s0.tilesMove c.tenant || t0.state != .drain || !lastSegmentReady c t0 || s0.tileHeld c t0 then s0
    else
      let pl := if t0.slices = 0 then s0.spurPlace c.tenant t0 else (s0, t0.stable)
      let s := pl.1
      let t := { t0 with stable := pl.2 }
      if (s.stable t.stable).service != 0 then s0
      else
        let d := if t.spurred then (s, false) else s.spurDraw 7 (c.tenant.map (fun x => s.obj (oTenantPartition x)))
        if d.2 then
          (d.1.setCmd { c with tiles := c.tiles.set ti { t with swapped := 0, spurred := true, state := if t.slices = 0 then TileState.drain else TileState.fill } }).count
            oEngineNsUncharged ns
        else (d.1.setCmd { c with flags := c.flags ||| t.flags, tiles := c.tiles.set ti { t with state := .done } }).tileDone c t ti ns

/-! ## ATTEND and its stalls -/

/-- What begins with an ATTEND: its collective if it is fused, the pins of a standalone stall-mode ATTEND, the window of a DROP
(R220, R221). -/
def launchAttend (s : State) (e : Env) (id : Nat) : State :=
  let s0 := launchFused s e id
  if !bit (e.f 112 1) 0 then s0
  else match s0.readVa e.ctx (e.f 104 8) 512, e.ctx, s0.cmd? id with
    | .ok pb, some t, some c =>
      (match e.step with
       | none =>
         (match s0.readArray e.ctx (le pb 352 8) 2 ((s0.tensorAt e.ctx (e.f 88 8) 1 none false false true).2.ext.getD 3 0) with
          | .ok es =>
            let l := es.flatMap (fun ix => (s0.entry ix).stalls)
            (s0.pin t l).setCmd { c with pinned := l }
          | .error _ => s0)
       | some r =>
         if bit (e.f 112 1) 2 then
           let w := (parseAttend pb).window
           match s0.run? r.id with
           | some x => s0.setRun { x with dropWindow := some (match x.dropWindow with | some d => min d w | none => w) }
           | none => s0
         else s0)
    | _, _, _ => s0

end Sys2Proof.Machine
end

