-- ==== Sys2Proof/Machine/Complete.lean ====
section
/-! DEFINITION. The end of a command (R131): its writes, its signal, its fault information, its record and its interrupt; the end of a
program's command for the STEP or batch that carries it (R241). -/

namespace Sys2Proof.Machine

def sigOp (b : List Byte) : Nat := bits (le b 2 1) 3 2
def sigRef (b : List Byte) : PostRef := parsePostRef (le b 72 4)

/-- Whether a command can end now: nothing outstanding, every tile done, no device-fatal fault, its tenant
not being reset, and not itself pre-empted. -/
def State.mayEnd (s : State) (c : Cmd) : Bool :=
  !s.regs.fatal && c.wait == .none && c.tiles.all (fun t => t.state == .done) && !s.preempted c
    && (match c.tenant with | some t => s.obj (oTenantRunState t) != 5 | none => true)

/-- The flag summary a command ends with (R78): of a command that fails, the flags of what it committed. -/
def Cmd.summary (c : Cmd) : Flags := if c.status = stSuccess then c.flags ||| c.endFlags else c.flags

/-- Whether a command's end performs its signal (R131); a reference that is malformed or refused is not signalled. -/
def State.signalDue (s : State) (c : Cmd) : Bool :=
  let op := sigOp c.bytes
  let r := sigRef c.bytes
  (op == 1 || op == 2) && (c.status == stSuccess || bit (le c.bytes 1 1) 4) && r.ok && !s.refDenied c.tenant r

/-- Whether its signal goes to another device, whose answer may still fail it (R366). -/
def State.signalLeaves (s : State) (c : Cmd) : Bool := s.signalDue c && (sigRef c.bytes).scope != 0

/-- The run a program's command belongs to. -/
def State.runOf (s : State) (c : Cmd) : Option (Run × Nat) :=
  match c.src with
  | .program r i => (s.run? r).map (fun x => (x, i))
  | .queue _ _ => none

/-- The copies of the gate at a block's LAST_CMD; a fault there fails the command (R258). -/
def State.closeGate (s : State) (c : Cmd) : State :=
  match s.runOf c with
  | none => s
  | some (r, i) => match s.gateClose r i with
    | .ok s1 => s1
    | .error f => s.failCmd c.id f.fail.status f.typ (some f)

/-- The digest of a command that succeeds becomes visible. -/
def State.showDigest (s : State) (c : Cmd) : State := if c.status = stSuccess then s.withMem (s.mem.store c.digest) else s

/-- Step 1 of R131: output bytes and digest become visible, and what the success of some commands does. The digest of a command whose
signal goes to another device waits for the answer, which may still fail it (log entry 111). -/
def State.showWrites (s : State) (c : Cmd) : State :=
  let ok := c.status == stSuccess
  let s0 := if s.signalLeaves c then s.withMem (s.mem.store c.writes) else (s.withMem (s.mem.store c.writes)).showDigest c
  let s1 := s0.setCmd { c with writes := [] }
  let s2 := if ok then c.stats.foldl (fun (acc : State) x => acc.count x.1 x.2) s1 else s1
  let s3 := if ok then s2.admitDone c.id else s2
  if ok then (match s3.cmd? c.id with | some c' => s3.closeGate c' | none => s3) else s3

/-- Step 2 of R131. Remote signals wait for their answer (R366). -/
def State.signalStep (s : State) (c : Cmd) : State :=
  let r := sigRef c.bytes
  let op := sigOp c.bytes
  let v := le c.bytes 64 8
  let s0 := s.setCmd { c with signalled := true }
  if !s.signalDue c then s0
  else if r.scope = 0 then
    (let s1 := s0.signalPost r.post op v
     (s1.tracePost 3 (op - 1) c.tenant (s1.srcOrigin c.src).1 (le c.bytes 72 4) (s1.postValue r.post)).collProgress)
  else
    let dev := s.refDevice r
    if s.fabric.unreachable.contains dev then s.setCmd { c with signalled := true, status := if c.status = stSuccess then stPeer else c.status }
    else (s.setCmd { c with wait := Wait.signal }).originate (ctxTag c.tenant) dev 4 (.post (.signal r.post c.began.job op v c.id))

/-- Step 3 of R131 and the events of R489. A fault with no address, such as a CONTAINED_FAULT's, leaves `TENANT_FAULT_INFO` as it is: its
layout has no type for it (log entry 104). -/
def State.faultStep (s : State) (c : Cmd) : State :=
  let q := (s.srcOrigin c.src).1
  let s1 := match c.fault with
    | some f => s.faultInfo c.tenant q f
    | none => s
  match c.tenant with
  | some t =>
    if c.status = stContained ∨ c.status = stPoisoned then
      (s1.event ⟨0x0807, 2, 1, t, c.status + c.detail % 256 * 2 ^ 8 + q % 2 ^ 16 * 2 ^ 16⟩).tenantEvent t 0
    else s1
  | none => s1

/-- The lowest failing index of a program and how it failed (R241). -/
def firstFailure (old : Option (Nat × Nat × Nat)) (i st dt : Nat) : Option (Nat × Nat × Nat) :=
  if st = stSuccess then old
  else match old with
    | some f => if i < f.1 then some (i, st, dt) else some f
    | none => some (i, st, dt)

/-- A program's command ends: it writes no record (R241, R281). -/
def State.endInRun (s : State) (c : Cmd) (r : Run) (i : Nat) : State :=
  s.setRun { r with opened := r.opened.filter (fun x => x != i), failed := firstFailure r.failed i c.status c.detail,
                    flags := r.flags ||| c.summary, finish := if c.status = stSuccess then r.finish ++ c.slots else r.finish }

/-- Steps 4 and 5 of R131. -/
def State.recordStep (s : State) (c : Cmd) : State :=
  match c.src with
  | .program r i => (match s.run? r with | some x => s.endInRun c x i | none => s)
  | .queue q _ =>
    let dig := if bit (le c.bytes 1 1) 1 && c.status == stSuccess && !c.digest.isEmpty then le c.bytes 80 8 else 0
    s.putRecord q (le c.bytes 8 4) c.status c.summary c.detail dig (bit (le c.bytes 1 1) 3)

/-- A run that ends before its boundary gives its pins up and its requested drops take effect (R221, R406). -/
def State.endRun (s : State) (r : Run) : State :=
  if r.phase = 2 then s
  else
    let a := s.unpin r.tenant r.pinned
    let b := a.1.applyDrops r.tenant (r.copies.map (fun x => x.1))
    b.1.returned r.tenant (a.2 + b.2)

/-- What the end of a command releases: its grants and pins, its frame's context and buffers (R296, R304), its running step, and its place
among the begun (R221, R238). -/
def State.leave (s : State) (c : Cmd) : State :=
  let s0 := ((if c.status = stSuccess then s.codecCommit c else s.codecDrop c).releaseDone c).dropGrants c
  let own := fun (r : Run) => r.cmd == some c.id && !r.handoff
  let s1 := (s0.remuda.runs.filter own).foldl State.endRun (s0.dropCmd c.id)
  let s2 := { s1 with remuda := { s1.remuda with runs := s1.remuda.runs.filter (fun r => !own r) } }
  match c.tenant with
  | some t => if c.pinned.isEmpty then s2 else let u := s2.unpin t c.pinned; u.1.returned t u.2
  | none => s2

/-- The charges of a completed command (R395, R396, R500, R501). -/
def State.chargeEnd (s : State) (c : Cmd) (paddock hbm : Nat) : State :=
  match c.tenant with
  | some t => ((s.chargeBytes (some t) (cmdKey c.bytes) paddock hbm).charge t (cmdKey c.bytes) 0 0 1).count (oTenantCommandsCompleted t) 1
  | none => s

def State.traceEnd (s : State) (c : Cmd) : State :=
  if isMark c.bytes then s.traceMark c.src c.tenant c.bytes else s.traceCommand 2 c.src c.tenant c.bytes c.status c.summary.toNat

/-- The end of a command, step by step. `force`: without waiting for a remote signal's answer, as a tenant reset ends it (R406). -/
def State.endCmd (s : State) (c0 : Cmd) (paddock hbm : Nat) (force : Bool) : State :=
  let s1 := if c0.signalled then s
    else
      let a := s.showWrites c0
      match a.cmd? c0.id with
      | some c1 => a.signalStep c1
      | none => a
  match s1.cmd? c0.id with
  | none => s1
  | some c =>
    if !force && (!c.signalled || c.wait != Wait.none) then s1
    else
      let s2 := ((s1.showDigest c).faultStep c).flagSets c.tenant none (if c.status = stSuccess then c.endFlags else 0)
      let s3 := (s2.recordStep c).leave c
      ((s3.spurDraws 2 (paddock / 64) (c.tenant.map (fun t => s.obj (oTenantPartition t)))).chargeEnd c paddock hbm).traceEnd c

/-- COMMAND_COMPLETE (R131): a command with a remote signal ends in two parts, before and after the signal's answer. `paddock` and
`hbm` are the bytes its accesses took, as the ports count them (R396). -/
def State.complete (s : State) (id paddock hbm : Nat) : State :=
  match s.cmd? id with
  | none => s
  | some c0 => if s.mayEnd c0 then s.endCmd c0 paddock hbm false else s

end Sys2Proof.Machine
end

