-- ==== Sys2Proof/Machine/Requests.lean ====
section
/-! DEFINITION. Memory requests and memory errors (chapter 04): paddock allocations (R93 to R99), HBM frames (R100, R101), translation
invalidation (R105), poison and repair from a replica (R109 to R112). -/

namespace Sys2Proof.Machine

/-! ## Owners -/

/-- Owner code of a retired granule or frame (R112), and of a frame between owners: its request waits for its result (R101, R106). -/
def ownerRetired : Nat := 0x402
def ownerLeaving : Nat := 0x403

def State.setGranule (s : State) (g o : Nat) : State := s.withMem { s.mem with granOwner := Store.set ownerFree s.mem.granOwner g o }
def State.granuleOwner (s : State) (g : Nat) : Nat := Store.get ownerFree s.mem.granOwner g

/-- Entries of a store of owners that satisfy a test. -/
def owned (m : Store Nat) (p : Nat → Nat → Bool) : Nat := (m.filter (fun x => p x.1 x.2)).length

/-- Granules a tenant holds (R96). -/
def State.granulesHeld (s : State) (t : Nat) : Nat := owned s.mem.granOwner (fun _ o => o == t)
/-- Free granules of a quarter. -/
def State.granulesFree (s : State) (q : Nat) : Nat := 256 - owned s.mem.granOwner (fun g _ => g / 256 == q)
/-- Frames an owner holds, those being released not counted; what is no owner (R100) holds none. -/
def State.framesHeld (s : State) (o : Nat) : Nat := if o < 1024 ∨ o = ownerAdmin then owned s.mem.frameOwner (fun _ x => x == o) else 0

/-- The objects that report granules and frames (R114, R115). -/
def State.syncMemory (s : State) (t : Nat) : State :=
  let s1 := (List.range 8).foldl (fun (acc : State) q => acc.setObj (oPaddockGranulesFree q) (s.granulesFree q)) s
  let s2 := (s1.setObj oHbmFramesFree (assignableFrames - s.mem.frameOwner.length)).setObj oHbmFramesAssignable
    (assignableFrames - owned s.mem.frameOwner (fun _ x => x == ownerRetired))
  if t < 1024 then (s2.setObj (oTenantPaddockHeld t) (s.granulesHeld t)).setObj (oTenantHbmFramesHeld t) (s.framesHeld t) else s2

/-! ## Requests and their results (R451) -/

/-- The begun commands a free or a release is about: a tenant's, or all. -/
def State.concerned (s : State) (t : Option Nat) : List Cmd := s.exec.cmds.filter (fun c => match t with | some _ => c.tenant == t | none => true)

/-- Those a result waits for: not the pre-empted ones. -/
def State.begunIds (s : State) (t : Option Nat) : List Nat := ((s.concerned t).filter (fun c => !s.preempted c)).map Cmd.id

/-- A pre-empted command resumes without the memory freed meanwhile (R98). -/
def State.noteGone (s : State) (c : Cmd) : State :=
  match c.tenant with
  | some t => let v := s.preempt t; s.setPreempt t { v with gone := v.gone ++ [c.id] }
  | none => s

/-- The pre-empted commands concerned find freed memory gone. -/
def State.goneFor (s : State) (t : Option Nat) : State := ((s.concerned t).filter s.preempted).foldl State.noteGone s

def State.addDelayed (s : State) (r : DelayedReq) : State := s.withMem { s.mem with delayed := s.mem.delayed ++ [r] }

/-- The request of an object whose result is still due. -/
def State.dueOf (s : State) (obj : Nat) : Option DelayedReq := s.mem.delayed.find? (fun r => r.obj == obj)

/-- A command that holds a result back has begun and not completed (R98). -/
def State.holdsResult (s : State) (id : Nat) : Bool := (s.cmd? id).isSome

/-- Whether a delayed request takes memory away. -/
def DelayedReq.frees (r : DelayedReq) : Bool := r.status == 0 && leN r.value 0 1 == 2 && (r.alloc.isSome || r.obj == oHbmFrameRequest)

/-- A tenant's commands have been pre-empted: no result waits for them any longer, and what was freed behind them is gone when they resume
(R98). -/
def State.letGo (s : State) (t : Nat) : State :=
  let mine := (s.exec.cmds.filter (fun c => c.tenant == some t && !carriedOp (opcodeOf c.bytes))).map Cmd.id
  let gone := mine.filter (fun id => s.mem.delayed.any (fun r => r.frees && r.waitFor.contains id))
  let v := s.preempt t
  (s.withMem { s.mem with delayed := s.mem.delayed.map (fun (r : DelayedReq) => { r with waitFor := r.waitFor.filter (fun id => !mine.contains id) }) }).setPreempt t
    { v with gone := v.gone ++ gone }

/-- Write a result: its object, its SEQ, and the end of the request (R451). -/
def State.giveResult (s : State) (res v : Nat) (r : DelayedReq) : State :=
  (s.withMem { s.mem with delayed := s.mem.delayed.erase r }).answerObj res v r.seq

/-! ## Paddock -/

def padOp (v : Nat) : Nat := leN v 0 1
def padClass (v : Nat) : Nat := leN v 1 1
def padQuarter (v : Nat) : Nat := leN v 2 1
def padCount (v : Nat) : Nat := leN v 4 2
def padBase (v : Nat) : Nat := leN v 6 2

/-- Table 04-6. -/
def padFieldsOk (quarters : List Nat) (v : Nat) : Bool :=
  leN v 3 1 == 0 && leN v 8 8 == 0 && decide (1 ≤ padCount v) && decide (padCount v ≤ 2048) && decide (padBase v + padCount v ≤ 4096)
    && (if padOp v = 1 then
          (padClass v == 1 && quarters.contains (padQuarter v)) || ((padClass v == 2 || padClass v == 3) && padQuarter v == 0)
        else padOp v == 2 && padClass v == 0 && padQuarter v == 0)

/-- The n lowest free granules of a quarter (which are taken shows in no result, R93). -/
def State.freeGranules (s : State) (q n : Nat) : List Nat :=
  (((List.range 256).map (fun i => 256 * q + i)).filter (fun g => s.granuleOwner g == ownerFree)).take n

/-- Granules an allocation needs of each quarter of the partition (Table 04-5). -/
def padNeed (cls quarter count : Nat) (quarters : List Nat) : List (Nat × Nat) :=
  let m := quarters.length
  if cls = 1 then [(quarter, count)]
  else if cls = 2 then quarters.map (fun q => (q, count))
  else (List.range m).map (fun j => (quarters.getD j 0, (count + m - 1 - j) / max m 1))

/-- The tenants placed in a partition, for R96. -/
def State.placed (s : State) (p : Nat) : List Nat :=
  (List.range 1024).filter (fun t => s.tenantEnabled t && s.obj (oTenantPartition t) == p)

/-- Condition 2 of R96. -/
def State.leavesGuarantees (s : State) (t g : Nat) (quarters : List Nat) : Bool :=
  let us := s.placed (s.obj (oTenantPartition t))
  let total := (us.map (fun u => s.obj (oTenantShare u))).sum
  let free := (quarters.map s.granulesFree).sum
  let kept := ((us.filter (fun u => u != t)).map (fun u => 256 * quarters.length * s.obj (oTenantShare u) / max total 1 - s.granulesHeld u)).sum
  decide (g + kept ≤ free)

/-- The allocations of a tenant, those whose result is still due included (R96). -/
def State.allocsOf (s : State) (t : Nat) : List Alloc :=
  Store.get [] s.mem.allocs t ++ (s.mem.delayed.filter (fun r => r.obj == oTenantPaddockRequest t && padOp r.value == 1)).filterMap (fun r => r.alloc)

/-- The status of an allocation, by the checks of R96 in order. -/
def State.padAllocStatus (s : State) (t v : Nat) (quarters : List Nat) : Nat :=
  let g := if padClass v = 2 then padCount v * quarters.length else padCount v
  if !padFieldsOk quarters v then 4
  else if (s.allocsOf t).any (fun a => decide (a.base < padBase v + padCount v) && decide (padBase v < a.base + a.count)) then 3
  else if s.obj (oTenantPaddockQuota t) < s.granulesHeld t + g then 2
  else if quarters.isEmpty || !s.leavesGuarantees t g quarters
      || (padNeed (padClass v) (padQuarter v) (padCount v) quarters).any (fun n => decide (s.granulesFree n.1 < n.2)) then 1
  else 0

/-- The granules of an allocation, slot by slot (Table 04-5). -/
def State.padMap (s : State) (v : Nat) (quarters : List Nat) : List (List Nat) :=
  let n := padCount v
  let pick := fun (q k : Nat) => s.freeGranules q k
  let m := quarters.length
  if padClass v = 1 then (pick (padQuarter v) n).map (fun g => [g])
  else
    let lists := quarters.map (fun q => pick q n)
    if padClass v = 2 then (List.range n).map (fun i => lists.map (fun l => l.getD i 0))
    else (List.range n).map (fun i => [(lists.getD (i % max m 1) []).getD (i / max m 1) 0])

/-- PADDOCK_ALLOCATE applied (R96, R97): the granules are taken at once. -/
def State.paddockAllocate (s : State) (t v seq : Nat) : State :=
  let quarters := s.partitionQuarters (s.obj (oTenantPartition t))
  let st := s.padAllocStatus t v quarters
  let r : DelayedReq := ⟨oTenantPaddockRequest t, v, seq, st, [], none⟩
  if st ≠ 0 then s.addDelayed r
  else
    let map := s.padMap v quarters
    let s1 := map.flatten.foldl (fun (acc : State) g => acc.setGranule g t) s
    (s1.addDelayed { r with alloc := some ⟨padBase v, padCount v, padClass v, padQuarter v, map⟩ }).syncMemory t

/-- The result record of Table 04-7. -/
def padResult (st held seq : Nat) : Nat := st + held % 2 ^ 16 * 2 ^ 32 + seq % 2 ^ 64 * 2 ^ 64

/-- PADDOCK_ALLOCATE_RESULT (R99): the granules zeroed, the slots mapped, the result written. -/
def State.paddockAllocated (s : State) (t : Nat) : State :=
  match s.dueOf (oTenantPaddockRequest t) with
  | none => s
  | some r =>
    if padOp r.value = 2 then s
    else
      let s1 := match r.alloc with
        | some a =>
          let z := a.map.flatten.foldl (fun (m : MemGroup) g => m.zero (paddockKey g 0) (paddockKey g 0 + 2 ^ 20)) s.mem
          s.withMem { z with allocs := Store.set [] z.allocs t (Store.get [] z.allocs t ++ [a]) }
        | none => s
      s1.giveResult (oTenantPaddockResult t) (padResult r.status (s1.granulesHeld t) r.seq) r

/-- PADDOCK_FREE applied (R98): the slots are gone for commands that begin from now on. -/
def State.paddockFree (s : State) (t v seq : Nat) : State :=
  let l := Store.get [] s.mem.allocs t
  let r : DelayedReq := ⟨oTenantPaddockRequest t, v, seq, 4, [], none⟩
  if !padFieldsOk [] v then s.addDelayed r
  else match l.find? (fun a => a.base == padBase v && a.count == padCount v) with
    | none => s.addDelayed { r with status := 5 }
    | some a => ((s.withMem { s.mem with allocs := Store.set [] s.mem.allocs t (l.erase a) }).addDelayed
        { r with status := 0, alloc := some a, waitFor := s.begunIds (some t) }).goneFor (some t)

/-- A granule goes back to the pool, or is retired if it has lost a line (R112). -/
def State.releaseGranule (s : State) (g : Nat) : State :=
  if s.mem.suspectGranules.contains g then
    let q := g / 256
    let s1 := s.setGranule g ownerRetired
    let s2 := s1.setObj (oRetiredGranules q) (s1.obj (oRetiredGranules q) ||| 2 ^ (g % 256))
    (s2.count (oPaddockRetiredGranules q) 1).setObj oPaddockGranulesTotal (s2.obj oPaddockGranulesTotal - 1)
  else s.setGranule g ownerFree

/-- PADDOCK_FREE_RESULT (R98). -/
def State.paddockFreed (s : State) (t : Nat) : State :=
  match s.dueOf (oTenantPaddockRequest t) with
  | none => s
  | some r =>
    if padOp r.value ≠ 2 ∨ r.waitFor.any s.holdsResult then s
    else
      let s1 := match r.alloc with
        | some a => a.map.flatten.foldl State.releaseGranule s
        | none => s
      (s1.giveResult (oTenantPaddockResult t) (padResult r.status (s1.granulesHeld t) r.seq) r).syncMemory t

/-! ## HBM frames -/

/-- Table 04-8. -/
def frFieldsOk (v : Nat) : Bool :=
  (frOp v == 1 || frOp v == 2) && leN v 1 1 == 0 && leN v 12 4 == 0 && (decide (frOwner v < 1024) || frOwner v == ownerAdmin)
    && decide (frFirst v < assignableFrames) && decide (1 ≤ frCount v) && decide (frFirst v + frCount v ≤ assignableFrames)

/-- Entries of the frame table inside a request's range. -/
def State.framesIn (s : State) (v : Nat) : Store Nat :=
  s.mem.frameOwner.filter (fun x => decide (frFirst v ≤ x.1) && decide (x.1 < frFirst v + frCount v))

/-- Frames held by the tenants placed in a partition (R113). -/
def State.partitionFrames (s : State) (p : Nat) : Nat :=
  owned s.mem.frameOwner (fun _ o => decide (o < 1024) && s.obj (oTenantPartition o) == p)

/-- The checks of R101. A range that is not free is reported before the limit, an order the rule does not give (log entry 106). -/
def State.frameStatus (s : State) (v : Nat) : Nat :=
  if !frFieldsOk v then 3
  else if frOp v = 1 then
    (if !(s.framesIn v).isEmpty then 1
     else
       let p := s.obj (oTenantPartition (frOwner v))
       if frOwner v ≠ ownerAdmin ∧ s.obj (oPartitionHbmFrameLimit p) < s.partitionFrames p + frCount v then 2 else 0)
  else if (s.framesIn v).length = frCount v ∧ (s.framesIn v).all (fun x => x.2 == frOwner v) then 0 else 4

/-- HBM_FRAME_ASSIGN and HBM_FRAME_RELEASE applied (R101): the frames are nobody's until the result, so that they reach an owner zeroed (R106). -/
def State.frameRequest (s : State) (v seq : Nat) : State :=
  let st := s.frameStatus v
  let o := frOwner v
  let who := if o < 1024 then some o else none
  let wait := if st = 0 ∧ frOp v = 2 then s.begunIds who else []
  let s0 := if st = 0 ∧ frOp v = 2 then s.goneFor who else s
  let s1 := if st ≠ 0 then s0 else (frRange v).foldl (fun (acc : State) f => acc.setFrame f ownerLeaving) s0
  (s1.addDelayed ⟨oHbmFrameRequest, v, seq, st, wait, none⟩).syncMemory o

/-- The result record of Table 04-9. -/
def frResult (st frames seq : Nat) : Nat := st + frames % 2 ^ 32 * 2 ^ 32 + seq % 2 ^ 64 * 2 ^ 64

/-- HBM_FRAME_ASSIGN_RESULT (R101): the frames zeroed and their owner's, the result written. -/
def State.framesAssigned (s : State) : State :=
  match s.dueOf oHbmFrameRequest with
  | none => s
  | some r =>
    if frOp r.value = 2 then s
    else
      let lo := frFirst r.value * frameBytes
      let o := frOwner r.value
      let s1 := if r.status = 0 then
          (frRange r.value).foldl (fun (acc : State) f => acc.setFrame f o) (s.withMem (s.mem.zero lo (lo + frCount r.value * frameBytes)))
        else s
      (s1.giveResult oHbmFrameResult (frResult r.status (s1.framesHeld o) r.seq) r).syncMemory o

/-- A frame is freed, or retired if it has lost a line (R112, R448). -/
def State.releaseFrame (s : State) (f : Nat) : State :=
  if s.mem.suspectFrames.contains f then
    let n := s.obj oHbmRetiredFrames
    let s1 := (s.setFrame f ownerRetired).count oHbmRetiredFrames 1
    if n < 16384 then
      let k := oRetiredFrameList (n / 256)
      s1.setObj k (setLeN (s1.obj k) (4 * (n % 256)) 4 f)
    else s1
  else s.setFrame f ownerFree

/-- HBM_FRAME_RELEASE_RESULT (R101). -/
def State.framesReleased (s : State) : State :=
  match s.dueOf oHbmFrameRequest with
  | none => s
  | some r =>
    if frOp r.value ≠ 2 ∨ r.waitFor.any s.holdsResult then s
    else
      let s1 := if r.status = 0 then (frRange r.value).foldl State.releaseFrame s else s
      (s1.giveResult oHbmFrameResult (frResult r.status (s1.framesHeld (frOwner r.value)) r.seq) r).syncMemory (frOwner r.value)

/-! ## Translations -/

/-- TENANT_TLB_INVALIDATE (R105): the write completes once the commands begun before it have. The model walks the tables at every access
and keeps no translation (log entry 14). -/
def State.tlbInvalidate (s : State) (t v seq : Nat) : State :=
  s.addDelayed ⟨oTenantTlbInvalidate t, v, seq, 0, s.begunIds (some t), none⟩

/-- TLB_INVALIDATE_COMPLETE. -/
def State.tlbInvalidated (s : State) (t : Nat) : State :=
  match s.dueOf (oTenantTlbInvalidate t) with
  | none => s
  | some r => if r.waitFor.any s.holdsResult then s else s.withMem { s.mem with delayed := s.mem.delayed.erase r }

/-! ## Errors -/

/-- Event 0x0801, at most once per second per source (R483); `due`: the source's last one is a second old. -/
def State.correctedEvent (s : State) (kind source : Nat) (due : Bool) : State :=
  let k := kind * 2 ^ 16 + source
  let n := satAdd 32 (Store.get 0 s.power.ceSince k) 1
  let put := fun (x : State) (v : Nat) => { x with power := { x.power with ceSince := Store.set 0 x.power.ceSince k v } }
  if due then (put s 0).event ⟨0x0801, 1, kind, source, n⟩ else put s n

/-- The HBM stack of a physical address (R108). -/
def stackOf (pa : Nat) : Nat := (bits pa 9 3 ^^^ bits pa 12 3) ^^^ bits pa 15 3

/-- A correctable error (Table 19-1): counted, its event raised. An Alley's retry, for which Table 19-2 has no source, counts with the
device's own state (R333; log entry 113). -/
def State.eccCorrected (s : State) (site : EccSite) (due : Bool) : State :=
  match site with
  | .stable l => (s.count (oMangerCeCount l) 1).correctedEvent 3 l due
  | .paddock g _ => (s.count (oPaddockCeCount (g / 256)) 1).correctedEvent 2 (g / 256) due
  | .hbm line => (s.count (oHbmCeCount (stackOf (64 * line))) 1).correctedEvent 5 (stackOf (64 * line)) due
  | .reserved => s.correctedEvent 0 0 due
  | .alley => s.correctedEvent 0 0 due

/-- The granules that hold the same data as granule g (R94, R111): those of its slot in a replicated allocation. -/
def State.replicasOf (s : State) (g : Nat) : List Nat :=
  let all := s.mem.allocs.flatMap (fun x => x.2) ++ s.mem.delayed.filterMap (fun r => r.alloc)
  match (all.flatMap (fun a => a.map)).find? (fun slot => slot.contains g) with
  | some slot => slot
  | none => [g]

/-- A line is poisoned, and its event raised at first detection (R110, Table 19-2). -/
def State.poisonLine (s : State) (line : Nat) : State :=
  if s.mem.poison.contains line then s
  else
    let k := 64 * line
    let s1 := s.withMem { s.mem with poison := line :: s.mem.poison }
    if k < 2 ^ 60 then
      let f := k / frameBytes
      ((s1.withMem { s1.mem with suspectFrames := f :: s1.mem.suspectFrames }).count (oHbmUeCount (stackOf k)) 1).event ⟨0x0806, 2, 5, stackOf k, f % 2 ^ 18⟩
    else
      let g := (k - 2 ^ 60) / 2 ^ 20
      let l := (k - 2 ^ 60) % 2 ^ 20 / 64
      ((s1.withMem { s1.mem with suspectGranules := g :: s1.mem.suspectGranules }).count (oPaddockUeCount (g / 256)) 1).event
        ⟨0x0806, 2, 2, g / 256, g % 256 + l * 256⟩

/-- An uncorrectable paddock line in granules `bad` of one slot: repaired from a healthy replica, or poisoned in all (R111, R112). -/
def State.paddockBad (s : State) (g off : Nat) (bad : List Nat) (due : Bool) : State :=
  let slot := s.replicasOf g
  let line := fun (x : Nat) => lineOf (paddockKey x (64 * off))
  let isBad := fun (x : Nat) => x == g || bad.contains x || s.mem.poison.contains (line x)
  match slot.find? (fun x => !isBad x) with
  | some good =>
    (slot.filter (fun x => x == g || bad.contains x)).foldl (fun (acc : State) x =>
      let m := acc.mem.store (cellsAt (64 * line x) (acc.mem.readN (64 * line good) 64))
      ((acc.withMem { m with suspectGranules := x :: m.suspectGranules }).count (oPaddockCeCount (x / 256)) 1).correctedEvent 2 (x / 256) due) s
  | none => slot.foldl (fun (acc : State) x => acc.poisonLine (line x)) s

/-- An uncorrectable HBM line (R110); in the reserved region a second copy repairs it (R491). -/
def State.hbmBad (s : State) (line : Nat) (due : Bool) : State :=
  if 64 * line / frameBytes < assignableFrames then s.poisonLine line else s.correctedEvent 0 0 due

end Sys2Proof.Machine
end

