-- ==== Sys2Proof/Machine/Faults.lean ====
section
/-! DEFINITION. Faults and recovery (chapter 19), and the retirement and sparing of stables (R42 to R49). -/

namespace Sys2Proof.Machine

/-! ## Static partitions (R407) -/

/-- The opcodes condition 5 of R407 allows. -/
def staticOpcode (op : Nat) : Bool :=
  [0x01, 0x02, 0x03, 0x04, 0x05, 0x06, 0x07, 0x08, 0x09, 0x0A, 0x0B, 0x10, 0x11, 0x12, 0x13, 0x14, 0x40, 0x41, 0x50, 0x51, 0x7F].contains op

/-- Condition 5 for one command begun: its opcode, FUSE, posts, and where it writes. -/
def staticCommand (c : Cmd) : Bool :=
  staticOpcode (opcodeOf c.bytes) && fuseMode c.bytes == 0
    && (waitSlots c.bytes).all (fun i => (cmdWaitRef c.bytes i).scope == 0) && (sigOp c.bytes == 0 || (sigRef c.bytes).scope == 0)
    && c.writes.all (fun w => decide (w.1 < 2 ^ 64))

/-- The first of conditions 1 to 5 that fails for tenant t in partition p. The gait of condition 3 is one Faril states and the device is not
told: what it can check is `REIN_n` (log entry 15). -/
def State.staticBroken (s : State) (p t : Nat) : Option Nat :=
  if (s.partitionQuarters p).any (fun q => s.obj (oQuarterActiveStables q) != 16) then some 1
  else if s.obj oSpurEnable = 1 then some 2
  else if s.power.rein then some 3
  else if (s.preempt t).requests ≠ 0 ∨ s.obj (oTenantRunState t) = 5 then some 4
  else if (s.exec.cmds.filter (fun c => c.tenant == some t)).any (fun c => !staticCommand c) then some 5
  else none

/-- Events 0x0506 and 0x0507 of one partition. -/
def State.staticOne (s : State) (p : Nat) : State :=
  if s.obj (oPartitionSchedMode p) ≠ 1 then s
  else match (s.placed p).head? with
    | none => s
    | some t =>
      let lost := Store.get 0 s.sched.lostGuarantee p
      let put := fun (v : Nat) => { s with sched := { s.sched with lostGuarantee := Store.set 0 s.sched.lostGuarantee p v } }
      match s.staticBroken p t with
      | some n => if lost = 0 then (put n).event ⟨0x0506, 0, 1, t, n⟩ else s
      | none => if lost = 0 then s else (put 0).event ⟨0x0507, 0, 1, t, 0⟩

/-- Raise what has changed of R407's guarantees. -/
def State.staticCheck (s : State) : State := (List.range 8).foldl State.staticOne s

/-! ## Stables -/

def setBit (v i : Nat) : Nat := v ||| 2 ^ i
def clearBit (v i : Nat) : Nat := setBits v i 1 0

/-- TENANT_EVENTS[4] of every enabled tenant in a quarter's partition (R146, R484). -/
def State.capacityEvent (s : State) (q : Nat) : State :=
  (s.placed (s.quarterPartition q)).foldl (fun (acc : State) t => acc.tenantEvent t 4) s

def State.activeCount (s : State) (q : Nat) : Nat := (s.activeStables q).length
def State.syncActive (s : State) (q : Nat) : State := s.setObj (oQuarterActiveStables q) (s.activeCount q)

/-- A stable without power: its registers, its manger and its epoch are gone (R488). -/
def Stable.off (v : Stable) (service : Nat) : Stable :=
  { v with service := service, logical := none, active := [], shadow := [], activeTag := none, shadowTag := none, acc := [], manger := [], epoch := 0 }

/-- A stable as its scrub leaves it. -/
def Stable.cleared (v : Stable) (epoch : Nat) : Stable :=
  { v with active := [], shadow := [], activeTag := none, shadowTag := none, acc := [], manger := [], epoch := epoch }

/-- A tile as it restarts, on a stable, its inputs kept (R39, R43). -/
def Tile.restart (t : Tile) (stable : Nat) : Tile :=
  { t with stable := stable, swapped := 0, replays := 0,
           state := if t.state = .waitGrant then TileState.waitGrant else if t.slices = 0 then TileState.drain else TileState.fill }

/-- A tile that a save holds: it continues from its slice on whatever stable it resumes on (R317, R402). -/
def State.tileSaved (s : State) (c : Cmd) (ti : Nat) : Bool :=
  match c.tenant with
  | some t => (s.preempt t).saves.any (fun x => x.1 == c.id && x.2.1 == ti)
  | none => false

/-- A tile of a stable that has left: dealt again to what remains of the partition, or its command fails (R43 step 3, R485). Which of the
remaining stables each tile goes to is left open (R157): they are dealt by their index (log entry 105). -/
def State.dealAgain (s : State) (p : Nat) (c : Cmd) : State :=
  let mine := fun (t : Tile) => t.stable == p && t.state != .done && !t.masks
  if !c.tiles.any mine then s
  else
    let left := (s.tenantQuarters c.tenant).flatten
    if left.isEmpty then s.failCmd c.id stContained 4 none
    else s.setCmd { c with tiles := (List.range c.tiles.length).filterMap (fun i => (c.tiles[i]?).map (fun (t : Tile) =>
      let p' := left.getD (i % left.length) 0
      if !mine t then t else if s.tileSaved c i then { t with stable := p' } else t.restart p')) }

def State.dealAll (s : State) (p : Nat) : State := s.exec.cmds.foldl (fun (acc : State) c => match acc.cmd? c.id with | some x => acc.dealAgain p x | none => acc) s

def retiredParam (p logical cause active : Nat) : Nat := p % 256 + logical % 256 * 2 ^ 8 + cause % 16 * 2 ^ 16 + active % 256 * 2 ^ 20

/-- The logical number a stable had is vacant (R43, R45). -/
def State.vacate (s : State) (l : Option Nat) : State :=
  match l with
  | some l => { s with exec := { s.exec with vacated := s.exec.vacated ++ [l] } }
  | none => s

/-- A logical number is vacant no longer. -/
def State.occupy (s : State) (l : Nat) : State := { s with exec := { s.exec with vacated := s.exec.vacated.filter (fun x => x != l) } }

/-- A stable is retired, with a cause of event 0x0802 (R43, R44, R484). -/
def State.retireStable (s : State) (p cause : Nat) : State :=
  let v := s.stable p
  let q := p / 17
  if 136 ≤ p ∨ v.service = 3 then s
  else
    let s1 := (s.putStable p (v.off 3)).setObj oRetiredStables (setBit (s.obj oRetiredStables) p)
    let s2 := if v.service = 1 then s1.setObj (oQuarterSpareState q) 2 else ((s1.vacate v.logical).dealAll p).syncActive q
    (s2.event ⟨0x0802, 1, 2, q, retiredParam p (v.logical.getD 0xFF) cause (s2.activeCount q)⟩).capacityEvent q

/-- The logical numbers of a quarter no stable has (R45). -/
def State.unassigned (s : State) (q : Nat) : List Nat :=
  let has := ((List.range 17).filterMap (fun i => (s.stable (17 * q + i)).logical))
  ((List.range 16).map (fun i => 16 * q + i)).filter (fun l => !has.contains l)

/-- A stable that has passed its scrub takes a logical number, its sticky flags cleared (R43 step 6, Table 19-4). -/
def State.joinQuarter (s : State) (p l : Nat) : State :=
  let q := p / 17
  let s1 := (((s.occupy l).setObj (oStableFlags l) 0).putStable p { (s.stable p).cleared (s.obj oDeviceEpoch) with service := 0, logical := some l }).syncActive q
  (s1.event ⟨0x0803, 0, 2, q, p % 256 + l % 256 * 2 ^ 8 + s1.activeCount q % 256 * 2 ^ 16⟩).capacityEvent q

/-- The spare of a quarter, where it has one (R12). -/
def State.spareOf (s : State) (q : Nat) : Option Nat := ((List.range 17).map (fun i => 17 * q + i)).find? (fun p => (s.stable p).service == 1)

def State.outOfService (s : State) (q : Nat) : Bool := bit (s.obj oQuartersOutOfService) q

/-- SPARE_ACTIVATE (R43 steps 5 and 6, R44): the spare's scrub has passed or failed. It takes the number of the stable it replaces: of those
retired in its quarter and not replaced, the first. -/
def State.spareActivate (s : State) (q : Nat) (ok : Bool) : State :=
  if s.obj oSpareAutoActivate ≠ 1 ∨ s.outOfService q ∨ s.power.rails ≠ 2 then s
  else match s.spareOf q, s.exec.vacated.find? (fun l => l / 16 == q) with
    | some p, some l =>
      if ok then ((s.setObj (oQuarterSpareState q) 1).joinQuarter p l)
      else (s.event ⟨0x0804, 1, 2, q, p⟩).retireStable p 5
    | _, _ => s

/-- RESIDUE_MISMATCH (R42, R482): the first in a tile replays it where it is, one in the replay retires the stable. `ns`: the stable time of
the work thrown away. -/
def State.residueMismatch (s : State) (id ti ns : Nat) : State :=
  match s.tile? id ti with
  | none => s
  | some (c, t) =>
    if t.state != .run && t.state != .drain || t.masks || (s.stable t.stable).service != 0 then s
    else
      let s1 := s.count oEngineNsUncharged ns
      if t.replays = 0 then
        (s1.setCmd { c with tiles := c.tiles.set ti { t.restart t.stable with replays := 1 } }).event ⟨0x0800, 1, 3, (s.stable t.stable).logical.getD 0xFF, 0⟩
      else s1.retireStable t.stable 1

/-- A tile whose walker could make progress. -/
def State.runnable (s : State) (c : Cmd) (t : Tile) : Bool :=
  (t.state == .run || t.state == .drain || t.state == .fill) && !t.masks && s.tilesMove c.tenant && !s.tileHeld c t

/-- WALKER_WATCHDOG_EXPIRE (R42): a walker stands still although tiles of its stable are runnable. -/
def State.watchdog (s : State) (p ns : Nat) : State :=
  if (s.stable p).service ≠ 0 ∨ !s.exec.cmds.any (fun c => c.tiles.any (fun t => t.stable == p && s.runnable c t)) then s else (s.count oEngineNsUncharged ns).retireStable p 3

/-- The stable time of what a stable's tiles lose when it leaves, where the row does not measure it: a free value (R395; log entry 119). -/
def State.loseWork (s : State) (p : Nat) : State :=
  if !s.exec.cmds.any (fun c => c.tiles.any (fun t => t.stable == p && !t.masks && (t.state == .fill || t.state == .run || t.state == .drain))) then s
  else let f := s.free; f.2.count oEngineNsUncharged f.1

/-- QUARTER_OUT_OF_SERVICE (R485): fewer than 12 active stables. -/
def State.quarterOut (s : State) (q : Nat) : State :=
  let n := s.activeCount q
  if 8 ≤ q ∨ s.outOfService q ∨ 12 ≤ n then s
  else
    let ps := (List.range 17).map (fun i => 17 * q + i)
    let s1 := ps.foldl (fun (acc : State) p => if (acc.stable p).service = 3 then acc else (acc.loseWork p).putStable p ((acc.stable p).off 4)) s
    let s2 := ({ (ps.foldl State.dealAll s1) with exec := { (ps.foldl State.dealAll s1).exec with vacated := s.exec.vacated.filter (fun l => l / 16 != q) } }).setObj
      oQuartersOutOfService (setBit (s.obj oQuartersOutOfService) q)
    ((s2.setObj (oQuarterActiveStables q) 0).event ⟨0x0805, 1, 2, q, n⟩).capacityEvent q

/-! ## Scrubs (R486, R488, Table 19-4) -/

/-- What the device scrubs after its rails come on, or after a fatal fault is cleared (R488). -/
def State.scrubList (s : State) : List (Nat × Nat) :=
  ((List.range 136).filter (fun p => (s.stable p).service == 0)).map (fun p => (0, p)) ++ (List.range 8).map (fun q => (1, q))

def State.withPower (s : State) (p : PowerGroup) : State := { s with power := p }

/-- A quarter that has 12 stables again returns to service once all of them are scrubbed (R486 step 5). -/
def State.quarterBack (s : State) (q : Nat) : State :=
  let ps := ((List.range 17).map (fun i => 17 * q + i)).filter (fun p => (s.stable p).service == 4)
  if ps.length < 12 then s
  else
    let todo := ps.filter (fun p => (s.stable p).epoch != s.obj oDeviceEpoch && !s.power.repairs.contains p)
    if !todo.isEmpty then s.withPower { s.power with repairs := s.power.repairs ++ todo }
    else if ps.any s.power.repairs.contains then s
    else
      let s1 := (List.range ps.length).foldl (fun (acc : State) i =>
        let p := ps.getD i 0
        if i < 16 then (acc.setObj (oStableFlags (16 * q + i)) 0).putStable p { acc.stable p with service := 0, logical := some (16 * q + i) } else acc.putStable p ((acc.stable p).off 1)) s
      let s2 := if ps.length = 17 then s1.setObj (oQuarterSpareState q) 0 else s1
      (((s2.syncActive q).setObj oQuartersOutOfService (clearBit (s.obj oQuartersOutOfService) q)).event ⟨0x0808, 0, 2, q, 0xFF⟩).capacityEvent q

/-- The scrub of a stable under repair has ended (R486). -/
def State.repairDone (s : State) (p : Nat) (ok : Bool) : State :=
  let q := p / 17
  let v := s.stable p
  let s0 := s.withPower { s.power with repairs := s.power.repairs.erase p }
  let failed := (s0.putStable p (v.off 3)).setObj oRetiredStables (setBit (s.obj oRetiredStables) p)
  if !ok then failed.event ⟨0x0802, 1, 2, q, retiredParam p 0xFF 5 (failed.activeCount q)⟩
  else if v.service = 4 then (s0.putStable p (v.cleared (s.obj oDeviceEpoch))).quarterBack q
  else
    let s1 := (s0.setObj oRetiredStables (clearBit (s.obj oRetiredStables) p)).event ⟨0x0808, 0, 2, q, p⟩
    if s.outOfService q then (s1.putStable p { v.cleared (s.obj oDeviceEpoch) with service := 4 }).quarterBack q
    else match s1.unassigned q with
      | l :: _ => (s1.putStable p (v.cleared (s.obj oDeviceEpoch))).joinQuarter p l
      | [] => (s1.putStable p (v.off 1)).setObj (oQuarterSpareState q) 0

/-- STABLE_REPAIR_REQUEST, by a signed service record (R486). -/
def State.repairRequest (s : State) (p : Nat) : State := s.withPower { s.power with repairs := s.power.repairs ++ [p] }

/-- Zero a quarter's paddock, retired granules left out. -/
def State.zeroPaddock (s : State) (q : Nat) : State :=
  s.withMem (((List.range 256).map (fun i => 256 * q + i)).foldl (fun (m : MemGroup) g =>
    if s.granuleOwner g = ownerRetired then m else m.zero (paddockKey g 0) (paddockKey g 0 + 2 ^ 20)) s.mem)

/-- QUARTER_SCRUB_COMPLETE (R488): kind 0 a stable, 1 a quarter's paddock. A passed scrub clears the unit and sets its epoch; a stable that
fails is retired with cause 5. -/
def State.scrubDone (s : State) (kind unit : Nat) (ok : Bool) : State :=
  if s.power.scrubs.contains (kind, unit) then
    let s1 := s.withPower { s.power with scrubs := s.power.scrubs.erase (kind, unit) }
    if kind = 1 then
      (if ok then
        let s2 := s1.zeroPaddock unit
        { s2 with exec := { s2.exec with quarterEpochs := Store.set 0 s2.exec.quarterEpochs unit (s.obj oDeviceEpoch) } }
       else s1)
    else if ok then
      let v := s1.stable unit
      let s2 := s1.putStable unit (v.cleared (s.obj oDeviceEpoch))
      match v.logical with | some l => s2.setObj (oStableFlags l) 0 | none => s2
    else s1.retireStable unit 5
  else if kind = 0 ∧ s.power.repairs.contains unit then s.repairDone unit ok
  else s

/-- Start the scrubs of R488. -/
def State.startScrubs (s : State) : State := s.withPower { s.power with scrubs := s.scrubList }

/-- A new `DEVICE_EPOCH`: non-zero and different from the last (R488). -/
def State.newEpoch (s : State) : State :=
  let f := s.free
  let old := s.obj oDeviceEpoch
  let e := f.1 % (2 ^ 32 - 1) + 1
  f.2.setObj oDeviceEpoch (if e = old then e % (2 ^ 32 - 1) + 1 else e)

/-! ## Device-fatal faults (R493) -/

/-- A device-fatal fault: `clear` names what clears it, 0 `PERST_n`, 1 `MRST_n`. -/
def State.fatalFault (s : State) (e : EventRec) (clear : Nat) : State :=
  let s0 := s.withPower { s.power with fatals := s.power.fatals ++ [(e.code, e.param, clear)] }
  if s.regs.fatal then
    let seq := s0.regs.eventSeq
    ({ s0 with regs := { s0.regs with eventSeq := (seq + 1) % 2 ^ 32 } }).logEvent e seq
  else (({ s0 with regs := { s0.regs with fatal := true } }).setObj oFatalCause e.code).event e

/-- Every Street and Avenue port (n = 16), or every port (n = 18), goes DOWN with cause 0, all of them together: what they held has nowhere
left to go. A DISABLED port stays so. -/
def State.portsDown (s : State) (n : Nat) : State :=
  let s1 := (List.range n).foldl (fun (acc : State) p =>
    if acc.linkState p ≤ 1 then acc.setPort p Port.idle
    else
      let a := acc.setLink p 1
      (if s.portUp p then a.event (linkEvent 0x0201 1 p 0) else a).setPort p Port.idle) s
  ((List.range n).filter s.portUp).foldl (fun (acc : State) p => acc.mapChanged p false) s1

/-- DEVICE_FATAL_FAULT, of the faults of Table 19-1 that have an event of chapter 19. A fault the table does not list is unit 9 (R481). -/
def State.deviceFatal (s : State) (code source unit : Nat) : State :=
  if code = 0x0810 then s.fatalFault ⟨0x0810, 3, 0, 0, unit % 3⟩ 1
  else if code = 0x0812 then s.fatalFault ⟨0x0812, 3, 5, source % 8, 0⟩ 1
  else if code = 0x0811 ∧ 1 ≤ unit ∧ unit ≤ 7 then
    let s1 := s.fatalFault ⟨0x0811, 3, 0, 0, unit⟩ 0
    if unit = 1 then s1.portsDown 16 else s1
  else s.fatalFault ⟨0x0811, 3, 0, 0, 9⟩ 1

/-! ## Uncorrectable errors -/

/-- An uncorrectable line in a grant fails the command that holds it (R490). -/
def State.grantBad (s : State) (id : Nat) (staging : Bool) : State :=
  match s.cmd? id with
  | none => s
  | some _ =>
    let unit := if staging then 2 else 1
    match s.coll? id with
    | some k => s.abortColl k stContained unit true
    | none => if staging then s else s.failCmd id stContained unit none

/-- ECC_UNCORRECTABLE (Table 19-1). -/
def State.eccBad (s : State) (site : BadSite) (due : Bool) : State :=
  match site with
  | .sram p => if (s.stable p).service = 0 then (s.loseWork p).retireStable p 2 else s
  | .paddock g line bad => s.paddockBad g line bad due
  | .hbm line => s.hbmBad line due
  | .grant id staging => s.grantBad id staging
  | .reserved both => if both then s.deviceFatal 0x0811 0 6 else s.correctedEvent 0 0 due
  | .retransmit resend => if resend then s.deviceFatal 0x0811 0 5 else s

/-- PATROL_SCRUB_TICK (R109 to R111): a line read by patrol is sound, corrected and written back, or bad. -/
def State.patrol (s : State) (find : Option (EccSite × Bool)) (due : Bool) : State :=
  match find with
  | none => s
  | some (.stable _, _) => s
  | some (.reserved, _) => s.correctedEvent 0 0 due
  | some (.alley, _) => s
  | some (.paddock g line, bad) => if bad then s.paddockBad g line [] due else s.eccCorrected (.paddock g line) due
  | some (.hbm line, bad) => if bad then s.hbmBad line due else s.eccCorrected (.hbm line) due

/-! ## Requests -/

/-- STABLE_RETIRE_REQUEST (R487): a value of a stable already retired is rejected, above 135 out of range. -/
def State.retireRequest (s : State) (p : Nat) : State := (s.loseWork p).retireStable p 4

end Sys2Proof.Machine
end

