-- ==== Sys2Proof/Machine/Sched.lean ====
section
/-! DEFINITION. Tenancy and scheduling (chapter 15): pre-emption (R397 to R405), tenant reset (R406), the Carousel and time
synchronisation (R409 to R413). -/

namespace Sys2Proof.Machine

/-! ## Streams (R398) -/

/-- The streams of a tenant: its enabled queues and its running programs. -/
def State.streamsOf (s : State) (t : Nat) : List From :=
  ((List.range 8).filterMap (fun n => if h : 8 * t + n < 8194 then (if (s.queue (8 * t + n)).state = 1 then some (From.queue ⟨8 * t + n, h⟩) else none) else none))
    ++ (s.remuda.runs.filter (fun r => r.tenant == t && r.phase == 1)).map (fun r => From.program r.id)

/-- A barrier that is not satisfied. -/
def State.barrierHolds (s : State) (src : Src) (b : List Byte) : Bool :=
  bit (le b 1 1) 2 && match src with
    | .queue q _ => s.begunOf q != 0
    | .program r _ => match s.run? r with | some x => !x.opened.isEmpty | none => false

/-- The DISMOUNT command a stream has stopped at. -/
def State.dismountHead (s : State) (f : From) : Option (Src × List Byte) :=
  match s.headOf f with
  | none => none
  | some src => match s.headBytes src with
    | .ok b => if bit (le b 1 1) 0 then some (src, b) else none
    | .error _ => none

/-- A stream is stopped: at a dismount point, with nothing to begin, or waiting (R398). -/
def State.stopped (s : State) (f : From) : Bool :=
  match s.headOf f with
  | none => true
  | some src => match s.headBytes src with
    | .ok b => bit (le b 1 1) 0 || !s.waitsReady src b || s.barrierHolds src b
    | .error _ => false

/-! ## Live ranges (R399, R400) -/

/-- The array class of Table 15-3. -/
def arrayClass (op : Nat) : Bool := decide (1 ≤ op) && decide (op ≤ 0x0B) || op == 0x13 || op == 0x14

/-- An entry of Table 05-5 is well formed. -/
def rangeEntryOk (e : List Byte) : Bool :=
  decide (le e 4 1 ≤ 8) && le e 5 8 == 0 && le e 13 3 == 0
    && (List.range (le e 4 1)).all (fun i => decide (1 ≤ le e (16 + 2 * i) 1) && decide (le e (16 + 2 * i) 1 ≤ 64) && decide (le e (17 + 2 * i) 1 ≤ 2))

/-- The first entry of a key in a directory. -/
def State.rangeEntry (s : State) (t key : Nat) : Option (List Byte) :=
  let a := s.obj (oTenantLiveRangeDir t)
  if a = 0 then none
  else match s.readVa (some t) a 64 with
    | .error _ => none
    | .ok h =>
      let n := le h 0 4
      if 65536 < n then none
      else match s.readVa (some t) (a + 64) (32 * n) with
        | .error _ => none
        | .ok bs => match (List.range n).find? (fun i => le bs (32 * i) 4 == key) with
          | some i => let e := (bs.drop (32 * i)).take 32; if rangeEntryOk e then some e else none
          | none => none

/-- The command `rel` positions before a head in its stream. -/
def State.before (s : State) (src : Src) (rel : Nat) : Src :=
  match src with
  | .queue q idx => let n := sqSize (s.queueCfg q); .queue q ((idx + n - rel % n) % n)
  | .program r i => if rel ≤ i then .program r (i - rel) else .program r (2 ^ 32)

/-- The actions the dismount point at a head gives: (command, action) of array commands in flight. -/
def State.actionsAt (s : State) (t : Nat) (src : Src) (b : List Byte) : List (Nat × Nat) :=
  match s.rangeEntry t (cmdKey b) with
  | none => []
  | some e => (List.range (le e 4 1)).filterMap (fun i =>
      let at' := s.before src (le e (16 + 2 * i) 1)
      match s.exec.cmds.find? (fun c => c.src == at' && arrayClass (opcodeOf c.bytes)) with
      | some c => some (c.id, le e (17 + 2 * i) 1)
      | none => none)

/-- The actions of every dismount point the tenant's streams stand at. -/
def State.actionsOf (s : State) (t : Nat) : List (Nat × Nat) :=
  (s.streamsOf t).flatMap (fun f => match s.dismountHead f with | some x => s.actionsAt t x.1 x.2 | none => [])

/-- What happens to a command in flight: an action of Table 15-4, or none for one that is no array command. -/
def actionFor (acts : List (Nat × Nat)) (c : Cmd) : Option Nat :=
  if !arrayClass (opcodeOf c.bytes) then none
  else some (match acts.find? (fun a => a.1 == c.id) with | some a => a.2 | none => 1)

/-! ## Dismounting (R401 to R404) -/

def saveBase (v : Nat) : Nat := leN v 0 8
def saveSize (v : Nat) : Nat := leN v 8 8

/-- Live lanes of a tile: those with a row and a column of it (Table 02-3). -/
def liveLanes (t : Tile) : List Nat := (List.range 512).filter (fun l => decide (laneRow t.arr l < t.rows) && decide (entryCol t.arr l 0 < t.cols))

/-- Live accumulator entries of a tile. -/
def liveEntries (t : Tile) : Nat := min 256 t.cols

def savedTiles (c : Cmd) : List (Nat × Tile) :=
  ((List.range c.tiles.length).zip c.tiles).filter (fun x => x.2.state == .run)

/-- Bytes of a tile's record (R402). The tiles that run slices are those of products: none has extra row values (log entry 35). -/
def recordSize (t : Tile) : Nat := alignUp (64 + 16 * liveEntries t * (liveLanes t).length) 64

/-- The header of a tile's record (Table 15-7). -/
def State.recordHeader (s : State) (c : Cmd) (t : Tile) : List Byte :=
  let o := match c.src with
    | .queue q i => (q, i, 0xFFFFFFFF)
    | .program r i => (match s.run? r with | some x => (x.origin.1, x.origin.2, i) | none => (0, 0, i))
  let p := c.stationary.getD t.prod ⟨1, 1, 0, false, 256, [], []⟩
  let before := (c.tiles.filter (fun x => x.prod == t.prod && decide (x.row0 < t.row0))).map Tile.row0
  let fl := orFlags ((List.range t.rows).flatMap (fun i => (List.range t.cols).map (fun j => entryFlags p t t.swapped (t.row0 + i) (t.col0 + j))))
  toLe 2 o.1 ++ toLe 2 o.2.1 ++ toLe 4 o.2.2 ++ toLe 4 before.eraseDups.length ++ toLe 4 (t.col0 / shapeCols t.arr) ++ toLe 1 t.seg ++ toLe 1 (fl.toNat % 16)
    ++ toLe 1 0 ++ toLe 1 (if t.arr = 1 then 1 else if t.arr = 2 then 2 else 3) ++ toLe 2 t.swapped ++ toLe 2 (liveLanes t).length ++ toLe 2 (liveEntries t)
    ++ toLe 4 t.prod ++ toLe 34 0

/-- The record of a tile in Run: its header, and the images its stable's accumulator files hold, entry by entry, each across the live lanes
(R64, R402). -/
def State.tileRecord (s : State) (c : Cmd) (t : Tile) : List Byte :=
  let acc := (s.stable t.stable).acc
  let images := (List.range (liveEntries t)).flatMap (fun j => (liveLanes t).flatMap (fun l => (Store.get (acxZero false) acc (256 * l + j)).image))
  s.recordHeader c t ++ images ++ toLe (recordSize t - 64 - images.length) 0

/-- The save area's header (Table 15-6). -/
def saveHeader (n used seq : Nat) : List Byte := [1, 1, 0, 0] ++ toLe 4 n ++ toLe 8 used ++ toLe 8 seq ++ toLe 4072 0

/-- The tiles a save writes: (command, tile, offset of its record), one after another. -/
def savedAt : Nat → List (Nat × Nat × Tile) → List (Nat × Nat × Nat)
  | _, [] => []
  | off, x :: xs => (x.1, x.2.1, off) :: savedAt (off + recordSize x.2.2) xs

/-- What drains before the tenant is dismounted: drained array commands, ADMITs, RETIREs whose batch has not started, and tiles of saved
commands already in Drain (R399). -/
def State.draining (s : State) (t : Nat) (acts : List (Nat × Nat)) : Bool :=
  s.exec.cmds.any (fun c => c.tenant == some t &&
    (match actionFor acts c with
     | some 0 => true
     | some 2 => saveSize (s.obj (oTenantSaveArea t)) != 0 && c.tiles.any (fun x => x.state == .drain)
     | some _ => false
     | none => opcodeOf c.bytes == 0x11 || (opcodeOf c.bytes == 0x12 && !s.remuda.runs.any (fun r => r.cmd == some c.id && r.handoff && r.phase != 0))))

/-- Tiles not committed start over, except the saved ones, which continue from their slice (R399). -/
def stopTiles (saved : Bool) (c : Cmd) : Cmd :=
  { c with tiles := c.tiles.map (fun (t : Tile) =>
      if t.state = .done ∨ t.state = .waitGrant then t
      else if saved ∧ t.state = .run then { t with state := TileState.fill }
      else if t.slices = 0 then t else { t with swapped := 0, state := TileState.fill }) }

/-- Stable time of work measured for commands: (command, ns) (R395, R500). -/
def State.chargeSpent (s : State) (l : List (Nat × Nat)) : State :=
  l.foldl (fun (acc : State) x => match acc.cmd? x.1 with | some c => acc.chargeEngine c.tenant (cmdKey c.bytes) x.2 | none => acc) s

/-- Save and restore time of a tenant (R395, R500). -/
def State.chargeMove (s : State) (t ns : Nat) : State := (s.count (oTenantEngineNs t) ns).count (oTenantAttribOtherNs t) ns

/-- TENANT_DISMOUNTED (R403, R404): once every stream is stopped and what drains has completed, the tiles are saved or discarded and the
tenant is dismounted. `ns` is the save's stable time, `spent` that of the tiles discarded. -/
def State.dismounted (s : State) (t ns : Nat) (spent : List (Nat × Nat)) : State :=
  let acts := s.actionsOf t
  if s.obj (oTenantRunState t) ≠ 2 ∨ s.regs.fatal ∨ !(s.streamsOf t).all s.stopped ∨ s.draining t acts then s
  else
    let area := s.obj (oTenantSaveArea t)
    let mine := s.exec.cmds.filter (fun c => c.tenant == some t)
    let toSave := if saveSize area = 0 then [] else mine.filter (fun c => actionFor acts c == some 2)
    let tiles := toSave.flatMap (fun c => (savedTiles c).map (fun x => (c, x.1, x.2)))
    let used := 4096 + (tiles.map (fun x => recordSize x.2.2)).sum
    let area' := saveHeader tiles.length used ((s.obj (oTenantPreemptions t) + 1) % 2 ^ 32) ++ tiles.flatMap (fun x => s.tileRecord x.1 x.2.2)
    let wr : Except AccFault (List (Nat × Byte)) := if tiles.isEmpty then .ok [] else s.cellsVa (some t) (saveBase area) area'
    let r : State × List (Nat × Nat × Nat) × List Nat := match wr with
      | .ok cells => (s.withMem (s.mem.store cells), savedAt 4096 (tiles.map (fun x => (x.1.id, x.2.1, x.2.2))), cells.map (fun w => w.1))
      | .error flt => (s.event ⟨0x0508, 1, 1, t, flt.typ⟩, [], [])
    let s1 := (r.1.chargeSpent spent).chargeMove t ns
    let s2 := mine.foldl (fun (acc : State) c0 => match acc.cmd? c0.id with
      | some c => (match actionFor acts c with
        | some a => acc.setCmd (stopTiles (a == 2 && !r.2.1.isEmpty) c)
        | none => acc)
      | none => acc) s1
    let s3 := ((s2.count (oTenantPreemptions t) 1).count (oTenantSavedTiles t) r.2.1.length).count (oTenantHbmBytes t) (hbmOf r.2.2)
    let v := s3.preempt t
    let s4 := (((s3.setObj (oTenantRunState t) 3).setPreempt t
      { v with actions := acts, saved := if r.2.1.isEmpty then 0 else used, saves := r.2.1, away := true }).letGo t).event ⟨0x0500, 0, 1, t, r.2.1.length⟩
    s4.holdTenant t 2 false

/-- PREEMPT_OVERRUN (R404): still dismounting at T0 + 50 µs. -/
def State.overrun (s : State) (t : Nat) : State :=
  let v := s.preempt t
  if s.obj (oTenantRunState t) ≠ 2 ∨ v.late then s
  else
    let left := ((s.streamsOf t).filter (fun f => !s.stopped f)).length
    (((s.setPreempt t { v with late := true }).count oPreemptOverruns 1).event ⟨0x0501, 0, 1, t, left⟩)

/-! ## Resuming (R405) -/

/-- The plan of an array command. -/
def arrayPlan (op : Nat) : State → Env → Plan :=
  match op with
  | 0x01 => withFuse planMatmul
  | 0x02 => planMatmulList
  | 0x03 => planConv
  | 0x04 => planPool
  | 0x05 => planResample
  | 0x06 => withFuse planAttend
  | 0x07 => planNorm
  | 0x08 => planChain
  | 0x09 => planGather
  | 0x0A => planScatter
  | 0x0B => planDistance
  | 0x13 => planTokens
  | 0x14 => planNoise
  | _ => fun _ _ => (Checks.none, .ok Work.none)

/-- A pre-empted command resumes without what was freed behind it: one that still reads or writes there meets the fault that gives (R98). -/
def State.resumeWithout (s : State) (id : Nat) : State :=
  match s.cmd? id with
  | none => s
  | some c =>
    let g := s.asBegan c
    match (arrayPlan (opcodeOf c.bytes) g (g.planEnv c.src c.bytes).1).2 with
    | .ok _ => s
    | .error f => if c.status = stSuccess ∧ f.status = stTranslation then (s.setCmd { c with writes := [] }).failCmd id f.status f.detail f.fault else s

/-- The accumulator files as a record gives them; entries that are not live hold the identity of the lane mode (R27, R402). -/
def loadedAcc (mode : Nat) (t : Tile) (rec' : List Byte) : Store Acx :=
  let lanes := liveLanes t
  (List.range 512).flatMap (fun l => (List.range 256).map (fun j =>
    (256 * l + j, if lanes.contains l ∧ j < liveEntries t then acxOfImage ((rec'.drop (64 + 16 * (j * lanes.length + lanes.idxOf l))).take 16) else laneIdentity mode)))

/-- A saved tile continues on an active stable of its partition that no other saved tile has taken, from its slice (R317, R405). If the record
no longer says what was saved, the outputs of its command are not specified (R402). -/
def State.loadTile (s : State) (taken : List Nat) (area : List Byte) (x : Nat × Nat × Nat) : State × List Nat :=
  match s.tile? x.1 x.2.1 with
  | none => (s, taken)
  | some (c, t) =>
    let all := (s.tenantQuarters c.tenant).flatten
    let free := all.filter (fun p => !taken.contains p && !s.stableRuns p x.1 x.2.1)
    match (if free.contains t.stable then some t.stable else free.head?) with
    | none => (s, taken)
    | some p =>
      let st := c.stationary.getD t.prod ⟨1, 1, 0, false, 256, [], []⟩
      let v0 := s.stable p
      let v := match s.draining? v0 with | some g => v0.readOut g | none => v0
      let acc := loadedAcc st.mode t (area.drop x.2.2)
      let s1 := (s.putStable p { v with acc := acc, active := tileSlice st t (t.swapped - 1), activeTag := some (x.1, x.2.1, t.swapped - 1), shadowTag := none }).setTile
        x.1 x.2.1 { t with stable := p, state := TileState.run }
      if acc = tileAcc st t t.swapped then (s1, p :: taken)
      else match s1.cmd? x.1 with
        | none => (s1, p :: taken)
        | some c1 => let f := s1.free; (f.2.setCmd { c1 with writes := freeCells f.1 (c1.writes.map (fun w => w.1)) }, p :: taken)

/-- The tile records are loaded, and the save area is empty. Where it cannot be read, the saved tiles replay from Fill (log entry 114). -/
def State.restore (s : State) (t : Nat) : State :=
  let v := s.preempt t
  let base := saveBase (s.obj (oTenantSaveArea t))
  if v.saved = 0 then s
  else match s.readVa (some t) base v.saved, s.cellsVa (some t) (base + 1) [0] with
    | .ok area, .ok cells =>
      let r := v.saves.foldl (fun (acc : State × List Nat) x => acc.1.loadTile acc.2 area x) (s, [])
      r.1.withMem (r.1.mem.store cells)
    | _, _ => v.saves.foldl (fun (acc : State) x => match acc.tile? x.1 x.2.1 with
      | some y => acc.setTile x.1 x.2.1 { y.2 with swapped := 0, state := TileState.fill }
      | none => acc) s

/-- TENANT_RESUME (R405): no request is left; the tile records are loaded and the streams begin again. -/
def State.resumed (s : State) (t ns : Nat) : State :=
  if s.obj (oTenantRunState t) ≠ 4 ∨ s.regs.fatal then s
  else
    let v := s.preempt t
    let s0 := (((v.gone.foldl State.resumeWithout s).restore t).chargeMove t ns).count (oTenantHbmBytes t) v.saved
    let s1 := s0.setPreempt t { v with actions := [], saved := 0, saves := [], gone := [], away := false }
    ((s1.setObj (oTenantRunState t) 1).event ⟨0x0502, 0, 1, t, 0⟩).preemptCheck t

/-! ## Enabling (R386) -/

/-- `TENANT_ENABLE` is written. -/
def State.tenantEnable (s : State) (t v : Nat) : State :=
  if v = s.obj (oTenantEnable t) then s
  else
    let s1 := (s.setObj (oTenantEnable t) v).setPreempt t Preempt.none
    if v = 1 then (s1.setObj (oTenantRunState t) 1).holdTenant t 1 (s.obj (oTenantHold t) == 1) else s1.setObj (oTenantRunState t) 0

/-- `TENANT_HOLD` is written (R397). -/
def State.tenantHold (s : State) (t v : Nat) : State :=
  let s1 := s.setObj (oTenantHold t) v
  if s.tenantEnabled t then s1.holdTenant t 1 (v == 1) else s1

/-! ## Tenant reset (R406) -/

/-- A command of the tenant that a codec engine still works on. -/
def State.onEngine (s : State) (id : Nat) : Bool := s.codec.jobs.any (fun j => j.cmd == id && j.engine.isSome)

/-- TENANT_RESET: the tenant begins nothing more; its commands stop, and what is not on a codec engine is aborted. -/
def State.tenantReset (s : State) (t : Nat) : State :=
  if s.obj (oTenantRunState t) = 5 then s
  else
    let mine := s.exec.cmds.filter (fun c => c.tenant == some t)
    let v := s.preempt t
    let s1 := (s.setObj (oTenantRunState t) 5).setPreempt t { v with actions := [], saved := 0, saves := [], gone := [], away := false, late := false, aborted := mine.length }
    let s2 := (s1.fabric.colls.filter (fun c => c.tenant == t)).foldl (fun (acc : State) c => acc.abortColl c stAborted 0 true) s1
    mine.foldl (fun (acc : State) c =>
      if acc.onEngine c.id then acc
      else match acc.cmd? c.id, acc.job? c.id with
        | some _, some j => acc.jobFails j stAborted 0 none
        | some _, none => acc.failCmd c.id stAborted 0 none
        | none, _ => acc) s2

/-- A queue that a reset disables. -/
def State.clearQueue (s : State) (q : Nat) : State :=
  let c := s.queueCfg q
  let v := s.queue q
  (s.setObj (queueKey q) (setBits c 144 1 0)).setQueue q { v with state := 0, waitsMet := [], delayArmed := false, dropRecords := false, heldRoom := 0 }

/-- Every entry of the tenant's range that is not FREE is retired without hand-off (R406 step 4). -/
def State.clearEntries (s : State) (t : Nat) : State :=
  let ixs := (List.range 4096).filter (fun ix => s.inRange t ix && s.entry ix != Entry.free)
  let r := ixs.foldl (fun (acc : State × Nat) ix => let x := acc.1.retire t ix 0 none false; (x.1, acc.2 + x.2)) (s, 0)
  r.1.returned t r.2

/-- TENANT_RESET_COMPLETE (R406): once no codec frame of the tenant is on an engine, its commands complete with ABORTED, its entries and
buffers return, its queues are disabled and event 0x0503 is posted. `spent` is the stable time of the tiles discarded. -/
def State.resetComplete (s : State) (t : Nat) (spent : List (Nat × Nat)) : State :=
  let mine := s.exec.cmds.filter (fun c => c.tenant == some t)
  if s.obj (oTenantRunState t) ≠ 5 ∨ s.regs.fatal ∨ mine.any (fun c => s.onEngine c.id) then s
  else
    let s0 := s.chargeSpent spent
    let order := mine.filter (fun c => match c.src with | .program _ _ => true | .queue _ _ => false)
      ++ mine.filter (fun c => match c.src with | .program _ _ => false | .queue _ _ => true)
    let s1 := order.foldl (fun (acc : State) c =>
      let a := if (match acc.cmd? c.id with | some x => x.status == stAborted | none => true) then acc
        else match acc.job? c.id with | some j => acc.jobFails j stAborted 0 none | none => acc.failCmd c.id stAborted 0 none
      match a.cmd? c.id with | some x => a.endCmd x 0 0 true | none => a) s0
    let s2 := { s1 with remuda := { s1.remuda with runs := s1.remuda.runs.filter (fun r => r.tenant != t),
                                                   retires := s1.remuda.retires.filter (fun r => r.tenant != t),
                                                   admits := s1.remuda.admits.filter (fun r => r.tenant != t) } }
    let s3 := s2.clearEntries t
    let held := (List.range (s3.codecPool t).count).filter (fun b => s3.buf t b != 0)
    let s4 := s3.returnBufs t held
    let s5 := (List.range 8).foldl (fun (acc : State) n => acc.clearQueue (8 * t + n))
      (s4.dropWaits (fun src => match src with | .queue q _ => q / 8 == t && decide (q < 8192) | .program _ _ => false))
    let s6 := (s5.setObj (oTenantFlags t) 0).event ⟨0x0503, 0, 1, t, (s.preempt t).aborted⟩
    (s6.setObj (oTenantRunState t) (s.obj (oTenantEnable t))).preemptCheck t

/-- FUNCTION_LEVEL_RESET (R387). -/
def State.functionReset (s : State) (f : Nat) : State :=
  ((List.range 1024).filter (fun t => s.tenantEnabled t && s.tenantFunction t == f)).foldl State.tenantReset s

/-! ## The Carousel (R409 to R411) -/

def carEntry (table slot : Nat) : Nat := leN table (2 * slot) 2

/-- The requests of one partition at a boundary (R410). -/
def State.slotRequests (s : State) (p : Nat) : State :=
  let on := s.sched.carEnable && s.obj (oPartitionSchedMode p) == 2
  let e := carEntry (s.sched.carTables.getD p 0) s.sched.slot
  (s.placed p).foldl (fun (acc : State) t => acc.holdTenant t 0 (on && (e == 0xFFFF || (e != 0xFFFE && e != t)))) s

/-- A major frame begins: its number, the Carousel objects committed since, and at most 10 µs of the offset corrected (R411, R413). -/
def State.majorFrame (s : State) : State :=
  let off := s.sched.offset
  let left := if off < -10000 then off + 10000 else if 10000 < off then off - 10000 else 0
  let s1 := s.setObj oCarouselFrameNumber ((s.obj oCarouselFrameNumber + 1) % 2 ^ 64)
  { s1 with sched := { s1.sched with slot := 0, offset := left, carEnable := s.obj oCarouselEnable == 1, carCount := s.obj oCarouselSlotCount,
                                     carLen := s.obj oCarouselSlotLen,
                                     carTables := (List.range 8).map (fun p => s.obj (oCarouselSlots p)) } }

/-- CAROUSEL_SLOT_BOUNDARY (R410). -/
def State.slotBoundary (s : State) : State :=
  let s1 := if s.sched.carCount ≤ s.sched.slot + 1 then s.majorFrame else { s with sched := { s.sched with slot := s.sched.slot + 1 } }
  (List.range 8).foldl State.slotRequests s1

/-! ## Time (R412, R413) -/

/-- `CAROUSEL_TIME_ROLE` is written: the sync state it starts in. -/
def State.timeRole (s : State) (v : Nat) : State :=
  let s1 := (s.setObj oCarouselTimeRole v).setObj oCarouselSyncState (if v = 0 then 0 else if v = 1 then 2 else 1)
  { s1 with sched := { s1.sched with fresh := none, lost := false } }

/-- Time packets on every live Street port but one. -/
def State.sendTime (s : State) (frame phase hops : Nat) (but : Option Nat) : State :=
  ((List.range 12).filter (fun p => s.portUp p && but != some p)).foldl
    (fun (acc : State) p => acc.sendOn p (some tagDevice) (mkPacket acc.self acc.self 8 0 (.time frame phase hops))) s

/-- TIME_MASTER_TICK: a borough master, or an Avenue follower that has time, sends; `phase` is the device's own. -/
def State.masterTick (s : State) (phase : Nat) : State :=
  let role := s.obj oCarouselTimeRole
  if role = 1 ∨ (role = 3 ∧ s.obj oCarouselSyncState = 3) then s.sendTime (s.obj oCarouselFrameNumber) phase 0 none else s

/-- Nanoseconds of a major frame (R409). -/
def State.frameNs (s : State) : Nat := s.sched.carCount * s.sched.carLen * 10000

/-- Adopt a copy of time: the offset measured, and, after a loss, event 0x0505 and its gradual correction (R413). -/
def State.adoptTime (s : State) (p frame there phase hops : Nat) : State :=
  let off : Int := ((frame : Int) - (s.obj oCarouselFrameNumber : Int)) * (s.frameNs : Int) + ((there : Int) - (phase : Int))
  let lost := s.sched.lost
  let s1 := (s.setObj oCarouselSyncOffsetNs (unsigned 32 off)).setObj oCarouselSyncState 3
  let left := if lost then off else s1.sched.offset
  let s2 := { s1 with sched := { s1.sched with fresh := some (frame, there, hops, p), offset := left, lost := false } }
  if lost then s2.event ⟨0x0505, 0, 0, 0, unsigned 32 off⟩ else if s.sched.offset = 0 then s2.setObj oCarouselFrameNumber frame else s2

/-- TIME_PACKET_RECEIVE: a follower takes the copy with the fewest hops, the lowest port among equals, and a Street follower forwards each
tick once (R412). Copies less than half a tick apart are of one tick. `phase` is the device's own on arrival. -/
def State.timeReceived (s : State) (p : Nat) (k : Packet) (phase : Nat) : State :=
  match k.body with
  | .time frame ph hops =>
    let role := s.obj oCarouselTimeRole
    let there := ph + (s.port p).delayNs
    if s.regs.fatal || !s.portUp p then s
    else if !k.hdr.crcOk then s.count oLinkE2eCrcDrops 1
    else if role = 3 ∧ p = 12 + s.obj oCarouselAvenuePort then s.adoptTime p frame there phase hops
    else if role = 2 ∧ p < 12 then
      match s.sched.fresh with
      | some (f0, ph0, h0, p0) =>
        let same := s.obj oCarouselSyncState == 3 && f0 == frame && decide (there < ph0 + 50000) && decide (ph0 < there + 50000)
        if !same then (s.adoptTime p frame there phase hops).sendTime frame there (hops + 1) (some p)
        else if hops < h0 ∨ (hops = h0 ∧ p < p0) then s.adoptTime p frame there phase hops
        else s
      | none => (s.adoptTime p frame there phase hops).sendTime frame there (hops + 1) (some p)
    else s
  | _ => s

/-- LINK_DELAY_MEASURE: a two-way exchange of link-parameter packets gives a port's delay (R412). -/
def State.delayMeasured (s : State) (p ns : Nat) : State :=
  if 16 ≤ p ∨ !s.portUp p then s else (s.setPort p { s.port p with delayNs := ns }).sendParams p

/-- TIME_SOURCE_LOSS (R413): a follower has had no time packet for 1 ms. -/
def State.timeLost (s : State) : State :=
  let role := s.obj oCarouselTimeRole
  if (role = 2 ∨ role = 3) ∧ !s.sched.lost then
    ({ s with sched := { s.sched with lost := true } }.setObj oCarouselSyncState 1).event ⟨0x0504, 1, 0, 0, 0⟩
  else s

end Sys2Proof.Machine
end

