-- ==== Sys2Proof/Machine/Reset.lean ====
section
/-! DEFINITION. What a reset clears (Table 22-10), and the removal of the main rails (R474, R476, R531, R537). -/

namespace Sys2Proof.Machine

/-! ## Objects -/

/-- The objects that take their defaults at `PERST_n` (R420). -/
def hostObject (key : Nat) : Bool :=
  let i := keyIndex key
  i == 0x1100 || i == 0x1101 || (decide (0x4000 ≤ i) && decide (i < 0x4400))

/-- The objects that report the hardware or its sensors: an Ostler boot does not reset them (R420, R450). -/
def hardwareObject (key : Nat) : Bool :=
  [0x2120, 0x2400, 0x2401, 0x2402, 0x2403, 0x3102, 0x3500, 0x5000, 0x5001, 0x5002, 0x5003, 0x5004, 0x5020, 0x5021, 0x5030, 0x5044, 0x5045, 0x5046].contains (keyIndex key)

def objFlash (key : Nat) : Bool := match objDef? (keyIndex key) (keySub key) with | some d => d.flash | none => false

/-- Keep the values of some objects; the others read as their defaults. -/
def State.keepObjs (s : State) (keep : Nat → Bool) : State :=
  { s with dict := { s.dict with vals := s.dict.vals.filter (fun x => keep x.1) } }

/-- The objects of a Tack master's open transaction go free, and it is closed (R435). -/
def State.dropTx (s : State) (m : Nat) : State := { s with dict := { s.dict with txs := Store.erase s.dict.txs m } }

/-! ## The host's side -/

/-- Every granule and every frame that is owned goes free, or is retired (R112, Table 22-10). -/
def State.freeAll (s : State) : State :=
  let gs := (s.mem.granOwner.filter (fun x => x.2 != ownerRetired)).map (·.1)
  let fs := (s.mem.frameOwner.filter (fun x => x.2 != ownerRetired)).map (·.1)
  let s1 := fs.foldl State.releaseFrame (gs.foldl State.releaseGranule s)
  (s1.withMem { s1.mem with allocs := [], delayed := [] }).syncMemory 1024

/-- What the PCIe function holds (Table 22-10); what has been sent stays sent, and the FATAL state is not the function's. -/
def State.functionRegs (s : State) : State :=
  { s with regs := { RegGroup.reset with fatal := s.regs.fatal, msix := s.regs.msix } }

/-- No command has begun: none holds a tile, a grant, a register set or a place in a manger. -/
def State.noCommands (s : State) : State :=
  { s with exec := { s.exec with cmds := [], granted := 0, partials := [],
                                 stables := s.exec.stables.map (fun x => (x.1, { x.2 with activeTag := none, shadowTag := none, manger := [] })) },
           remuda := { RemudaGroup.reset with nextRun := s.remuda.nextRun },
           codec := { CodecGroup.reset with down := s.codec.down } }

/-- Posts, subscriptions, waits and collectives are gone; links and end-to-end streams stay. -/
def State.noPosts (s : State) : State :=
  { s with fabric := { s.fabric with posts := [], subs := [], waits := [], colls := [], held := [], early := [] } }

/-- The host's side of the module as `PERST_n` leaves it: steps 2 and 3 of Table 22-11. -/
def State.hostReset (s : State) : State :=
  let s1 := ((s.noCommands.noPosts.functionRegs.keepObjs (fun k => !hostObject k)).dropTx 0).freeAll
  let s2 := { s1 with queues := [], sched := { s1.sched with preempt := [], lostGuarantee := [] },
                      obs := { s1.obs with attrib := [], hangs := [], quiet := [] },
                      dict := { s1.dict with waitingMsgs := s1.dict.waitingMsgs.filter (fun m => m.route == 1) } }
  ((s2.setObj oRemudaEntriesFree 4096).setObj oRemoteSubscriptionsHeld 0).setObj oCollectivesActive 0

/-! ## The main rails -/

/-- A unit without power (R488). -/
def State.unitsOff (s : State) : State :=
  { s with exec := { s.exec with stables := (List.range 136).map (fun p =>
      let v := s.stable p
      (p, { v with active := [], shadow := [], activeTag := none, shadowTag := none, acc := [], manger := [], epoch := 0 })), quarterEpochs := [] },
           sched := { s.sched with arbs := [] } }

/-- HBM and the paddocks lose what they held; what they hold when power returns is not specified, and reads as zero (log entry 5). Granules
and frames in which an error occurred are still to be retired at their next free (R112). -/
def State.memoryLost (s : State) : State :=
  s.withMem { s.mem with bytes := s.mem.bytes.filter (fun c => decide (2 ^ 64 ≤ c.1)), poison := s.mem.poison.filter (fun l => decide (2 ^ 58 ≤ l)) }

/-- Nothing of the end-to-end streams and of the map is kept (Table 22-10). -/
def State.streamsLost (s : State) : State :=
  { s with fabric := { s.fabric with streamsOut := [], streamsIn := [], unreachable := [], lineageWait := [], mapEpochs := [] } }

/-- What the main rails fed no longer runs. -/
def State.supplyLost (s : State) : State :=
  s.withPower { s.power with rails := 0, hbmReady := false, pcie := 0, retry := false, raising := none, scrubs := [], repairs := [], stretched := [],
                             cooling := [], railTenths := [] }

/-- The main rails go off: the compute dies, the I/O die, HBM and the SerDes lose power. -/
def State.railsOff (s : State) : State :=
  if s.power.rails = 0 then s
  else
    let s1 := ((s.hostReset.portsDown 18).memoryLost.unitsOff.streamsLost.supplyLost.setObj oRootPllState 0).setObj oLinkMap 0
    (List.range 8).foldl (fun (acc : State) q => acc.setObj (oQuarterVoltageMv q) 0) s1

end Sys2Proof.Machine
end

