-- ==== Sys2Proof/Machine/Power.lean ====
section
/-! DEFINITION. Gaits, the power, thermal and coolant loops, rail voltages, cooling, `REIN_n`, supply and clock faults (chapter 18, R465 to
R477, and R529 to R531). What is measured arrives with the row. -/

namespace Sys2Proof.Machine

/-! ## Gaits (R465, R466) -/

/-- The gait R465 selects. -/
def State.selected (s : State) : Nat :=
  let p := s.power
  if p.rein || p.reinHold then 0
  else min (s.obj oGaitCeiling) (min p.powerGait (min p.thermalGait (min p.inputGait p.coolantGait)))

/-- The nominal core clock of a gait in kHz (Table 22-7). -/
def gaitKhz (g : Nat) : Nat := [700000, 1400000, 1800000, 2100000].getD g 0

/-- Quarter rail range of a gait in 0.1 mV (Table 18-8). -/
def railMin (g : Nat) : Nat := [6200, 6800, 7200, 8000].getD g 0
def railMax (g : Nat) : Nat := [7000, 7800, 8200, 9000].getD g 0

/-- `ALERT_n` is asserted (R477, Table 22-5). -/
def State.alert (s : State) : Bool :=
  s.power.standby && !s.power.mrst && (s.regs.fatal || (!s.power.rein && !s.power.reinHold && decide (s.obj oGaitCurrent < s.obj oGaitCeiling)))

/-- The core divider changes (Table 22-7, Table 20-6). -/
def State.divider (s : State) (g cause : Nat) : State :=
  (((s.withPower { s.power with raising := none }).setObj oGaitCurrent g).setObj oCoreClockKhz (gaitKhz g)).traceGait g cause

/-- A gait change that raises event 0x0700 (R466). -/
def State.changeGait (s : State) (g cause : Nat) : State := (s.divider g cause).event ⟨0x0700, 0, 0, 0, g + 16 * cause⟩

/-- A quarter's rail, and the measurement of it, which is within 5 mV (Table 18-4; log entry 2). -/
def State.setRail (s : State) (q tenths : Nat) : State :=
  let f := s.free
  (f.2.withPower { f.2.power with railTenths := Store.set 0 f.2.power.railTenths q tenths }).setObj (oQuarterVoltageMv q) (tenths / 10 + f.1 % 11 - 5)

def State.rail (s : State) (q : Nat) : Nat := Store.get 0 s.power.railTenths q

/-- A level in the range of a gait and at least a given one: where in the range a rail settles is not specified (log entry 2). -/
def State.settleRail (s : State) (g q : Nat) : State :=
  let lo := max (railMin g) (min (s.rail q) (railMax g))
  let f := s.free
  f.2.setRail q (lo + f.1 % (railMax g - lo + 1))

/-- Raise every rail to a gait's range (R466). -/
def State.raiseRails (s : State) (g : Nat) : State :=
  (List.range 8).foldl (fun (acc : State) q => if railMin g ≤ acc.rail q then acc else acc.settleRail g q) s

/-- The selection of R465 is made again: a lower gait takes effect at once and abandons an up-transition, a higher one begins one. -/
def State.reselect (s : State) (downCause upCause : Nat) : State :=
  let g := s.selected
  let cur := s.obj oGaitCurrent
  if g < cur then s.changeGait g downCause
  else if g = cur then s.withPower { s.power with raising := none }
  else match s.power.raising with
    | some (g', _) => if g' = g then s else (s.withPower { s.power with raising := some (g, upCause) }).raiseRails g
    | none => (s.withPower { s.power with raising := some (g, upCause) }).raiseRails g

/-- GAIT_UP_COMPLETE (R466): the voltages have settled. -/
def State.gaitUp (s : State) : State :=
  match s.power.raising with
  | some (g, cause) => s.changeGait g cause
  | none => s

/-- The gait a core starts at when its rails come on (R465, R538). -/
def State.startGait (s : State) : State :=
  let g := s.selected
  ((s.withPower { s.power with raising := none }).setObj oGaitCurrent g).setObj oCoreClockKhz (gaitKhz g)

/-- GAIT_CEILING_WRITE. -/
def State.gaitCeiling (s : State) (v : Nat) : State := (s.setObj oGaitCeiling v).reselect 5 5

/-- The Ostler's firmware runs its loops. -/
def State.loops (s : State) : Bool := s.power.ostler == 1

/-! ## `REIN_n` (R467) -/

/-- REIN_ASSERT. `late`: it had been deasserted for 1 ms or more. -/
def State.reinAssert (s : State) (late : Bool) : State :=
  if s.power.rein ∨ !s.power.standby then s
  else
    let s1 := (s.withPower { s.power with rein := true, reinHold := false, raising := none }).setObj oReinState 1
    let s2 := if s.obj oGaitCurrent = 0 then s1 else s1.divider 0 7
    (if late ∧ s.loops then s2.event ⟨0x0703, 0, 0, 0, 0⟩ else s2).staticCheck

/-- REIN_DEASSERT: 100 µs more at Walk. -/
def State.reinDeassert (s : State) : State :=
  if !s.power.rein then s
  else ((s.withPower { s.power with rein := false, reinHold := true }).setObj oReinState 0).staticCheck

/-- REIN_HOLD_EXPIRE. -/
def State.reinExpire (s : State) : State :=
  if !s.power.reinHold then s else (s.withPower { s.power with reinHold := false }).reselect 6 6

/-! ## Power (R472) -/

/-- POWER_GAIT_TICK: the 1 ms means of the input's power and voltage. `due`: a second has passed since the last event 0x0701. -/
def State.powerTick (s : State) (watts mv : Nat) (due : Bool) : State :=
  if !s.loops then s
  else
    let s1 := ((s.setObj oInputPowerW watts).setObj oInputVoltageMv mv).count (oGaitResidencyMs (s.obj oGaitCurrent)) 1
    let limit := s.obj oPowerLimitW
    if limit < watts then
      let s2 := (s1.withPower { s1.power with powerGait := s1.power.powerGait - 1 }).reselect 1 0
      if due then s2.event ⟨0x0701, 0, 0, 0, watts⟩ else s2
    else if 100 * watts ≤ 95 * limit then s1.withPower { s1.power with walkStall := false }
    else s1

/-- POWER_GAIT_RAISE: 50 ms of headroom at the higher gait, as the device estimates it. -/
def State.powerRaise (s : State) : State :=
  if !s.loops ∨ 3 ≤ s.power.powerGait then s
  else (s.withPower { s.power with powerGait := s.power.powerGait + 1 }).reselect 1 0

/-- POWER_WALK_STALL: 100 ms above the limit at Walk. -/
def State.powerStall (s : State) : State :=
  if !s.loops ∨ s.obj oGaitCurrent ≠ 0 ∨ s.obj oInputPowerW ≤ s.obj oPowerLimitW then s
  else s.withPower { s.power with walkStall := true }

/-! ## Temperature (R471, R473) -/

/-- Point n of Table 18-4, in 0.01 °C. -/
def State.point (s : State) (n : Nat) : Int := signed 32 (s.obj (oThermalPoint (n - 1)))
def State.stackTemp (s : State) (k : Nat) : Int := signed 32 (s.obj (oHbmStackTemp k))

/-- The temperature, in 0.01 °C, at which a point lowers the gait: every point 100 °C, every HBM stack 95 °C (Table 18-7). -/
def State.tempsBelow (s : State) (point stack : Int) : Bool :=
  (List.range 96).all (fun i => decide (s.point (i + 1) < point)) && (List.range 8).all (fun k => decide (s.stackTemp k < stack))

/-- Every die point below 85 °C and every HBM stack below 80 °C. -/
def State.coolForGallop (s : State) : Bool :=
  (List.range 88).all (fun i => decide (s.point (i + 1) < 8500)) && (List.range 8).all (fun k => decide (s.stackTemp k < 8000))

/-- THERMAL_GAIT_TICK: the temperatures of the last millisecond, in 0.01 °C. -/
def State.thermalTick (s : State) (points hbm : List Int) : State :=
  if !s.loops then s
  else
    let s1 := (List.range 96).foldl (fun (acc : State) i => acc.setObj (oThermalPoint i) (unsigned 32 (points.getD i 0))) s
    let s2 := (List.range 8).foldl (fun (acc : State) k => acc.setObj (oHbmStackTemp k) (unsigned 32 (hbm.getD k 0))) s1
    if s2.tempsBelow 10000 9500 then s2
    else (s2.withPower { s2.power with thermalGait := s2.power.thermalGait - 1 }).reselect 2 0

/-- THERMAL_GAIT_RAISE: 10 ms in which every point was 5 K below its threshold. -/
def State.thermalRaise (s : State) : State :=
  let g := s.power.thermalGait
  if !s.loops ∨ 3 ≤ g ∨ !s.tempsBelow 9501 9001 ∨ (g = 2 ∧ !s.coolForGallop) then s
  else (s.withPower { s.power with thermalGait := g + 1 }).reselect 2 0

/-- The die points of a quarter: eight of its compute die, and its paddock die (Table 18-4). -/
def quarterPoints (q : Nat) : List Nat := (List.range 8).map (fun i => 8 * q + 1 + i) ++ [81 + q]

def State.hottest (s : State) (q : Nat) : Int := (quarterPoints q).foldl (fun m n => max m (s.point n)) (s.point (81 + q))

/-- QUARTER_COOLING_ENTER. -/
def State.coolingEnter (s : State) (q : Nat) : State :=
  let others := (s.partitionQuarters (s.quarterPartition q)).filter (fun r => r != q)
  if s.obj oThermalMigrationEnable ≠ 1 ∨ s.power.cooling.contains q ∨ s.power.rails ≠ 2 ∨ s.hottest q < 9200
      ∨ !others.any (fun r => decide (s.hottest r + 800 ≤ s.hottest q)) then s
  else (s.withPower { s.power with cooling := s.power.cooling ++ [q] }).event ⟨0x0702, 0, 2, q, 1⟩

/-- QUARTER_COOLING_LEAVE: 10 ms with every point below 87 °C. -/
def State.coolingLeave (s : State) (q : Nat) : State :=
  if !s.power.cooling.contains q ∨ 8700 ≤ s.hottest q then s
  else (s.withPower { s.power with cooling := s.power.cooling.erase q }).event ⟨0x0702, 0, 2, q, 0⟩

/-! ## Rails of a quarter (R469, R470) -/

/-- DROOP_DETECT. -/
def State.droop (s : State) (q : Nat) : State :=
  if s.power.rails ≠ 2 ∨ s.power.stretched.contains q then s
  else (s.withPower { s.power with stretched := s.power.stretched ++ [q] }).count oDroopStretches 1

/-- DROOP_STRETCH_END. -/
def State.droopEnd (s : State) (q : Nat) : State := s.withPower { s.power with stretched := s.power.stretched.erase q }

/-- CANARY_LOW_MARGIN: 25 mV up, within the range; a canary failure goes to the top and stretches the clock. -/
def State.canaryLow (s : State) (q : Nat) (failure : Bool) : State :=
  let top := max (railMax (s.obj oGaitCurrent)) (s.rail q)
  if s.power.rails ≠ 2 then s
  else if failure then (s.setRail q top).droop q
  else s.setRail q (min top (s.rail q + 250))

/-- VOLTAGE_STEP_DOWN_TICK: 2.5 mV down, within the range; a rail above the range of a lower gait comes down into it (Table 18-9). While an
up-transition is in progress the rails stay up. -/
def State.stepDown (s : State) (q : Nat) : State :=
  let g := s.obj oGaitCurrent
  if s.power.rails ≠ 2 ∨ s.power.raising.isSome then s
  else if railMax g < s.rail q then s.settleRail g q
  else s.setRail q (max (railMin g) (s.rail q - 25))

/-! ## Trips and supplies (R474, R475) -/

/-- TRIP, with the cause of event 0x0708: 1 input, 2 compute and paddock dies, 3 I/O die and power stages, 4 HBM. -/
def State.trip (s : State) (cause : Nat) : State :=
  if !s.power.standby ∨ s.power.mrst ∨ s.power.fatals.contains (0x0708, cause, 1) then s
  else (s.fatalFault ⟨0x0708, 3, 0, 0, cause⟩ 1).railsOff

/-- INPUT_VOLTAGE_EXCURSION: 1 ms outside 48 V to 58 V. -/
def State.inputOut (s : State) (mv : Nat) : State :=
  let s0 := s.setObj oInputVoltageMv mv
  if !s.power.standby ∨ (48000 ≤ mv ∧ mv ≤ 58000) then s
  else if mv < 46000 ∨ 60000 < mv then (s0.withPower { s0.power with inputGait := 0 }).trip 1
  else if s.power.inputGait = 0 then s0
  else ((s0.withPower { s0.power with inputGait := 0 }).event ⟨0x0706, 1, 0, 0, mv⟩).reselect 3 0

/-- INPUT_VOLTAGE_RECOVER: 10 ms back in range. -/
def State.inputBack (s : State) (mv : Nat) : State :=
  if s.power.inputGait ≠ 0 ∨ mv < 48000 ∨ 58000 < mv then s
  else ((s.setObj oInputVoltageMv mv).withPower { s.power with inputGait := 3 }).reselect 3 0

/-- The coolant flow estimated is below n tenths of a litre per minute (R475): watts below 6.98 × n × the rise in K. -/
def flowBelow (watts : Nat) (rise : Int) (n : Int) : Bool :=
  decide (500 ≤ watts) && decide (100 ≤ rise) && decide ((watts : Int) * 10000 < 698 * n * rise)

/-- COOLANT_SAMPLE: inlet and outlet in 0.01 °C. Event 0x0707 is raised when a warning begins. -/
def State.coolant (s : State) (inlet outlet : Int) : State :=
  if !s.loops then s
  else
    let s1 := (s.setObj (oCoolantTemp 0) (unsigned 32 inlet)).setObj (oCoolantTemp 1) (unsigned 32 outlet)
    let limit := signed 32 (s.obj oCoolantInletLimitC)
    let watts := s.obj oInputPowerW
    let low := flowBelow watts (outlet - inlet) 20
    let warn := b2n (decide (limit < inlet)) + 2 * b2n low
    let g := if limit + 500 < inlet ∨ flowBelow watts (outlet - inlet) 10 then 1 else if limit < inlet then 2 else 3
    let newly := (bit warn 0 && !bit s.power.coolantWarn 0) || (bit warn 1 && !bit s.power.coolantWarn 1)
    let s2 := s1.withPower { s1.power with coolantGait := g, coolantWarn := warn }
    (if newly then s2.event ⟨0x0707, 1, 0, 0, warn⟩ else s2).reselect 4 0

/-! ## Ostler and clocks (R453, R531) -/

/-- LOCKSTEP_MISMATCH (R453): the latch sets FATAL and the cause; the event itself waits for the next boot. -/
def State.lockstep (s : State) : State :=
  if s.power.ostler ≠ 1 ∧ s.power.ostler ≠ 2 then s
  else
    let s1 := s.withPower { s.power with ostler := 3, fatals := s.power.fatals ++ [(0x0709, 0, 1)] }
    if s.regs.fatal then s1 else ({ s1 with regs := { s1.regs with fatal := true } }).setObj oFatalCause 0x0709

/-- REFCLK_LOSS and ROOT_PLL_LOCK_LOSS (R531): fatal, rails off, the Ostler stopped. The boot logs the event. -/
def State.clockFault (s : State) : State :=
  let s1 := s.withPower { s.power with fatals := s.power.fatals ++ [(0x0811, 8, 1)] }
  let s2 := if s.regs.fatal then s1 else ({ s1 with regs := { s1.regs with fatal := true } }).setObj oFatalCause 0x0811
  let s3 := s2.railsOff
  s3.withPower { s3.power with ostler := 0 }

def State.refclkLoss (s : State) : State :=
  if !s.power.refclk ∨ !s.power.standby then s
  else let s1 := s.clockFault; s1.withPower { s1.power with refclk := false }

/-- Lock is lost while REFCLK runs: handled the same way, until REFCLK has run for 1 ms (R531). -/
def State.pllLoss (s : State) : State :=
  if s.obj oRootPllState ≠ 1 then s
  else let s1 := s.clockFault; s1.withPower { s1.power with refclk := false }

/-- SREFCLK_LOSS: every link port goes DOWN. -/
def State.srefclkLoss (s : State) : State := if !s.power.srefclk then s else (s.withPower { s.power with srefclk := false }).portsDown 18

/-- The ports that may train begin to (R339, R532 step 7). -/
def State.trainPorts (s : State) : State :=
  (List.range 18).foldl (fun (acc : State) p =>
    if acc.linkState p = 0 then acc else (acc.setPort p Port.idle).setLink p 2) s

/-- SREFCLK_RESTORE. -/
def State.srefclkRestore (s : State) : State :=
  if s.power.srefclk then s
  else
    let s1 := s.withPower { s.power with srefclk := true }
    if s.power.hbmReady then s1.trainPorts else s1

end Sys2Proof.Machine
end

