-- ==== Sys2Proof/Machine/Firmware.lean ====
section
/-! DEFINITION. Firmware slots, staging and the Ostler's boot (R455 to R460, R479, R480), and the event log (R462 to R464). -/

namespace Sys2Proof.Machine

/-! ## Records (Table 18-3) -/

/-- Bytes a record says it has. -/
def recLength (b : List Byte) : Nat := le b 12 4

/-- A record is well formed under Table 18-3 as a firmware bundle (kind 1) or a service record (kind 2). -/
def fwRecordOk (kind : Nat) (b : List Byte) : Bool :=
  le b 0 4 == 0x52514D47 && le b 4 1 == kind && decide (352 ≤ recLength b) && decide (recLength b ≤ 67108864) && decide (recLength b ≤ b.length)
    && le b 29 35 == 0 && le b 128 128 == 0
    && (if kind = 1 then decide (1 ≤ le b 8 4) && le b 16 13 == 0
        else le b 8 4 == 0 && decide (1 ≤ le b 28 1) && decide (le b 28 1 ≤ 16) && le b 64 64 == 0)

/-- Why the ROM refuses a bundle: 1 header, 2 signature, 3 SVN (Table 18-10). -/
def imageRefusal (counter : Nat) (b : List Byte) : Option Nat :=
  if !fwRecordOk 1 b then some 1
  else if !Config.signatureOk (b.take (recLength b)) then some 2
  else if le b 8 4 < counter then some 3
  else none

/-! ## Slots -/

def State.slotAt (s : State) (i : Nat) : FwSlot := s.ostler.slots.getD i ⟨false, []⟩

def FwSlot.svn (f : FwSlot) : Nat := if f.shipped then Config.fwSvn % 2 ^ 32 else le f.bytes 8 4

/-- The SVN check alone is made on the bundle of manufacture: its header and signature are good. -/
def FwSlot.refusal (f : FwSlot) (counter : Nat) : Option Nat :=
  if f.shipped then (if f.svn < counter then some 3 else none) else imageRefusal counter f.bytes

/-- What `FW_SLOT_VERSION` reports; an empty, erased or incomplete slot reports 0 (R479). -/
def FwSlot.version (f : FwSlot) : Nat :=
  if f.shipped then shippedVersion
  else if fwRecordOk 1 f.bytes then le f.bytes 5 1 * 65536 + le f.bytes 6 1 * 256 + le f.bytes 7 1 else 0

/-- The declarations a bundle carries. -/
def FwSlot.codecDecl (f : FwSlot) : Nat := if f.shipped then shippedCodecDecl else le f.bytes 64 32
def FwSlot.behaviourDecl (f : FwSlot) : Nat := if f.shipped then shippedBehaviourDecl else le f.bytes 96 32

def State.setSlot (s : State) (i : Nat) (f : FwSlot) : State :=
  ({ s with ostler := { s.ostler with slots := s.ostler.slots.set i f } }).setObj (oFwSlotVersion i) f.version

def State.inactiveSlot (s : State) : Nat := 1 - s.obj oFwActiveSlot

/-! ## Staging (R459) -/

def State.setSession (s : State) (x : Option Nat) : State := { s with ostler := { s.ostler with session := x } }

/-- `FW_STAGE_STATE`, and the staged declarations, which read as zero outside states 2 and 4. -/
def State.setStage (s : State) (v : Nat) : State :=
  let f := s.slotAt s.inactiveSlot
  let on := v == 2 || v == 4
  ((s.setObj oFwStageState v).setObj (oCodecOutputDecl 1) (if on then f.codecDecl else 0)).setObj (oFwBehaviourDecl 1) (if on then f.behaviourDecl else 0)

/-- FW_STAGE_BEGIN. -/
def State.stageBegin (s : State) (m : Nat) : State := ((s.setSession (some m)).setSlot s.inactiveSlot ⟨false, []⟩).setStage 1

/-- FW_STAGE_CHUNK: 1,024 bytes appended; a chunk beyond LENGTH, or out of order, fails the session. -/
def State.stageChunk (s : State) (chunk : List Byte) : State :=
  let f := s.slotAt s.inactiveSlot
  let n := f.bytes.length
  if s.obj oFwStageState ≠ 1 then s.setStage 5
  else if n ≠ 0 ∧ recLength f.bytes ≤ n ∨ 67108864 ≤ n then s.setStage 5
  else ({ s with ostler := { s.ostler with slots := s.ostler.slots.set s.inactiveSlot ⟨false, f.bytes ++ chunk⟩ } })

/-- FW_STAGE_ACTIVATE. The session ends: nothing more is expected of it. -/
def State.stageActivate (s : State) : State := if s.obj oFwStageState = 2 then (s.setStage 4).setSession none else s.setStage 5

/-- FW_STAGE_ABANDON, and FW_STAGE_TIMEOUT. -/
def State.stageAbandon (s : State) : State := (s.setStage 0).setSession none

def State.stageTimeout (s : State) : State := if s.ostler.session.isSome then s.stageAbandon else s

/-- FW_STAGE_VERIFY: a bundle is checked as for boot; a service record by `apply`, which gives the state its items leave (R460). -/
def State.stageVerify (s : State) (apply : State → List Byte → State) : State :=
  let b := (s.slotAt s.inactiveSlot).bytes
  if s.obj oFwStageState ≠ 1 then s.setStage 5
  else if le b 4 1 = 2 then
    if fwRecordOk 2 b && Config.signatureOk (b.take (recLength b)) && le b 16 8 == s.obj oModuleSerial && le b 24 4 == s.obj oBootEpoch then
      (((apply s ((b.drop 256).take (recLength b - 352))).setStage 0).setSession none).event ⟨0x070B, 0, 0, 0, le b 28 1⟩
    else s.setStage 5
  else match imageRefusal (s.obj oFwRollbackCounter) b with
    | some _ => s.setStage 5
    | none => (s.setSlot s.inactiveSlot ⟨false, b⟩).setStage 2

/-! ## The log -/

/-- LOG_FLUSH (R464): the buffer goes to flash; once there is room again the number lost is logged. -/
def State.logFlush (s : State) : State :=
  let l := s.ostler.log ++ s.ostler.logBuf
  let lost := s.ostler.logLost
  let s1 := { s with ostler := { s.ostler with log := l.drop (l.length - 4096), logBuf := [], logLost := 0 } }
  let s2 := s1.setObj oLogCount (min 4096 l.length)
  if lost = 0 then s2 else s2.event ⟨0x070A, 0, 0, 0, lost⟩

/-- Table 18-5. -/
def LogRec.bytes (r : LogRec) : List Byte := r.ev.bytes false r.seq ++ toLe 8 r.time ++ toLe 4 r.epoch ++ toLe 4 0

/-- The i-th newest record in flash (R463). -/
def State.logRecord (s : State) (i : Nat) : Nat :=
  match s.ostler.log.reverse[i]? with | some r => ofLe r.bytes | none => 0

/-! ## Boot (R455 to R457) -/

/-- One slot, tried: its image is accepted and reaches boot complete, or event 0x0704 says why not. Bit i of `fails`: three boots of slot i in
a row did not reach boot complete. -/
def State.trySlot (s : State) (fails i : Nat) : State × Bool :=
  match (s.slotAt i).refusal (s.obj oFwRollbackCounter) with
  | some r => (s.event ⟨0x0704, 1, 0, 0, i + 16 * r⟩, false)
  | none => if bit fails i then (s.event ⟨0x0704, 1, 0, 0, i + 16 * 4⟩, false) else (s, true)

/-- The slot that boots, none in recovery, and whether a pending activation took effect. -/
def State.pickSlot (s : State) (active : Nat) (pending : Bool) (fails : Nat) : State × Option Nat × Bool :=
  let first := if pending then 1 - active else active
  let a := s.trySlot fails first
  if a.2 then (a.1, some first, pending)
  else
    let b := a.1.trySlot fails (1 - first)
    (b.1, if b.2 then some (1 - first) else none, false)

/-- A trip whose condition has not passed stays (R474). -/
def State.tripHolds (s : State) (mv : Nat) (f : Nat × Nat × Nat) : Bool :=
  f.1 == 0x0708 && (match f.2.1 with
    | 1 => decide (mv < 46000) || decide (60000 < mv)
    | 2 => (List.range 64).any (fun i => decide (11000 ≤ s.point (i + 1))) || (List.range 8).any (fun i => decide (11000 ≤ s.point (i + 81)))
    | 3 => (List.range 16).any (fun i => decide (11500 ≤ s.point (i + 65))) || (List.range 8).any (fun i => decide (11500 ≤ s.point (i + 89)))
    | _ => (List.range 8).any (fun k => decide (10500 ≤ s.stackTemp k)))

/-- Volatile objects at their defaults, write-sequence numbers, event SEQ and counters from 0, no transaction and no session (R420, R455). -/
def State.ostlerDefaults (s : State) : State :=
  let s1 := s.keepObjs (fun k => objFlash k || hardwareObject k)
  { s1 with dict := { s1.dict with seqs := [], txs := [], nextHandle := 1, busReplies := [], waitingMsgs := [], answers := [] },
            regs := { s1.regs with eventSeq := 0 },
            ostler := { s1.ostler with session := none },
            codec := { s1.codec with down := [] },
            sched := SchedGroup.reset,
            fabric := { s1.fabric with peerBoot := [], mapEpochs := [] },
            obs := { ObsGroup.reset with frames := s.obs.frames } }

/-- What the Ostler reports of the hardware and of its slots once it runs. -/
def State.bootObjects (s : State) (slot : Nat) : State :=
  let f := s.slotAt slot
  let s1 := (s.setObj oFwActiveSlot slot).setObj (oFwSlotVersion 0) (s.slotAt 0).version
  let s2 := ((s1.setObj (oFwSlotVersion 1) (s.slotAt 1).version).setObj (oCodecOutputDecl 0) f.codecDecl).setObj (oFwBehaviourDecl 0) f.behaviourDecl
  let s3 := (List.range 18).foldl (fun (acc : State) p =>
    let off := if p < 16 then acc.obj (oLinkEnable p) == 0 else acc.obj (oLineagePortMode (p - 16)) == 0
    acc.setObj (oLinkState p) (if off then 0 else 1)) s2
  (s3.setObj oSpurState (2 * s3.obj oSpurProductionLock)).timeRole (s3.obj oCarouselTimeRole)

/-- The rails may come on: no trip, no recovery, the input between 48 V and 58 V (R476, R532 step 4). -/
def State.railsAllowed (s : State) : Bool :=
  s.power.ostler == 1 && s.power.rails == 0 && s.power.inputGait == 3 && !s.power.mrst && !s.power.fatals.any (fun f => f.1 == 0x0708)

/-- The main rails are commanded on. Where the input is not between 48 V and 58 V, they wait for it (R532 step 4). -/
def State.railsOn (s : State) : State :=
  if s.railsAllowed then s.withPower { s.power with rails := 1, railsDue := false }
  else if s.power.ostler = 1 ∧ s.power.rails = 0 ∧ s.power.inputGait ≠ 3 then s.withPower { s.power with railsDue := true } else s

/-- The input is back in range: rails that waited for it come on. -/
def State.railsAwaited (s : State) : State := if s.power.railsDue then s.railsOn else s

/-- The module's state as the Ostler finds it at a boot: `left` are the device-fatal faults whose cause persists (R455, R475, R493). -/
def State.bootClean (s : State) (mv : Nat) (left : List (Nat × Nat × Nat)) : State :=
  let s0 := { s.ostlerDefaults with regs := { s.ostlerDefaults.regs with fatal := !left.isEmpty } }
  let s1 := ((s0.setObj oBootEpoch ((s0.obj oBootEpoch + 1) % 2 ^ 32)).setObj oFatalCause ((left.map (·.1)).headD 0)).setObj oInputVoltageMv mv
  s1.withPower { s1.power with
    standby := true, railsDue := false, leadOutLow := true, beacon := true, offer := none, fatals := left, powerGait := 3, thermalGait := 3, coolantGait := 3, coolantWarn := 0,
    inputGait := if 48000 ≤ mv ∧ mv ≤ 58000 then 3 else 0, raising := none, walkStall := false, ceSince := [] }

/-- The records of the faults the hardware latched while no Ostler ran (R475). -/
def State.bootLatched (s : State) (latched : List (Nat × Nat × Nat)) : State :=
  latched.foldl (fun (acc : State) f =>
    let seq := acc.regs.eventSeq
    ({ acc with regs := { acc.regs with eventSeq := seq + 1 } }).logEvent ⟨f.1, 3, 0, 0, f.2.1⟩ seq) s

/-- The bundle of a slot runs (R455, R456, R462, R476). -/
def State.bootFrom (s : State) (slot : Nat) (activated : Bool) : State :=
  let s4 := (s.bootObjects slot).newEpoch.startGait
  let s5 := s4.withPower { s4.power with ostler := 1 }
  let s6 := s5.setObj oFwRollbackCounter (max (s5.obj oFwRollbackCounter) (s5.slotAt slot).svn)
  let s7 := if activated then s6.event ⟨0x0705, 0, 0, 0, s6.obj (oFwSlotVersion slot)⟩ else s6
  if s7.obj oMainRailsPolicy = 1 then s7.railsOn else s7

/-- OSTLER_BOOT (R455): the standby rail is in range, REFCLK runs and `MRST_n` is deasserted. `mv` is the input voltage. -/
def State.ostlerBoot (s : State) (fails mv : Nat) : State :=
  if s.power.mrst ∨ s.power.ostler ≠ 0 ∨ !s.power.refclk ∨ mv < 40000 ∨ 60000 < mv then s
  else
    let active := s.obj oFwActiveSlot
    let latched := s.power.fatals.filter (fun f => f.1 == 0x0709 || (f.1 == 0x0811 && f.2.1 == 8))
    let r := ((s.bootClean mv (s.power.fatals.filter (s.tripHolds mv))).bootLatched latched).pickSlot active (s.obj oFwStageState == 4) fails
    match r.2.1 with
    | none => (r.1.setObj oFwActiveSlot active).withPower { r.1.power with ostler := 2 }
    | some slot => r.1.bootFrom slot r.2.2

end Sys2Proof.Machine
end

