-- ==== Sys2Proof/Machine/Queues.lean ====
section
/-! DEFINITION. The registers of the BARs (R121 to R124, R142 to R146), and the enabling and disabling of a queue pair (R119, R120). A
register is reached over PCIe: while the link is down a write reaches nothing. -/

namespace Sys2Proof.Machine

/-- The host can reach the functions' BARs: the link is up and configuration requests are completed (R536). -/
def State.pcieUp (s : State) : Bool := s.power.pcie == 2 && !s.power.retry

/-! ## Tenant pages (R121) -/

/-- The page of tenant t is live in the BAR2 of function f. -/
def State.pageLive (s : State) (f t : Nat) : Bool :=
  s.pcieUp && decide (t < 1024) && s.tenantEnabled t && (f == 0 || f == s.tenantFunction t)

/-- The doorbells of queue q can be written through function f: through BAR0 for the administrative queues. -/
def State.doorbellLive (s : State) (f q : Nat) : Bool := if q < 8192 then s.pageLive f (q / 8) else s.pcieUp && f == 0

/-- A doorbell value at or above the queue size: event 0x0010 and TENANT_EVENTS[1] (R124). -/
def State.doorbellRange (s : State) (q v : Nat) : State :=
  let s1 := s.event ⟨0x0010, 0, 6, q, v⟩
  if q < 8192 then s1.tenantEvent (q / 8) 1 else s1

/-- SQ_TAIL_WRITE (R122, R124). The register reads back what was written; the queue takes the tail unless it is disabled, when no entry
can be covered. -/
def State.sqTailWrite (s : State) (f q v : Nat) : State :=
  if !s.doorbellLive f q then s
  else
    let x := v % 2 ^ 16
    let s1 := s.setQueue q { s.queue q with tailReg := x }
    if (s.queue q).state = 0 then s1
    else if sqSize (s.queueCfg q) ≤ x then s1.doorbellRange q x
    else s1.setQueue q { s.queue q with tailReg := x, sqTail := x }

/-- Records that moving the head of a ring of n from `old` to `new` consumes. -/
def consumed (n old new : Nat) : Nat := (new + n - old) % n

/-- CQ_HEAD_WRITE (R122, R124, R134). -/
def State.cqHeadWrite (s : State) (f q v : Nat) : State :=
  if !s.doorbellLive f q then s
  else
    let x := v % 2 ^ 16
    let old := s.queue q
    let s1 := s.setQueue q { old with headReg := x }
    if old.state = 0 then s1
    else if cqSize (s.queueCfg q) ≤ x then s1.doorbellRange q x
    else s1.setQueue q { old with headReg := x, cqHead := x, unread := old.unread - consumed (cqSize (s.queueCfg q)) old.cqHead x }

/-- TENANT_EVENTS_CLEAR (R146): writing 1 to a bit clears it. -/
def State.tenantEventsClear (s : State) (f t v : Nat) : State :=
  if !s.pageLive f t then s
  else
    let old := Store.get 0 s.regs.tenantEvents t
    { s with regs := { s.regs with tenantEvents := Store.set 0 s.regs.tenantEvents t (old - (old &&& v)) } }

/-! ## The event queue (R123, R144) -/

/-- The fields of EVQ_CTRL that hold a value. -/
def evqCtrlMask : Nat := 0x1FFF1F

/-- EVQ_CTRL_WRITE (R123). -/
def State.evqCtrlWrite (s : State) (v : Nat) : State :=
  let r := s.regs
  let x := v &&& evqCtrlMask
  if !s.pcieUp then s
  else if evqEnabled r then (if bit x 8 then s else { s with regs := { r with evqCtrl := r.evqCtrl - 256 } })
  else if bit x 8 then
    (if bits x 0 5 < 6 ∨ 16 < bits x 0 5 then s
     else { s with regs := { r with evqCtrl := x, evqHead := 0, evqSlot := 0, evqCount := 0, evqPhase := true } })
  else { s with regs := { r with evqCtrl := x } }

/-- EVQ_HEAD_WRITE. The head moves modulo the size. -/
def State.evqHeadWrite (s : State) (v : Nat) : State :=
  let r := s.regs
  let x := v % 2 ^ 16
  if !s.pcieUp then s
  else if evqEnabled r then
    (let n := evqSize r
     { s with regs := { r with evqHead := x, evqCount := r.evqCount - consumed n (r.evqHead % n) (x % n) } })
  else { s with regs := { r with evqHead := x } }

def State.evqBaseLoWrite (s : State) (v : Nat) : State :=
  if s.pcieUp && !evqEnabled s.regs then { s with regs := { s.regs with evqBaseLo := v % 2 ^ 32 - v % 2 ^ 12 } } else s

def State.evqBaseHiWrite (s : State) (v : Nat) : State :=
  if s.pcieUp && !evqEnabled s.regs then { s with regs := { s.regs with evqBaseHi := v % 2 ^ 32 } } else s

/-- EVENT_OVERFLOW_RECORD (R144): space has returned; one event gives the number lost. -/
def State.overflowRecord (s : State) : State :=
  let r := s.regs
  if r.evqOwed ≠ 0 ∧ evqEnabled r ∧ r.evqCount < evqSize r then
    ({ s with regs := { r with evqOwed := 0 } }).event ⟨0x0012, 0, 0, 0, r.evqOwed⟩
  else s

/-! ## Interrupt delay (R142) -/

/-- IRQ_DELAY_EXPIRE. -/
def State.irqDelayExpire (s : State) (q : Nat) : State :=
  let v := s.queue q
  if v.delayArmed && cfgIrqEn (s.queueCfg q) then (s.setQueue q { v with sinceIrq := 0, delayArmed := false }).sendQueueVector q else s

/-! ## Enabling and disabling (R119, R120) -/

/-- Table 05-1: the fields are in range and the reserved ones zero. The vector must be one of the function's. -/
def queueCfgOk (vectors c : Nat) : Bool :=
  cfgSqBase c % 4096 == 0 && cfgCqBase c % 4096 == 0 && decide (4 ≤ cfgSqLog c) && decide (cfgSqLog c ≤ 16) && decide (4 ≤ cfgCqLog c)
    && decide (cfgCqLog c ≤ 16) && decide (leN c 18 1 < 4) && leN c 19 1 == 0 && decide (cfgVector c < vectors) && leN c 26 6 == 0

/-- Vectors of a function (Table 05-2). -/
def vectorsOf (f : Nat) : Nat := if f = 0 then 2048 else 256

/-- The fields only a disabled queue lets change: all but CTRL and bytes 20 to 25 (R120). -/
def cfgFixed (c : Nat) : Nat × Nat × Nat := (leN c 0 18, leN c 19 1, leN c 26 6)

/-- SQ_BASE and CQ_BASE translate (R120). -/
def State.basesTranslate (s : State) (q c : Nat) : Bool :=
  match s.resolve (queueCtx q) false (cfgSqBase c), s.resolve (queueCtx q) true (cfgCqBase c) with
  | .ok _, .ok _ => true
  | _, _ => false

/-- A write of a queue's configuration that R120 or R386 rejects. -/
def State.queueCfgRejected (s : State) (q c : Nat) : Bool :=
  let old := s.queueCfg q
  if cfgEnable old then cfgFixed c != cfgFixed old
  else cfgEnable c && ((s.queue q).state == 2 || (decide (q < 8192) && !s.tenantEnabled (q / 8)) || !s.basesTranslate q c)

/-- The configuration is written, and with it ENABLE is set or cleared; the room running programs hold in its CQ stays held (R255). -/
def State.queueCfgWrite (s : State) (q c : Nat) : State :=
  let old := s.queueCfg q
  let s1 := s.setObj (queueKey q) c
  if !cfgEnable old && cfgEnable c then s1.setQueue q { Queue.idle with state := 1, heldRoom := (s.queue q).heldRoom }
  else if cfgEnable old && !cfgEnable c then
    (s1.setQueue q { s.queue q with state := 2, waitsMet := [] }).dropWaits (fun x => match x with | .queue n _ => n == q | .program _ _ => false)
  else s1

/-- QUEUE_DRAIN_COMPLETE (R120): the last command of a draining queue has completed. -/
def State.queueDrained (s : State) (q : Nat) : State :=
  if (s.queue q).state = 2 ∧ s.begunOf q = 0 then
    (let s1 := (s.setQueue q { s.queue q with state := 0, delayArmed := false }).event ⟨0x0011, 0, 6, q, 0⟩
     if q < 8192 then s1.tenantEvent (q / 8) 2 else s1)
  else s

/-! ## Plain registers (R121 to R123) -/

/-- Overwrite bytes of a buffer; what lies before them and was never written is zero. -/
def putBytes (l : List Byte) (off : Nat) (bs : List Byte) : List Byte :=
  (l ++ List.replicate (off - l.length) 0).take off ++ bs ++ l.drop (off + bs.length)

/-- Write `size` bytes of a mailbox request buffer of `cap` bytes: any aligned access of 4 or 8 bytes. -/
def Mailbox.put (m : Mailbox) (off size v : Nat) : Mailbox :=
  if (size = 4 ∨ size = 8) ∧ off % size = 0 then { m with request := putBytes m.request off (toLe size v) } else m

def State.tenantMbx (s : State) (t : Nat) : Mailbox := Store.get Mailbox.idle s.regs.tenantMbx t
def State.setTenantMbx (s : State) (t : Nat) (m : Mailbox) : State :=
  { s with regs := { s.regs with tenantMbx := Store.set Mailbox.idle s.regs.tenantMbx t m } }
def State.setAdminMbx (s : State) (m : Mailbox) : State := { s with regs := { s.regs with adminMbx := m } }

/-- A write of the MSI-X table or pending bits of function f, kept dword by dword as written. -/
def State.bar4Write (s : State) (f off size v : Nat) : State :=
  if s.pcieUp && size == 4 && off % 4 == 0 && decide (off < 65536) then
    { s with regs := { s.regs with bar4 := Store.set 0 s.regs.bar4 (f * 65536 + off) (v % 2 ^ 32) } }
  else s

/-- MBX_STATUS, with the length from bit `at` up. -/
def Mailbox.statusWord (m : Mailbox) : Nat := m.status + m.respLen * 2 ^ 16

/-- n bytes of a buffer as a number; bytes beyond its end are zero. -/
def bufRead (l : List Byte) (off n : Nat) : Nat := le l off n

/-- A read of a BAR0 register (Table 05-4). -/
def State.bar0Read (s : State) (off size : Nat) : Nat :=
  if 0x2000 ≤ off ∧ off < 0x3000 then (if (size = 4 ∨ size = 8) ∧ off % size = 0 then bufRead s.regs.adminMbx.response (off - 0x2000) size else 0)
  else if size ≠ 4 ∨ off % 4 ≠ 0 then 0
  else match off with
    | 0x0000 => 0x11640
    | 0x0004 => b2n s.regs.ready + 2 * b2n s.regs.fatal
    | 0x0014 => s.regs.adminMbx.statusWord
    | 0x0020 => s.regs.evqBaseLo
    | 0x0024 => s.regs.evqBaseHi
    | 0x0028 => s.regs.evqCtrl
    | 0x002C => s.regs.evqHead
    | 0x0030 => s.regs.evqLost
    | 0x0100 => (s.queue 8192).tailReg
    | 0x0108 => (s.queue 8192).headReg
    | 0x0140 => (s.queue 8193).tailReg
    | 0x0148 => (s.queue 8193).headReg
    | _ => 0

/-- A read of tenant t's page (Table 05-3). -/
def State.pageRead (s : State) (f t off size : Nat) : Nat :=
  if !s.pageLive f t then 0
  else if 0xC00 ≤ off then (if (size = 4 ∨ size = 8) ∧ off % size = 0 then bufRead (s.tenantMbx t).response (off - 0xC00) size else 0)
  else if size ≠ 4 ∨ off % 4 ≠ 0 then 0
  else if off < 0x200 then
    (if off % 0x40 = 0 then (s.queue (8 * t + off / 0x40)).tailReg else if off % 0x40 = 8 then (s.queue (8 * t + off / 0x40)).headReg else 0)
  else if off = 0x204 then (s.tenantMbx t).statusWord
  else if off = 0x210 then Store.get 0 s.regs.tenantEvents t
  else 0

/-- What a read of a register returns (R121 to R123). It changes nothing. -/
def State.registerRead (s : State) (f bar off size : Nat) : Nat :=
  if !s.pcieUp then 0
  else if bar = 0 then (if f = 0 then s.bar0Read off size else 0)
  else if bar = 2 then s.pageRead f (off / 4096) (off % 4096) size
  else if bar = 4 ∧ size = 4 ∧ off % 4 = 0 then Store.get 0 s.regs.bar4 (f * 65536 + off)
  else 0

end Sys2Proof.Machine
end

