-- ==== Sys2Proof/Machine/Observe.lean ====
section
/-! DEFINITION. Observation: the attribution table (R498 to R501), trace frames (R507 to R510), utilisation (R497), and the Spur unit's
enable and lock (R329, R330). -/

namespace Sys2Proof.Machine

/-! ## Attribution -/

/-- The sum of every tenant's quota if t's were v (R498). -/
def State.quotaSum (s : State) (t v : Nat) : Nat :=
  ((List.range 1024).map (fun u => if u = t then v else s.obj (oTenantAttribQuota u))).sum

/-- TENANT_ATTRIB_QUOTA applied (R499): the entries are removed. -/
def State.attribQuota (s : State) (t v : Nat) : State := ((s.setObj (oTenantAttribQuota t) v).setObj (oTenantAttribOtherNs t) 0).setAttrib t []

/-- Table 20-2. -/
def State.attribResult (s : State) (t key : Nat) : Nat :=
  match (s.attribOf t).find? (fun e => e.key == key) with
  | some e => key + 2 ^ 32 + e.ns * 2 ^ 64 + e.bytes * 2 ^ 128 + e.commands * 2 ^ 192
  | none => key

/-! ## Trace (R508 to R510) -/

/-- Table 20-5. -/
def traceConfigOk (v : Nat) : Bool :=
  decide (leN v 8 1 ≤ 1) && leN v 9 1 == 0 && leN v 12 4 == 0 && (if leN v 8 1 = 1 then decide (leN v 10 2 < 1024) else leN v 10 2 == 0)

/-- TRACE_ENABLE. -/
def State.traceEnable (s : State) (v : Nat) : State :=
  let s1 := s.setObj oTraceEnable v
  if v = 1 ∧ s.obj oTraceEnable = 0 then { s1 with obs := { s1.obs with frameSeq := 0 } } else s1

/-- The header of a frame (R509). -/
def frameHeader (n seq : Nat) : List Byte := [1] ++ toLe 1 n ++ toLe 2 0 ++ toLe 4 seq ++ toLe 8 0

/-- TRACE_FRAME_SEND: up to 46 of the oldest records leave. `due`: the last event 0x0903 is a second old. -/
def State.traceFrameSend (s : State) (due : Bool) : State :=
  let n := min 46 s.obs.trace.length
  if n = 0 ∨ s.power.rails ≠ 2 then s
  else
    let frame := frameHeader n s.obs.frameSeq ++ (s.obs.trace.take n).flatten
    let s0 := { s with obs := { s.obs with trace := s.obs.trace.drop n, frameSeq := (s.obs.frameSeq + 1) % 2 ^ 32, frames := s.obs.frames ++ [frame] } }
    let s1 := s0.reportDrops
    if due ∧ s.obs.traceDropSec ≠ 0 then
      ({ s1 with obs := { s1.obs with traceDropSec := 0 } }).event ⟨0x0903, 0, 0, 0, s.obs.traceDropSec % 2 ^ 32⟩
    else s1

/-! ## Utilisation (R497) -/

/-- UTILISATION_WINDOW: the shares measured, per mille; a quarter out of service and a port that is not up read 0. `whole` says of a port
that it was up for the whole window. -/
def State.utilisation (s : State) (quarters ports : List Nat) (whole : List Bool) : State :=
  let s1 := (List.range 8).foldl (fun (acc : State) q =>
    acc.setObj (oQuarterUtilisation q) (if s.outOfService q then 0 else min 1000 (quarters.getD q 0))) s
  (List.range 12).foldl (fun (acc : State) p =>
    acc.setObj (oStreetUtilisation p) (if s.portUp p && whole.getD p false then min 1000 (ports.getD p 0) else 0)) s1

/-! ## The Spur unit -/

/-- Table 12-5. -/
def spurConfigOk (v : Nat) : Bool :=
  leN v 2 6 == 0 && decide (leN v 8 8 ≠ 0) && decide (leN v 32 4 ≤ 100000) && decide (leN v 36 4 ≤ 200000) && decide (leN v 40 4 ≤ 100000)
    && leN v 44 4 == 0

/-- `SPUR_STATE`: 2 locked, 1 enabled, 0 off. -/
def State.syncSpur (s : State) : State :=
  s.setObj oSpurState (if s.obj oSpurProductionLock = 1 then 2 else s.obj oSpurEnable)

/-- SPUR_ENABLE (R329): an event where perturbation starts or stops. -/
def State.spurEnable (s : State) (v : Nat) : State :=
  let s1 := (s.setObj oSpurEnable v).syncSpur
  if v = s.obj oSpurEnable then s1
  else if v = 1 then s1.event ⟨0x0120, 0, 0, 0, leN (s.obj oSpurConfig) 0 1⟩
  else s1.event ⟨0x0121, 0, 0, 0, 0⟩

/-- SPUR_PRODUCTION_LOCK (R330): set, it first stops the Spur; a service record clears it. -/
def State.spurLock (s : State) (v : Nat) : State :=
  if v = 0 then (s.setObj oSpurProductionLock 0).syncSpur
  else
    let s1 := if s.obj oSpurEnable = 1 then (s.setObj oSpurEnable 0).event ⟨0x0121, 0, 0, 0, 1⟩ else s
    let s2 := (s1.setObj oSpurProductionLock 1).syncSpur
    if s.obj oSpurProductionLock = 1 then s2 else s2.event ⟨0x0122, 0, 0, 0, 0⟩

end Sys2Proof.Machine
end

