-- ==== Sys2Proof/Machine/Hang.lean ====
section
/-! DEFINITION. Hang analysis (R512 to R515): stalled streams, the wait-for graph across devices, and the report. -/

namespace Sys2Proof.Machine

/-! ## Streams as nodes (R513, Table 20-8) -/

/-- What a stream is apart from its head: a queue, or a running program. -/
def sameStream (a b : Src) : Bool :=
  match a, b with
  | .queue q _, .queue q' _ => q == q'
  | .program r _, .program r' _ => r == r'
  | _, _ => false

/-- The stream is still at this head. -/
def State.isHead (s : State) (src : Src) : Bool :=
  match src with
  | .queue q _ => s.queueHead q == some src
  | .program r _ => (s.run? r).bind Run.head == some src

/-- The lowest wait slot of a head that is not satisfied. -/
def State.openSlot (s : State) (src : Src) (b : List Byte) : Option Nat := (waitSlots b).find? (fun i => s.waitIs src b i == .open)

/-- The head cannot begin, and only because a wait slot is unsatisfied (R512). -/
def State.waitsOnly (s : State) (src : Src) : Bool :=
  s.isHead src && (match s.headBytes src with
    | .ok b => !s.waitsReady src b && s.mayBegin (srcCtx s src) b && s.roomToBegin src b
    | .error _ => false)

/-- The stream of a head, as a node. `held`: it is one of the streams found stalled. -/
def State.streamNode (s : State) (held : List Src) (src : Src) : HangNode :=
  let b := match s.headBytes src with | .ok b => b | .error _ => []
  let at' := s.srcOrigin src
  let slot := (s.openSlot src b).getD 0
  let r := cmdWaitRef b slot
  let kind := match src with
    | .queue _ _ => 1
    | .program run _ => if ((s.run? run).map Run.handoff).getD false then 3 else 2
  let head := match src with | .queue _ i => i | .program _ i => i
  ⟨kind, opcodeOf b, s.self, traceTenant (srcCtx s src), at'.1, head, 0xFFFF, slot, s.refDevice r, r.post, cmdThreshold b slot,
    held.contains src && s.waitsOnly src⟩

/-- Every stream here, at its head or where its next command would be. -/
def State.allStreams (s : State) : List Src :=
  ((s.queues.filter (fun x => x.2.state != 0)).map (fun x => Src.queue x.1 x.2.sqHead)) ++ s.remuda.runs.map (fun r => Src.program r.id r.next)

/-- The commands of a stream that have begun and not completed, then those not begun: index and bytes. -/
def State.pendingOf (s : State) (src : Src) : List (Nat × List Byte) :=
  let begun := (s.exec.cmds.filter (fun c => sameStream c.src src)).map (fun c => ((match c.src with | .queue _ i => i | .program _ i => i), c.bytes))
  let left := match src with
    | .queue q _ =>
      let v := s.queue q
      let n := sqSize (s.queueCfg q)
      if v.state = 1 then (List.range (consumed n v.sqHead v.sqTail)).map (fun i => Src.queue q ((v.sqHead + i) % n)) else []
    | .program run _ => match s.run? run with
      | some r => if r.failed = none then (List.range (r.total - r.next)).map (fun i => Src.program run (r.next + i)) else []
      | none => []
  begun ++ left.filterMap (fun x => match s.headBytes x with
    | .ok b => some ((match x with | .queue _ i => i | .program _ i => i), b)
    | .error _ => none)

/-- A command that signals a post. -/
def State.signals (s : State) (dev post : Nat) (b : List Byte) : Bool :=
  let r := parsePostRef (le b 72 4)
  bits (le b 2 1) 3 2 != 0 && r.ok && decide (r.scope ≤ 2) && s.refDevice r == dev && r.post == post

/-- The streams here with a signal to a post pending, in ascending order (R513). -/
def State.signallers (s : State) (held : List Src) (dev post : Nat) : List HangNode :=
  (s.allStreams.filterMap (fun src => match (s.pendingOf src).find? (fun c => s.signals dev post c.2) with
    | some c => some { s.streamNode held src with signaller := c.1 }
    | none => none))

/-- Ascending (device, queue, head index). -/
def nodeBefore (a b : HangNode) : Bool :=
  decide (a.device < b.device) || (a.device == b.device && (decide (a.queue < b.queue) || (a.queue == b.queue && decide (a.head ≤ b.head))))

def insertNode (n : HangNode) : List HangNode → List HangNode
  | [] => [n]
  | m :: ms => if nodeBefore n m then n :: m :: ms else m :: insertNode n ms

def sortNodes (l : List HangNode) : List HangNode := l.foldr insertNode []

/-! ## The search -/

/-- A post as a node. -/
def postNode (dev post value owner : Nat) : HangNode := ⟨4, 0, dev, owner, 0, 0, 0xFFFF, 0, dev, post, value, false⟩

def State.graphPost (s : State) (h : HangScan) (dev post : Nat) : HangNode :=
  if dev = s.self then postNode dev post (s.postValue post) ((s.postTenant post).getD 0)
  else match h.values.find? (fun v => v.1 == (dev, post)) with
    | some v => postNode dev post v.2.1 v.2.2
    | none => postNode dev post 0 0

/-- What a search comes to. -/
inductive HangEnd where
  | nothing
  | ask (dev post : Nat) (path : List HangNode)   -- a remote post about which nothing is known yet
  | report (kind : Nat) (path : List HangNode)
deriving DecidableEq, Repr

/-- A stream on a path, by what identifies it. -/
def sameNode (a b : HangNode) : Bool := a.kind == b.kind && a.device == b.device && a.queue == b.queue && a.head == b.head && a.tenant == b.tenant

/-- The search of R513: `todo` holds the streams still to visit, each with the path that led to it (streams and posts in turn, newest
last); `seen` the streams visited. A cycle that does not pass through the stalled stream ends the search with nothing. -/
def State.hangSearch (s : State) (h : HangScan) (held : List Src) : Nat → List (List HangNode × HangNode) → List HangNode → Nat → HangEnd
  | 0, _, _, _ => .nothing
  | _, [], _, _ => .nothing
  | fuel + 1, (path, n) :: todo, seen, count =>
    if path.any (sameNode n) then
      (match path.head? with
       | some r => if sameNode n r then .report 1 path else .nothing
       | none => .nothing)
    else if !n.stalled || seen.any (sameNode n) then s.hangSearch h held fuel todo seen count
    else if 30 ≤ count then .report 3 (path ++ [n])
    else
      let path1 := path ++ [n]
      let p := s.graphPost h n.postDev n.post
      let path2 := path1 ++ [p]
      let known := n.postDev == s.self || h.asked.contains (n.postDev, n.post)
      if !known then .ask n.postDev n.post path2
      else if h.waiting.any (fun w => w.2 == (n.postDev, n.post)) then .report 3 path2
      else
        let sig := sortNodes (s.signallers held n.postDev n.post ++ (h.nodes.filter (fun x => x.1 == (n.postDev, n.post))).map (fun x => x.2))
        if sig.isEmpty then .report 2 path2
        else s.hangSearch h held fuel (sig.map (fun x => (path2, x)) ++ todo) (n :: seen) (count + 2)

/-! ## The report (Table 20-7) -/

/-- Table 20-8. -/
def HangNode.bytes (n : HangNode) (next : Nat) : List Byte :=
  toLe 1 n.kind ++ toLe 1 n.opcode ++ toLe 2 n.device ++ toLe 2 n.tenant ++ toLe 2 n.queue ++ toLe 2 n.head ++ toLe 2 n.signaller ++ toLe 1 n.waitSlot ++ [0]
    ++ toLe 2 next ++ toLe 4 n.post ++ toLe 4 0 ++ toLe 8 n.value

def pathBytes (cycle : Bool) (path : List HangNode) : List Byte :=
  (path.zipIdx.map (fun x => x.1.bytes (if x.2 + 1 < path.length then x.2 + 1 else if cycle then 0 else 0xFFFF))).flatten

/-- The streams of a path that are of this device. -/
def State.pathStreams (s : State) (path : List HangNode) : List Src :=
  (s.allStreams.filter (fun src => path.any (fun n => n.kind != 4 && sameNode n { s.streamNode [] src with signaller := n.signaller })))

/-- Write the report, its event, and note its streams (R514). Ostler time is a free value (log entry 2). -/
def State.hangReport (s : State) (kind : Nat) (path0 : List HangNode) : State :=
  let path := path0.take 31
  let n := path.length
  let s1 := s.count oHangsDetected 1
  let f := s1.free
  let head : List Byte := [1] ++ toLe 1 kind ++ toLe 2 n ++ toLe 4 (s1.obj oHangsDetected) ++ toLe 8 f.1 ++ toLe 4 (s1.obj oBootEpoch) ++ toLe 12 0
  let s2 := f.2.setObj oHangReport (ofLe (head ++ pathBytes (kind == 1) path))
  let s3 := { s2 with obs := { s2.obs with quiet := s2.obs.quiet ++ (s.pathStreams path).map (fun x => (x, s1.obj oHangsDetected)) } }
  s3.event ⟨0x0900 + (kind - 1), 0, 1, ((path.head?.map HangNode.tenant).getD 0), n⟩

/-- The lowest (borough, device) of a cycle. -/
def lowestDevice (path : List HangNode) : Nat := path.foldl (fun m n => min m n.device) 0xFFF

/-! ## Rows -/

def State.dropScan (s : State) (id : Nat) : State := { s with obs := { s.obs with hangs := s.obs.hangs.filter (fun h => h.id != id) } }
def State.setScan (s : State) (h : HangScan) : State := { s.dropScan h.id with obs := { (s.dropScan h.id).obs with hangs := (s.dropScan h.id).obs.hangs ++ [h] } }

/-- Devices a query about a post goes to: its holder, the other reachable devices of the borough, and the devices the path names by
scope-2 references (R513). -/
def State.hangTargets (s : State) (dev : Nat) (path : List HangNode) : List Nat :=
  let near := (((List.range 64).map (fun d => d + 64 * s.boroughNumber)).filter (fun d => d != s.self && !s.noRoute d))
  let far := (path.filter (fun n => n.kind == 4 && n.device / 64 != s.boroughNumber)).map (fun n => n.device)
  ([dev] ++ near ++ far).eraseDups

/-- Streams a scan still counts as stalled: those found so, where the post has kept its value. -/
def State.scanHeld (s : State) (h : HangScan) : List Src :=
  h.stalled.filter (fun src =>
    let n := s.streamNode [] src
    n.postDev != s.self || (match h.values.find? (fun v => v.1 == (n.postDev, n.post)) with | some v => v.2.1 == s.postValue n.post | none => true))

/-- Go on with an analysis, from its stalled stream. -/
def State.hangGo (s : State) (h : HangScan) : State :=
  let held := s.scanHeld h
  let root := s.streamNode held h.root
  let job := match srcCtx s h.root with | some t => s.obj (oTenantJobId t) | none => 0
  match s.hangSearch h held (2 ^ 20) [([], root)] [] 0 with
  | .nothing => s.dropScan h.id
  | .report kind path =>
    if kind = 1 ∧ lowestDevice path ≠ s.self then s.dropScan h.id else (s.dropScan h.id).hangReport kind path
  | .ask dev post path =>
    let to' := s.hangTargets dev path
    let h1 := { h with asked := h.asked ++ [(dev, post)], waiting := h.waiting ++ to'.map (fun d => (d, dev, post)) }
    to'.foldl (fun (acc : State) d => acc.originate (ctxTag (srcCtx s h.root)) d 7 (.mgmt (.query h.id dev post job))) (s.setScan h1)

/-- A stream of an earlier report, none of whose streams has begun a command since (R514). -/
def State.isQuiet (s : State) (src : Src) : Bool :=
  s.obs.quiet.any (fun x => x.1 == src && s.obs.quiet.all (fun y => y.2 != x.2 || s.isHead y.1))

/-- HANG_STALL_DETECT: `f` has been stalled for `HANG_TIMEOUT_MS`, and so have the heads of `others`; the times are measured outside the
model. -/
def State.hangDetect (s : State) (f : From) (others : List From) : State :=
  match s.headOf f with
  | none => s
  | some src =>
    if s.power.ostler ≠ 1 ∨ !s.waitsOnly src ∨ s.isQuiet src ∨ s.obs.hangs.any (fun h => h.root == src) then s
    else
      let held := src :: others.filterMap s.headOf
      let vals := held.filterMap (fun x => let n := s.streamNode [] x
        if n.postDev = s.self then some ((n.postDev, n.post), s.postValue n.post, (s.postTenant n.post).getD 0) else none)
      let s1 := { s with obs := { s.obs with nextHang := s.obs.nextHang + 1 } }
      s1.hangGo ⟨s.obs.nextHang, src, held, [], [], [], vals⟩

/-- HANG_REPLY_TIMEOUT: a reply is missing after 10 ms (R514). -/
def State.hangTimeout (s : State) (id : Nat) : State :=
  match s.obs.hangs.find? (fun h => h.id == id) with
  | some h => if h.waiting.isEmpty then s else s.hangGo h
  | none => s

/-- A hang query is answered for tenants of the querying job only, with up to 16 nodes (R513). The value of a post another job holds is
a free value. -/
def State.hangAnswer (s : State) (held : List Src) (src analysis dev post job : Nat) : State :=
  let mine := (sortNodes (s.signallers held dev post)).filter (fun n => decide (n.tenant < 1024) && s.obj (oTenantJobId n.tenant) == job && job != 0)
  let ok := dev == s.self && s.remoteUseOk post job
  let f := s.free
  let s1 := if ok then s else f.2
  s1.originate tagDevice src 7 (.mgmt (.reply analysis dev post (if ok then s.postValue post else f.1) ((s.postTenant post).getD 0) (mine.take 16)))

/-- A hang reply is taken in; with the last one due the analysis goes on. -/
def State.hangReply (s : State) (src analysis dev post value owner : Nat) (nodes : List HangNode) : State :=
  match s.obs.hangs.find? (fun h => h.id == analysis && h.waiting.contains (src, dev, post)) with
  | none => s
  | some h =>
    let h1 := { h with waiting := h.waiting.erase (src, dev, post), nodes := h.nodes ++ nodes.map (fun n => ((dev, post), n)),
                       values := if src = dev then h.values ++ [((dev, post), value, owner)] else h.values }
    if h1.waiting.isEmpty then s.hangGo h1 else s.setScan h1

/-- Apply a packet of class 3 (R513); `stalled` gives the streams here that are stalled by R512's times. -/
def State.applyManagement (stalled : List From) (s : State) (k : Packet) : State :=
  match k.body with
  | .mgmt (.query a dev post job) => s.hangAnswer (stalled.filterMap s.headOf) k.hdr.src a dev post job
  | .mgmt (.reply a dev post value owner nodes) => s.hangReply k.hdr.src a dev post value owner nodes
  | _ => s

/-- MANAGEMENT_PACKET_RECEIVE. -/
def State.mgmtReceive (s : State) (stalled : List From) (k : Packet) : State :=
  if k.hdr.typ ≠ 7 then s else s.e2eReceive (State.applyManagement stalled) k

end Sys2Proof.Machine
end

