-- ==== Sys2Proof/Machine/Objects.lean ====
section
/-! DEFINITION. Writing and reading an object of the dictionary: the values each accepts (check 6 of Table 16-7), the rules of its owning
chapter (check 8), its effect, and what a read returns (R416 to R420, R423, R441 to R451). -/

namespace Sys2Proof.Machine

/-- The tenant of a per-tenant object. -/
def keyTenant (key : Nat) : Nat := keyIndex key - 0x4000

def isTenantIndex (i : Nat) : Bool := decide (0x4000 ≤ i) && decide (i < 0x4400)

def within (lo hi v : Nat) : Bool := decide (lo ≤ v) && decide (v ≤ hi)

/-! ## Values (R7, R416, R423 check 6) -/

/-- A scope-0 post reference (Table 05-8). -/
def localRef (x : Nat) : Bool := (parsePostRef x).scope == 0 && (parsePostRef x).ok

/-- Table 08-5. -/
def stallPoolOk (v : Nat) : Bool :=
  leN v 0 8 % 4096 == 0 && decide (leN v 8 4 ≤ 1048576) && within 1 1024 (leN v 12 2) && decide (leN v 14 2 ≤ 256) && leN v 14 2 % 2 == 0
    && [0x02, 0x04, 0x05, 0x44, 0x45].contains (leN v 16 1) && (leN v 14 2 == 0 || leN v 17 1 == 1 || leN v 17 1 == 2)
    && within 1 512 (leN v 18 2) && localRef (leN v 20 4) && decide (leN v 24 1 < 2) && leN v 25 7 == 0

/-- Table 11-8. -/
def codecPoolOk (v : Nat) : Bool :=
  leN v 0 8 % 4096 == 0 && decide (leN v 8 4 ≤ 65536) && leN v 12 4 % 65536 == 0 && within 65536 67108864 (leN v 12 4)
    && localRef (leN v 16 4) && decide (leN v 20 1 < 2) && leN v 21 11 == 0

/-- `CITY_ROUTE` (Table 13-10). -/
def cityRouteOk (v : Nat) : Bool :=
  decide (leN v 0 1 ≤ 4) && leN v 9 7 == 0
    && (List.range 4).all (fun i => decide (leN v 0 1 ≤ i) || (decide (leN v (1 + 2 * i) 1 < 64) && decide (leN v (2 + 2 * i) 1 < 4)))

/-- `CAROUSEL_SLOTS` (R409). -/
def slotsOk (v : Nat) : Bool := (List.range 256).all (fun i => decide (leN v (2 * i) 2 < 1024) || decide (0xFFFE ≤ leN v (2 * i) 2))

/-- The values of a per-tenant object. -/
def State.tenantRange (s : State) (t sub v : Nat) : Bool :=
  if within 0x30 0x37 sub then queueCfgOk (vectorsOf (s.tenantFunction t)) v
  else match sub with
    | 0x02 => decide (v < 256)
    | 0x03 => decide (v < 2 ^ 21)
    | 0x04 => decide (v < 8)
    | 0x05 => decide (1 ≤ v)
    | 0x06 => leN v 0 8 % 4096 == 0
    | 0x07 => v % 64 == 0
    | 0x10 => decide (v < 16)
    | 0x20 => v % 2048 == 0
    | 0x21 => decide (v ≤ 2048)
    | 0x40 => stallPoolOk v
    | 0x50 => decide (bits v 12 13 ≤ 4096) && bits v 25 7 == 0
    | 0x70 => codecPoolOk v
    | 0x80 => decide (bits v 18 19 ≤ 262144) && bits v 37 27 == 0
    | 0xA0 => decide (v ≤ 65536)
    | _ => true

/-- The value is one of the object's. `s`: the dictionary it would join. -/
def State.rangeOk (s : State) (key v : Nat) : Bool :=
  let i := keyIndex key
  let typ := match objDef? i (keySub key) with | some d => d.typ | none => 0
  (typ != 1 || decide (v ≤ 1)) &&
  (if isTenantIndex i then s.tenantRange (i - 0x4000) (keySub key) v
   else match i with
    | 0x1012 => decide (v < 16)
    | 0x1100 => queueCfgOk (vectorsOf 0) v
    | 0x2100 => decide (v ≤ 3)
    | 0x2102 => within 600 2400 v
    | 0x2103 => decide (v ≤ 1)
    | 0x2111 => decide (1500 ≤ signed 32 v) && decide (signed 32 v ≤ 4000)
    | 0x2420 => decide (v ≤ 1)
    | 0x2C00 => (List.range 8).all (fun q => decide (leN v q 1 < 8))
    | 0x2C01 => decide (v ≤ 2)
    | 0x2C02 => decide (v ≤ 512)
    | 0x2C10 => decide (1 ≤ v)
    | 0x2C41 => (match keySub key with
      | 1 => within 1 256 v
      | 2 => decide (v ≤ 3)
      | 3 => within 1 10000 v
      | _ => decide (v ≤ 3))
    | 0x2C42 => slotsOk v
    | 0x3000 => decide (v < 64)
    | 0x3004 => decide (1 ≤ v)
    | 0x3020 => decide (v ≤ 3)
    | 0x3030 => cityRouteOk v
    | 0x3100 => within 10 10000 v
    | 0x3101 => within 1 10000 v
    | 0x3110 => decide (v < 1024) || v == 0xFFFF
    | 0x3310 => decide (leN v 24 1 ≤ 3) && leN v 25 7 == 0
    | 0x3410 => decide (v ≤ 128)
    | 0x3501 => decide (v ≤ 135)
    | 0x3502 => decide (v ≤ 135)
    | 0x3530 => within 60 86400 v
    | 0x3531 => within 3600 604800 v
    | 0x3600 => within 10 60000 v
    | 0x3611 => traceConfigOk v
    | 0x3702 => spurConfigOk v
    | 0x3803 => within 1 4 v
    | 0x6001 => decide (v < s.obj oLogCount)
    | _ => true)

/-! ## Rules of the owning chapters (check 8) -/

/-- R387 among the enabled tenants of one function. `v` gives the values. -/
def bindingOk (v : Nat → Nat) (t : Nat) : Bool :=
  (List.range 1024).all (fun u =>
    let a := v (oTenantPasid t)
    let b := v (oTenantPasid u)
    u == t || v (oTenantEnable u) != 1 || v (oTenantFunction u) != v (oTenantFunction t)
      || (if bit a 20 then !bit b 20 || bits a 0 20 != bits b 0 20 else bit b 20))

/-- Two ranges of lengths m and n share a number; an empty one shares none. -/
def rangesMeet (a m b n : Nat) : Bool := decide (0 < m) && decide (0 < n) && decide (a < b + n) && decide (b < a + m)

/-- A tenant's objects: R218, R231, R302, R364, R386 to R388, R401, R407, R498. `m` is the state with the other values of a transaction. -/
def State.tenantRule (s m : State) (t sub v : Nat) : Bool :=
  if within 0x30 0x37 sub then !({ s with dict := m.dict.setVal (queueKey (8 * t + (sub - 0x30))) (s.queueCfg (8 * t + (sub - 0x30))) }).queueCfgRejected (8 * t + (sub - 0x30)) v
  else match sub with
    | 0x01 =>
      if v = 1 then
        s.tenantEnabled t ||
          (let p := m.obj (oTenantPartition t)
           !(m.partitionQuarters p).isEmpty && bindingOk m.obj t
             && (m.obj (oPartitionSchedMode p) != 1 || (m.placed p).all (fun u => u == t)))
      else (List.range 8).all (fun n => (s.queue (8 * t + n)).state == 0) && !s.exec.cmds.any (fun c => c.tenant == some t)
    | 0x02 => !m.tenantEnabled t
    | 0x03 => !m.tenantEnabled t
    | 0x04 => !m.tenantEnabled t && m.obj (oTenantPaddockHeld t) == 0
    | 0x06 =>
      let quarters := (m.partitionQuarters (m.obj (oTenantPartition t))).length
      let st := s.obj (oTenantRunState t)
      (leN v 8 8 == 0 || decide (4096 + 2113600 * 16 * quarters ≤ leN v 8 8)) && !within 2 4 st
    | 0x40 => s.obj (oTenantStallsHeld t) == 0
    | 0x50 =>
      let base := bits v 0 12
      let n := bits v 12 13
      decide (base + n ≤ 4096)
        && (List.range 1024).all (fun u => u == t || !rangesMeet base n (bits (m.obj (oTenantRemudaRange u)) 0 12) (bits (m.obj (oTenantRemudaRange u)) 12 13))
        && (s.activeEntries t).all (fun ix => decide (base ≤ ix) && decide (ix < base + n))
    | 0x52 => s.inRange t v
    | 0x70 => s.obj (oTenantCodecBufsHeld t) == 0
    | 0x80 =>
      let base := rangeBase v
      let n := rangeCount v
      decide (base + n ≤ 262144)
        && (List.range 1024).all (fun u => u == t || !rangesMeet base n (rangeBase (m.obj (oTenantPostRange u))) (rangeCount (m.obj (oTenantPostRange u))))
        && (List.range 8).all (fun k => (s.queue (8 * t + k)).state == 0)
    | 0x82 => s.postInRange t v
    | 0xA0 => decide (m.quotaSum t v ≤ 65536)
    | _ => true

/-- Staging commands and chunks (R459): the other master's session is its own, and a failed session takes commands 1 and 4 only. -/
def State.stageRule (s : State) (master : Nat) (chunk : Bool) (v : Nat) : Bool :=
  match s.ostler.session with
  | some m => m == master && (s.obj oFwStageState != 5 || (!chunk && (v == 1 || v == 4)))
  | none => !chunk && (s.obj oFwStageState != 5 || v == 1 || v == 4)

/-- The rules of check 8 of one value. `service`: Service rights (R417). -/
def State.ruleOk (s m : State) (master : Nat) (service : Bool) (key v : Nat) : Bool :=
  let i := keyIndex key
  if isTenantIndex i then s.tenantRule m (i - 0x4000) (keySub key) v
  else match i with
    | 0x1100 => !s.queueCfgRejected (8192 + keySub key - 1) v
    | 0x2104 => v == 1 || !(List.range 1024).any m.tenantEnabled
    | 0x2C01 => v != 1 || decide ((m.placed (keySub key - 1)).length ≤ 1)
    | 0x2C41 => keySub key != 1 || (List.range 8).all (fun p => (List.range 256).all (fun k =>
        decide (k < v) || leN (m.obj (oCarouselSlots p)) (2 * k) 2 == 0xFFFF))
    | 0x2C42 => (List.range 256).all (fun k => decide (k < m.obj oCarouselSlotCount) || leN v (2 * k) 2 == 0xFFFF)
    | 0x3501 => !bit (s.obj oRetiredStables) v
    | 0x3611 => m.obj oTraceEnable == 0
    | 0x3700 => service || v != 0
    | 0x3701 => m.obj oSpurProductionLock == 0
    | 0x3702 => m.obj oSpurProductionLock == 0 && m.obj oSpurEnable == 0
    | 0x3802 => s.stageRule master true v
    | 0x3803 => s.stageRule master false v
    | _ => true

/-! ## Effects -/

/-- The numbers of this device have changed: peers are checked and told (R341). -/
def State.numbersChanged (s : State) : State :=
  let s1 := s.recheckPeers
  ((List.range 16).filter (fun p => within 3 6 (s1.linkState p))).foldl State.sendDiscovery s1

/-- The Halter address is lost (R430): cause 0 `HALTER_RELEASE`, 1 `MRST_n`. -/
def State.loseAddress (s : State) (cause : Nat) : State :=
  let s1 := (s.withPower { s.power with leadOutLow := true, offer := none })
  if s.obj oHalterPlcaNode = 0 then s1
  else
    let s2 := ((s1.setObj oHalterPlcaNode 0).setObj oTopoDeviceNumber 0xFF).setObj oHalterControllerAddr 0
    (s2.dropTx 1).numbersChanged.event ⟨0x0602, 0, 0, 0, cause⟩

/-- `TOPO_BOROUGH_NUMBER` is written by the bus controller (R341). -/
def State.boroughWrite (s : State) (v : Nat) : State := ((s.setObj oTopoBoroughNumber v).setObj oTopoBoroughConfirmed 1).numbersChanged

/-- The ports can train: the SerDes have power and their reference. -/
def State.portsCan (s : State) : Bool := s.power.hbmReady && s.power.srefclk

/-- `LINK_ENABLE` (R363); without power an enabled port is DOWN. -/
def State.linkEnableWrite (s : State) (p v : Nat) : State :=
  let s1 := s.setObj (oLinkEnable p) v
  if v = 1 ∧ !s.portsCan then (if s1.linkState p = 0 then s1.setLink p 1 else s1) else s1.linkEnabled p (v == 1)

/-- `LINEAGE_PORT_MODE` (R359). -/
def State.lineageModeWrite (s : State) (i v : Nat) : State :=
  let s1 := s.setObj (oLineagePortMode i) v
  if v ≠ 0 ∧ !s.portsCan then (s1.setPort (16 + i) Port.idle).setLink (16 + i) 1 else s1.lineageMode i v

/-- `STABLE_FLAGS_CLEAR` (R83): 0 for every stable, s + 1 for logical stable s. -/
def State.stableFlagsClear (s : State) (v : Nat) : State :=
  if v = 0 then (List.range 128).foldl (fun (acc : State) i => acc.setObj (oStableFlags i) 0) s else s.setObj (oStableFlags (v - 1)) 0

/-- `MAIN_RAILS_COMMAND` (R476). -/
def State.mainRails (s : State) (v : Nat) : State :=
  let s1 := s.setObj oMainRailsCommand v
  if v = 1 then (if s.obj oMainRailsPolicy = 0 then s1.railsOn else s1) else (s1.withPower { s1.power with railsDue := false }).railsOff

/-- `RNG_PROBE_RESULT` (R282). -/
def State.rngProbe (s : State) (v seq : Nat) : Nat :=
  let seed := leN v 0 8
  let stream := leN v 8 8
  let ix := leN v 16 8
  let r : Nat × Nat := match leN v 24 1 with
    | 0 => (uniformWord seed stream ix, 0)
    | 1 => gaussNative (s.obj oRngGaussTable) seed stream ix
    | 2 => (thrumyoWord seed stream ix, 0)
    | _ => (gaussThrumyo seed stream ix, 0)
  r.1 % 2 ^ 32 + r.2 % 256 * 2 ^ 32 + seq % 2 ^ 64 * 2 ^ 64

/-- `TENANT_POST_RANGE` (R364): every post of the new range becomes 0. -/
def State.postRangeWrite (s : State) (t v : Nat) : State :=
  (s.setObj (oTenantPostRange t) v).clearPosts (rangeBase v) (rangeBase v + rangeCount v)

/-- A per-tenant object is written. -/
def State.applyTenant (s : State) (t sub key v seq : Nat) : State :=
  if within 0x30 0x37 sub then s.queueCfgWrite (8 * t + (sub - 0x30)) v
  else match sub with
    | 0x01 => s.tenantEnable t v
    | 0x08 => s.tenantReset t
    | 0x09 => s.tenantHold t v
    | 0x10 => s.setObj key (s.obj key - (s.obj key &&& v))
    | 0x22 => if padOp v = 2 then s.paddockFree t v seq else s.paddockAllocate t v seq
    | 0x25 => s.tlbInvalidate t v seq
    | 0x40 => (s.setObj key v).syncStalls t
    | 0x50 => (s.setObj key v).syncRemuda t
    | 0x52 => s.answerObj (oTenantRemudaRead t) (s.imageOf v) seq
    | 0x70 => (s.setObj key v).syncBufs t
    | 0x80 => s.postRangeWrite t v
    | 0x82 => s.answerObj (oTenantPostRead t) (s.postValue v + seq * 2 ^ 64) seq
    | 0xA0 => s.attribQuota t v
    | 0xA1 => s.answerObj (oTenantAttribRead t) (s.attribResult t v) seq
    | _ => s.setObj key v

/-- `FW_STAGE_COMMAND` (R459). `apply` carries out a service record's items. -/
def State.stageCommand (s : State) (master v : Nat) (apply : State → List Byte → State) : State :=
  match v with
  | 1 => s.stageBegin master
  | 2 => s.stageVerify apply
  | 3 => s.stageActivate
  | _ => s.stageAbandon

/-- The effect of an applied write, its value included; `seq` is its write-sequence number. -/
def State.applyEffect (s : State) (master key v seq : Nat) (apply : State → List Byte → State) : State :=
  let i := keyIndex key
  let n := keySub key - 1
  if isTenantIndex i then s.applyTenant (i - 0x4000) (keySub key) key v seq
  else match i with
    | 0x1013 => s.loseAddress 0
    | 0x1100 => s.queueCfgWrite (8192 + n) v
    | 0x2100 => s.gaitCeiling v
    | 0x2104 => s.mainRails v
    | 0x2404 => s.frameRequest v seq
    | 0x2C41 => if keySub key = 2 then s.timeRole v else s.setObj key v
    | 0x3000 => s.boroughWrite v
    | 0x3012 => s.linkEnableWrite n v
    | 0x3020 => s.lineageModeWrite n v
    | 0x3310 => s.answerObj oRngProbeResult (s.rngProbe v seq) seq
    | 0x3410 => s.stableFlagsClear v
    | 0x3501 => s.retireRequest v
    | 0x3502 => if bit (s.obj oRetiredStables) v then s.repairRequest v else s
    | 0x3610 => s.traceEnable v
    | 0x3700 => s.spurLock v
    | 0x3701 => s.spurEnable v
    | 0x3802 => s.stageChunk (toLe 1024 v)
    | 0x3803 => s.stageCommand master v apply
    | 0x6001 => s.answerObj oLogRead (s.logRecord v) seq
    | _ => s.setObj key v

/-- Apply a write (R420): its number, then its effect, then what it changes of R407's conditions. -/
def State.applyWriteTo (s : State) (master key v : Nat) (apply : State → List Byte → State) : State :=
  let s1 := { s with dict := s.dict.bump key }
  (s1.applyEffect master key v (s1.dict.seq key) apply).staticCheck

/-! ## Reading -/

/-- `TENANT_QUEUE_STATE` (Table 05-16). -/
def State.queueState (s : State) (q : Nat) : Nat := (s.queue q).state + (s.queue q).sqHead * 2 ^ 16

/-- `TX_STATE` (Table 16-14): the time to expiry is a free value (log entry 2). -/
def State.txState (s : State) (m : Nat) : Nat × State :=
  match Store.find? s.dict.txs m with
  | some x => let f := s.free; (x.handle + x.staged.length * 2 ^ 32 + f.1 % 10001 * 2 ^ 64, f.2)
  | none => (0, s)

/-- The applied value of an object. -/
def State.readObj (s : State) (key : Nat) : Nat × State :=
  let i := keyIndex key
  if i = 0x2000 then s.txState (keySub key - 1)
  else if i = 0x1101 then (s.queueState (8192 + keySub key - 1), s)
  else if isTenantIndex i && within 0x38 0x3F (keySub key) then (s.queueState (8 * (i - 0x4000) + (keySub key - 0x38)), s)
  else (s.obj key, s)

end Sys2Proof.Machine
end

