-- ==== Sys2Proof/Machine/Tack.lean ====
section
/-! DEFINITION. The Tack protocol (R421 to R426, R431 to R438): messages, items and their statuses, transactions, and the routes messages
arrive by and are answered on. A route is 0 for the administrator's mailbox, 1 for the Halter bus, 2 + t for tenant t's mailbox. -/

namespace Sys2Proof.Machine

/-! ## Statuses (Table 16-7) -/

def tkOk : Nat := 0
def tkNoObject : Nat := 1
def tkAccess : Nat := 2
def tkReadOnly : Nat := 3
def tkWriteOnly : Nat := 4
def tkNeedsTx : Nat := 5
def tkNotAuthoritative : Nat := 6
def tkType : Nat := 7
def tkRange : Nat := 8
def tkBusyTx : Nat := 9
def tkRejected : Nat := 10
def tkNoTx : Nat := 11
def tkTxLimit : Nat := 12
def tkCommitFailed : Nat := 13
def tkMalformed : Nat := 14
def tkUnsupported : Nat := 15

/-! ## Layout (Tables 16-4 and 16-6) -/

structure TackItem where
  index : Nat
  sub : Nat
  typ : Nat
  vlen : Nat
  value : Nat
deriving DecidableEq, Repr

/-- The master behind a route: 0 host administrator, 1 bus controller; a tenant's mailbox is a master of its own (R436). -/
def routeMaster (route : Nat) : Nat := route

/-- The longest message of a route. -/
def routeLimit (route : Nat) : Nat := match route with | 0 => 4096 | 1 => 1232 | _ => 1024

/-- Bytes of an item: its header, and its value padded to a multiple of 8. -/
def itemBytes (vlen : Nat) : Nat := 16 + ceilDiv vlen 8 * 8

/-- The items of a request; none where the layout is broken, a reserved byte, STATUS, SEQ or padding is not zero, or a READ gives a
length (R422). The items must fill the message. -/
def parseItems (write : Bool) : Nat → List Byte → Option (List TackItem)
  | 0, [] => some []
  | 0, _ :: _ => none
  | n + 1, b =>
    let vlen := le b 4 2
    let size := itemBytes vlen
    if b.length < 16 ∨ b.length < size ∨ le b 6 1 ≠ 0 ∨ le b 7 1 ≠ 0 ∨ le b 8 8 ≠ 0 ∨ (!write ∧ vlen ≠ 0) ∨ le b (16 + vlen) (size - 16 - vlen) ≠ 0 then none
    else match parseItems write n (b.drop size) with
      | some l => some (⟨le b 0 2, le b 2 1, le b 3 1, vlen, le b 16 vlen⟩ :: l)
      | none => none

/-- The header is well formed, and the message is of the length it says, within the limit of its route (R421, R422). -/
def headerOk (route : Nat) (b : List Byte) : Bool :=
  decide (16 ≤ b.length) && le b 0 1 == 1 && le b 2 1 == 0 && le b 3 1 == 0 && le b 6 2 == b.length && decide (b.length ≤ routeLimit route)
    && decide (le b 12 2 ≤ 64) && le b 14 2 == 0

def msgOp (b : List Byte) : Nat := le b 1 1
def msgId (b : List Byte) : Nat := le b 4 2
def msgHandle (b : List Byte) : Nat := le b 8 4
def msgCount (b : List Byte) : Nat := le b 12 2

/-- A response to a request (R421, R426): its header with the items or body that follow. What does not fit the route is cut off
(log entry 17). -/
def respond (route : Nat) (req : List Byte) (status handle n : Nat) (tail : List Byte) : List Byte :=
  let body := tail.take (routeLimit route - 16)
  [1] ++ toLe 1 (msgOp req) ++ [1] ++ toLe 1 status ++ toLe 2 (msgId req) ++ toLe 2 (16 + body.length) ++ toLe 4 handle ++ toLe 2 n ++ toLe 2 0 ++ body

/-- A message-level status, with no items. -/
def respondStatus (route : Nat) (req : List Byte) (status : Nat) : List Byte := respond route req status (msgHandle req) 0 []

/-- An item of a response (Table 16-6). -/
def itemOut (i : TackItem) (typ vlen status seq value : Nat) : List Byte :=
  toLe 2 i.index ++ toLe 1 i.sub ++ toLe 1 typ ++ toLe 2 vlen ++ toLe 1 status ++ [0] ++ toLe 8 seq ++ toLe (itemBytes vlen - 16) value

/-! ## Checks of an item (Table 16-7) -/

/-- Rights of a route as a bit of Tables 17-3 to 17-9. -/
def routeRight (route : Nat) : Nat := match route with | 0 => 0 | 1 => 1 | _ => 2

/-- Check 2: the route's rights class may reach the object (R418). -/
def accessOk (route : Nat) (d : ObjDef) (index : Nat) : Bool :=
  bit d.rights (routeRight route) && (decide (route < 2) || !isTenantIndex index || index == 0x4000 + (route - 2))

/-- The object an item names, none where there is none: in recovery only the identity and `FW_` objects are served (R441, R456). -/
def State.served (s : State) (i : TackItem) : Option ObjDef :=
  if s.power.ostler = 2 ∧ !(i.index < 0x2000 || within 0x3800 0x3806 i.index) then none else objDef? i.index i.sub

def itemKey (i : TackItem) : Nat := i.index * 256 + i.sub

/-- Held in a transaction of another master (R436). -/
def State.heldByOther (s : State) (master key : Nat) : Bool :=
  s.dict.txs.any (fun x => x.1 != master && x.2.staged.any (fun w => w.1 == key))

/-- Checks 1 to 7 of a WRITE item. -/
def State.writeStatus (s : State) (route : Nat) (staging : Bool) (i : TackItem) : Nat :=
  match s.served i with
  | none => tkNoObject
  | some d =>
    if !accessOk route d i.index then tkAccess
    else if d.acc = 0 then tkReadOnly
    else if d.acc = 3 ∧ !staging then tkNeedsTx
    else if (d.auth = 1 ∧ route = 1) ∨ (d.auth = 2 ∧ route ≠ 1) then tkNotAuthoritative
    else if i.typ ≠ d.typ ∨ i.vlen ≠ d.len then tkType
    else if !s.rangeOk (itemKey i) i.value then tkRange
    else if s.heldByOther (routeMaster route) (itemKey i) then tkBusyTx
    else tkOk

/-- The checks of a READ item. -/
def State.readStatus (s : State) (route : Nat) (i : TackItem) : Nat :=
  match s.served i with
  | none => tkNoObject
  | some d =>
    if !accessOk route d i.index then tkAccess
    else if d.acc = 2 then tkWriteOnly
    else if i.typ ≠ 0 ∧ i.typ ≠ d.typ then tkType
    else tkOk

/-- The TYPE and SEQ of a response item; those of an object that is not there are the request's and 0. -/
def State.itemType (s : State) (i : TackItem) : Nat := match s.served i with | some d => d.typ | none => i.typ
def State.itemSeq (s : State) (i : TackItem) : Nat := match s.served i with | some _ => s.dict.seq (itemKey i) | none => 0

/-! ## Service records (R460) -/

/-- The items of a service record, applied in order with Service rights. Its items are WRITE items; what one may write is what lists S. -/
def State.applyService (s : State) (i : TackItem) : State :=
  match objDef? i.index i.sub with
  | some d =>
    if bit d.rights 3 && i.typ == d.typ && i.vlen == d.len && s.rangeOk (itemKey i) i.value && s.ruleOk s 2 true (itemKey i) i.value then
      s.applyWriteTo 2 (itemKey i) i.value (fun x _ => x)
    else s
  | none => s

/-- As many whole items as the bytes hold, up to the record's count. -/
def serviceItems : Nat → List Byte → List TackItem
  | 0, _ => []
  | n + 1, b => if b.length < itemBytes (le b 4 2) then [] else ⟨le b 0 2, le b 2 1, le b 3 1, le b 4 2, le b 16 (le b 4 2)⟩ :: serviceItems n (b.drop (itemBytes (le b 4 2)))

def State.applyRecord (s : State) (b : List Byte) : State := (serviceItems 16 b).foldl State.applyService s

/-! ## READ and WRITE -/

/-- One WRITE item applied: the state, and its status. -/
def State.writeItem (s : State) (route : Nat) (i : TackItem) : State × Nat :=
  let st := s.writeStatus route false i
  if st ≠ tkOk then (s, st)
  else if !s.ruleOk s (routeMaster route) false (itemKey i) i.value then (s, tkRejected)
  else (s.applyWriteTo (routeMaster route) (itemKey i) i.value State.applyRecord, tkOk)

/-- A request object whose last result is still due (R451). -/
def State.resultDue (s : State) (key : Nat) : Bool :=
  (key == oHbmFrameRequest || (isTenantIndex (keyIndex key) && keySub key == 0x22)) && (s.dueOf key).isSome

/-- A message that writes such an object waits whole (R425, R451). -/
def State.mustWait (s : State) (items : List TackItem) : Bool := items.any (fun i => s.resultDue (itemKey i))

/-- The items of a WRITE, in order; each succeeds or fails on its own (R424). One that writes a request object an earlier item of the message
wrote waits for that result, and those after it with it (R451; log entry 112): they are what is left. -/
def State.writeItems (s : State) (route : Nat) : List TackItem → State × List Byte × List TackItem
  | [] => (s, [], [])
  | i :: rest =>
    if s.resultDue (itemKey i) then (s, [], i :: rest)
    else
      let r := s.writeItem route i
      let out := itemOut i (r.1.itemType i) 0 r.2 (r.1.itemSeq i) 0
      let t := r.1.writeItems route rest
      (t.1, out ++ t.2.1, t.2.2)

/-- The items of a READ. -/
def State.readItems (s : State) (route : Nat) : List TackItem → State × List Byte
  | [] => (s, [])
  | i :: rest =>
    let st := s.readStatus route i
    let v := s.readObj (itemKey i)
    let len := match s.served i with | some d => d.len | none => 0
    let r : State × List Byte := if st = tkOk then (v.2, itemOut i (s.itemType i) len tkOk (s.itemSeq i) v.1)
      else (s, itemOut i (s.itemType i) 0 st (s.itemSeq i) 0)
    let t := r.1.readItems route rest
    (t.1, r.2 ++ t.2)

/-! ## Transactions (R431 to R435) -/

def State.tx? (s : State) (m : Nat) : Option Tx := Store.find? s.dict.txs m

def State.setTx (s : State) (m : Nat) (x : Tx) : State :=
  { s with dict := { s.dict with txs := Store.put s.dict.txs m x } }

/-- Stage a value; staging an object again replaces its value (R431). -/
def stage (l : List (Nat × Nat)) (key v : Nat) : List (Nat × Nat) :=
  if l.any (fun w => w.1 == key) then l.map (fun w => if w.1 = key then (key, v) else w) else l ++ [(key, v)]

/-- A WRITE that carries a handle: its items are staged, all or none where 256 objects would be exceeded (R431, R432). -/
def State.stageItems (s : State) (route : Nat) (x : Tx) (items : List TackItem) : Option (State × List Byte) :=
  let st := fun (i : TackItem) => s.writeStatus route true i
  let staged := (items.filter (fun i => st i == tkOk)).foldl (fun (l : List (Nat × Nat)) i => stage l (itemKey i) i.value) x.staged
  if 256 < staged.length then none
  else some (s.setTx (routeMaster route) { x with staged := staged }, (items.map (fun i => itemOut i (s.itemType i) 0 (st i) (s.itemSeq i) 0)).flatten)

/-- The dictionary as the staged writes would leave it (R433 step 1). -/
def State.merged (s : State) (staged : List (Nat × Nat)) : State := staged.foldl (fun (acc : State) w => acc.setObj w.1 w.2) s

/-- The staging index of the first staged object among some. -/
def firstStaged (staged : List (Nat × Nat)) (p : Nat → Bool) : Option Nat := staged.findIdx? (fun w => p w.1)

/-- Reasons 1 and 2: a quarter changes its partition (R113, R389). -/
def State.layoutFails (s m : State) (reason : Nat) : Bool :=
  if reason = 1 then
    (List.range 8).any (fun p => s.partitionQuarters p != m.partitionQuarters p && !(s.placed p).isEmpty)
  else (List.range 8).any (fun q => s.quarterPartition q != m.quarterPartition q && (List.range 256).any (fun g => decide (s.granuleOwner (256 * q + g) < 1024)))

/-- Reason 3: a static partition without a quarter or with more than 2 (R389). -/
def State.staticFails (m : State) (p : Nat) : Bool :=
  m.obj (oPartitionSchedMode p) == 1 && !within 1 2 (m.partitionQuarters p).length

/-- Reason 4: reserves of partitions in modes 1 and 2 total more than 512 (R408). -/
def State.reserveFails (m : State) : Bool :=
  decide (512 < ((List.range 8).map (fun p => if m.obj (oPartitionSchedMode p) = 0 then 0 else m.obj (oPartitionHbmReserve p))).sum)

/-- Reason 5: a slot's owner is not placed in the partition (R409). -/
def State.ownersFail (m : State) (p : Nat) : Bool :=
  m.obj (oPartitionSchedMode p) == 2 &&
    (List.range 256).any (fun k => let e := leN (m.obj (oCarouselSlots p)) (2 * k) 2; decide (e < 1024) && m.obj (oTenantPartition e) != p)

def isKey (key x : Nat) : Bool := key == x

/-- Why a commit fails: its reason and ITEM (Table 16-11). Reasons are tried in ascending order, each where a staged object is concerned. -/
def State.commitFailure (s : State) (master : Nat) (staged : List (Nat × Nat)) : Option (Nat × Nat) :=
  let m := s.merged staged
  let layout := firstStaged staged (isKey oPartitionLayout)
  let both := fun (p : Nat) (k : Nat → Nat) => firstStaged staged (fun x => x == k p || x == oPartitionSchedMode p)
  let r1 := layout.bind (fun i => if s.layoutFails m 1 then some (1, i) else none)
  let r2 := layout.bind (fun i => if s.layoutFails m 2 then some (2, i) else none)
  let r3 := (List.range 8).filterMap (fun p => (firstStaged staged (fun x => x == oPartitionLayout || x == oPartitionSchedMode p)).bind
    (fun i => if m.staticFails p then some (3, i) else none))
  let r4 := (firstStaged staged (fun x => keyIndex x == 0x2C01 || keyIndex x == 0x2C02)).bind (fun i => if m.reserveFails then some (4, i) else none)
  let r5 := (firstStaged staged (fun x => x == oCarouselSlotCount || x == oCarouselSlotLen)).bind
    (fun i => if 10000 < m.obj oCarouselSlotCount * m.obj oCarouselSlotLen then some (5, i) else none)
  let r5' := (List.range 8).filterMap (fun p => (both p oCarouselSlots).bind (fun i => if m.ownersFail p then some (5, i) else none))
  let r6 := (staged.findIdx? (fun w => !s.ruleOk m master false w.1 w.2)).map (fun i => (6, i))
  (r1.toList ++ r2.toList ++ r3 ++ r4.toList ++ r5.toList ++ r5' ++ r6.toList).head?

/-- The body of Table 16-11. -/
def failureBody (reason item : Nat) : List Byte := toLe 1 reason ++ [0] ++ toLe 2 item ++ toLe 4 0

/-- A commit that must wait for quiescence waits for these quarters (R434). -/
def State.commitQuiet (s : State) (staged : List (Nat × Nat)) : Bool :=
  let qs := if staged.any (fun w => within 0x2C00 0x2C02 (keyIndex w.1)) then s.changedQuarters staged else []
  s.exec.cmds.all (fun c => c.tiles.all (fun t => !(t.state == .fill || t.state == .run) || !qs.contains (t.stable / 17)))

/-- Step 3 of R433: every staged write is applied, in staging order. -/
def State.applyStaged (s : State) (master : Nat) (staged : List (Nat × Nat)) : State :=
  staged.foldl (fun (acc : State) w => acc.applyWriteTo master w.1 w.2 State.applyRecord) s

/-- The items of a commit's response. -/
def State.commitItems (s : State) (staged : List (Nat × Nat)) : List Byte :=
  (staged.map (fun w => let i : TackItem := ⟨keyIndex w.1, keySub w.1, 0, 0, 0⟩; itemOut i (s.itemType i) 0 tkOk (s.itemSeq i) 0)).flatten

/-! ## Answering -/

/-- Put a response where its request came from: a mailbox, the bus, or the list of answers to single writes (R143, R426, R427). -/
def State.deliver (s : State) (route : Nat) (mbx : Bool) (resp : List Byte) : State :=
  if !mbx then
    (let st := if le resp 3 1 = 0 then le resp 22 1 else le resp 3 1
     { s with dict := { s.dict with answers := s.dict.answers ++ [(st, le resp 24 8)] } })
  else match route with
    | 0 => (s.setAdminMbx { s.regs.adminMbx with response := resp, status := 2, respLen := resp.length }).sendVector 0 1
    | 1 =>
      let l := s.dict.busReplies ++ [(msgId resp, resp)]
      { s with dict := { s.dict with busReplies := l.drop (l.length - 16), busOut := if s.power.beacon then s.dict.busOut ++ [resp] else s.dict.busOut } }
    | t + 2 => (s.setTenantMbx t { s.tenantMbx t with response := resp, status := 2, respLen := resp.length }).tenantEvent t 3

/-- The commit in progress of a master ends: applied, or failed with a reason. -/
def State.endCommit (s : State) (master : Nat) (req : List Byte) (staged : List (Nat × Nat)) (failure : Option (Nat × Nat)) : State × List Byte :=
  match failure with
  | some f => (s.dropTx master, respond master req tkCommitFailed (msgHandle req) 0 (failureBody f.1 f.2))
  | none =>
    let s1 := (s.dropTx master).applyStaged master staged
    (s1, respond master req tkOk (msgHandle req) staged.length (s1.commitItems staged))

/-- The transaction of a master expires (R435). -/
def State.txExpire (s : State) (m : Nat) : State :=
  match s.tx? m with
  | some x => if x.committing then s else (s.dropTx m).event ⟨0x0600, 0, 0, 0, x.handle⟩
  | none => s

/-- A header that stands for the request of a commit in progress: its MSG_ID is `reply` (R434). -/
def commitRequest (id handle : Nat) : List Byte := [1, 0x11, 0, 0] ++ toLe 2 id ++ toLe 2 16 ++ toLe 4 handle ++ toLe 2 0 ++ toLe 2 0

/-! ## The engine (R424) -/

/-- A message is held until a result it waits for has been written (R425). -/
def State.holdMsg (s : State) (w : HeldMsg) : State := { s with dict := { s.dict with waitingMsgs := s.dict.waitingMsgs ++ [w] } }

/-- What the engine makes of a request: the state, and its response, none while it waits. `done` items of a WRITE have been applied before,
and `out` is what the response says of them. -/
def State.engineFrom (s : State) (route : Nat) (mbx : Bool) (b : List Byte) (done : Nat) (out : List Byte) : State × Option (List Byte) :=
  let m := routeMaster route
  let op := msgOp b
  let status := fun (st : Nat) => (s, some (respondStatus route b st))
  if !headerOk route b then status tkMalformed
  else if op = 0x01 ∨ op = 0x02 then
    match parseItems (op == 0x02) (msgCount b) (b.drop 16) with
    | none => status tkMalformed
    | some items =>
      if msgHandle b ≠ 0 then
        (match s.tx? m with
         | some x =>
           if x.handle ≠ msgHandle b ∨ x.committing then status tkNoTx
           else if op = 0x02 then
             (match s.stageItems route x items with
              | some r => (r.1, some (respond route b tkOk (msgHandle b) items.length r.2))
              | none => status tkTxLimit)
           else (let r := s.readItems route items; (r.1, some (respond route b tkOk (msgHandle b) items.length r.2)))
         | none => status tkNoTx)
      else if op = 0x01 then (let r := s.readItems route items; (r.1, some (respond route b tkOk 0 items.length r.2)))
      else if s.mustWait (items.drop done) then (s.holdMsg ⟨route, mbx, b, done, out⟩, none)
      else
        (let r := s.writeItems route (items.drop done)
         if r.2.2.isEmpty then (r.1, some (respond route b tkOk 0 items.length (out ++ r.2.1)))
         else (r.1.holdMsg ⟨route, mbx, b, items.length - r.2.2.length, out ++ r.2.1⟩, none))
  else if !(op = 0x10 ∨ op = 0x11 ∨ op = 0x12) then status tkUnsupported
  else if msgCount b ≠ 0 ∨ b.length ≠ 16 then status tkMalformed
  else if op = 0x10 then
    if 2 ≤ route then status tkAccess
    else if (s.tx? m).isSome then status tkTxLimit
    else
      let h := s.dict.nextHandle
      let s1 := s.setTx m ⟨h, [], false, 0⟩
      ({ s1 with dict := { s1.dict with nextHandle := h % (2 ^ 32 - 1) + 1 } }, some (respond route b tkOk h 0 []))
  else match s.tx? m with
    | none => status tkNoTx
    | some x =>
      if x.handle ≠ msgHandle b ∨ x.committing then status tkNoTx
      else if op = 0x12 then (s.dropTx m, some (respondStatus route b tkOk))
      else if x.staged.any (fun w => s.resultDue w.1) then (s.holdMsg ⟨route, mbx, b, 0, []⟩, none)
      else match s.commitFailure m x.staged with
        | some f => let r := s.endCommit m b x.staged (some f); (r.1, some r.2)
        | none =>
          if s.commitQuiet x.staged then (let r := s.endCommit m b x.staged none; (r.1, some r.2))
          else (s.setTx m { x with committing := true, reply := msgId b }, none)

/-- A request that reaches the engine, as the engine takes it first. -/
def State.engine (s : State) (route : Nat) (mbx : Bool) (b : List Byte) : State × Option (List Byte) := s.engineFrom route mbx b 0 []

/-- An answer goes out once there is one. -/
def State.answered (route : Nat) (mbx : Bool) (r : State × Option (List Byte)) : State :=
  match r.2 with
  | some resp => r.1.deliver route mbx resp
  | none => r.1

/-- A request reaches the engine. -/
def State.request (s : State) (route : Nat) (mbx : Bool) (b : List Byte) : State := State.answered route mbx (s.engine route mbx b)

/-- Messages that waited for a result and need wait no more, in order (R425). -/
def State.wakeMsgs (s : State) : State :=
  s.dict.waitingMsgs.foldl (fun (acc : State) w =>
    State.answered w.route w.mbx (({ acc with dict := { acc.dict with waitingMsgs := acc.dict.waitingMsgs.erase w } }).engineFrom w.route w.mbx w.bytes w.done w.out)) s

/-- TX_COMMIT_APPLY (R434): no tile is left in Fill or Run there. -/
def State.commitApply (s : State) (m : Nat) : State :=
  match s.tx? m with
  | some x =>
    if x.committing && s.commitQuiet x.staged && !x.staged.any (fun w => s.resultDue w.1) then
      (let r := s.endCommit m (commitRequest x.reply x.handle) x.staged none
       r.1.deliver m true r.2)
    else s
  | none => s

/-- TX_QUIESCENCE_TIMEOUT (R434): 1 ms has passed without. -/
def State.commitTimeout (s : State) (m : Nat) : State :=
  match s.tx? m with
  | some x =>
    if x.committing then
      (let r := s.endCommit m (commitRequest x.reply x.handle) x.staged (some (7, 0xFFFF))
       r.1.deliver m true r.2)
    else s
  | none => s

/-! ## Routes -/

/-- The Ostler answers: booted or in recovery (R456). -/
def State.ostlerUp (s : State) : Bool := s.power.ostler == 1 || s.power.ostler == 2

/-- The dictionary can be reached through a mailbox (R123). -/
def State.mailboxUp (s : State) : Bool := s.pcieUp && s.regs.ready && s.ostlerUp

/-- An exchange of a mailbox is under way: its request waits for a result or for quiescence. A rejected doorbell does not end it. -/
def State.mbxBusy (s : State) (route : Nat) : Bool :=
  (if route = 0 then s.regs.adminMbx else s.tenantMbx (route - 2)).status == 1 || s.dict.waitingMsgs.any (fun w => w.mbx && w.route == route)
    || (route == 0 && (match s.tx? 0 with | some x => x.committing | none => false))

/-- A write to MBX_DOORBELL (R143). `serve` is the engine. -/
def State.ringWith (s : State) (serve : State → Nat → List Byte → State) (route len : Nat) : State :=
  let m := if route = 0 then s.regs.adminMbx else s.tenantMbx (route - 2)
  let put := fun (v : Mailbox) => if route = 0 then s.setAdminMbx v else s.setTenantMbx (route - 2) v
  if s.mbxBusy route ∨ len = 0 ∨ routeLimit route < len then put { m with status := 3 }
  else serve (put { m with status := 1 }) route (m.request.take len ++ List.replicate (len - m.request.length) 0)

/-- The engine, for a request that came in a message. -/
def State.serveMsg (s : State) (route : Nat) (b : List Byte) : State := s.request route true b

def State.ring (s : State) (route len : Nat) : State := s.ringWith State.serveMsg route len

/-- ADMIN_MBX_DOORBELL. A request that waits leaves the mailbox busy. -/
def State.adminDoorbell (s : State) (v : Nat) : State := if s.mailboxUp then s.ring 0 (bits v 0 13) else s

/-- TENANT_MBX_DOORBELL through function f. -/
def State.tenantDoorbell (s : State) (f t v : Nat) : State := if s.mailboxUp && s.pageLive f t then s.ring (2 + t) (bits v 0 11) else s

/-- A datagram of the bus: discarded unless it comes from the controller of record; a MSG_ID answered lately gets its answer again (R426, R428). -/
def State.datagramWith (s : State) (serve : State → Nat → List Byte → State) (src : Nat) (b : List Byte) : State :=
  if !s.ostlerUp then s
  else if s.obj oHalterPlcaNode = 0 ∨ s.obj oHalterControllerAddr ≠ src then s.count oTackForeignSource 1
  else match s.dict.busReplies.find? (fun x => x.1 == msgId b) with
    | some x =>
      let s1 := s.count oTackDuplicateRequests 1
      if s.power.beacon then { s1 with dict := { s1.dict with busOut := s1.dict.busOut ++ [x.2] } } else s1
    | none => serve s 1 b

/-- A message sent whole by a route: put in the request buffer and rung, or a datagram. -/
def State.sendMessage (s : State) (serve : State → Nat → List Byte → State) (via : Via) (b : List Byte) : State :=
  match via with
  | .admin =>
    if s.mailboxUp then
      (let m := s.regs.adminMbx
       (s.setAdminMbx { m with request := putBytes m.request 0 b }).ringWith serve 0 b.length)
    else s
  | .tenant t =>
    if s.mailboxUp && s.pageLive 0 t.val then
      (let m := s.tenantMbx t.val
       (s.setTenantMbx t.val { m with request := putBytes m.request 0 b }).ringWith serve (2 + t.val) b.length)
    else s
  | .bus src => s.datagramWith serve src b

/-- A row of one operation of the protocol: a message of another operation is none of its business. -/
def State.tackRow (s : State) (op : Nat) (via : Via) (b : List Byte) : State :=
  if msgOp b = op then s.sendMessage State.serveMsg via b else s

/-- TX_COMMIT served when the 10 s of its transaction end in the same engine cycle: the expiry comes first, and the commit answers reason 8 (R435,
Table 16-11). -/
def State.serveLate (s : State) (route : Nat) (b : List Byte) : State :=
  let m := routeMaster route
  match s.tx? m with
  | some x =>
    if headerOk route b && msgCount b == 0 && b.length == 16 && x.handle == msgHandle b && !x.committing then
      (s.txExpire m).deliver route true (respond route b tkCommitFailed (msgHandle b) 0 (failureBody 8 0xFFFF))
    else s.serveMsg route b
  | none => s.serveMsg route b

def State.commitRow (s : State) (late : Bool) (via : Via) (b : List Byte) : State :=
  if late && msgOp b == 0x11 then s.sendMessage State.serveLate via b else s.tackRow 0x11 via b

/-- Whether a route is up for a write that comes by no message of the model. -/
def State.routeUp (s : State) (route : Nat) : Bool :=
  match route with
  | 0 => s.mailboxUp
  | 1 => s.ostlerUp && s.obj oHalterPlcaNode != 0
  | t + 2 => s.mailboxUp && s.pageLive 0 t

/-- The message of one WRITE item. -/
def writeMessage (key v : Nat) : List Byte :=
  let d := match objDef? (keyIndex key) (keySub key) with | some d => (d.typ, d.len) | none => (0, 0)
  let item := toLe 2 (keyIndex key) ++ toLe 1 (keySub key) ++ toLe 1 d.1 ++ toLe 2 d.2 ++ [0, 0] ++ toLe 8 0 ++ toLe (itemBytes d.2 - 16) v
  [1, 0x02, 0, 0] ++ toLe 2 0 ++ toLe 2 (16 + item.length) ++ toLe 4 0 ++ toLe 2 1 ++ toLe 2 0 ++ item

/-- One write of an object by a route: the rows that are a write of one object. -/
def State.rowWrite (s : State) (route key v : Nat) : State := if s.routeUp route then s.request route false (writeMessage key v) else s

/-- The same, by who writes. A bus address other than the controller of record's is a foreign source (R428). -/
def State.viaWrite (s : State) (via : Via) (key v : Nat) : State :=
  match via with
  | .admin => s.rowWrite 0 key v
  | .tenant t => s.rowWrite (2 + t.val) key v
  | .bus src =>
    if s.obj oHalterPlcaNode != 0 && s.obj oHalterControllerAddr == src then s.rowWrite 1 key v
    else if s.ostlerUp then s.count oTackForeignSource 1 else s

end Sys2Proof.Machine
end

