-- ==== Sys2Proof/Machine/Boot.lean ====
section
/-! DEFINITION. Enumeration on the Halter bus (R427 to R430), the power-up order (R532, R533), `PERST_n` (R535, R536) and `MRST_n` (R537). -/

namespace Sys2Proof.Machine

/-! ## Enumeration -/

/-- Bytes 0 to 7 of an offer or a confirm are in range (Table 16-9). -/
def offerOk (b : List Byte) : Bool :=
  within 1 8 (le b 0 1) && decide (le b 1 1 < 64) && decide (le b 2 1 < 64) && le b 3 1 == 0 && decide (le b 4 4 ≠ 0)

/-- An enumeration message: its header, OP and body length; none where the header is broken. -/
def enumBody (op size : Nat) (b : List Byte) : Option (List Byte) :=
  if headerOk 1 b && msgOp b == op && msgCount b == 0 && b.length == 16 + size then some (b.drop 16) else none

/-- ENUM_ACCEPT, which answers an offer: the offer's MSG_ID, OFFER_ID, serial and MAC (Table 16-9; log entry 18). -/
def State.enumAccept (s : State) (req body : List Byte) : List Byte :=
  [1, 0x21, 1, 0] ++ toLe 2 (msgId req) ++ toLe 2 40 ++ toLe 4 0 ++ toLe 2 0 ++ toLe 2 0
    ++ toLe 4 0 ++ toLe 4 (le body 4 4) ++ toLe 8 (s.obj oModuleSerial) ++ toLe 6 (s.obj oHalterMac) ++ toLe 2 0

/-- ENUM_OFFER (R429 steps 4 and 5): answered by a booted module without an address whose `LEAD_IN` has been high for 1 ms. -/
def State.enumOffer (s : State) (req : List Byte) : State :=
  if !s.ostlerUp || s.obj oHalterPlcaNode != 0 || !s.power.leadIn then s
  else match enumBody 0x20 8 req with
    | some body =>
      if !offerOk body || !s.power.beacon then s
      else
        let s1 := s.withPower { s.power with offer := some (body.take 8) }
        { s1 with dict := { s1.dict with busOut := s1.dict.busOut ++ [s.enumAccept req body] } }
    | none => s

/-- The bus write of `TOPO_BOROUGH_NUMBER` at step 7. -/
def State.busBorough (s : State) (v : Nat) : State := s.applyWriteTo 1 oTopoBoroughNumber v State.applyRecord

/-- ENUM_CONFIRM (R429 steps 6 to 8, R428): `src` is its IPv6 source address. -/
def State.enumConfirm (s : State) (src : Nat) (req : List Byte) : State :=
  match s.power.offer, enumBody 0x22 16 req with
  | some o, some body =>
    if !s.ostlerUp || s.obj oHalterPlcaNode != 0 || !offerOk body || le body 4 4 != le o 4 4 || le body 8 8 != s.obj oModuleSerial then s
    else
      let s1 := ((s.setObj oHalterPlcaNode (le body 0 1)).setObj oTopoDeviceNumber (le body 1 1)).setObj oHalterControllerAddr (src % 2 ^ 128)
      let s2 := (s1.busBorough (le body 2 1)).event ⟨0x0601, 0, 0, 0, le body 0 1 + le body 1 1 * 2 ^ 4 + le body 2 1 * 2 ^ 10⟩
      s2.withPower { s2.power with offer := none, leadOutLow := false }
  | _, _ => s

/-- ENUM_CONFIRM_TIMEOUT: 100 ms after the accept. -/
def State.enumTimeout (s : State) : State := s.withPower { s.power with offer := none }

/-- LEAD_IN_HIGH: `LEAD_IN` has been high for 1 ms. -/
def State.leadInHigh (s : State) : State := if s.power.standby then s.withPower { s.power with leadIn := true } else s

/-- HALTER_BEACON_LOSS and HALTER_BEACON_RESUME (R427). -/
def State.setBeacon (s : State) (on : Bool) : State := s.withPower { s.power with beacon := on }

/-! ## Power-up (R532, R533) -/

/-- MAIN_RAILS_GOOD: step 4. -/
def State.railsGood (s : State) : State :=
  if s.power.rails ≠ 1 then s
  else
    let s1 := (s.withPower { s.power with rails := 2 }).startGait
    s1.raiseRails (s1.obj oGaitCurrent)

/-- ROOT_PLL_LOCK: step 5. What flash holds of the Carousel is in force from here. -/
def State.pllLock (s : State) : State :=
  if s.power.rails ≠ 2 ∨ s.obj oRootPllState = 1 then s
  else
    let s1 := (s.setObj oRootPllState 1).newEpoch.startScrubs
    { s1 with sched := { s1.sched with carEnable := s1.obj oCarouselEnable == 1, carCount := s1.obj oCarouselSlotCount, carLen := s1.obj oCarouselSlotLen,
                                       carTables := (List.range 8).map (fun p => s1.obj (oCarouselSlots p)) } }

/-- PCIe enters Detect once the rails and HBM are ready and `PERST_n` is deasserted (step 8, and step 6 of R536). -/
def State.pcieDetect (s : State) : State :=
  if s.power.hbmReady && !s.power.perst && s.power.pcie == 0 then s.withPower { s.power with pcie := 1 } else s

/-- HBM_TRAINING_COMPLETE: steps 6 to 8. -/
def State.hbmTrained (s : State) : State :=
  if s.power.rails ≠ 2 ∨ s.obj oRootPllState ≠ 1 ∨ s.power.hbmReady then s
  else
    let s1 := s.withPower { s.power with hbmReady := true }
    (if s.power.srefclk then s1.trainPorts else s1).pcieDetect

/-- READY, once the link is up and configuration requests are completed. -/
def State.syncReady (s : State) : State := { s with regs := { s.regs with ready := s.pcieUp } }

/-- PCIE_LINK_UP. -/
def State.pcieLinkUp (s : State) : State := if s.power.pcie = 1 then (s.withPower { s.power with pcie := 2 }).syncReady else s

/-! ## `PERST_n` -/

/-- Frames that `PERST_SCRUB_POLICY` 1 zeroes (R536 step 4). -/
def State.scrubFrames (s : State) : State :=
  let fs := (s.mem.frameOwner.filter (fun x => x.2 != ownerRetired)).map (·.1)
  s.withMem (fs.foldl (fun (m : MemGroup) f => m.zero (f * frameBytes) ((f + 1) * frameBytes)) s.mem)

/-- The faults `PERST_n` clears are cleared (R535, R493). -/
def State.clearFatals (s : State) : State :=
  let left := s.power.fatals.filter (fun f => f.2.2 != 0)
  if left.length = s.power.fatals.length then s
  else
    let s1 := (s.withPower { s.power with fatals := left }).setObj oFatalCause ((left.map (·.1)).headD 0)
    let s2 : State := { s1 with regs := { s1.regs with fatal := !left.isEmpty } }
    if s2.power.rails == 2 then s2.newEpoch.startScrubs else s2

/-- PERST_ASSERT (R536 steps 1 to 4; R538). Without a running Ostler it is a level on a pin. -/
def State.perstAssert (s : State) : State :=
  let s0 := s.withPower { s.power with perst := true }
  if !s.ostlerUp then s0
  else
    let s1 := if s.regs.fatal then s0 else s0.fabric.colls.foldl (fun (acc : State) c => acc.abortColl c stAborted 0 true) s0
    let scrub := s.obj oPerstScrubPolicy == 1 && s.power.rails == 2
    let s2 := (if scrub then s1.scrubFrames else s1).hostReset
    (s2.withPower { s2.power with pcie := 0, retry := scrub || s.power.retry }).clearFatals

/-- PERST_SCRUB_COMPLETE (step 7). -/
def State.perstScrubbed (s : State) : State := if s.power.retry then (s.withPower { s.power with retry := false }).syncReady else s

/-- PERST_DEASSERT (steps 5 and 6). -/
def State.perstDeassert (s : State) : State := (s.withPower { s.power with perst := false }).pcieDetect

/-! ## `MRST_n`, and the loss of power -/

/-- The Ostler stops: the module has no address, and its transactions are gone. Every record raised reaches flash (R464, DEDUCED). -/
def State.ostlerStop (s : State) : State :=
  let s1 := s.railsOff.logFlush
  let s2 := ((s1.setObj oHalterPlcaNode 0).setObj oTopoDeviceNumber 0xFF).setObj oHalterControllerAddr 0
  { s2 with power := { s2.power with ostler := 0, leadIn := false, offer := none },
            ostler := { s2.ostler with session := none },
            dict := { s2.dict with txs := [], waitingMsgs := [], busReplies := [] } }

/-- MRST_ASSERT (R537). -/
def State.mrstAssert (s : State) : State :=
  if s.power.mrst then s
  else
    let s1 := if s.ostlerUp then s.loseAddress 1 else s
    let s2 := s1.ostlerStop
    s2.withPower { s2.power with mrst := true, leadOutLow := s2.power.standby }

/-- MRST_DEASSERT: the Ostler boots. -/
def State.mrstDeassert (s : State) (fails mv : Nat) : State :=
  if s.power.mrst then (s.withPower { s.power with mrst := false }).ostlerBoot fails mv else s

/-- REFCLK_RESTORE (R531): the module boots as after `MRST_n`. -/
def State.refclkRestore (s : State) (fails mv : Nat) : State :=
  if s.power.refclk then s
  else
    let s1 := s.ostlerStop
    (s1.withPower { s1.power with refclk := true }).ostlerBoot fails mv

/-- STANDBY_POWER_LOSS (R452): the input below 40 V. The Ostler finishes its flash writes in the hold-up and stops; `LEAD_OUT` is released. -/
def State.standbyLoss (s : State) : State :=
  if !s.power.standby then s
  else
    let s1 := s.ostlerStop
    s1.withPower { s1.power with standby := false, leadOutLow := false }

end Sys2Proof.Machine
end

