-- ==== Sys2Proof/Machine/RowsCommands.lean ====
section
/-! DEFINITION. The meanings of the rows that begin, run and end commands (chapters 05 to 11, 14 and 20). A row that the state does not
allow changes nothing (log entry 1). -/

namespace Sys2Proof.Machine

/-- What a row answers. -/
abbrev Answer := Host.Outcome State Fault Refusal

/-- Begin the head of a stream under the row of opcode `op` (R129), and see what that does to the static partitions (R407). -/
def State.opcodeRow (s : State) (f : From) (op : Nat) (plan : State → Env → Plan) (launch : State → Env → Nat → State) : State :=
  (s.beginRow f (fun b => opcodeOf b == op) plan launch).staticCheck

/-- A command with no work of its own, its body reserved from byte `off` on. -/
def planHeader (off : Nat) (_ : State) (e : Env) : Plan := (need 0 off (e.f off (128 - off) == 0), .ok Work.none)

/-- An ENCODE that releases buffers: OP 1 (Table 11-4). -/
def encodeReleases (b : List Byte) : Bool := le b 88 1 % 4 == 1

/-! ## The matrix and vector commands -/

/-- MATMUL (R148 to R171), fused or not (R374, R375). -/
def execMatmul (f : From) (s : State) : Answer := .next (s.opcodeRow f 0x01 (withFuse planMatmul) launchFused)

/-- MATMUL_LIST (R172 to R174). -/
def execMatmulList (f : From) (s : State) : Answer := .next (s.opcodeRow f 0x02 planMatmulList noLaunch)

/-- CONV (R187 to R193). -/
def execConv (f : From) (s : State) : Answer := .next (s.opcodeRow f 0x03 planConv noLaunch)

/-- POOL (R194, R195). -/
def execPool (f : From) (s : State) : Answer := .next (s.opcodeRow f 0x04 planPool noLaunch)

/-- RESAMPLE (R196). -/
def execResample (f : From) (s : State) : Answer := .next (s.opcodeRow f 0x05 planResample noLaunch)

/-- ATTEND (R201 to R222). -/
def execAttend (f : From) (s : State) : Answer := .next (s.opcodeRow f 0x06 (withFuse planAttend) launchAttend)

/-- NORM (R197 to R199). -/
def execNorm (f : From) (s : State) : Answer := .next (s.opcodeRow f 0x07 planNorm noLaunch)

/-- CHAIN (R178). -/
def execChain (f : From) (s : State) : Answer := .next (s.opcodeRow f 0x08 planChain noLaunch)

/-- GATHER (R179). -/
def execGather (f : From) (s : State) : Answer := .next (s.opcodeRow f 0x09 planGather noLaunch)

/-- SCATTER_ORDERED (R179). -/
def execScatterOrdered (f : From) (s : State) : Answer := .next (s.opcodeRow f 0x0A planScatter noLaunch)

/-- DISTANCE (R180). -/
def execDistance (f : From) (s : State) : Answer := .next (s.opcodeRow f 0x0B planDistance noLaunch)

/-- COPY (R138). -/
def execCopy (f : From) (s : State) : Answer := .next (s.opcodeRow f 0x40 planCopy noLaunch)

/-- FILL (R138). -/
def execFill (f : From) (s : State) : Answer := .next (s.opcodeRow f 0x41 planFill noLaunch)

/-- TOKEN_SAMPLE (R277 to R281). -/
def execTokenSample (f : From) (s : State) : Answer := .next (s.opcodeRow f 0x13 planTokens noLaunch)

/-- NOISE (R271 to R276). -/
def execNoise (f : From) (s : State) : Answer := .next (s.opcodeRow f 0x14 planNoise noLaunch)

/-! ## Posts and marks -/

/-- POST_WAIT (R365): its header's waits are all it does. -/
def execPostWait (f : From) (s : State) : Answer := .next (s.opcodeRow f 0x50 (planHeader 88) noLaunch)

/-- POST_SIGNAL (R365): its header's signal is all it does. -/
def execPostSignal (f : From) (s : State) : Answer := .next (s.opcodeRow f 0x51 (planHeader 88) noLaunch)

/-- MARK (R511). -/
def execMark (f : From) (s : State) : Answer := .next (s.opcodeRow f 0x7F (planHeader 96) noLaunch)

/-! ## Steps, entries and hand-off (chapter 09) -/

/-- STEP (R237, R238). -/
def execStep (f : From) (s : State) : Answer := .next (s.opcodeRow f 0x10 planStep launchStep)

/-- STEP_SELECT: Select to Lay out (R238 to R241). -/
def execStepSelect (run : Nat) (s : State) : Answer := .next (s.stepSelect run)

/-- STEP_COMMIT (R242 to R250): the held copies, the returned stalls and the retirements of the boundary with it. -/
def execStepCommit (run : Nat) (s : State) : Answer := .next (s.stepCommit run).staticCheck

/-- ADMIT (R252, R253). -/
def execAdmitEntries (f : From) (s : State) : Answer := .next (s.opcodeRow f 0x11 planAdmit launchAdmit)

/-- RETIRE (R254). -/
def execRetire (f : From) (s : State) : Answer := .next (s.opcodeRow f 0x12 planRetire launchRetire)

/-- HANDOFF_BATCH_START (R255). -/
def execHandoffBatchStart (run : Nat) (s : State) : Answer := .next (s.handoffStart run)

/-- HANDOFF_BATCH_COMPLETE (R256). -/
def execHandoffBatchComplete (run : Nat) (s : State) : Answer := .next (s.handoffComplete run).staticCheck

/-! ## Collectives, PUT and the codec engines -/

/-- COLLECTIVE (R376 to R384). -/
def execCollective (f : From) (s : State) : Answer := .next (s.opcodeRow f 0x20 planCollective launchCollective)

/-- PUT (R370). -/
def execPut (f : From) (s : State) : Answer := .next (s.opcodeRow f 0x21 planPut launchPut)

/-- ENCODE, a frame (R286 to R302). -/
def execEncodeFrame (f : From) (s : State) : Answer :=
  .next (s.beginRow f (fun b => opcodeOf b == 0x30 && !encodeReleases b) planEncode launchEncode).staticCheck

/-- ENCODE_BUFFER_REQUEST (R303). -/
def execEncodeBufferRequest (cmd : Nat) (s : State) : Answer := .next (s.bufferRequest cmd)

/-- CODEC_FRAME_COMPLETE (R304, R305, R306 to R315). -/
def execCodecFrameComplete (cmd : Nat) (s : State) : Answer := .next (s.frameComplete cmd)

/-- ENCODE with RELEASE: held buffers return to the pool (R304). -/
def execEncodeRelease (f : From) (s : State) : Answer :=
  .next (s.beginRow f (fun b => opcodeOf b == 0x30 && encodeReleases b) planRelease launchRelease).staticCheck

/-- DECODE (R306 to R315). -/
def execDecode (f : From) (s : State) : Answer := .next (s.opcodeRow f 0x31 planDecode launchDecode)

/-- COMMAND_COMPLETE (R131). -/
def execCommandComplete (cmd paddockBytes hbmBytes : Nat) (s : State) : Answer := .next (s.complete cmd paddockBytes hbmBytes).staticCheck

end Sys2Proof.Machine
end

