-- ==== Sys2Proof/Machine/RowsTiles.lean ====
section
/-! DEFINITION. The meanings of the rows of tiles, stables, memory errors and faults (chapters 02, 04, 06, 14 and 19). -/

namespace Sys2Proof.Machine

/-- SHADOW_SWAP (R25). -/
def execShadowSwap (cmd tile : Nat) (s : State) : Answer := .next (s.shadowSwap cmd tile)

/-- TILE_COMMIT (R39, R40). -/
def execTileCommit (cmd tile ns : Nat) (s : State) : Answer := .next (s.tileCommit cmd tile ns)

/-- PARTIAL_STORE_GRANT (R158, R182). -/
def execPartialStoreGrant (cmd tile : Nat) (s : State) : Answer := .next (s.partialGrant cmd tile)

/-- COLLECTIVE_STAGING_GRANT (R379). -/
def execCollectiveStagingGrant (cmd chunk : Nat) (s : State) : Answer := .next (s.stagingGrant cmd chunk)

/-- RESIDUE_MISMATCH (R42, R482): the first in a tile replays it; one in the replay retires the stable. -/
def execResidueMismatch (cmd tile ns : Nat) (s : State) : Answer := .next (s.residueMismatch cmd tile ns).staticCheck

/-- WALKER_WATCHDOG_EXPIRE (R42). -/
def execWalkerWatchdogExpire (stable : Fin 136) (ns : Nat) (s : State) : Answer := .next (s.watchdog stable.val ns).staticCheck

/-- SPARE_ACTIVATE (R43, R48). -/
def execSpareActivate (quarter : Fin 8) (passed : Bool) (s : State) : Answer := .next (s.spareActivate quarter.val passed).staticCheck

/-- QUARTER_OUT_OF_SERVICE (R485). -/
def execQuarterOutOfService (quarter : Fin 8) (s : State) : Answer := .next (s.quarterOut quarter.val).staticCheck

/-- QUARTER_SCRUB_COMPLETE (R488). -/
def execQuarterScrubComplete (paddock : Bool) (unit : Fin 136) (passed : Bool) (s : State) : Answer :=
  .next (s.scrubDone (if paddock then 1 else 0) unit.val passed).staticCheck

/-- ECC_CORRECTED (R109, R483). -/
def execEccCorrected (site : EccSite) (due : Bool) (s : State) : Answer := .next (s.eccCorrected site due)

/-- ECC_UNCORRECTABLE (R110 to R112, R484, R490). -/
def execEccUncorrectable (site : BadSite) (due : Bool) (s : State) : Answer := .next (s.eccBad site due).staticCheck

/-- PATROL_SCRUB_TICK (R109). -/
def execPatrolScrubTick (find : Option (EccSite × Bool)) (due : Bool) (s : State) : Answer := .next (s.patrol find due)

/-- CODEC_SELF_CHECK_FAIL (R492). -/
def execCodecSelfCheckFail (engine : Fin 6) (s : State) : Answer := .next (s.selfCheckFail engine.val)

/-- DEVICE_FATAL_FAULT (R493). -/
def execDeviceFatalFault (code source unit : Nat) (s : State) : Answer := .next (s.deviceFatal code source unit)

end Sys2Proof.Machine
end

