-- ==== Sys2Proof/Machine/RowsRegisters.lean ====
section
/-! DEFINITION. The meanings of the rows of the registers of the BARs (R121 to R124, R142 to R146) and of a function's reset (R387). -/

namespace Sys2Proof.Machine

/-- SQ_TAIL_WRITE (R122, R124). -/
def execSqTailWrite (function : Fin 256) (queue : Fin 8194) (value : Nat) (s : State) : Answer :=
  .next (s.sqTailWrite function.val queue.val value)

/-- CQ_HEAD_WRITE (R122, R124). -/
def execCqHeadWrite (function : Fin 256) (queue : Fin 8194) (value : Nat) (s : State) : Answer :=
  .next (s.cqHeadWrite function.val queue.val value)

/-- ADMIN_MBX_DOORBELL (R143). -/
def execAdminMbxDoorbell (value : Nat) (s : State) : Answer := .next (s.adminDoorbell value)

/-- TENANT_MBX_DOORBELL (R143). -/
def execTenantMbxDoorbell (function : Fin 256) (tenant : Fin 1024) (value : Nat) (s : State) : Answer :=
  .next (s.tenantDoorbell function.val tenant.val value)

/-- TENANT_EVENTS_CLEAR (R146). -/
def execTenantEventsClear (function : Fin 256) (tenant : Fin 1024) (value : Nat) (s : State) : Answer :=
  .next (s.tenantEventsClear function.val tenant.val value)

/-- EVQ_CTRL_WRITE (R123). -/
def execEvqCtrlWrite (value : Nat) (s : State) : Answer := .next (s.evqCtrlWrite value)

/-- EVQ_HEAD_WRITE (R123). -/
def execEvqHeadWrite (value : Nat) (s : State) : Answer := .next (s.evqHeadWrite value)

/-! ## Any register by its offset -/

/-- A write of `size` bytes in BAR0 of the physical function (Table 05-4). -/
def State.bar0Write (s : State) (off size v : Nat) : State :=
  if 0x1000 ≤ off ∧ off < 0x2000 then (if s.pcieUp then s.setAdminMbx (s.regs.adminMbx.put (off - 0x1000) size v) else s)
  else if size ≠ 4 then s
  else match off with
    | 0x0010 => s.adminDoorbell v
    | 0x0020 => s.evqBaseLoWrite v
    | 0x0024 => s.evqBaseHiWrite v
    | 0x0028 => s.evqCtrlWrite v
    | 0x002C => s.evqHeadWrite v
    | 0x0100 => s.sqTailWrite 0 8192 v
    | 0x0108 => s.cqHeadWrite 0 8192 v
    | 0x0140 => s.sqTailWrite 0 8193 v
    | 0x0148 => s.cqHeadWrite 0 8193 v
    | _ => s

/-- A write in the page of tenant t (Table 05-3). -/
def State.pageWrite (s : State) (f t off size v : Nat) : State :=
  if !s.pageLive f t then s
  else if 0x800 ≤ off ∧ off < 0xC00 then s.setTenantMbx t ((s.tenantMbx t).put (off - 0x800) size v)
  else if size ≠ 4 then s
  else if off < 0x200 then
    (if off % 0x40 = 0 then s.sqTailWrite f (8 * t + off / 0x40) v else if off % 0x40 = 8 then s.cqHeadWrite f (8 * t + off / 0x40) v else s)
  else if off = 0x200 then s.tenantDoorbell f t v
  else if off = 0x210 then s.tenantEventsClear f t v
  else s

/-- A write of any register: a size or an offset no register takes is ignored (R122). -/
def State.registerWrite (s : State) (f bar off size v : Nat) : State :=
  if bar = 0 then (if f = 0 then s.bar0Write off size v else s)
  else if bar = 2 then s.pageWrite f (off / 4096) (off % 4096) size v
  else if bar = 4 then s.bar4Write f off size v
  else s

/-- REGISTER_WRITE (R121 to R123). -/
def execRegisterWrite (function : Fin 256) (bar offset size value : Nat) (s : State) : Answer :=
  .next (s.registerWrite function.val bar offset size value)

/-! ## Interrupts and events -/

/-- IRQ_DELAY_EXPIRE (R142). -/
def execIrqDelayExpire (queue : Fin 8194) (s : State) : Answer := .next (s.irqDelayExpire queue.val)

/-- EVENT_OVERFLOW_RECORD (R144). -/
def execEventOverflowRecord (s : State) : Answer := .next s.overflowRecord

/-- FUNCTION_LEVEL_RESET (R387). -/
def execFunctionLevelReset (function : Fin 256) (s : State) : Answer := .next (s.functionReset function.val)

end Sys2Proof.Machine
end

