-- ==== Sys2Proof/Machine/RowsTack.lean ====
section
/-! DEFINITION. The meanings of the rows of the Tack engine (R422 to R437) and of enumeration on the Halter bus (R427 to R430). -/

namespace Sys2Proof.Machine

/-- TACK_READ (R422): values as applied; a READ under a handle reads the applied values too. -/
def execTackRead (via : Via) (message : List Byte) (s : State) : Answer := .next (s.tackRow 0x01 via message)

/-- TACK_WRITE (R423 to R425, R431). -/
def execTackWrite (via : Via) (message : List Byte) (s : State) : Answer := .next (s.tackRow 0x02 via message)

/-- TX_BEGIN (R431). -/
def execTxBegin (via : Via) (message : List Byte) (s : State) : Answer := .next (s.tackRow 0x10 via message)

/-- TX_COMMIT (R433, R435). -/
def execTxCommit (via : Via) (message : List Byte) (late : Bool) (s : State) : Answer := .next (s.commitRow late via message)

/-- TX_COMMIT_APPLY (R434). -/
def execTxCommitApply (master : Fin 2) (s : State) : Answer := .next (s.commitApply master.val)

/-- TX_QUIESCENCE_TIMEOUT (R434). -/
def execTxQuiescenceTimeout (master : Fin 2) (s : State) : Answer := .next (s.commitTimeout master.val)

/-- TX_ROLLBACK (R435). -/
def execTxRollback (via : Via) (message : List Byte) (s : State) : Answer := .next (s.tackRow 0x12 via message)

/-- TX_EXPIRE (R435). -/
def execTxExpire (master : Fin 2) (s : State) : Answer := .next (s.txExpire master.val)

/-- ENUM_OFFER (R429). -/
def execEnumOffer (message : List Byte) (s : State) : Answer := .next (s.enumOffer message)

/-- ENUM_CONFIRM (R428, R429). -/
def execEnumConfirm (source : Nat) (message : List Byte) (s : State) : Answer := .next (s.enumConfirm source message)

/-- ENUM_CONFIRM_TIMEOUT (R429). -/
def execEnumConfirmTimeout (s : State) : Answer := .next s.enumTimeout

/-- LEAD_IN_HIGH (R429). -/
def execLeadInHigh (s : State) : Answer := .next s.leadInHigh

/-- HALTER_BEACON_LOSS (R427). -/
def execHalterBeaconLoss (s : State) : Answer := .next (s.setBeacon false)

/-- HALTER_BEACON_RESUME (R427). -/
def execHalterBeaconResume (s : State) : Answer := .next (s.setBeacon true)

end Sys2Proof.Machine
end

