-- ==== Sys2Proof/Machine/RowsObjects.lean ====
section
/-! DEFINITION. The meanings of the rows that are a write of one object of the dictionary (chapters 16 and 17), and of those that end what such
a write began. Each write is one WRITE item under the checks of Table 16-7; its status and write-sequence number go to `answers`. -/

namespace Sys2Proof.Machine

/-- HALTER_RELEASE (R430). -/
def execHalterRelease (via : Via) (value : Nat) (s : State) : Answer := .next (s.viaWrite via oHalterRelease value)

/-! ## Memory (R93 to R105) -/

/-- PADDOCK_ALLOCATE (R96, R97): a request whose operation is not a free. -/
def execPaddockAllocate (via : Via) (tenant : Fin 1024) (value : Nat) (s : State) : Answer :=
  .next (if padOp value = 2 then s else s.viaWrite via (oTenantPaddockRequest tenant.val) value)

/-- PADDOCK_ALLOCATE_RESULT (R99); messages that waited for it are served (R425). -/
def execPaddockAllocateResult (tenant : Fin 1024) (s : State) : Answer := .next (s.paddockAllocated tenant.val).wakeMsgs

/-- PADDOCK_FREE (R98). -/
def execPaddockFree (via : Via) (tenant : Fin 1024) (value : Nat) (s : State) : Answer :=
  .next (if padOp value = 2 then s.viaWrite via (oTenantPaddockRequest tenant.val) value else s)

/-- PADDOCK_FREE_RESULT (R98). -/
def execPaddockFreeResult (tenant : Fin 1024) (s : State) : Answer := .next (s.paddockFreed tenant.val).wakeMsgs

/-- HBM_FRAME_ASSIGN (R101): a request whose operation is not a release. -/
def execHbmFrameAssign (via : Via) (value : Nat) (s : State) : Answer :=
  .next (if frOp value = 2 then s else s.viaWrite via oHbmFrameRequest value)

/-- HBM_FRAME_ASSIGN_RESULT (R101). -/
def execHbmFrameAssignResult (s : State) : Answer := .next s.framesAssigned.wakeMsgs

/-- HBM_FRAME_RELEASE (R101). -/
def execHbmFrameRelease (via : Via) (value : Nat) (s : State) : Answer :=
  .next (if frOp value = 2 then s.viaWrite via oHbmFrameRequest value else s)

/-- HBM_FRAME_RELEASE_RESULT (R101). -/
def execHbmFrameReleaseResult (s : State) : Answer := .next s.framesReleased.wakeMsgs

/-- TENANT_TLB_INVALIDATE (R105). -/
def execTenantTlbInvalidate (via : Via) (tenant : Fin 1024) (value : Nat) (s : State) : Answer :=
  .next (s.viaWrite via (oTenantTlbInvalidate tenant.val) value)

/-- TLB_INVALIDATE_COMPLETE (R105). -/
def execTlbInvalidateComplete (tenant : Fin 1024) (s : State) : Answer := .next (s.tlbInvalidated tenant.val)

/-! ## Queues (R119, R120) -/

/-- QUEUE_ENABLE: a configuration with ENABLE set. -/
def execQueueEnable (via : Via) (queue : Fin 8194) (value : Nat) (s : State) : Answer :=
  .next (if cfgEnable value then s.viaWrite via (queueKey queue.val) value else s)

/-- QUEUE_DISABLE: a configuration with ENABLE clear. -/
def execQueueDisable (via : Via) (queue : Fin 8194) (value : Nat) (s : State) : Answer :=
  .next (if cfgEnable value then s else s.viaWrite via (queueKey queue.val) value)

/-- QUEUE_DRAIN_COMPLETE. -/
def execQueueDrainComplete (queue : Fin 8194) (s : State) : Answer := .next (s.queueDrained queue.val)

/-! ## Flags, probes and reads -/

/-- STABLE_FLAGS_CLEAR (R83). -/
def execStableFlagsClear (via : Via) (value : Nat) (s : State) : Answer := .next (s.viaWrite via oStableFlagsClear value)

/-- TENANT_FLAGS_CLEAR (R84): a write of TENANT_FLAGS. -/
def execTenantFlagsClear (via : Via) (tenant : Fin 1024) (value : Nat) (s : State) : Answer := .next (s.viaWrite via (oTenantFlags tenant.val) value)

/-- SPARE_AUTO_ACTIVATE_WRITE (R48). -/
def execSpareAutoActivateWrite (via : Via) (value : Nat) (s : State) : Answer := .next (s.viaWrite via oSpareAutoActivate value)

/-- TENANT_REMUDA_READ_REQ (R261). -/
def execTenantRemudaReadReq (via : Via) (tenant : Fin 1024) (value : Nat) (s : State) : Answer :=
  .next (s.viaWrite via (oTenantRemudaReadReq tenant.val) value)

/-- RNG_PROBE_REQUEST (R282). -/
def execRngProbeRequest (via : Via) (value : Nat) (s : State) : Answer := .next (s.viaWrite via oRngProbeRequest value)

/-- TENANT_POST_READ_REQ (R385). -/
def execTenantPostReadReq (via : Via) (tenant : Fin 1024) (value : Nat) (s : State) : Answer :=
  .next (s.viaWrite via (oTenantPostReadReq tenant.val) value)

/-- TENANT_ATTRIB_READ_REQ (R501). -/
def execTenantAttribReadReq (via : Via) (tenant : Fin 1024) (value : Nat) (s : State) : Answer :=
  .next (s.viaWrite via (oTenantAttribReadReq tenant.val) value)

/-- TENANT_ATTRIB_QUOTA (R499). -/
def execTenantAttribQuota (via : Via) (tenant : Fin 1024) (value : Nat) (s : State) : Answer :=
  .next (s.viaWrite via (oTenantAttribQuota tenant.val) value)

/-- LOG_READ_REQ (R463). -/
def execLogReadReq (via : Via) (value : Nat) (s : State) : Answer := .next (s.viaWrite via oLogReadReq value)

/-! ## Tenants (chapter 15) -/

/-- TENANT_ENABLE (R386). -/
def execTenantEnable (via : Via) (tenant : Fin 1024) (value : Nat) (s : State) : Answer := .next (s.viaWrite via (oTenantEnable tenant.val) value)

/-- TENANT_POST_RANGE (R364). -/
def execTenantPostRange (via : Via) (tenant : Fin 1024) (value : Nat) (s : State) : Answer := .next (s.viaWrite via (oTenantPostRange tenant.val) value)

/-- TENANT_RESET (R406). -/
def execTenantReset (via : Via) (tenant : Fin 1024) (value : Nat) (s : State) : Answer := .next (s.viaWrite via (oTenantReset tenant.val) value)

/-- TENANT_RESET_COMPLETE (R406). -/
def execTenantResetComplete (tenant : Fin 1024) (spent : List (Nat × Nat)) (s : State) : Answer := .next (s.resetComplete tenant.val spent).staticCheck

/-- TENANT_HOLD (R397). -/
def execTenantHold (via : Via) (tenant : Fin 1024) (value : Nat) (s : State) : Answer := .next (s.viaWrite via (oTenantHold tenant.val) value)

/-- TENANT_DISMOUNTED (R403). -/
def execTenantDismounted (tenant : Fin 1024) (ns : Nat) (spent : List (Nat × Nat)) (s : State) : Answer :=
  .next (s.dismounted tenant.val ns spent).staticCheck

/-- TENANT_RESUME (R405). -/
def execTenantResume (tenant : Fin 1024) (ns : Nat) (s : State) : Answer := .next (s.resumed tenant.val ns).staticCheck

/-- PREEMPT_OVERRUN (R404). -/
def execPreemptOverrun (tenant : Fin 1024) (s : State) : Answer := .next (s.overrun tenant.val)

/-! ## Time (R410 to R413) -/

/-- CAROUSEL_SLOT_BOUNDARY (R410, R411). -/
def execCarouselSlotBoundary (s : State) : Answer := .next s.slotBoundary.staticCheck

/-- TIME_MASTER_TICK (R412). -/
def execTimeMasterTick (phase : Nat) (s : State) : Answer := .next (s.masterTick phase)

/-- LINK_DELAY_MEASURE (R412). -/
def execLinkDelayMeasure (port : Fin 16) (ns : Nat) (s : State) : Answer := .next (s.delayMeasured port.val ns)

/-- TIME_SOURCE_LOSS (R413). -/
def execTimeSourceLoss (s : State) : Answer := .next s.timeLost

/-! ## Observation and debug (chapters 12 and 20) -/

/-- SPUR_ENABLE (R329). -/
def execSpurEnable (via : Via) (value : Nat) (s : State) : Answer := .next (s.viaWrite via oSpurEnable value)

/-- SPUR_PRODUCTION_LOCK (R330). -/
def execSpurProductionLock (via : Via) (value : Nat) (s : State) : Answer := .next (s.viaWrite via oSpurProductionLock value)

/-- TRACE_ENABLE (R508). -/
def execTraceEnable (via : Via) (value : Nat) (s : State) : Answer := .next (s.viaWrite via oTraceEnable value)

/-- TRACE_FRAME_SEND (R510). -/
def execTraceFrameSend (due : Bool) (s : State) : Answer := .next (s.traceFrameSend due)

/-- UTILISATION_WINDOW (R497). -/
def execUtilisationWindow (quarters ports : List Nat) (whole : List Bool) (s : State) : Answer := .next (s.utilisation quarters ports whole)

/-- HANG_STALL_DETECT (R512 to R515). -/
def execHangStallDetect (stream : From) (others : List From) (s : State) : Answer := .next (s.hangDetect stream others)

/-- HANG_REPLY_TIMEOUT (R514). -/
def execHangReplyTimeout (analysis : Nat) (s : State) : Answer := .next (s.hangTimeout analysis)

/-! ## Firmware (R459) -/

/-- FW_STAGE_BEGIN: command 1. -/
def execFwStageBegin (via : Via) (s : State) : Answer := .next (s.viaWrite via oFwStageCommand 1)

/-- FW_STAGE_CHUNK. -/
def execFwStageChunk (via : Via) (value : Nat) (s : State) : Answer := .next (s.viaWrite via oFwStageChunk value)

/-- FW_STAGE_VERIFY: command 2; a service record that verifies is applied (R462). -/
def execFwStageVerify (via : Via) (s : State) : Answer := .next (s.viaWrite via oFwStageCommand 2)

/-- FW_STAGE_ACTIVATE: command 3. -/
def execFwStageActivate (via : Via) (s : State) : Answer := .next (s.viaWrite via oFwStageCommand 3)

/-- FW_STAGE_ABANDON: command 4. -/
def execFwStageAbandon (via : Via) (s : State) : Answer := .next (s.viaWrite via oFwStageCommand 4)

/-- FW_STAGE_TIMEOUT. -/
def execFwStageTimeout (s : State) : Answer := .next s.stageTimeout

/-! ## The Ostler's other objects -/

/-- STABLE_RETIRE_REQUEST (R487). -/
def execStableRetireRequest (via : Via) (value : Nat) (s : State) : Answer := .next (s.viaWrite via oStableRetireRequest value)

/-- MAIN_RAILS_COMMAND (R476). -/
def execMainRailsCommand (via : Via) (value : Nat) (s : State) : Answer := .next (s.viaWrite via oMainRailsCommand value)

/-- GAIT_CEILING_WRITE (R465). -/
def execGaitCeilingWrite (via : Via) (value : Nat) (s : State) : Answer := .next (s.viaWrite via oGaitCeiling value)

/-- LINK_ENABLE_WRITE (R363). -/
def execLinkEnableWrite (via : Via) (port : Fin 16) (value : Nat) (s : State) : Answer := .next (s.viaWrite via (oLinkEnable port.val) value)

/-- LINEAGE_PORT_MODE_WRITE (R359). -/
def execLineagePortModeWrite (via : Via) (port : Fin 2) (value : Nat) (s : State) : Answer := .next (s.viaWrite via (oLineagePortMode port.val) value)

/-- TOPO_BOROUGH_NUMBER_WRITE (R341). -/
def execTopoBoroughNumberWrite (via : Via) (value : Nat) (s : State) : Answer := .next (s.viaWrite via oTopoBoroughNumber value)

end Sys2Proof.Machine
end

