-- ==== Sys2Proof/Machine/RowsPower.lean ====
section
/-! DEFINITION. The meanings of the rows of power, clocks, resets and gaits (chapters 18 and 22). -/

namespace Sys2Proof.Machine

/-! ## Power-up and resets -/

/-- OSTLER_BOOT (R455 to R458, R488). -/
def execOstlerBoot (fails millivolts : Nat) (s : State) : Answer := .next (s.ostlerBoot fails millivolts)

/-- MAIN_RAILS_GOOD (R532). -/
def execMainRailsGood (s : State) : Answer := .next s.railsGood

/-- ROOT_PLL_LOCK (R530, R488). -/
def execRootPllLock (s : State) : Answer := .next s.pllLock

/-- HBM_TRAINING_COMPLETE (R532). -/
def execHbmTrainingComplete (s : State) : Answer := .next s.hbmTrained

/-- PCIE_LINK_UP (R532). -/
def execPcieLinkUp (s : State) : Answer := .next s.pcieLinkUp

/-- PERST_ASSERT (R535, R536, R538). -/
def execPerstAssert (s : State) : Answer := .next s.perstAssert.staticCheck

/-- PERST_SCRUB_COMPLETE (R536). -/
def execPerstScrubComplete (s : State) : Answer := .next s.perstScrubbed

/-- PERST_DEASSERT (R536). -/
def execPerstDeassert (s : State) : Answer := .next s.perstDeassert

/-- MRST_ASSERT (R537). -/
def execMrstAssert (s : State) : Answer := .next s.mrstAssert

/-- MRST_DEASSERT (R537). -/
def execMrstDeassert (fails millivolts : Nat) (s : State) : Answer := .next (s.mrstDeassert fails millivolts)

/-- STANDBY_POWER_LOSS (R452). -/
def execStandbyPowerLoss (s : State) : Answer := .next s.standbyLoss

/-! ## `REIN_n` (R467) -/

/-- REIN_ASSERT. -/
def execReinAssert (late : Bool) (s : State) : Answer := .next (s.reinAssert late)

/-- REIN_DEASSERT. -/
def execReinDeassert (s : State) : Answer := .next s.reinDeassert

/-- REIN_HOLD_EXPIRE. -/
def execReinHoldExpire (s : State) : Answer := .next s.reinExpire

/-! ## Input, trips and clocks -/

/-- INPUT_VOLTAGE_EXCURSION (R474). -/
def execInputVoltageExcursion (millivolts : Nat) (s : State) : Answer := .next (s.inputOut millivolts)

/-- INPUT_VOLTAGE_RECOVER (R474, R532). -/
def execInputVoltageRecover (millivolts : Nat) (s : State) : Answer := .next (s.inputBack millivolts).railsAwaited

/-- TRIP (R474, R475). -/
def execTrip (cause : Nat) (s : State) : Answer := .next (s.trip cause)

/-- LOCKSTEP_MISMATCH (R453). -/
def execLockstepMismatch (s : State) : Answer := .next s.lockstep

/-- REFCLK_LOSS (R531). -/
def execRefclkLoss (s : State) : Answer := .next s.refclkLoss

/-- ROOT_PLL_LOCK_LOSS (R531). -/
def execRootPllLockLoss (s : State) : Answer := .next s.pllLoss

/-- REFCLK_RESTORE (R531). -/
def execRefclkRestore (fails millivolts : Nat) (s : State) : Answer := .next (s.refclkRestore fails millivolts)

/-- SREFCLK_LOSS (R531). -/
def execSrefclkLoss (s : State) : Answer := .next s.srefclkLoss

/-- SREFCLK_RESTORE (R531). -/
def execSrefclkRestore (s : State) : Answer := .next s.srefclkRestore

/-! ## Gaits -/

/-- POWER_GAIT_TICK (R472). -/
def execPowerGaitTick (watts millivolts : Nat) (due : Bool) (s : State) : Answer := .next (s.powerTick watts millivolts due)

/-- POWER_GAIT_RAISE (R472). -/
def execPowerGaitRaise (s : State) : Answer := .next s.powerRaise

/-- POWER_WALK_STALL (R472). -/
def execPowerWalkStall (s : State) : Answer := .next s.powerStall

/-- THERMAL_GAIT_TICK (R473). -/
def execThermalGaitTick (points hbm : List Int) (s : State) : Answer := .next (s.thermalTick points hbm)

/-- THERMAL_GAIT_RAISE (R473). -/
def execThermalGaitRaise (s : State) : Answer := .next s.thermalRaise

/-- GAIT_UP_COMPLETE (R466). -/
def execGaitUpComplete (s : State) : Answer := .next s.gaitUp

/-- COOLANT_SAMPLE (R474). -/
def execCoolantSample (inlet outlet : Int) (s : State) : Answer := .next (s.coolant inlet outlet)

/-! ## Quarters -/

/-- DROOP_DETECT (R470). -/
def execDroopDetect (quarter : Fin 8) (s : State) : Answer := .next (s.droop quarter.val)

/-- DROOP_STRETCH_END (R470). -/
def execDroopStretchEnd (quarter : Fin 8) (s : State) : Answer := .next (s.droopEnd quarter.val)

/-- CANARY_LOW_MARGIN (R469). -/
def execCanaryLowMargin (quarter : Fin 8) (failure : Bool) (s : State) : Answer := .next (s.canaryLow quarter.val failure)

/-- VOLTAGE_STEP_DOWN_TICK (R469). -/
def execVoltageStepDownTick (quarter : Fin 8) (s : State) : Answer := .next (s.stepDown quarter.val)

/-- QUARTER_COOLING_ENTER (R471). -/
def execQuarterCoolingEnter (quarter : Fin 8) (s : State) : Answer := .next (s.coolingEnter quarter.val)

/-- QUARTER_COOLING_LEAVE (R471). -/
def execQuarterCoolingLeave (quarter : Fin 8) (s : State) : Answer := .next (s.coolingLeave quarter.val)

/-- LOG_FLUSH (R464). -/
def execLogFlush (s : State) : Answer := .next s.logFlush

end Sys2Proof.Machine
end

