-- ==== Sys2Proof/Machine/RowsLinks.lean ====
section
/-! DEFINITION. The meanings of the rows of links, packets, end-to-end streams and lineage ports (chapters 13, 14, 15 and 20). A row of one
packet type takes no other. -/

namespace Sys2Proof.Machine

/-! ## Ports -/

/-- LINK_TRAINING (R336 to R340). -/
def execLinkTraining (port : Fin 16) (ok : Bool) (s : State) : Answer := .next (s.linkTraining port.val ok)

/-- LINK_TRAIN_RETRY_TIMER (R340). -/
def execLinkTrainRetryTimer (port : Fin 16) (s : State) : Answer := .next (s.trainRetry port.val)

/-- DISCOVERY_RECEIVE (R341). -/
def execDiscoveryReceive (port : Fin 16) (packet : Packet) (s : State) : Answer := .next (s.discovered port.val packet)

/-- PORT_SIGNAL_LOSS (R355): cause 0 of event 0x0201. -/
def execPortSignalLoss (port : Fin 18) (s : State) : Answer := .next (s.portLost port.val 0)

/-- PORT_FLIT_TIMEOUT (R355): cause 1. -/
def execPortFlitTimeout (port : Fin 18) (s : State) : Answer := .next (s.portLost port.val 1)

/-- FLIT_RECEIVE (R345 to R348). -/
def execFlitReceive (port : Fin 16) (flit : List Byte) (corrected : Nat) (s : State) : Answer := .next (s.flitReceived port.val flit corrected)

/-- LINK_ACK_TIMER (R347). -/
def execLinkAckTimer (port : Fin 16) (s : State) : Answer := .next (s.linkAckTimer port.val)

/-- LINK_REPLAY_TIMEOUT (R347). -/
def execLinkReplayTimeout (port : Fin 16) (s : State) : Answer := .next (s.replayTimeout port.val)

/-- SYMBOL_ERROR_RATIO_EXCEED (R342). -/
def execSymbolErrorRatioExceed (port : Fin 16) (s : State) : Answer := .next (s.symbolErrors port.val)

/-- PACKET_FORWARD (R352 to R357). -/
def execPacketForward (port : Fin 16) (packet : Packet) (s : State) : Answer := .next (s.transit port.val packet)

/-- LINK_STATE_ADVERTISEMENT_RECEIVE (R344, R373). -/
def execLinkStateAdvertisementReceive (port : Fin 16) (packet : Packet) (s : State) : Answer := .next (s.lsaReceived port.val packet)

/-- LINK_PARAMETERS_RECEIVE (R344). -/
def execLinkParametersReceive (port : Fin 16) (packet : Packet) (s : State) : Answer := .next (s.paramsReceived port.val packet)

/-- TIME_PACKET_RECEIVE (R412). -/
def execTimePacketReceive (port : Fin 16) (packet : Packet) (phase : Nat) (s : State) : Answer := .next (s.timeReceived port.val packet phase)

/-! ## Packets addressed to this device -/

def Packet.subscribes (k : Packet) : Bool := match k.body with | .subscribe _ _ _ _ => true | _ => false
def Packet.aborts (k : Packet) : Bool := match k.body with | .abort _ _ _ => true | _ => false

/-- WRITE_PACKET_RECEIVE (R370). -/
def execWritePacketReceive (packet : Packet) (s : State) : Answer := .next (s.receiveTyped [1] packet)

/-- READ_REQUEST_RECEIVE (R379, R380). -/
def execReadRequestReceive (packet : Packet) (s : State) : Answer := .next (s.receiveTyped [2] packet)

/-- READ_RESPONSE_RECEIVE (R379, R380). -/
def execReadResponseReceive (packet : Packet) (s : State) : Answer := .next (s.receiveTyped [3] packet)

/-- POST_UPDATE_RECEIVE (R322, R365 to R368, R370). -/
def execPostUpdateReceive (packet : Packet) (s : State) : Answer := .next (if packet.subscribes then s else s.receiveTyped [4] packet)

/-- SUBSCRIPTION_RECEIVE (R367). -/
def execSubscriptionReceive (packet : Packet) (s : State) : Answer := .next (if packet.subscribes then s.receiveTyped [4] packet else s)

/-- SUBSCRIPTION_RETRY (R367). -/
def execSubscriptionRetry (waiter : Nat) (s : State) : Answer := .next (s.resubscribe waiter)

/-- COLLECTIVE_REQUEST_RETRY (R380). -/
def execCollectiveRequestRetry (cmd : Nat) (s : State) : Answer := .next (s.collRetry cmd)

/-- COLLECTIVE_ABORT_RECEIVE (R381). -/
def execCollectiveAbortReceive (packet : Packet) (s : State) : Answer := .next (if packet.aborts then s.receiveTyped [5] packet else s)

/-- COLLECTIVE_DATA_RECEIVE (R175, R216, R380). -/
def execCollectiveDataReceive (packet : Packet) (s : State) : Answer := .next (if packet.aborts then s else s.receiveTyped [5] packet)

/-- MANAGEMENT_PACKET_RECEIVE (R513). -/
def execManagementPacketReceive (stalled : List From) (packet : Packet) (s : State) : Answer := .next (s.mgmtReceive stalled packet)

/-! ## End-to-end streams -/

/-- E2E_ACK_RECEIVE (R371, R372). -/
def execE2eAckReceive (packet : Packet) (s : State) : Answer := .next (s.e2eAck packet)

/-- E2E_ACK_TIMER (R371). -/
def execE2eAckTimer (device : Fin 4096) (cls : Fin 4) (s : State) : Answer := .next (s.e2eAckTimer device.val cls.val)

/-- E2E_RETX_TIMER (R372). -/
def execE2eRetxTimer (device : Fin 4096) (cls : Fin 4) (s : State) : Answer := .next (s.e2eRetx device.val cls.val)

/-- E2E_UNREACHABLE_TIMER (R372). -/
def execE2eUnreachableTimer (device : Fin 4096) (s : State) : Answer := .next (s.e2eUnreachable device.val)

/-! ## Lineage ports -/

/-- LINEAGE_TRANSACTION_RECEIVE (R359, R361, R382). -/
def execLineageTransactionReceive (port : Fin 2) (transaction : Thrumyo) (s : State) : Answer := .next (s.lineageTransaction port.val transaction)

/-- LINEAGE_PORT_TRAINING (R359). -/
def execLineagePortTraining (port : Fin 2) (mode node : Nat) (s : State) : Answer := .next (s.lineageTrained port.val mode node)

/-- LINEAGE_RESPONSE_RECEIVE (R370, R382). -/
def execLineageResponseReceive (port : Fin 2) (transaction : Thrumyo) (s : State) : Answer := .next (s.lineageResponse port.val transaction)

end Sys2Proof.Machine
end

