-- ==== Sys2Proof/Machine/Dispatch.lean ====
section
/-! DEFINITION. The meaning of every row: one arm per constructor. -/

namespace Sys2Proof.Machine

open Sys2Proof

def exec (i : Instr) (s : State) : Host.Outcome State Fault Refusal :=
  match i with
  | .matmul stream => Sys2Proof.Machine.execMatmul stream s
  | .matmulList stream => Sys2Proof.Machine.execMatmulList stream s
  | .conv stream => Sys2Proof.Machine.execConv stream s
  | .pool stream => Sys2Proof.Machine.execPool stream s
  | .resample stream => Sys2Proof.Machine.execResample stream s
  | .attend stream => Sys2Proof.Machine.execAttend stream s
  | .norm stream => Sys2Proof.Machine.execNorm stream s
  | .chain stream => Sys2Proof.Machine.execChain stream s
  | .gather stream => Sys2Proof.Machine.execGather stream s
  | .scatterOrdered stream => Sys2Proof.Machine.execScatterOrdered stream s
  | .distance stream => Sys2Proof.Machine.execDistance stream s
  | .step stream => Sys2Proof.Machine.execStep stream s
  | .stepSelect run => Sys2Proof.Machine.execStepSelect run s
  | .stepCommit run => Sys2Proof.Machine.execStepCommit run s
  | .admitEntries stream => Sys2Proof.Machine.execAdmitEntries stream s
  | .retire stream => Sys2Proof.Machine.execRetire stream s
  | .handoffBatchStart run => Sys2Proof.Machine.execHandoffBatchStart run s
  | .handoffBatchComplete run => Sys2Proof.Machine.execHandoffBatchComplete run s
  | .tokenSample stream => Sys2Proof.Machine.execTokenSample stream s
  | .noise stream => Sys2Proof.Machine.execNoise stream s
  | .collective stream => Sys2Proof.Machine.execCollective stream s
  | .put stream => Sys2Proof.Machine.execPut stream s
  | .encodeFrame stream => Sys2Proof.Machine.execEncodeFrame stream s
  | .encodeBufferRequest cmd => Sys2Proof.Machine.execEncodeBufferRequest cmd s
  | .codecFrameComplete cmd => Sys2Proof.Machine.execCodecFrameComplete cmd s
  | .encodeRelease stream => Sys2Proof.Machine.execEncodeRelease stream s
  | .decode stream => Sys2Proof.Machine.execDecode stream s
  | .copy stream => Sys2Proof.Machine.execCopy stream s
  | .fill stream => Sys2Proof.Machine.execFill stream s
  | .postWait stream => Sys2Proof.Machine.execPostWait stream s
  | .postSignal stream => Sys2Proof.Machine.execPostSignal stream s
  | .mark stream => Sys2Proof.Machine.execMark stream s
  | .commandComplete cmd paddockBytes hbmBytes => Sys2Proof.Machine.execCommandComplete cmd paddockBytes hbmBytes s
  | .shadowSwap cmd tile => Sys2Proof.Machine.execShadowSwap cmd tile s
  | .tileCommit cmd tile ns => Sys2Proof.Machine.execTileCommit cmd tile ns s
  | .partialStoreGrant cmd tile => Sys2Proof.Machine.execPartialStoreGrant cmd tile s
  | .collectiveStagingGrant cmd chunk => Sys2Proof.Machine.execCollectiveStagingGrant cmd chunk s
  | .residueMismatch cmd tile ns => Sys2Proof.Machine.execResidueMismatch cmd tile ns s
  | .walkerWatchdogExpire stable ns => Sys2Proof.Machine.execWalkerWatchdogExpire stable ns s
  | .spareActivate quarter passed => Sys2Proof.Machine.execSpareActivate quarter passed s
  | .quarterOutOfService quarter => Sys2Proof.Machine.execQuarterOutOfService quarter s
  | .quarterScrubComplete paddock unit passed => Sys2Proof.Machine.execQuarterScrubComplete paddock unit passed s
  | .eccCorrected site due => Sys2Proof.Machine.execEccCorrected site due s
  | .eccUncorrectable site due => Sys2Proof.Machine.execEccUncorrectable site due s
  | .patrolScrubTick find due => Sys2Proof.Machine.execPatrolScrubTick find due s
  | .codecSelfCheckFail engine => Sys2Proof.Machine.execCodecSelfCheckFail engine s
  | .deviceFatalFault code source unit => Sys2Proof.Machine.execDeviceFatalFault code source unit s
  | .sqTailWrite function queue value => Sys2Proof.Machine.execSqTailWrite function queue value s
  | .cqHeadWrite function queue value => Sys2Proof.Machine.execCqHeadWrite function queue value s
  | .adminMbxDoorbell value => Sys2Proof.Machine.execAdminMbxDoorbell value s
  | .tenantMbxDoorbell function tenant value => Sys2Proof.Machine.execTenantMbxDoorbell function tenant value s
  | .tenantEventsClear function tenant value => Sys2Proof.Machine.execTenantEventsClear function tenant value s
  | .evqCtrlWrite value => Sys2Proof.Machine.execEvqCtrlWrite value s
  | .evqHeadWrite value => Sys2Proof.Machine.execEvqHeadWrite value s
  | .registerWrite function bar offset size value => Sys2Proof.Machine.execRegisterWrite function bar offset size value s
  | .irqDelayExpire queue => Sys2Proof.Machine.execIrqDelayExpire queue s
  | .eventOverflowRecord => Sys2Proof.Machine.execEventOverflowRecord s
  | .functionLevelReset function => Sys2Proof.Machine.execFunctionLevelReset function s
  | .tackRead via message => Sys2Proof.Machine.execTackRead via message s
  | .tackWrite via message => Sys2Proof.Machine.execTackWrite via message s
  | .txBegin via message => Sys2Proof.Machine.execTxBegin via message s
  | .txCommit via message late => Sys2Proof.Machine.execTxCommit via message late s
  | .txCommitApply master => Sys2Proof.Machine.execTxCommitApply master s
  | .txQuiescenceTimeout master => Sys2Proof.Machine.execTxQuiescenceTimeout master s
  | .txRollback via message => Sys2Proof.Machine.execTxRollback via message s
  | .txExpire master => Sys2Proof.Machine.execTxExpire master s
  | .enumOffer message => Sys2Proof.Machine.execEnumOffer message s
  | .enumConfirm source message => Sys2Proof.Machine.execEnumConfirm source message s
  | .enumConfirmTimeout => Sys2Proof.Machine.execEnumConfirmTimeout s
  | .leadInHigh => Sys2Proof.Machine.execLeadInHigh s
  | .halterBeaconLoss => Sys2Proof.Machine.execHalterBeaconLoss s
  | .halterRelease via value => Sys2Proof.Machine.execHalterRelease via value s
  | .paddockAllocate via tenant value => Sys2Proof.Machine.execPaddockAllocate via tenant value s
  | .paddockAllocateResult tenant => Sys2Proof.Machine.execPaddockAllocateResult tenant s
  | .paddockFree via tenant value => Sys2Proof.Machine.execPaddockFree via tenant value s
  | .paddockFreeResult tenant => Sys2Proof.Machine.execPaddockFreeResult tenant s
  | .hbmFrameAssign via value => Sys2Proof.Machine.execHbmFrameAssign via value s
  | .hbmFrameAssignResult => Sys2Proof.Machine.execHbmFrameAssignResult s
  | .hbmFrameRelease via value => Sys2Proof.Machine.execHbmFrameRelease via value s
  | .hbmFrameReleaseResult => Sys2Proof.Machine.execHbmFrameReleaseResult s
  | .tenantTlbInvalidate via tenant value => Sys2Proof.Machine.execTenantTlbInvalidate via tenant value s
  | .queueEnable via queue value => Sys2Proof.Machine.execQueueEnable via queue value s
  | .queueDisable via queue value => Sys2Proof.Machine.execQueueDisable via queue value s
  | .queueDrainComplete queue => Sys2Proof.Machine.execQueueDrainComplete queue s
  | .stableFlagsClear via value => Sys2Proof.Machine.execStableFlagsClear via value s
  | .tenantFlagsClear via tenant value => Sys2Proof.Machine.execTenantFlagsClear via tenant value s
  | .spareAutoActivateWrite via value => Sys2Proof.Machine.execSpareAutoActivateWrite via value s
  | .tenantRemudaReadReq via tenant value => Sys2Proof.Machine.execTenantRemudaReadReq via tenant value s
  | .rngProbeRequest via value => Sys2Proof.Machine.execRngProbeRequest via value s
  | .tenantPostReadReq via tenant value => Sys2Proof.Machine.execTenantPostReadReq via tenant value s
  | .tenantAttribReadReq via tenant value => Sys2Proof.Machine.execTenantAttribReadReq via tenant value s
  | .tenantAttribQuota via tenant value => Sys2Proof.Machine.execTenantAttribQuota via tenant value s
  | .logReadReq via value => Sys2Proof.Machine.execLogReadReq via value s
  | .tenantEnable via tenant value => Sys2Proof.Machine.execTenantEnable via tenant value s
  | .tenantPostRange via tenant value => Sys2Proof.Machine.execTenantPostRange via tenant value s
  | .tenantReset via tenant value => Sys2Proof.Machine.execTenantReset via tenant value s
  | .tenantHold via tenant value => Sys2Proof.Machine.execTenantHold via tenant value s
  | .tenantDismounted tenant ns spent => Sys2Proof.Machine.execTenantDismounted tenant ns spent s
  | .tenantResume tenant ns => Sys2Proof.Machine.execTenantResume tenant ns s
  | .preemptOverrun tenant => Sys2Proof.Machine.execPreemptOverrun tenant s
  | .carouselSlotBoundary => Sys2Proof.Machine.execCarouselSlotBoundary s
  | .timeMasterTick phase => Sys2Proof.Machine.execTimeMasterTick phase s
  | .linkDelayMeasure port ns => Sys2Proof.Machine.execLinkDelayMeasure port ns s
  | .timeSourceLoss => Sys2Proof.Machine.execTimeSourceLoss s
  | .spurEnable via value => Sys2Proof.Machine.execSpurEnable via value s
  | .spurProductionLock via value => Sys2Proof.Machine.execSpurProductionLock via value s
  | .traceEnable via value => Sys2Proof.Machine.execTraceEnable via value s
  | .traceFrameSend due => Sys2Proof.Machine.execTraceFrameSend due s
  | .utilisationWindow quarters ports whole => Sys2Proof.Machine.execUtilisationWindow quarters ports whole s
  | .hangStallDetect stream others => Sys2Proof.Machine.execHangStallDetect stream others s
  | .hangReplyTimeout analysis => Sys2Proof.Machine.execHangReplyTimeout analysis s
  | .fwStageBegin via => Sys2Proof.Machine.execFwStageBegin via s
  | .fwStageChunk via value => Sys2Proof.Machine.execFwStageChunk via value s
  | .fwStageVerify via => Sys2Proof.Machine.execFwStageVerify via s
  | .fwStageActivate via => Sys2Proof.Machine.execFwStageActivate via s
  | .fwStageAbandon via => Sys2Proof.Machine.execFwStageAbandon via s
  | .fwStageTimeout => Sys2Proof.Machine.execFwStageTimeout s
  | .stableRetireRequest via value => Sys2Proof.Machine.execStableRetireRequest via value s
  | .mainRailsCommand via value => Sys2Proof.Machine.execMainRailsCommand via value s
  | .gaitCeilingWrite via value => Sys2Proof.Machine.execGaitCeilingWrite via value s
  | .linkEnableWrite via port value => Sys2Proof.Machine.execLinkEnableWrite via port value s
  | .lineagePortModeWrite via port value => Sys2Proof.Machine.execLineagePortModeWrite via port value s
  | .topoBoroughNumberWrite via value => Sys2Proof.Machine.execTopoBoroughNumberWrite via value s
  | .ostlerBoot fails millivolts => Sys2Proof.Machine.execOstlerBoot fails millivolts s
  | .mainRailsGood => Sys2Proof.Machine.execMainRailsGood s
  | .rootPllLock => Sys2Proof.Machine.execRootPllLock s
  | .hbmTrainingComplete => Sys2Proof.Machine.execHbmTrainingComplete s
  | .pcieLinkUp => Sys2Proof.Machine.execPcieLinkUp s
  | .perstAssert => Sys2Proof.Machine.execPerstAssert s
  | .perstScrubComplete => Sys2Proof.Machine.execPerstScrubComplete s
  | .perstDeassert => Sys2Proof.Machine.execPerstDeassert s
  | .mrstAssert => Sys2Proof.Machine.execMrstAssert s
  | .mrstDeassert fails millivolts => Sys2Proof.Machine.execMrstDeassert fails millivolts s
  | .reinAssert late => Sys2Proof.Machine.execReinAssert late s
  | .reinDeassert => Sys2Proof.Machine.execReinDeassert s
  | .reinHoldExpire => Sys2Proof.Machine.execReinHoldExpire s
  | .inputVoltageExcursion millivolts => Sys2Proof.Machine.execInputVoltageExcursion millivolts s
  | .inputVoltageRecover millivolts => Sys2Proof.Machine.execInputVoltageRecover millivolts s
  | .standbyPowerLoss => Sys2Proof.Machine.execStandbyPowerLoss s
  | .trip cause => Sys2Proof.Machine.execTrip cause s
  | .lockstepMismatch => Sys2Proof.Machine.execLockstepMismatch s
  | .refclkLoss => Sys2Proof.Machine.execRefclkLoss s
  | .rootPllLockLoss => Sys2Proof.Machine.execRootPllLockLoss s
  | .refclkRestore fails millivolts => Sys2Proof.Machine.execRefclkRestore fails millivolts s
  | .srefclkLoss => Sys2Proof.Machine.execSrefclkLoss s
  | .srefclkRestore => Sys2Proof.Machine.execSrefclkRestore s
  | .powerGaitTick watts millivolts due => Sys2Proof.Machine.execPowerGaitTick watts millivolts due s
  | .powerGaitRaise => Sys2Proof.Machine.execPowerGaitRaise s
  | .powerWalkStall => Sys2Proof.Machine.execPowerWalkStall s
  | .thermalGaitTick points hbm => Sys2Proof.Machine.execThermalGaitTick points hbm s
  | .thermalGaitRaise => Sys2Proof.Machine.execThermalGaitRaise s
  | .gaitUpComplete => Sys2Proof.Machine.execGaitUpComplete s
  | .coolantSample inlet outlet => Sys2Proof.Machine.execCoolantSample inlet outlet s
  | .droopDetect quarter => Sys2Proof.Machine.execDroopDetect quarter s
  | .droopStretchEnd quarter => Sys2Proof.Machine.execDroopStretchEnd quarter s
  | .canaryLowMargin quarter failure => Sys2Proof.Machine.execCanaryLowMargin quarter failure s
  | .voltageStepDownTick quarter => Sys2Proof.Machine.execVoltageStepDownTick quarter s
  | .quarterCoolingEnter quarter => Sys2Proof.Machine.execQuarterCoolingEnter quarter s
  | .quarterCoolingLeave quarter => Sys2Proof.Machine.execQuarterCoolingLeave quarter s
  | .logFlush => Sys2Proof.Machine.execLogFlush s
  | .linkTraining port ok => Sys2Proof.Machine.execLinkTraining port ok s
  | .linkTrainRetryTimer port => Sys2Proof.Machine.execLinkTrainRetryTimer port s
  | .discoveryReceive port packet => Sys2Proof.Machine.execDiscoveryReceive port packet s
  | .portSignalLoss port => Sys2Proof.Machine.execPortSignalLoss port s
  | .portFlitTimeout port => Sys2Proof.Machine.execPortFlitTimeout port s
  | .flitReceive port flit corrected => Sys2Proof.Machine.execFlitReceive port flit corrected s
  | .linkAckTimer port => Sys2Proof.Machine.execLinkAckTimer port s
  | .linkReplayTimeout port => Sys2Proof.Machine.execLinkReplayTimeout port s
  | .symbolErrorRatioExceed port => Sys2Proof.Machine.execSymbolErrorRatioExceed port s
  | .packetForward port packet => Sys2Proof.Machine.execPacketForward port packet s
  | .writePacketReceive packet => Sys2Proof.Machine.execWritePacketReceive packet s
  | .readRequestReceive packet => Sys2Proof.Machine.execReadRequestReceive packet s
  | .readResponseReceive packet => Sys2Proof.Machine.execReadResponseReceive packet s
  | .postUpdateReceive packet => Sys2Proof.Machine.execPostUpdateReceive packet s
  | .subscriptionReceive packet => Sys2Proof.Machine.execSubscriptionReceive packet s
  | .subscriptionRetry waiter => Sys2Proof.Machine.execSubscriptionRetry waiter s
  | .collectiveRequestRetry cmd => Sys2Proof.Machine.execCollectiveRequestRetry cmd s
  | .collectiveAbortReceive packet => Sys2Proof.Machine.execCollectiveAbortReceive packet s
  | .e2eAckReceive packet => Sys2Proof.Machine.execE2eAckReceive packet s
  | .e2eAckTimer device cls => Sys2Proof.Machine.execE2eAckTimer device cls s
  | .e2eRetxTimer device cls => Sys2Proof.Machine.execE2eRetxTimer device cls s
  | .e2eUnreachableTimer device => Sys2Proof.Machine.execE2eUnreachableTimer device s
  | .managementPacketReceive stalled packet => Sys2Proof.Machine.execManagementPacketReceive stalled packet s
  | .timePacketReceive port packet phase => Sys2Proof.Machine.execTimePacketReceive port packet phase s
  | .linkStateAdvertisementReceive port packet => Sys2Proof.Machine.execLinkStateAdvertisementReceive port packet s
  | .linkParametersReceive port packet => Sys2Proof.Machine.execLinkParametersReceive port packet s
  | .lineageTransactionReceive port transaction => Sys2Proof.Machine.execLineageTransactionReceive port transaction s
  | .tlbInvalidateComplete tenant => Sys2Proof.Machine.execTlbInvalidateComplete tenant s
  | .tenantResetComplete tenant spent => Sys2Proof.Machine.execTenantResetComplete tenant spent s
  | .collectiveDataReceive packet => Sys2Proof.Machine.execCollectiveDataReceive packet s
  | .lineagePortTraining port mode node => Sys2Proof.Machine.execLineagePortTraining port mode node s
  | .lineageResponseReceive port transaction => Sys2Proof.Machine.execLineageResponseReceive port transaction s
  | .halterBeaconResume => Sys2Proof.Machine.execHalterBeaconResume s

end Sys2Proof.Machine
end

