-- ==== Sys2Proof/Safety.lean ====
section
/-! DEFINITION. The terms statements are made in: what a state must keep, what two states share, and when a command finds what it needs. -/

namespace Sys2Proof.Machine

/-- The invariant every step keeps. -/
def MemOk (s : State) : Prop := s.mem.wf = true

/-- A state but for what reporting touches: the event queue and its records in host memory, the log's buffer, interrupts and TENANT_EVENTS, the
bus's notifications, the guarantees of R407 already reported, and the count of free values. Two states equal here differ in reports only. -/
def State.quiet (s : State) : State :=
  { s with
    mem := { s.mem with bytes := s.mem.bytes.filter (fun c => decide (c.1 < 2 ^ 64)), poison := s.mem.poison.filter (fun l => decide (l < 2 ^ 58)) },
    regs := { s.regs with evqLost := 0, evqSlot := 0, evqCount := 0, evqPhase := true, evqOwed := 0, eventSeq := 0, tenantEvents := [], msix := [] },
    dict := { s.dict with busOut := [] },
    ostler := { s.ostler with logBuf := [], logLost := 0 },
    sched := { s.sched with lostGuarantee := [] },
    freeCount := 0 }

/-! ## Writes of objects -/

/-- The route a write comes by; a bus address other than the controller of record's has none (R428). -/
def State.viaRoute (s : State) : Via → Option Nat
  | .admin => some 0
  | .tenant t => some (2 + t.val)
  | .bus src => if s.obj oHalterPlcaNode ≠ 0 ∧ s.obj oHalterControllerAddr = src then some 1 else none

/-- The item of a write of one object. -/
def itemOf (key v : Nat) : TackItem :=
  let d := match objDef? (keyIndex key) (keySub key) with | some d => (d.typ, d.len) | none => (0, 0)
  ⟨keyIndex key, keySub key, d.1, d.2, v⟩

/-- The write reaches the engine by route r, is of its object's length and fits a message of that route. -/
def State.reaches (s : State) (via : Via) (r key v : Nat) : Prop :=
  s.viaRoute via = some r ∧ s.routeUp r = true ∧ s.mustWait [itemOf key v] = false ∧ v < 2 ^ (8 * (itemOf key v).vlen)
    ∧ 16 + itemBytes (itemOf key v).vlen ≤ routeLimit r

/-- And it passes the checks of Table 16-7. -/
def State.takesWrite (s : State) (via : Via) (r key v : Nat) : Prop :=
  s.reaches via r key v ∧ s.writeStatus r false (itemOf key v) = tkOk ∧ s.ruleOk s r false key v = true

/-- The answer to a write of one object. -/
def State.answeredWrite (s : State) (st key : Nat) : State :=
  { s with dict := { s.dict with answers := s.dict.answers ++ [(st, s.dict.seq key % 2 ^ 64)] } }

/-- The rows that are a write of one object: by whom, its key and the value. -/
def objectWrite : Instr → Option (Via × Nat × Nat)
  | .halterRelease via v => some (via, oHalterRelease, v)
  | .paddockAllocate via t v => if padOp v = 2 then none else some (via, oTenantPaddockRequest t.val, v)
  | .paddockFree via t v => if padOp v = 2 then some (via, oTenantPaddockRequest t.val, v) else none
  | .hbmFrameAssign via v => if frOp v = 2 then none else some (via, oHbmFrameRequest, v)
  | .hbmFrameRelease via v => if frOp v = 2 then some (via, oHbmFrameRequest, v) else none
  | .tenantTlbInvalidate via t v => some (via, oTenantTlbInvalidate t.val, v)
  | .queueEnable via q v => if cfgEnable v then some (via, queueKey q.val, v) else none
  | .queueDisable via q v => if cfgEnable v then none else some (via, queueKey q.val, v)
  | .stableFlagsClear via v => some (via, oStableFlagsClear, v)
  | .tenantFlagsClear via t v => some (via, oTenantFlags t.val, v)
  | .spareAutoActivateWrite via v => some (via, oSpareAutoActivate, v)
  | .tenantRemudaReadReq via t v => some (via, oTenantRemudaReadReq t.val, v)
  | .rngProbeRequest via v => some (via, oRngProbeRequest, v)
  | .tenantPostReadReq via t v => some (via, oTenantPostReadReq t.val, v)
  | .tenantAttribReadReq via t v => some (via, oTenantAttribReadReq t.val, v)
  | .tenantAttribQuota via t v => some (via, oTenantAttribQuota t.val, v)
  | .logReadReq via v => some (via, oLogReadReq, v)
  | .tenantEnable via t v => some (via, oTenantEnable t.val, v)
  | .tenantPostRange via t v => some (via, oTenantPostRange t.val, v)
  | .tenantReset via t v => some (via, oTenantReset t.val, v)
  | .tenantHold via t v => some (via, oTenantHold t.val, v)
  | .spurEnable via v => some (via, oSpurEnable, v)
  | .spurProductionLock via v => some (via, oSpurProductionLock, v)
  | .traceEnable via v => some (via, oTraceEnable, v)
  | .fwStageBegin via => some (via, oFwStageCommand, 1)
  | .fwStageChunk via v => some (via, oFwStageChunk, v)
  | .fwStageVerify via => some (via, oFwStageCommand, 2)
  | .fwStageActivate via => some (via, oFwStageCommand, 3)
  | .fwStageAbandon via => some (via, oFwStageCommand, 4)
  | .stableRetireRequest via v => some (via, oStableRetireRequest, v)
  | .mainRailsCommand via v => some (via, oMainRailsCommand, v)
  | .gaitCeilingWrite via v => some (via, oGaitCeiling, v)
  | .linkEnableWrite via p v => some (via, oLinkEnable p.val, v)
  | .lineagePortModeWrite via p v => some (via, oLineagePortMode p.val, v)
  | .topoBoroughNumberWrite via v => some (via, oTopoBoroughNumber, v)
  | _ => none

/-! ## Messages -/

/-- A message a sender sends whole reaches the engine: the state it is served in, and its route. -/
def State.serving (s : State) (via : Via) (b : List Byte) : Option (State × Nat) :=
  match via with
  | .admin =>
    if s.mailboxUp = true ∧ s.mbxBusy 0 = false ∧ 0 < b.length ∧ b.length ≤ 4096 then
      some (s.setAdminMbx { s.regs.adminMbx with request := putBytes s.regs.adminMbx.request 0 b, status := 1 }, 0) else none
  | .tenant t =>
    if s.mailboxUp = true ∧ s.pageLive 0 t.val = true ∧ s.mbxBusy (2 + t.val) = false ∧ 0 < b.length ∧ b.length ≤ 1024 then
      some (s.setTenantMbx t.val { s.tenantMbx t.val with request := putBytes (s.tenantMbx t.val).request 0 b, status := 1 }, 2 + t.val) else none
  | .bus src =>
    if s.ostlerUp = true ∧ s.obj oHalterPlcaNode ≠ 0 ∧ s.obj oHalterControllerAddr = src ∧ (∀ x ∈ s.dict.busReplies, x.1 ≠ msgId b) then
      some (s, 1) else none

/-- A message of an operation with no body. -/
def bareMessage (r op : Nat) (b : List Byte) : Prop := headerOk r b = true ∧ msgOp b = op ∧ msgCount b = 0 ∧ b.length = 16

/-! ## Beginning a command -/

/-- The rows of an opcode: the stream, the commands that are its own, their plan and what begins with them. -/
def begins : Instr → Option (From × (List Byte → Bool) × (State → Env → Plan) × (State → Env → Nat → State))
  | .matmul f => some (f, fun b => opcodeOf b == 0x01, withFuse planMatmul, launchFused)
  | .matmulList f => some (f, fun b => opcodeOf b == 0x02, planMatmulList, noLaunch)
  | .conv f => some (f, fun b => opcodeOf b == 0x03, planConv, noLaunch)
  | .pool f => some (f, fun b => opcodeOf b == 0x04, planPool, noLaunch)
  | .resample f => some (f, fun b => opcodeOf b == 0x05, planResample, noLaunch)
  | .attend f => some (f, fun b => opcodeOf b == 0x06, withFuse planAttend, launchAttend)
  | .norm f => some (f, fun b => opcodeOf b == 0x07, planNorm, noLaunch)
  | .chain f => some (f, fun b => opcodeOf b == 0x08, planChain, noLaunch)
  | .gather f => some (f, fun b => opcodeOf b == 0x09, planGather, noLaunch)
  | .scatterOrdered f => some (f, fun b => opcodeOf b == 0x0A, planScatter, noLaunch)
  | .distance f => some (f, fun b => opcodeOf b == 0x0B, planDistance, noLaunch)
  | .step f => some (f, fun b => opcodeOf b == 0x10, planStep, launchStep)
  | .admitEntries f => some (f, fun b => opcodeOf b == 0x11, planAdmit, launchAdmit)
  | .retire f => some (f, fun b => opcodeOf b == 0x12, planRetire, launchRetire)
  | .tokenSample f => some (f, fun b => opcodeOf b == 0x13, planTokens, noLaunch)
  | .noise f => some (f, fun b => opcodeOf b == 0x14, planNoise, noLaunch)
  | .collective f => some (f, fun b => opcodeOf b == 0x20, planCollective, launchCollective)
  | .put f => some (f, fun b => opcodeOf b == 0x21, planPut, launchPut)
  | .encodeFrame f => some (f, fun b => opcodeOf b == 0x30 && !encodeReleases b, planEncode, launchEncode)
  | .encodeRelease f => some (f, fun b => opcodeOf b == 0x30 && encodeReleases b, planRelease, launchRelease)
  | .decode f => some (f, fun b => opcodeOf b == 0x31, planDecode, launchDecode)
  | .copy f => some (f, fun b => opcodeOf b == 0x40, planCopy, noLaunch)
  | .fill f => some (f, fun b => opcodeOf b == 0x41, planFill, noLaunch)
  | .postWait f => some (f, fun b => opcodeOf b == 0x50, planHeader 88, noLaunch)
  | .postSignal f => some (f, fun b => opcodeOf b == 0x51, planHeader 88, noLaunch)
  | .mark f => some (f, fun b => opcodeOf b == 0x7F, planHeader 96, noLaunch)
  | _ => none

/-- The head of a stream begins (R129): `src` is its place and `b` its bytes; `g` is the state it begins in, its satisfied waits latched, its remote waits
subscribed, and the gate's decision made where it opens a block. -/
def State.beginsAt (s : State) (f : From) (mine : List Byte → Bool) (src : Src) (b : List Byte) (g : State) : Prop :=
  s.headOf f = some src ∧ s.regs.fatal = false ∧ s.headBytes src = .ok b ∧ mine b = true ∧
    let a := (s.latch src).subscribe src b
    a.waitsReady src b = true ∧ a.mayBegin (srcCtx a src) b = true ∧ a.roomToBegin src b = true ∧
      (a.spurDismount (srcCtx a src) b).2 = false ∧ (a.spurDismount (srcCtx a src) b).1.gateOpen src = .ok g

end Sys2Proof.Machine
end

