-- ==== Sys2Proof/WellFormed.lean ====
section
/-! DEFINITION. Which commands a sender can send: values fit their registers, packets their headers (Table 13-6) and types (Table 13-7), flits and
messages their lengths. `exec` is total on the rest too. -/

namespace Sys2Proof

open Sys2Proof.Machine

/-- The object a row writes, by whom, and the value: the rows that are a write of one object. -/
def Instr.objectWrite : Instr → Option (Via × Nat × Nat)
  | .halterRelease via v => some (via, oHalterRelease, v)
  | .paddockAllocate via t v => some (via, oTenantPaddockRequest t.val, v)
  | .paddockFree via t v => some (via, oTenantPaddockRequest t.val, v)
  | .hbmFrameAssign via v => some (via, oHbmFrameRequest, v)
  | .hbmFrameRelease via v => some (via, oHbmFrameRequest, v)
  | .tenantTlbInvalidate via t v => some (via, oTenantTlbInvalidate t.val, v)
  | .queueEnable via q v => some (via, queueKey q.val, v)
  | .queueDisable via q v => some (via, queueKey q.val, v)
  | .stableFlagsClear via v => some (via, oStableFlagsClear, v)
  | .tenantFlagsClear via t v => some (via, oTenantFlags t.val, v)
  | .spareAutoActivateWrite via v => some (via, oSpareAutoActivate, v)
  | .tenantRemudaReadReq via t v => some (via, oTenantRemudaReadReq t.val, v)
  | .rngProbeRequest via v => some (via, oRngProbeRequest, v)
  | .tenantPostReadReq via t v => some (via, oTenantPostReadReq t.val, v)
  | .tenantAttribReadReq via t v => some (via, oTenantAttribReadReq t.val, v)
  | .tenantAttribQuota via t v => some (via, oTenantAttribQuota t.val, v)
  | .logReadReq via v => some (via, oLogReadReq, v)
  | .tenantEnable via t v => some (via, oTenantEnable t.val, v)
  | .tenantPostRange via t v => some (via, oTenantPostRange t.val, v)
  | .tenantReset via t v => some (via, oTenantReset t.val, v)
  | .tenantHold via t v => some (via, oTenantHold t.val, v)
  | .spurEnable via v => some (via, oSpurEnable, v)
  | .spurProductionLock via v => some (via, oSpurProductionLock, v)
  | .traceEnable via v => some (via, oTraceEnable, v)
  | .fwStageBegin via => some (via, oFwStageCommand, 1)
  | .fwStageChunk via v => some (via, oFwStageChunk, v)
  | .fwStageVerify via => some (via, oFwStageCommand, 2)
  | .fwStageActivate via => some (via, oFwStageCommand, 3)
  | .fwStageAbandon via => some (via, oFwStageCommand, 4)
  | .stableRetireRequest via v => some (via, oStableRetireRequest, v)
  | .mainRailsCommand via v => some (via, oMainRailsCommand, v)
  | .gaitCeilingWrite via v => some (via, oGaitCeiling, v)
  | .linkEnableWrite via p v => some (via, oLinkEnable p.val, v)
  | .lineagePortModeWrite via p v => some (via, oLineagePortMode p.val, v)
  | .topoBoroughNumberWrite via v => some (via, oTopoBoroughNumber, v)
  | _ => none

/-- A value fits its object (Tables 17-3 to 17-9). -/
def valueFits (key v : Nat) : Bool :=
  match objDef? (keyIndex key) (keySub key) with
  | some d => decide (v < 2 ^ (8 * d.len))
  | none => false

/-- The types a body travels under (Table 13-7). -/
def bodyType : PktBody → Nat
  | .write _ => 1
  | .readReq _ _ _ _ => 2
  | .readResp _ _ _ _ => 3
  | .readRefused _ _ _ => 3
  | .writeResult _ _ _ _ => 4
  | .post _ => 4
  | .subscribe _ _ _ _ => 4
  | .data _ => 5
  | .abort _ _ _ => 5
  | .ack _ _ => 6
  | .mgmt _ => 7
  | .time _ _ _ => 8
  | .lsa _ _ _ _ => 9
  | .discovery _ _ _ _ => 10
  | .params _ _ _ _ => 11

/-- A packet whose header fields fit and whose type is its body's. -/
def packetOk (k : Packet) : Bool :=
  k.hdr.typ == bodyType k.body && decide (k.hdr.vc < 16) && decide (k.hdr.ttl < 256) && decide (k.len ≤ 256) && decide (k.hdr.dst < 4096)
    && decide (k.hdr.src < 4096) && decide (k.hdr.gw < 64) && decide (k.hdr.seq < 2 ^ 32)

/-- A command some sender can send. -/
def Instr.wf (i : Instr) : Bool :=
  match i.objectWrite with
  | some (_, key, v) => valueFits key v
  | none => match i with
    | .sqTailWrite _ _ v => decide (v < 2 ^ 32)
    | .cqHeadWrite _ _ v => decide (v < 2 ^ 32)
    | .adminMbxDoorbell v => decide (v < 2 ^ 32)
    | .tenantMbxDoorbell _ _ v => decide (v < 2 ^ 32)
    | .tenantEventsClear _ _ v => decide (v < 2 ^ 32)
    | .evqCtrlWrite v => decide (v < 2 ^ 32)
    | .evqHeadWrite v => decide (v < 2 ^ 32)
    | .registerWrite _ bar off size v =>
      [0, 2, 4].contains bar && [1, 2, 4, 8].contains size && decide (off < 2 ^ 22) && decide (v < 2 ^ (8 * size))
    | .tackRead _ m => decide (m.length ≤ 4096)
    | .tackWrite _ m => decide (m.length ≤ 4096)
    | .txBegin _ m => decide (m.length ≤ 4096)
    | .txCommit _ m _ => decide (m.length ≤ 4096)
    | .txRollback _ m => decide (m.length ≤ 4096)
    | .enumOffer m => decide (m.length ≤ 1232)
    | .enumConfirm src m => decide (m.length ≤ 1232) && decide (src < 2 ^ 128)
    | .flitReceive _ f _ => f.length == 256
    | .discoveryReceive _ k => packetOk k && k.hdr.typ == 10
    | .packetForward _ k => packetOk k
    | .writePacketReceive k => packetOk k && k.hdr.typ == 1
    | .readRequestReceive k => packetOk k && k.hdr.typ == 2
    | .readResponseReceive k => packetOk k && k.hdr.typ == 3
    | .postUpdateReceive k => packetOk k && k.hdr.typ == 4
    | .subscriptionReceive k => packetOk k && k.hdr.typ == 4
    | .collectiveAbortReceive k => packetOk k && k.hdr.typ == 5
    | .collectiveDataReceive k => packetOk k && k.hdr.typ == 5
    | .e2eAckReceive k => packetOk k && k.hdr.typ == 6
    | .managementPacketReceive _ k => packetOk k && k.hdr.typ == 7
    | .timePacketReceive _ k _ => packetOk k && k.hdr.typ == 8
    | .linkStateAdvertisementReceive _ k => packetOk k && k.hdr.typ == 9
    | .linkParametersReceive _ k => packetOk k && k.hdr.typ == 11
    | .lineagePortTraining _ mode _ => decide (mode ≤ 2)
    | .deviceFatalFault code _ _ => [0x0810, 0x0811, 0x0812].contains code
    | .thermalGaitTick points hbm => points.length == 96 && hbm.length == 8
    | .ostlerBoot fails _ => decide (fails < 4)
    | .mrstDeassert fails _ => decide (fails < 4)
    | .refclkRestore fails _ => decide (fails < 4)
    | _ => true

end Sys2Proof
end

