-- ==== Sys2Proof/Certificates/Slice0/Obligations.lean ====
section
/-! DEFINITION. The statements for the provers. Where a statement says `t = { s with … }`, every group of State not named there is as it was:
memory, queues, registers, the dictionary, the array, the Remuda, the Ostler, power, the schedule, links, observation, the codec engines, the
count of free values and the commands that wait. -/

open Sys2Proof Sys2Proof.Machine

/-! ## The block -/

/-- The command at the front of the queue runs with the rest left waiting; with none waiting the module idles (log entry 1). -/
def Obligations.StepRunsFront : Prop :=  (∀ (c : Instr) (rest : List Instr) (s : State), step { s with pending := c :: rest } = exec c { s with pending := rest }) ∧
  (∀ s : State, s.pending = [] → step s = .next s)

/-- A command runs once and in its turn: none adds to, takes from or reorders the commands that wait.
What of it is the model's own reading or choice: log entry 1. -/
def Obligations.CommandsLeaveTheQueueAlone : Prop :=  ∀ (c : Instr) (s t : State), exec c s = .next t → t.pending = s.pending

/-- Memory is in its canonical form right after reset, and no command waits.
What of it is the model's own reading or choice: log entry 5. -/
def Obligations.MemoryCanonicalAtReset : Prop := MemOk State.reset ∧ State.reset.pending = []

/-- Every step keeps the canonical form of memory: addresses strictly rising, and no byte listed that reads as an unlisted one does.
What of it is the model's own reading or choice: log entry 5. -/
def Obligations.StepKeepsMemoryCanonical : Prop := ∀ s t : State, MemOk s → step s = .next t → MemOk t

/-- No command of the table stops the module: it answers a next state in every state, for all operands.
What of it is the model's own reading or choice: log entry 1. -/
def Obligations.EveryCommandAnswersNext : Prop := ∀ (c : Instr) (s : State), ∃ t, exec c s = .next t

/-! ## Registers -/

/-- R124: writing SQ_TAIL makes the entries up to the written index available, and writing CQ_HEAD tells the module which records have been consumed; nothing
but that queue changes. A value at or above the queue's size moves neither: event 0x0010 is posted and TENANT_EVENTS[1] is set.
What of it is the model's own reading or choice: log entries 23 and 48. -/
def Obligations.DoorbellsMoveTailsAndHeads : Prop :=
  (∀ (s : State) (f : Fin 256) (q : Fin 8194) (v : Nat),
    s.doorbellLive f.val q.val = true → (s.queue q.val).state ≠ 0 → v < 2 ^ 16 → v < sqSize (s.queueCfg q.val) →
    ∃ t, exec (.sqTailWrite f q v) s = .next t ∧ t.queue q.val = { s.queue q.val with tailReg := v, sqTail := v } ∧
      (∀ r, r ≠ q.val → t.queue r = s.queue r) ∧ t = { s with queues := t.queues }) ∧
  (∀ (s : State) (f : Fin 256) (q : Fin 8194) (v : Nat),
    s.doorbellLive f.val q.val = true → (s.queue q.val).state ≠ 0 → v < 2 ^ 16 → v < cqSize (s.queueCfg q.val) → (s.queue q.val).cqHead ≤ v →
    (s.queue q.val).cqHead < cqSize (s.queueCfg q.val) →
    ∃ t, exec (.cqHeadWrite f q v) s = .next t ∧
      t.queue q.val = { s.queue q.val with headReg := v, cqHead := v, unread := (s.queue q.val).unread - (v - (s.queue q.val).cqHead) } ∧
      (∀ r, r ≠ q.val → t.queue r = s.queue r) ∧ t = { s with queues := t.queues }) ∧
  (∀ (s : State) (f : Fin 256) (q : Fin 8194) (v : Nat), q.val < 8192 → s.doorbellLive f.val q.val = true → (s.queue q.val).state ≠ 0 →
    v < 2 ^ 16 → sqSize (s.queueCfg q.val) ≤ v →
    ∃ t, exec (.sqTailWrite f q v) s = .next t ∧ (t.queue q.val).sqTail = (s.queue q.val).sqTail ∧ (t.queue q.val).tailReg = v ∧
      (∀ r, r ≠ q.val → t.queue r = s.queue r) ∧ t.regs.eventSeq = (s.regs.eventSeq + 1) % 2 ^ 32 ∧
      bit (Store.get 0 t.regs.tenantEvents (q.val / 8)) 1 = true ∧ t.exec = s.exec ∧ t.remuda = s.remuda ∧ t.fabric = s.fabric)

/-- R146: writing 1 to a bit of TENANT_EVENTS clears it and writing 0 leaves it. -/
def Obligations.TenantEventsClearBits : Prop :=  ∀ (s : State) (f : Fin 256) (n : Fin 1024) (v : Nat), s.pageLive f.val n.val = true →
    ∃ t, exec (.tenantEventsClear f n v) s = .next t ∧
      (∀ b, bit (Store.get 0 t.regs.tenantEvents n.val) b = (bit (Store.get 0 s.regs.tenantEvents n.val) b && !bit v b)) ∧
      (∀ u, u ≠ n.val → Store.get 0 t.regs.tenantEvents u = Store.get 0 s.regs.tenantEvents u) ∧
      t = { s with regs := { s.regs with tenantEvents := t.regs.tenantEvents } }

/-- R122, R123: while bit 8 of EVQ_CTRL is 0, a write that sets it with LOG2 in 6 to 16 enables the event queue from slot 0 with P = 1; one with another LOG2 is
ignored as a whole. While it is 1, a write that clears it leaves the other fields, and one that keeps it is ignored. EVQ_HEAD is the next record the host will
read. EVQ_BASE_LO and EVQ_BASE_HI take what is written while the queue is disabled, their reserved bits reading as zero. A write of a size other than 4
bytes to a register of a tenant's page, outside the mailbox buffer, is ignored.
What of it is the model's own reading or choice: log entries 23 and 48. -/
def Obligations.EventQueueRegistersTakeTheirWrites : Prop :=
  (∀ (s : State) (v : Nat), s.pcieUp = true →
    ∃ t, exec (.evqCtrlWrite v) s = .next t ∧ t = { s with regs := t.regs } ∧
      (bit s.regs.evqCtrl 8 = false → bit v 8 = true → 6 ≤ bits v 0 5 → bits v 0 5 ≤ 16 →
        t.regs = { s.regs with evqCtrl := v &&& 0x1FFF1F, evqHead := 0, evqSlot := 0, evqCount := 0, evqPhase := true }) ∧
      (bit s.regs.evqCtrl 8 = false → bit v 8 = true → (bits v 0 5 < 6 ∨ 16 < bits v 0 5) → t.regs = s.regs) ∧
      (bit s.regs.evqCtrl 8 = true → bit v 8 = false → t.regs = { s.regs with evqCtrl := s.regs.evqCtrl - 256 }) ∧
      (bit s.regs.evqCtrl 8 = true → bit v 8 = true → t.regs = s.regs)) ∧
  (∀ (s : State) (v : Nat), s.pcieUp = true → bit s.regs.evqCtrl 8 = true → v < 2 ^ bits s.regs.evqCtrl 0 5 → v < 2 ^ 16 → s.regs.evqHead ≤ v →
    ∃ t, exec (.evqHeadWrite v) s = .next t ∧ t.regs = { s.regs with evqHead := v, evqCount := s.regs.evqCount - (v - s.regs.evqHead) } ∧
      t = { s with regs := t.regs }) ∧
  (∀ (s : State) (v : Nat), s.pcieUp = true →
    (bit s.regs.evqCtrl 8 = false → exec (.registerWrite 0 0 0x20 4 v) s = .next { s with regs := { s.regs with evqBaseLo := v % 2 ^ 32 - v % 2 ^ 12 } }) ∧
    (bit s.regs.evqCtrl 8 = false → exec (.registerWrite 0 0 0x24 4 v) s = .next { s with regs := { s.regs with evqBaseHi := v % 2 ^ 32 } }) ∧
    (bit s.regs.evqCtrl 8 = true → exec (.registerWrite 0 0 0x20 4 v) s = .next s ∧ exec (.registerWrite 0 0 0x24 4 v) s = .next s)) ∧
  (∀ (s : State) (f : Fin 256) (off size v : Nat), size ≠ 4 → off % 4096 < 0x800 → exec (.registerWrite f 2 off size v) s = .next s)

/-- R143: a doorbell written while the mailbox is busy, or with a length out of range, sets MBX_STATUS to rejected and does nothing else. A READ of objects sent
through a mailbox is answered: the response is ready, within the mailbox's buffer, and vector 1 of the physical function is sent, or TENANT_EVENTS[3] is set.
What of it is the model's own reading or choice: log entries 17 and 47. -/
def Obligations.MailboxDoorbellsAnswerOrReject : Prop :=
  (∀ (s : State) (v : Nat), s.mailboxUp = true → (s.regs.adminMbx.status = 1 ∨ bits v 0 13 = 0 ∨ 4096 < bits v 0 13) →
    exec (.adminMbxDoorbell v) s = .next { s with regs := { s.regs with adminMbx := { s.regs.adminMbx with status := 3 } } }) ∧
  (∀ (s : State) (f : Fin 256) (n : Fin 1024) (v : Nat), s.mailboxUp = true → s.pageLive f.val n.val = true →
    ((s.tenantMbx n.val).status = 1 ∨ bits v 0 11 = 0 ∨ 1024 < bits v 0 11) →
    exec (.tenantMbxDoorbell f n v) s = .next (s.setTenantMbx n.val { s.tenantMbx n.val with status := 3 })) ∧
  (∀ (s : State) (v : Nat), s.mailboxUp = true → s.mbxBusy 0 = false → 1 ≤ bits v 0 13 → bits v 0 13 ≤ 4096 →
    msgOp (s.regs.adminMbx.request) = 0x01 →
    ∃ t, exec (.adminMbxDoorbell v) s = .next t ∧ t.regs.adminMbx.status = 2 ∧ t.regs.adminMbx.respLen = t.regs.adminMbx.response.length ∧
      t.regs.adminMbx.response.length ≤ 4096 ∧ t.regs.msix = s.regs.msix ++ [(0, 1)] ∧ t.mem = s.mem ∧ t.queues = s.queues ∧ t.exec = s.exec) ∧
  (∀ (s : State) (f : Fin 256) (n : Fin 1024) (v : Nat), s.mailboxUp = true → s.pageLive f.val n.val = true → s.mbxBusy (2 + n.val) = false →
    1 ≤ bits v 0 11 → bits v 0 11 ≤ 1024 → msgOp ((s.tenantMbx n.val).request) = 0x01 →
    ∃ t, exec (.tenantMbxDoorbell f n v) s = .next t ∧ (t.tenantMbx n.val).status = 2 ∧ (t.tenantMbx n.val).respLen = (t.tenantMbx n.val).response.length ∧
      (t.tenantMbx n.val).response.length ≤ 1024 ∧ bit (Store.get 0 t.regs.tenantEvents n.val) 3 = true ∧ t.mem = s.mem ∧ t.queues = s.queues ∧ t.exec = s.exec)

/-- R142: when IRQ_DELAY_US has passed since the first record, the queue's vector is sent.
What of it is the model's own reading or choice: log entry 51. -/
def Obligations.IrqDelaySendsTheVector : Prop :=  ∀ (s : State) (q : Fin 8194), (s.queue q.val).delayArmed = true → cfgIrqEn (s.queueCfg q.val) = true →
    ∃ t, exec (.irqDelayExpire q) s = .next t ∧
      t.regs.msix = s.regs.msix ++ [(if q.val < 8192 then s.tenantFunction (q.val / 8) else 0, cfgVector (s.queueCfg q.val))] ∧
      (t.queue q.val).sinceIrq = 0 ∧ (t.queue q.val).delayArmed = false ∧ t = { s with queues := t.queues, regs := { s.regs with msix := t.regs.msix } }

/-- R144: an event that finds the event queue full or disabled is not written there and EVQ_LOST counts it; it goes to the log all the same. When space has
returned, one event 0x0012 gives the number of events lost. -/
def Obligations.LostEventsAreCountedAndReported : Prop :=
  (∀ (s : State) (e : EventRec), (bit s.regs.evqCtrl 8 = false ∨ evqSize s.regs ≤ s.regs.evqCount) → s.ostler.logBuf.length < 256 →
    (s.event e).regs.evqLost = min (s.regs.evqLost + 1) (2 ^ 32 - 1) ∧ (s.event e).mem = s.mem ∧
      (∃ r : LogRec, (s.event e).ostler.logBuf = s.ostler.logBuf ++ [r] ∧ r.seq = s.regs.eventSeq ∧ r.ev = e) ∧
      (s.event e).queues = s.queues ∧ (s.event e).exec = s.exec) ∧
  (∀ s : State, s.regs.evqOwed ≠ 0 → bit s.regs.evqCtrl 8 = true → s.regs.evqCount < evqSize s.regs →
    ∃ t, exec .eventOverflowRecord s = .next t ∧ t.regs.evqOwed = 0 ∧ t.regs.evqCount = s.regs.evqCount + 1 ∧
      t.mem = s.mem.store (cellsAt (hostKey 0 (s.regs.evqBaseHi * 2 ^ 32 + s.regs.evqBaseLo + 16 * s.regs.evqSlot))
        (EventRec.bytes ⟨0x0012, 0, 0, 0, s.regs.evqOwed⟩ s.regs.evqPhase s.regs.eventSeq)) ∧
      t.queues = s.queues ∧ t.exec = s.exec ∧ t.power = s.power ∧ t.fabric = s.fabric ∧ t.remuda = s.remuda)

/-! ## Power, clocks and resets -/

/-- R465, R466: `REIN_n`, and the 100 µs after it, give Walk; else the gait is the least of the ceiling and the limits of the loops. When the voltages have
settled the core takes the higher gait; its clock is that of Table 22-7 and event 0x0700 is logged.
What of it is the model's own reading or choice: log entry 38. -/
def Obligations.GaitIsSelectedAndTaken : Prop :=
  (∀ s : State, s.power.rein = true ∨ s.power.reinHold = true → s.selected = 0) ∧
  (∀ s : State, s.power.rein = false → s.power.reinHold = false →
    s.selected ≤ s.obj oGaitCeiling ∧ s.selected ≤ s.power.powerGait ∧ s.selected ≤ s.power.thermalGait ∧ s.selected ≤ s.power.inputGait ∧
    s.selected ≤ s.power.coolantGait ∧
    (s.selected = s.obj oGaitCeiling ∨ s.selected = s.power.powerGait ∨ s.selected = s.power.thermalGait ∨ s.selected = s.power.inputGait ∨
      s.selected = s.power.coolantGait)) ∧
  (∀ (s : State) (g cause : Nat), s.power.raising = some (g, cause) →
    ∃ t, exec .gaitUpComplete s = .next t ∧ t.obj oGaitCurrent = g ∧ t.obj oCoreClockKhz = [700000, 1400000, 1800000, 2100000].getD g 0 ∧
      t.power = { s.power with raising := none } ∧ t.regs.eventSeq = (s.regs.eventSeq + 1) % 2 ^ 32 ∧ t.exec = s.exec ∧ t.queues = s.queues)

/-- R532, R530, R488: the steps of the power-up in their order: rails good and the gait selected; the root PLL locked, a new epoch and every unit's scrub
begun; HBM ready and PCIe in Detect; the link up and READY.
What of it is the model's own reading or choice: log entries 2 and 38. -/
def Obligations.PowerUpTakesItsSteps : Prop :=  (∀ s : State, s.power.rails = 1 → ∃ t, exec .mainRailsGood s = .next t ∧ t.power.rails = 2 ∧ t.obj oGaitCurrent = s.selected ∧
    t.mem = s.mem ∧ t.queues = s.queues ∧ t.regs = s.regs ∧ t.exec = s.exec) ∧
  (∀ s : State, s.power.rails = 2 → s.obj oRootPllState ≠ 1 → ∃ t, exec .rootPllLock s = .next t ∧ t.obj oRootPllState = 1 ∧
    t.obj oDeviceEpoch ≠ 0 ∧ t.obj oDeviceEpoch ≠ s.obj oDeviceEpoch ∧ t.power.scrubs = s.scrubList ∧ t.mem = s.mem ∧ t.exec = s.exec) ∧
  (∀ s : State, s.power.rails = 2 → s.obj oRootPllState = 1 → s.power.hbmReady = false → s.power.srefclk = false → s.power.perst = false →
    s.power.pcie = 0 → exec .hbmTrainingComplete s = .next (s.withPower { s.power with hbmReady := true, pcie := 1 })) ∧
  (∀ s : State, s.power.pcie = 1 → exec .pcieLinkUp s = .next { s with power := { s.power with pcie := 2 }, regs := { s.regs with ready := !s.power.retry } })

/-- R536: asserting `PERST_n` ends the host's side: no command, no queue, no transaction of the host is left and the link is down; the end of the scrub
lets configuration requests complete; deasserting it lets PCIe train.
What of it is the model's own reading or choice: log entry 58. -/
def Obligations.PerstEndsTheHostsSide : Prop :=  (∀ s : State, s.ostlerUp = true → ∃ u : State, exec .perstAssert s = .next u.staticCheck ∧ u.power.perst = true ∧ u.power.pcie = 0 ∧ u.exec.cmds = [] ∧
    u.queues = [] ∧ u.fabric.posts = [] ∧ u.remuda.entries = [] ∧ u.regs.ready = false ∧ u.mem.allocs = []) ∧
  (∀ s : State, s.ostlerUp = false → exec .perstAssert s = .next (s.withPower { s.power with perst := true }).staticCheck) ∧
  (∀ s : State, s.power.retry = true → exec .perstScrubComplete s =
    .next { s with power := { s.power with retry := false }, regs := { s.regs with ready := s.power.pcie == 2 } }) ∧
  (∀ s : State, s.power.hbmReady = true → s.power.pcie = 0 → exec .perstDeassert s = .next (s.withPower { s.power with perst := false, pcie := 1 })) ∧
  (∀ s : State, s.power.hbmReady = false → exec .perstDeassert s = .next (s.withPower { s.power with perst := false }))

/-- R537, R452, R531, R455: `MRST_n`, the loss of the standby rail, and the loss of REFCLK or of the root PLL's lock stop the Ostler and take the main rails
away; a lost clock is a device-fatal fault as well. Where `MRST_n` is deasserted, REFCLK runs and the input is between 40 V and 60 V, the Ostler boots, or
enters recovery, and BOOT_EPOCH counts it.
What of it is the model's own reading or choice: log entries 41 and 42. -/
def Obligations.TheOstlerStopsAndBoots : Prop :=
  (∀ s : State, s.power.mrst = false → ∃ t, exec .mrstAssert s = .next t ∧ t.power.mrst = true ∧ t.power.ostler = 0 ∧ t.power.rails = 0 ∧
    t.obj oHalterPlcaNode = 0 ∧ t.obj oTopoDeviceNumber = 0xFF ∧ t.dict.txs = [] ∧ t.power.leadOutLow = s.power.standby) ∧
  (∀ s : State, s.power.standby = true → ∃ t, exec .standbyPowerLoss s = .next t ∧ t.power.standby = false ∧ t.power.leadOutLow = false ∧
    t.power.ostler = 0 ∧ t.power.rails = 0 ∧ t.obj oHalterPlcaNode = 0 ∧ t.dict.txs = []) ∧
  (∀ s : State, s.power.refclk = true → s.power.standby = true → ∃ t, exec .refclkLoss s = .next t ∧ t.power.refclk = false ∧ t.power.ostler = 0 ∧
    t.power.rails = 0 ∧ t.regs.fatal = true) ∧
  (∀ s : State, s.obj oRootPllState = 1 → ∃ t, exec .rootPllLockLoss s = .next t ∧ t.power.refclk = false ∧ t.power.ostler = 0 ∧ t.power.rails = 0 ∧
    t.regs.fatal = true) ∧
  (∀ (s : State) (fails mv : Nat), s.power.mrst = false → s.power.ostler = 0 → s.power.refclk = true → 40000 ≤ mv → mv ≤ 60000 →
    ∃ t, exec (.ostlerBoot fails mv) s = .next t ∧ (t.power.ostler = 1 ∨ t.power.ostler = 2) ∧ t.power.standby = true ∧
      t.obj oBootEpoch = (s.obj oBootEpoch + 1) % 2 ^ 32) ∧
  (∀ (s : State) (fails mv : Nat), s.power.mrst = true → s.power.ostler = 0 → s.power.refclk = true → 40000 ≤ mv → mv ≤ 60000 →
    ∃ t, exec (.mrstDeassert fails mv) s = .next t ∧ t.power.mrst = false ∧ (t.power.ostler = 1 ∨ t.power.ostler = 2)) ∧
  (∀ (s : State) (fails mv : Nat), s.power.refclk = false → s.power.mrst = false → 40000 ≤ mv → mv ≤ 60000 →
    ∃ t, exec (.refclkRestore fails mv) s = .next t ∧ t.power.refclk = true ∧ (t.power.ostler = 1 ∨ t.power.ostler = 2))

/-- R531: without SREFCLK no link port is ACTIVE or DEGRADED; with it again the enabled ports train, once HBM is ready.
What of it is the model's own reading or choice: log entry 66. -/
def Obligations.LinkPortsNeedSrefclk : Prop :=  (∀ s : State, s.power.srefclk = true → ∃ t, exec .srefclkLoss s = .next t ∧ t.power.srefclk = false ∧ (∀ p, p < 18 → t.linkState p ≤ 1)) ∧
  (∀ s : State, s.power.srefclk = false → s.power.hbmReady = true → ∃ t, exec .srefclkRestore s = .next t ∧ t.power.srefclk = true ∧
    (∀ p, p < 18 → t.linkState p = if s.linkState p = 0 then 0 else 2)) ∧
  (∀ s : State, s.power.srefclk = false → s.power.hbmReady = false → exec .srefclkRestore s = .next (s.withPower { s.power with srefclk := true }))

/-- R474, R453: a trip and a lockstep mismatch set FATAL; a trip takes the main rails away, a mismatch stops the Ostler and leaves the rails as they
are.
What of it is the model's own reading or choice: log entries 37 and 39. -/
def Obligations.TripsAndMismatchesAreFatal : Prop :=  (∀ (s : State) (cause : Nat), s.power.standby = true → s.power.mrst = false → s.power.fatals.contains (0x0708, cause, 1) = false →
    ∃ t, exec (.trip cause) s = .next t ∧ t.regs.fatal = true ∧ t.power.rails = 0 ∧ (s.power.rails ≠ 0 → t.exec.cmds = [] ∧ t.queues = [])) ∧
  (∀ s : State, s.power.ostler = 1 → ∃ t, exec .lockstepMismatch s = .next t ∧ t.regs.fatal = true ∧ t.power.ostler = 3 ∧
    t.power.rails = s.power.rails ∧ t.exec = s.exec ∧ t.mem = s.mem ∧ t.queues = s.queues)

/-- R467: `REIN_n` brings the core to Walk at once; after its deassertion the core stays there for 100 µs more, and then the selection is made again.
What of it is the model's own reading or choice: log entries 15 and 38. -/
def Obligations.ReinHoldsTheCoreAtWalk : Prop :=  (∀ (s : State) (late : Bool), s.power.standby = true → s.power.rein = false → s.obj oGaitCurrent ≠ 0 → ∃ u : State, exec (.reinAssert late) s = .next u.staticCheck ∧
    u.power.rein = true ∧ u.obj oGaitCurrent = 0 ∧ u.obj oCoreClockKhz = 700000 ∧ u.obj oReinState = 1 ∧ u.exec = s.exec ∧ u.queues = s.queues) ∧
  (∀ s : State, s.power.rein = true → ∃ u : State, exec .reinDeassert s = .next u.staticCheck ∧ u.power = { s.power with rein := false, reinHold := true } ∧
    u.obj oReinState = 0 ∧ u.exec = s.exec ∧ u.mem = s.mem ∧ u.queues = s.queues) ∧
  (∀ s : State, s.power.reinHold = true → s.power.rein = false → ∃ t, exec .reinHoldExpire s = .next t ∧ t.power.reinHold = false ∧ t.exec = s.exec ∧
    (s.obj oGaitCurrent < t.selected → t.power.raising = some (t.selected, 6) ∨ (∃ c, t.power.raising = some (t.selected, c))))

/-- R472: an input power above the limit lowers the power gait by one; 50 ms of headroom raise it by one; 100 ms above the limit at Walk stop the assignment of
tiles until the power is at 95 % of the limit. R473: a point at its threshold lowers the thermal gait by one; 10 ms with every point 5 K below it raise it by one.
What of it is the model's own reading or choice: log entry 19. -/
def Obligations.PowerAndThermalLoopsMoveTheGait : Prop :=
  (∀ (s : State) (watts mv : Nat), s.power.ostler = 1 → s.obj oPowerLimitW < watts →
    ∃ t, exec (.powerGaitTick watts mv false) s = .next t ∧ t.power.powerGait = s.power.powerGait - 1 ∧ t.obj oInputPowerW = watts ∧
      t.obj oInputVoltageMv = mv ∧ t.exec = s.exec ∧ t.queues = s.queues) ∧
  (∀ (s : State) (watts mv : Nat) (due : Bool), s.power.ostler = 1 → 100 * watts ≤ 95 * s.obj oPowerLimitW → watts ≤ s.obj oPowerLimitW →
    ∃ t, exec (.powerGaitTick watts mv due) s = .next t ∧ t.power = { s.power with walkStall := false } ∧ t.obj oInputPowerW = watts ∧
      t.mem = s.mem ∧ t.exec = s.exec) ∧
  (∀ s : State, s.power.ostler = 1 → s.power.powerGait < 3 → ∃ t, exec .powerGaitRaise s = .next t ∧ t.power.powerGait = s.power.powerGait + 1 ∧
    t.exec = s.exec ∧ t.queues = s.queues) ∧
  (∀ s : State, s.power.ostler = 1 → s.obj oGaitCurrent = 0 → s.obj oPowerLimitW < s.obj oInputPowerW →
    exec .powerWalkStall s = .next (s.withPower { s.power with walkStall := true })) ∧
  (∀ (s : State) (points hbm : List Int), s.power.ostler = 1 → (∃ i, i < 96 ∧ 10000 ≤ points.getD i 0 ∧ points.getD i 0 < 2 ^ 31) →
    ∃ t, exec (.thermalGaitTick points hbm) s = .next t ∧ t.power.thermalGait = s.power.thermalGait - 1 ∧ t.exec = s.exec ∧ t.queues = s.queues) ∧
  (∀ s : State, s.power.ostler = 1 → s.power.thermalGait < 2 → (∀ n, 1 ≤ n → n ≤ 96 → s.point n < 9501) → (∀ k, k < 8 → s.stackTemp k < 9001) →
    ∃ t, exec .thermalGaitRaise s = .next t ∧ t.power.thermalGait = s.power.thermalGait + 1 ∧ t.exec = s.exec ∧ t.queues = s.queues)

/-- R474: an input outside 48 V to 58 V, but not below 46 V or above 60 V, puts the module at Walk; 10 ms back in range end that. The limits of Table 18-7 for
the coolant's inlet temperature: 5 K above the limit Trot at most, above it Canter at most.
What of it is the model's own reading or choice: log entries 19 and 39. -/
def Obligations.InputAndCoolantLimitTheGait : Prop :=  (∀ (s : State) (mv : Nat), s.power.standby = true → 46000 ≤ mv → mv < 48000 → s.power.inputGait ≠ 0 →
    ∃ t, exec (.inputVoltageExcursion mv) s = .next t ∧ t.power.inputGait = 0 ∧ t.obj oInputVoltageMv = mv ∧ t.obj oGaitCurrent = 0 ∧ t.exec = s.exec) ∧
  (∀ (s : State) (mv : Nat), s.power.inputGait = 0 → 48000 ≤ mv → mv ≤ 58000 → ∃ t, exec (.inputVoltageRecover mv) s = .next t ∧ t.power.inputGait = 3 ∧
    (s.power.railsDue = false → t.power.rails = s.power.rails) ∧ t.exec = s.exec) ∧
  (∀ (s : State) (inlet : Int), s.power.ostler = 1 → signed 32 (s.obj oCoolantInletLimitC) < inlet → inlet < 2 ^ 31 →
    ∃ t, exec (.coolantSample inlet inlet) s = .next t ∧
      t.power.coolantGait = (if signed 32 (s.obj oCoolantInletLimitC) + 500 < inlet then 1 else 2) ∧ t.exec = s.exec ∧ t.queues = s.queues)

/-- R470, R469: a droop lengthens the quarter's core cycles until its end is seen and is counted; a low margin raises the quarter's rail by 25 mV within
the gait's range, and with none the rail comes down by 2.5 mV within it. R471: a quarter at 92 °C or above with another of its partition 8 K cooler goes into
cooling; one with every point below 87 °C for 10 ms leaves it.
What of it is the model's own reading or choice: log entries 19 and 38. -/
def Obligations.QuartersFollowTheirSensors : Prop :=
  (∀ (s : State) (q : Fin 8), s.power.rails = 2 → s.power.stretched.contains q.val = false →
    ∃ t, exec (.droopDetect q) s = .next t ∧ t.power = { s.power with stretched := s.power.stretched ++ [q.val] } ∧
      t.obj oDroopStretches = min (s.obj oDroopStretches + 1) (2 ^ 64 - 1) ∧ t = { s with power := t.power, dict := t.dict }) ∧
  (∀ (s : State) (q : Fin 8), exec (.droopStretchEnd q) s = .next (s.withPower { s.power with stretched := s.power.stretched.erase q.val })) ∧
  (∀ (s : State) (q : Fin 8), s.power.rails = 2 → s.rail q.val + 250 ≤ railMax (s.obj oGaitCurrent) →
    ∃ t, exec (.canaryLowMargin q false) s = .next t ∧ t.rail q.val = s.rail q.val + 250 ∧ (∀ r, r ≠ q.val → t.rail r = s.rail r) ∧
      t.mem = s.mem ∧ t.exec = s.exec ∧ t.queues = s.queues ∧ t.regs = s.regs) ∧
  (∀ (s : State) (q : Fin 8), s.power.rails = 2 → s.power.raising = none → railMin (s.obj oGaitCurrent) + 25 ≤ s.rail q.val →
    s.rail q.val ≤ railMax (s.obj oGaitCurrent) →
    ∃ t, exec (.voltageStepDownTick q) s = .next t ∧ t.rail q.val = s.rail q.val - 25 ∧ (∀ r, r ≠ q.val → t.rail r = s.rail r) ∧
      t.mem = s.mem ∧ t.exec = s.exec ∧ t.queues = s.queues ∧ t.regs = s.regs) ∧
  (∀ (s : State) (q : Fin 8) (r : Nat), s.obj oThermalMigrationEnable = 1 → s.power.rails = 2 → s.power.cooling.contains q.val = false →
    9200 ≤ s.hottest q.val → r ∈ s.partitionQuarters (s.quarterPartition q.val) → r ≠ q.val → s.hottest r + 800 ≤ s.hottest q.val →
    ∃ t, exec (.quarterCoolingEnter q) s = .next t ∧ t.power = { s.power with cooling := s.power.cooling ++ [q.val] } ∧ t.exec = s.exec ∧
      t.queues = s.queues) ∧
  (∀ (s : State) (q : Fin 8), s.power.cooling.contains q.val = true → s.hottest q.val < 8700 →
    ∃ t, exec (.quarterCoolingLeave q) s = .next t ∧ t.power = { s.power with cooling := s.power.cooling.erase q.val } ∧ t.exec = s.exec ∧
      t.queues = s.queues)

/-! ## The dictionary -/

/-- R407: looking whether the static partitions keep their guarantees reports what has changed and does nothing else.
What of it is the model's own reading or choice: log entry 15. -/
def Obligations.StaticCheckOnlyReports : Prop :=  ∀ s : State, s.staticCheck.quiet = s.quiet ∧ s.staticCheck.queues = s.queues ∧ s.staticCheck.exec = s.exec ∧ s.staticCheck.power = s.power ∧
    ∀ key, s.staticCheck.obj key = s.obj key

/-- R420, R423, R424: a write of one object that passes the checks of Table 16-7 is applied, and its answer is status OK with the object's new
write-sequence number; one that fails a check changes nothing, and its answer names the check.
What of it is the model's own reading or choice: log entries 21 and 44. -/
def Obligations.ObjectWritesAreCheckedAndApplied : Prop :=  ∀ (i : Instr) (s : State) (via : Via) (r key v : Nat), objectWrite i = some (via, key, v) →
    (s.takesWrite via r key v → exec i s = .next ((s.applyWriteTo r key v State.applyRecord).answeredWrite tkOk key)) ∧
    (s.reaches via r key v → s.writeStatus r false (itemOf key v) ≠ tkOk →
      ∃ t, exec i s = .next t ∧ t = { s with dict := { s.dict with answers := t.dict.answers } } ∧
        ∃ n, t.dict.answers = s.dict.answers ++ [(s.writeStatus r false (itemOf key v), n)]) ∧
    (s.reaches via r key v → s.writeStatus r false (itemOf key v) = tkOk → s.ruleOk s r false key v = false →
      ∃ t, exec i s = .next t ∧ t = { s with dict := { s.dict with answers := t.dict.answers } } ∧
        ∃ n, t.dict.answers = s.dict.answers ++ [(tkRejected, n)])

/-- R83, R84, R499: STABLE_FLAGS_CLEAR clears every stable's flags or one's, TENANT_FLAGS the bits written as 1, TENANT_ATTRIB_QUOTA the tenant's entries and
its OTHER count; SPARE_AUTO_ACTIVATE holds what is written. R329, R330, R508: enabling the Spur starts perturbation, stopping it ends it; the production lock
stops it; a trace enabled from 0 numbers its frames from 0.
What of it is the model's own reading or choice: log entry 34. -/
def Obligations.FlagsQuotasSpurAndTrace : Prop :=
  (∀ (s : State) (via : Via) (r : Nat), s.takesWrite via r oStableFlagsClear 0 → ∃ t, exec (.stableFlagsClear via 0) s = .next t ∧
    (∀ i, i < 128 → t.obj (oStableFlags i) = 0) ∧ (∀ key, (∀ i, i < 128 → key ≠ oStableFlags i) → t.obj key = s.obj key) ∧ t.quiet.mem = s.quiet.mem) ∧
  (∀ (s : State) (via : Via) (r n : Nat), s.takesWrite via r oStableFlagsClear (n + 1) → ∃ t, exec (.stableFlagsClear via (n + 1)) s = .next t ∧
    t.obj (oStableFlags n) = 0 ∧ (∀ key, key ≠ oStableFlags n → t.obj key = s.obj key) ∧ t.quiet.mem = s.quiet.mem) ∧
  (∀ (s : State) (via : Via) (r : Nat) (n : Fin 1024) (v : Nat), s.takesWrite via r (oTenantFlags n.val) v → ∃ t, exec (.tenantFlagsClear via n v) s = .next t ∧
    t.obj (oTenantFlags n.val) = s.obj (oTenantFlags n.val) - (s.obj (oTenantFlags n.val) &&& v) ∧
    (∀ key, key ≠ oTenantFlags n.val → t.obj key = s.obj key) ∧ t.quiet.mem = s.quiet.mem ∧ t.exec = s.exec) ∧
  (∀ (s : State) (via : Via) (r : Nat) (n : Fin 1024) (v : Nat), s.takesWrite via r (oTenantAttribQuota n.val) v →
    ∃ t, exec (.tenantAttribQuota via n v) s = .next t ∧ t.obj (oTenantAttribQuota n.val) = v ∧ t.obj (oTenantAttribOtherNs n.val) = 0 ∧
    t.attribOf n.val = [] ∧ (∀ u, u ≠ n.val → t.attribOf u = s.attribOf u) ∧ t.exec = s.exec) ∧
  (∀ (s : State) (via : Via) (r v : Nat), s.takesWrite via r oSpareAutoActivate v → ∃ t, exec (.spareAutoActivateWrite via v) s = .next t ∧
    t.obj oSpareAutoActivate = v ∧ (∀ key, key ≠ oSpareAutoActivate → t.obj key = s.obj key) ∧ t.exec = s.exec) ∧
  (∀ (s : State) (via : Via) (r : Nat), s.takesWrite via r oSpurEnable 1 → ∃ t, exec (.spurEnable via 1) s = .next t ∧ t.obj oSpurEnable = 1 ∧
    t.obj oSpurState = (if s.obj oSpurProductionLock = 1 then 2 else 1) ∧ t.exec = s.exec ∧ t.queues = s.queues) ∧
  (∀ (s : State) (via : Via) (r : Nat), s.takesWrite via r oSpurEnable 0 → ∃ t, exec (.spurEnable via 0) s = .next t ∧ t.obj oSpurEnable = 0 ∧
    t.exec = s.exec ∧ t.queues = s.queues) ∧
  (∀ (s : State) (via : Via) (r : Nat), s.takesWrite via r oSpurProductionLock 1 → s.obj oSpurEnable ≤ 1 →
    ∃ t, exec (.spurProductionLock via 1) s = .next t ∧ t.obj oSpurProductionLock = 1 ∧ t.obj oSpurEnable = 0 ∧ t.obj oSpurState = 2 ∧ t.exec = s.exec) ∧
  (∀ (s : State) (via : Via) (r v : Nat), s.takesWrite via r oTraceEnable v → ∃ t, exec (.traceEnable via v) s = .next t ∧ t.obj oTraceEnable = v ∧
    t.obs = (if v = 1 ∧ s.obj oTraceEnable = 0 then { s.obs with frameSeq := 0 } else s.obs) ∧ t.exec = s.exec ∧ t.queues = s.queues)

/-- R261, R282, R385, R463, R501, R451: a read request's result object takes the value asked for and the request's write-sequence number.
What of it is the model's own reading or choice: log entry 80. -/
def Obligations.ReadRequestsAreAnswered : Prop :=  (∀ (s : State) (via : Via) (r : Nat) (n : Fin 1024) (v : Nat), s.takesWrite via r (oTenantRemudaReadReq n.val) v →
    ∃ t, exec (.tenantRemudaReadReq via n v) s = .next t ∧ t.obj (oTenantRemudaRead n.val) = s.imageOf v ∧
      t.dict.seq (oTenantRemudaRead n.val) = t.dict.seq (oTenantRemudaReadReq n.val) ∧ t.remuda = s.remuda ∧ t.exec = s.exec) ∧
  (∀ (s : State) (via : Via) (r v : Nat), s.takesWrite via r oRngProbeRequest v →
    ∃ t, exec (.rngProbeRequest via v) s = .next t ∧ t.obj oRngProbeResult = s.rngProbe v (t.dict.seq oRngProbeRequest) ∧ t.exec = s.exec) ∧
  (∀ (s : State) (via : Via) (r : Nat) (n : Fin 1024) (v : Nat), s.takesWrite via r (oTenantPostReadReq n.val) v →
    ∃ t, exec (.tenantPostReadReq via n v) s = .next t ∧
      t.obj (oTenantPostRead n.val) = s.postValue v + t.dict.seq (oTenantPostReadReq n.val) * 2 ^ 64 ∧ t.fabric = s.fabric ∧ t.exec = s.exec) ∧
  (∀ (s : State) (via : Via) (r : Nat) (n : Fin 1024) (v : Nat), s.takesWrite via r (oTenantAttribReadReq n.val) v →
    ∃ t, exec (.tenantAttribReadReq via n v) s = .next t ∧ t.obj (oTenantAttribRead n.val) = s.attribResult n.val v ∧ t.obs = s.obs ∧ t.exec = s.exec) ∧
  (∀ (s : State) (via : Via) (r v : Nat), s.takesWrite via r oLogReadReq v →
    ∃ t, exec (.logReadReq via v) s = .next t ∧ t.obj oLogRead = s.logRecord v ∧ t.dict.seq oLogRead = t.dict.seq oLogReadReq ∧ t.ostler.log = s.ostler.log ∧
      t.exec = s.exec)

/-- R386, R397, R398, R406, R364: an enabled tenant runs, or dismounts at once where it is held; a disabled one has no run state; `TENANT_HOLD` dismounts a
running tenant and lets one that nothing else holds resume; a reset puts it in run state 5; the posts of a new range are 0.
What of it is the model's own reading or choice: log entries 56 and 57. -/
def Obligations.TenantsAreEnabledHeldAndReset : Prop :=  (∀ (s : State) (via : Via) (r : Nat) (n : Fin 1024), s.takesWrite via r (oTenantEnable n.val) 1 → s.obj (oTenantEnable n.val) ≠ 1 →
    ∃ t, exec (.tenantEnable via n 1) s = .next t ∧ t.obj (oTenantEnable n.val) = 1 ∧
      t.obj (oTenantRunState n.val) = (if s.obj (oTenantHold n.val) = 1 then 2 else 1) ∧ t.exec = s.exec ∧ t.queues = s.queues) ∧
  (∀ (s : State) (via : Via) (r : Nat) (n : Fin 1024), s.takesWrite via r (oTenantEnable n.val) 0 → s.obj (oTenantEnable n.val) ≠ 0 →
    ∃ t, exec (.tenantEnable via n 0) s = .next t ∧ t.obj (oTenantEnable n.val) = 0 ∧ t.obj (oTenantRunState n.val) = 0 ∧ t.exec = s.exec) ∧
  (∀ (s : State) (via : Via) (r : Nat) (n : Fin 1024), s.takesWrite via r (oTenantHold n.val) 1 → s.tenantEnabled n.val = true →
    s.obj (oTenantRunState n.val) = 1 → ∃ t, exec (.tenantHold via n 1) s = .next t ∧ t.obj (oTenantHold n.val) = 1 ∧
      t.obj (oTenantRunState n.val) = 2 ∧ bit (t.preempt n.val).requests 1 = true ∧ t.exec = s.exec) ∧
  (∀ (s : State) (via : Via) (r : Nat) (n : Fin 1024), s.takesWrite via r (oTenantHold n.val) 0 → s.tenantEnabled n.val = true →
    s.obj (oTenantRunState n.val) = 3 → (s.preempt n.val).requests = 2 → ∃ t, exec (.tenantHold via n 0) s = .next t ∧
      t.obj (oTenantRunState n.val) = 4 ∧ (t.preempt n.val).requests = 0 ∧ t.exec = s.exec) ∧
  (∀ (s : State) (via : Via) (r : Nat) (n : Fin 1024) (v : Nat), s.takesWrite via r (oTenantReset n.val) v →
    ∃ t, exec (.tenantReset via n v) s = .next t ∧ t.obj (oTenantRunState n.val) = 5 ∧ t.queues = s.queues) ∧
  (∀ (s : State) (f : Fin 256), (∀ n, n < 1024 → s.tenantEnabled n = true → s.tenantFunction n ≠ f.val) → exec (.functionLevelReset f) s = .next s.staticCheck) ∧
  (∀ (s : State) (f : Fin 256) (n : Nat), n < 1024 → s.tenantEnabled n = true → s.tenantFunction n = f.val →
    ∃ t, exec (.functionLevelReset f) s = .next t ∧ t.obj (oTenantRunState n) = 5 ∧ t.queues = s.queues) ∧
  (∀ (s : State) (via : Via) (r : Nat) (n : Fin 1024) (v : Nat), s.takesWrite via r (oTenantPostRange n.val) v →
    ∃ t, exec (.tenantPostRange via n v) s = .next t ∧ t.obj (oTenantPostRange n.val) = v ∧
      (∀ p, t.postValue p = if rangeBase v ≤ p ∧ p < rangeBase v + rangeCount v then 0 else s.postValue p) ∧ t.exec = s.exec ∧ t.queues = s.queues)

/-- R119, R120: a write that sets ENABLE resets the queue and enables it, one that clears it makes the queue drain, and the end of the last command
disables a draining queue, with event 0x0011 and TENANT_EVENTS[2].
What of it is the model's own reading or choice: log entry 48. -/
def Obligations.QueuesEnableDrainAndDisable : Prop :=  (∀ (s : State) (via : Via) (r : Nat) (q : Fin 8194) (v : Nat), s.takesWrite via r (queueKey q.val) v → cfgEnable v = true →
    cfgEnable (s.queueCfg q.val) = false → ∃ t, exec (.queueEnable via q v) s = .next t ∧ t.queueCfg q.val = v ∧
      t.queue q.val = { Queue.idle with state := 1, heldRoom := (s.queue q.val).heldRoom } ∧ (∀ n, n ≠ q.val → t.queue n = s.queue n) ∧ t.exec = s.exec) ∧
  (∀ (s : State) (via : Via) (r : Nat) (q : Fin 8194) (v : Nat), s.takesWrite via r (queueKey q.val) v → cfgEnable v = false →
    cfgEnable (s.queueCfg q.val) = true → ∃ t, exec (.queueDisable via q v) s = .next t ∧ t.queueCfg q.val = v ∧
      t.queue q.val = { s.queue q.val with state := 2, waitsMet := [] } ∧ (∀ n, n ≠ q.val → t.queue n = s.queue n) ∧ t.exec = s.exec) ∧
  (∀ (s : State) (q : Fin 8194), (s.queue q.val).state = 2 → s.begunOf q.val = 0 → ∃ t, exec (.queueDrainComplete q) s = .next t ∧
    t.queue q.val = { s.queue q.val with state := 0, delayArmed := false } ∧ (∀ n, n ≠ q.val → t.queue n = s.queue n) ∧
    t.quiet = (s.setQueue q.val { s.queue q.val with state := 0, delayArmed := false }).quiet ∧
    (q.val < 8192 → bit (Store.get 0 t.regs.tenantEvents (q.val / 8)) 2 = true)) ∧
  (∀ (s : State) (q : Fin 8194), s.begunOf q.val ≠ 0 → exec (.queueDrainComplete q) s = .next s)

/-! ## Requests for memory -/

/-- R96 to R99: an allocation that passes its checks takes its granules at once, and its result maps the slots onto zeroed granules; one that fails maps
nothing and its result gives the status. A free takes the slots away at once; its result waits for the commands that began before it.
What of it is the model's own reading or choice: log entries 5, 24 and 25. -/
def Obligations.PaddockRequestsAndResults : Prop :=  (∀ (s : State) (via : Via) (r : Nat) (n : Fin 1024) (v : Nat), s.takesWrite via r (oTenantPaddockRequest n.val) v → padOp v ≠ 2 →
    s.padAllocStatus n.val v (s.partitionQuarters (s.obj (oTenantPartition n.val))) ≠ 0 →
    ∃ t, exec (.paddockAllocate via n v) s = .next t ∧ t.mem.granOwner = s.mem.granOwner ∧ t.mem.allocs = s.mem.allocs ∧
      (∃ q : DelayedReq, t.mem.delayed = s.mem.delayed ++ [q] ∧ q.obj = oTenantPaddockRequest n.val ∧
        q.status = s.padAllocStatus n.val v (s.partitionQuarters (s.obj (oTenantPartition n.val))) ∧ q.alloc = none)) ∧
  (∀ (s : State) (via : Via) (r : Nat) (n : Fin 1024) (v : Nat), s.takesWrite via r (oTenantPaddockRequest n.val) v → padOp v ≠ 2 →
    s.padAllocStatus n.val v (s.partitionQuarters (s.obj (oTenantPartition n.val))) = 0 →
    ∃ t, exec (.paddockAllocate via n v) s = .next t ∧ t.mem.allocs = s.mem.allocs ∧
      (∀ g, g ∈ (s.padMap v (s.partitionQuarters (s.obj (oTenantPartition n.val)))).flatten → t.granuleOwner g = n.val) ∧
      (∀ g, g ∉ (s.padMap v (s.partitionQuarters (s.obj (oTenantPartition n.val)))).flatten → t.granuleOwner g = s.granuleOwner g) ∧
      (∃ q : DelayedReq, t.mem.delayed = s.mem.delayed ++ [q] ∧ q.obj = oTenantPaddockRequest n.val ∧ q.status = 0 ∧
        q.alloc = some ⟨padBase v, padCount v, padClass v, padQuarter v, s.padMap v (s.partitionQuarters (s.obj (oTenantPartition n.val)))⟩)) ∧
  (∀ (s : State) (n : Fin 1024) (q : DelayedReq) (a : Alloc), s.dueOf (oTenantPaddockRequest n.val) = some q → padOp q.value ≠ 2 → q.alloc = some a →
    s.dict.waitingMsgs = [] → ∃ t, exec (.paddockAllocateResult n) s = .next t ∧
      Store.get [] t.mem.allocs n.val = Store.get [] s.mem.allocs n.val ++ [a] ∧
      (∀ g off, g ∈ a.map.flatten → off < 2 ^ 20 → t.mem.read (paddockKey g off) = 0) ∧
      (∀ k, (∀ g off, g ∈ a.map.flatten → off < 2 ^ 20 → k ≠ paddockKey g off) → t.mem.read k = s.mem.read k) ∧
      t.obj (oTenantPaddockResult n.val) = padResult q.status (s.granulesHeld n.val) q.seq ∧ t.dict.seq (oTenantPaddockResult n.val) = q.seq ∧
      t.exec = s.exec) ∧
  (∀ (s : State) (n : Fin 1024) (q : DelayedReq), s.dueOf (oTenantPaddockRequest n.val) = some q → padOp q.value ≠ 2 → q.alloc = none →
    s.dict.waitingMsgs = [] → ∃ t, exec (.paddockAllocateResult n) s = .next t ∧ t.mem = { s.mem with delayed := s.mem.delayed.erase q } ∧
      t.obj (oTenantPaddockResult n.val) = padResult q.status (s.granulesHeld n.val) q.seq ∧ t.exec = s.exec) ∧
  (∀ (s : State) (via : Via) (r : Nat) (n : Fin 1024) (v : Nat) (a : Alloc), s.takesWrite via r (oTenantPaddockRequest n.val) v → padOp v = 2 →
    padFieldsOk [] v = true → (Store.get [] s.mem.allocs n.val).find? (fun a => a.base == padBase v && a.count == padCount v) = some a →
    ∃ t, exec (.paddockFree via n v) s = .next t ∧ Store.get [] t.mem.allocs n.val = (Store.get [] s.mem.allocs n.val).erase a ∧
      t.mem.granOwner = s.mem.granOwner ∧
      (∃ q : DelayedReq, t.mem.delayed = s.mem.delayed ++ [q] ∧ q.status = 0 ∧ q.waitFor = s.begunIds (some n.val))) ∧
  (∀ (s : State) (n : Fin 1024) (q : DelayedReq), s.dueOf (oTenantPaddockRequest n.val) = some q → padOp q.value = 2 → q.waitFor.any s.holdsResult = true →
    s.dict.waitingMsgs = [] → exec (.paddockFreeResult n) s = .next s) ∧
  (∀ (s : State) (n : Fin 1024) (q : DelayedReq), s.dueOf (oTenantPaddockRequest n.val) = some q → padOp q.value = 2 → q.waitFor.any s.holdsResult = false →
    q.alloc = none → s.dict.waitingMsgs = [] → ∃ t, exec (.paddockFreeResult n) s = .next t ∧
      t.obj (oTenantPaddockResult n.val) = padResult q.status (s.granulesHeld n.val) q.seq ∧ t.mem.delayed = s.mem.delayed.erase q ∧ t.exec = s.exec) ∧
  (∀ (s : State) (n : Fin 1024) (q : DelayedReq) (a : Alloc), s.dueOf (oTenantPaddockRequest n.val) = some q → padOp q.value = 2 → q.waitFor = [] →
    q.alloc = some a → s.mem.suspectGranules = [] → s.dict.waitingMsgs = [] → ∃ t, exec (.paddockFreeResult n) s = .next t ∧
      (∀ g, g ∈ a.map.flatten → t.granuleOwner g = ownerFree) ∧ (∀ g, g ∉ a.map.flatten → t.granuleOwner g = s.granuleOwner g) ∧ t.exec = s.exec)

/-- R101, R105, R106: frames that pass the checks are nobody's until the result, and then zeroed and their owner's; frames released are free when their
result is; an invalidation ends once the commands begun before it have completed.
What of it is the model's own reading or choice: log entries 24, 25 and 85. -/
def Obligations.FrameRequestsAndResults : Prop :=  (∀ (s : State) (via : Via) (r v : Nat), s.takesWrite via r oHbmFrameRequest v → frOp v ≠ 2 → s.frameStatus v = 0 →
    ∃ t, exec (.hbmFrameAssign via v) s = .next t ∧
      (∀ f, Store.get ownerFree t.mem.frameOwner f = if frFirst v ≤ f ∧ f < frFirst v + frCount v then ownerLeaving else Store.get ownerFree s.mem.frameOwner f) ∧
      (∃ q : DelayedReq, t.mem.delayed = s.mem.delayed ++ [q] ∧ q.obj = oHbmFrameRequest ∧ q.status = 0) ∧ t.exec = s.exec) ∧
  (∀ (s : State) (via : Via) (r v : Nat), s.takesWrite via r oHbmFrameRequest v → frOp v = 2 → s.frameStatus v = 0 →
    ∃ t, exec (.hbmFrameRelease via v) s = .next t ∧
      (∀ f, Store.get ownerFree t.mem.frameOwner f = if frFirst v ≤ f ∧ f < frFirst v + frCount v then ownerLeaving else Store.get ownerFree s.mem.frameOwner f) ∧
      (∃ q : DelayedReq, t.mem.delayed = s.mem.delayed ++ [q] ∧ q.obj = oHbmFrameRequest ∧ q.status = 0) ∧ t.exec = s.exec) ∧
  (∀ (s : State) (q : DelayedReq), s.dueOf oHbmFrameRequest = some q → frOp q.value ≠ 2 → q.status = 0 → s.dict.waitingMsgs = [] →
    ∃ t, exec .hbmFrameAssignResult s = .next t ∧
      (∀ k, t.mem.read k = if frFirst q.value * frameBytes ≤ k ∧ k < (frFirst q.value + frCount q.value) * frameBytes then 0 else s.mem.read k) ∧
      (∀ f, Store.get ownerFree t.mem.frameOwner f =
        if frFirst q.value ≤ f ∧ f < frFirst q.value + frCount q.value then frOwner q.value else Store.get ownerFree s.mem.frameOwner f) ∧
      t.obj oHbmFrameResult = frResult 0 (t.framesHeld (frOwner q.value)) q.seq ∧ t.dict.seq oHbmFrameResult = q.seq ∧ t.exec = s.exec) ∧
  (∀ (s : State) (q : DelayedReq), s.dueOf oHbmFrameRequest = some q → frOp q.value ≠ 2 → q.status ≠ 0 → s.dict.waitingMsgs = [] →
    ∃ t, exec .hbmFrameAssignResult s = .next t ∧ t.mem = { s.mem with delayed := s.mem.delayed.erase q } ∧
      t.obj oHbmFrameResult = frResult q.status (s.framesHeld (frOwner q.value)) q.seq ∧ t.exec = s.exec) ∧
  (∀ (s : State) (q : DelayedReq), s.dueOf oHbmFrameRequest = some q → frOp q.value = 2 → q.waitFor.any s.holdsResult = true → s.dict.waitingMsgs = [] →
    exec .hbmFrameReleaseResult s = .next s) ∧
  (∀ (s : State) (q : DelayedReq), s.dueOf oHbmFrameRequest = some q → frOp q.value = 2 → q.status = 0 → q.waitFor = [] → s.mem.suspectFrames = [] →
    s.dict.waitingMsgs = [] → ∃ t, exec .hbmFrameReleaseResult s = .next t ∧
      (∀ f, Store.get ownerFree t.mem.frameOwner f =
        if frFirst q.value ≤ f ∧ f < frFirst q.value + frCount q.value then ownerFree else Store.get ownerFree s.mem.frameOwner f) ∧ t.exec = s.exec) ∧
  (∀ (s : State) (via : Via) (r : Nat) (n : Fin 1024) (v : Nat), s.takesWrite via r (oTenantTlbInvalidate n.val) v →
    ∃ t, exec (.tenantTlbInvalidate via n v) s = .next t ∧ (∃ q : DelayedReq, t.mem.delayed = s.mem.delayed ++ [q] ∧ q.waitFor = s.begunIds (some n.val)) ∧
      t.exec = s.exec ∧ t.queues = s.queues) ∧
  (∀ (s : State) (n : Fin 1024) (q : DelayedReq), s.dueOf (oTenantTlbInvalidate n.val) = some q →
    exec (.tlbInvalidateComplete n) s = .next (if q.waitFor.any s.holdsResult = true then s else s.withMem { s.mem with delayed := s.mem.delayed.erase q }))

/-! ## The Ostler's objects -/

/-- R476, R465, R487, R341, R430, R363, R359: the rails go off at 0 and come on at 1 where policy and state allow; the ceiling is in force at once; a
retirement names its stable; a new borough number is confirmed; the address is lost; a port enabled trains, or waits for power, and one disabled is DISABLED.
What of it is the model's own reading or choice: log entries 40 and 66. -/
def Obligations.OstlerObjectsTakeEffect : Prop :=  (∀ (s : State) (via : Via) (r : Nat), s.takesWrite via r oMainRailsCommand 1 → s.obj oMainRailsPolicy = 0 → s.railsAllowed = true →
    ∃ t, exec (.mainRailsCommand via 1) s = .next t ∧ t.power = { s.power with rails := 1, railsDue := false } ∧ t.obj oMainRailsCommand = 1 ∧ t.exec = s.exec ∧
      t.queues = s.queues) ∧
  (∀ (s : State) (via : Via) (r : Nat), s.takesWrite via r oMainRailsCommand 0 → s.power.rails = 0 →
    ∃ t, exec (.mainRailsCommand via 0) s = .next t ∧ t.power = { s.power with railsDue := false } ∧ t.obj oMainRailsCommand = 0 ∧ t.exec = s.exec) ∧
  (∀ (s : State) (via : Via) (r : Nat), s.takesWrite via r oMainRailsCommand 0 → s.power.rails ≠ 0 →
    ∃ t, exec (.mainRailsCommand via 0) s = .next t ∧ t.power.rails = 0 ∧ t.power.pcie = 0 ∧ t.exec.cmds = [] ∧ t.queues = []) ∧
  (∀ (s : State) (via : Via) (r v : Nat), s.takesWrite via r oGaitCeiling v → ∃ t, exec (.gaitCeilingWrite via v) s = .next t ∧
    t.obj oGaitCeiling = v ∧ (s.power.rein = false → s.power.reinHold = false → t.selected ≤ v) ∧ (t.obj oGaitCurrent ≤ t.selected ∨ t.obj oGaitCurrent = s.obj oGaitCurrent) ∧
    t.exec = s.exec ∧ t.queues = s.queues) ∧
  (∀ (s : State) (via : Via) (r v : Nat), s.takesWrite via r oStableRetireRequest v → (s.stable v).service ≠ 3 → v < 136 →
    ∃ t, exec (.stableRetireRequest via v) s = .next t ∧ (t.stable v).service = 3 ∧ bit (t.obj oRetiredStables) v = true ∧ t.queues = s.queues) ∧
  (∀ (s : State) (via : Via) (r v : Nat), s.takesWrite via r oTopoBoroughNumber v →
    ∃ t, exec (.topoBoroughNumberWrite via v) s = .next t ∧ t.boroughNumber = v ∧ t.obj oTopoBoroughConfirmed = 1 ∧ t.exec = s.exec ∧ t.queues = s.queues) ∧
  (∀ (s : State) (via : Via) (r v : Nat), s.takesWrite via r oHalterRelease v →
    ∃ t, exec (.halterRelease via v) s = .next t ∧ t.obj oHalterPlcaNode = 0 ∧ t.power.leadOutLow = true ∧ t.power.offer = none ∧ t.queues = s.queues) ∧
  (∀ (s : State) (via : Via) (r : Nat) (p : Fin 16), s.takesWrite via r (oLinkEnable p.val) 1 → s.linkState p.val = 0 →
    ∃ t, exec (.linkEnableWrite via p 1) s = .next t ∧ t.linkState p.val = (if s.portsCan = true then 2 else 1) ∧ t.obj (oLinkEnable p.val) = 1 ∧
      t.exec = s.exec ∧ t.queues = s.queues) ∧
  (∀ (s : State) (via : Via) (r : Nat) (p : Fin 16), s.takesWrite via r (oLinkEnable p.val) 0 → s.portUp p.val = false →
    ∃ t, exec (.linkEnableWrite via p 0) s = .next t ∧ t.linkState p.val = 0 ∧ t.obj (oLinkEnable p.val) = 0 ∧ t.exec = s.exec ∧ t.queues = s.queues) ∧
  (∀ (s : State) (via : Via) (r : Nat) (p : Fin 2) (v : Nat), s.takesWrite via r (oLineagePortMode p.val) v →
    ∃ t, exec (.lineagePortModeWrite via p v) s = .next t ∧ t.obj (oLineagePortMode p.val) = v ∧
      t.linkState (16 + p.val) = (if v = 0 then 0 else if s.portsCan = true then 2 else 1) ∧ t.exec = s.exec ∧ t.queues = s.queues)

/-- R487: a retire request retires the named stable at once, with cause 4 in event 0x0802; a powered-down spare retires with QUARTER_SPARE_STATE 2 and no
tile is affected. A value above 135 is refused with RANGE, a stable already retired with REJECTED. -/
def Obligations.RetireRequestsAreTaken : Prop :=
  (∀ (s : State) (via : Via) (r v : Nat), s.takesWrite via r oStableRetireRequest v → (s.stable v).service ≠ 3 → s.ostler.logBuf.length < 256 →
    ∃ t, exec (.stableRetireRequest via v) s = .next t ∧ (t.stable v).service = 3 ∧ (t.stable v).logical = none ∧
      (∀ p, p ≠ v → { t.stable p with manger := [] } = { s.stable p with manger := [] }) ∧
      bit (t.obj oRetiredStables) v = true ∧ (∃ l ∈ t.ostler.logBuf, l.seq = s.regs.eventSeq ∧ l.ev.code = 0x0802 ∧ bits l.ev.param 0 8 = v ∧ bits l.ev.param 16 4 = 4) ∧
      ((s.stable v).service = 1 → t.obj (oQuarterSpareState (v / 17)) = 2 ∧ t.exec.cmds = s.exec.cmds) ∧ t.queues = s.queues) ∧
  (∀ (s : State) (via : Via) (r v : Nat), s.reaches via r oStableRetireRequest v → r ≤ 1 → s.power.ostler = 1 → 135 < v →
    ∃ t n, exec (.stableRetireRequest via v) s = .next t ∧ t = { s with dict := { s.dict with answers := s.dict.answers ++ [(tkRange, n)] } }) ∧
  (∀ (s : State) (via : Via) (r v : Nat), s.reaches via r oStableRetireRequest v → r ≤ 1 → s.power.ostler = 1 → v ≤ 135 → bit (s.obj oRetiredStables) v = true →
    s.dict.txs = [] → ∃ t n, exec (.stableRetireRequest via v) s = .next t ∧ t = { s with dict := { s.dict with answers := s.dict.answers ++ [(tkRejected, n)] } })

/-- R459: Begin opens the session of its master and empties the inactive slot; a chunk is appended to it; Verify accepts a sound image; Activate makes it the
one to boot; Abandon, and 600 s without a command, end the session; a step out of order fails it.
What of it is the model's own reading or choice: log entries 16 and 43. -/
def Obligations.StagingFollowsItsStates : Prop :=  (∀ (s : State) (via : Via) (r : Nat), s.takesWrite via r oFwStageCommand 1 → s.obj oFwActiveSlot ≤ 1 → s.ostler.slots.length = 2 →
    ∃ t, exec (.fwStageBegin via) s = .next t ∧ t.obj oFwStageState = 1 ∧ t.ostler.session = some r ∧ t.slotAt s.inactiveSlot = ⟨false, []⟩ ∧
      t.slotAt (1 - s.inactiveSlot) = s.slotAt (1 - s.inactiveSlot) ∧ t.exec = s.exec) ∧
  (∀ (s : State) (via : Via) (r v : Nat), s.takesWrite via r oFwStageChunk v → s.obj oFwActiveSlot ≤ 1 → s.ostler.slots.length = 2 →
    s.obj oFwStageState = 1 → (s.slotAt s.inactiveSlot).bytes = [] ∨ (s.slotAt s.inactiveSlot).bytes.length < recLength (s.slotAt s.inactiveSlot).bytes →
    (s.slotAt s.inactiveSlot).bytes.length < 67108864 →
    ∃ t, exec (.fwStageChunk via v) s = .next t ∧ (t.slotAt s.inactiveSlot).bytes = (s.slotAt s.inactiveSlot).bytes ++ toLe 1024 v ∧
      t.obj oFwStageState = 1 ∧ t.exec = s.exec) ∧
  (∀ (s : State) (via : Via) (r v : Nat), s.takesWrite via r oFwStageChunk v → s.obj oFwStageState ≠ 1 →
    ∃ t, exec (.fwStageChunk via v) s = .next t ∧ t.obj oFwStageState = 5 ∧ t.exec = s.exec) ∧
  (∀ (s : State) (via : Via) (r : Nat), s.takesWrite via r oFwStageCommand 2 → s.obj oFwStageState = 1 →
    le (s.slotAt s.inactiveSlot).bytes 4 1 ≠ 2 → ∃ t, exec (.fwStageVerify via) s = .next t ∧
      t.obj oFwStageState = (if imageRefusal (s.obj oFwRollbackCounter) (s.slotAt s.inactiveSlot).bytes = none then 2 else 5) ∧ t.exec = s.exec) ∧
  (∀ (s : State) (via : Via) (r : Nat), s.takesWrite via r oFwStageCommand 3 → ∃ t, exec (.fwStageActivate via) s = .next t ∧
      t.obj oFwStageState = (if s.obj oFwStageState = 2 then 4 else 5) ∧ (s.obj oFwStageState = 2 → t.ostler.session = none) ∧
      t.ostler.slots = s.ostler.slots ∧ t.exec = s.exec) ∧
  (∀ (s : State) (via : Via) (r : Nat), s.takesWrite via r oFwStageCommand 4 → ∃ t, exec (.fwStageAbandon via) s = .next t ∧
      t.obj oFwStageState = 0 ∧ t.ostler.session = none ∧ t.ostler.slots = s.ostler.slots ∧ t.exec = s.exec) ∧
  (∀ s : State, s.ostler.session.isSome = true → ∃ t, exec .fwStageTimeout s = .next t ∧ t.obj oFwStageState = 0 ∧ t.ostler.session = none ∧
      t.ostler.slots = s.ostler.slots ∧ t.mem = s.mem ∧ t.queues = s.queues ∧ t.exec = s.exec)

/-! ## Messages of the Tack protocol -/

/-- R421 to R425, R431, R435: a READ is answered with the applied values, a WRITE item by item; one that names a request whose result is due waits whole,
and one whose own item makes a result due waits with its later items for it; a malformed message is answered MALFORMED and changes nothing; TX_BEGIN opens the sender's one transaction, TX_ROLLBACK discards it, and a WRITE that
carries its handle stages its items.
What of it is the model's own reading or choice: log entries 17, 45 and 112. -/
def Obligations.TackMessagesAreServed : Prop :=  ∀ (s a : State) (via : Via) (r : Nat) (b : List Byte), s.serving via b = some (a, r) →
    (headerOk r b = false → (msgOp b = 0x01 → exec (.tackRead via b) s = .next (a.deliver r true (respondStatus r b tkMalformed))) ∧
      (msgOp b = 0x02 → exec (.tackWrite via b) s = .next (a.deliver r true (respondStatus r b tkMalformed))) ∧
      (msgOp b = 0x10 → exec (.txBegin via b) s = .next (a.deliver r true (respondStatus r b tkMalformed))) ∧
      (msgOp b = 0x12 → exec (.txRollback via b) s = .next (a.deliver r true (respondStatus r b tkMalformed)))) ∧
    (headerOk r b = true → msgHandle b = 0 → ∀ items,
      (msgOp b = 0x01 → parseItems false (msgCount b) (b.drop 16) = some items →
        exec (.tackRead via b) s = .next ((a.readItems r items).1.deliver r true (respond r b tkOk 0 items.length (a.readItems r items).2))) ∧
      (msgOp b = 0x02 → parseItems true (msgCount b) (b.drop 16) = some items → a.mustWait items = false →
        ((a.writeItems r items).2.2 = [] →
          exec (.tackWrite via b) s = .next ((a.writeItems r items).1.deliver r true (respond r b tkOk 0 items.length (a.writeItems r items).2.1))) ∧
        ((a.writeItems r items).2.2 ≠ [] → exec (.tackWrite via b) s = .next
          ((a.writeItems r items).1.holdMsg ⟨r, true, b, items.length - (a.writeItems r items).2.2.length, (a.writeItems r items).2.1⟩))) ∧
      (msgOp b = 0x02 → parseItems true (msgCount b) (b.drop 16) = some items → a.mustWait items = true →
        exec (.tackWrite via b) s = .next (a.holdMsg ⟨r, true, b, 0, []⟩))) ∧
    (bareMessage r 0x10 b → r < 2 → a.tx? r = none →
      ∃ u : State, u.tx? r = some ⟨a.dict.nextHandle, [], false, 0⟩ ∧ u = { a with dict := { a.dict with txs := u.dict.txs, nextHandle := u.dict.nextHandle } } ∧
        exec (.txBegin via b) s = .next (u.deliver r true (respond r b tkOk a.dict.nextHandle 0 []))) ∧
    (∀ x, bareMessage r 0x12 b → a.tx? r = some x → x.handle = msgHandle b → x.committing = false →
      exec (.txRollback via b) s = .next ((a.dropTx r).deliver r true (respondStatus r b tkOk))) ∧
    (∀ x items u, headerOk r b = true → msgOp b = 0x02 → msgHandle b ≠ 0 → parseItems true (msgCount b) (b.drop 16) = some items → a.tx? r = some x →
      x.handle = msgHandle b → x.committing = false → a.stageItems r x items = some u →
      exec (.tackWrite via b) s = .next (u.1.deliver r true (respond r b tkOk (msgHandle b) items.length u.2)))

/-- R433 to R435: a commit with no reason against it applies its staged writes in their order once no tile stands in Fill or Run where it must not, and
until then waits; with a reason it applies none and answers COMMIT_FAILED; so does one whose wait ends at 1 ms, with reason 7, and one that its
transaction's 10 s overtake, with reason 8. One that names a request whose result is due waits for it.
What of it is the model's own reading or choice: log entries 45, 46 and 112. -/
def Obligations.CommitsApplyAllOrNothing : Prop :=  (∀ (s a : State) (via : Via) (r : Nat) (b : List Byte) (x : Tx), s.serving via b = some (a, r) → bareMessage r 0x11 b → a.tx? r = some x →
    x.handle = msgHandle b → x.committing = false →
    (x.staged.any (fun w => a.resultDue w.1) = true → exec (.txCommit via b false) s = .next (a.holdMsg ⟨r, true, b, 0, []⟩)) ∧
    (∀ f, x.staged.any (fun w => a.resultDue w.1) = false → a.commitFailure r x.staged = some f →
      exec (.txCommit via b false) s = .next ((a.dropTx r).deliver r true (respond r b tkCommitFailed (msgHandle b) 0 (failureBody f.1 f.2)))) ∧
    (x.staged.any (fun w => a.resultDue w.1) = false → a.commitFailure r x.staged = none → a.commitQuiet x.staged = true → exec (.txCommit via b false) s =
      .next (((a.dropTx r).applyStaged r x.staged).deliver r true
        (respond r b tkOk (msgHandle b) x.staged.length (((a.dropTx r).applyStaged r x.staged).commitItems x.staged)))) ∧
    (x.staged.any (fun w => a.resultDue w.1) = false → a.commitFailure r x.staged = none → a.commitQuiet x.staged = false →
      exec (.txCommit via b false) s = .next (a.setTx r { x with committing := true, reply := msgId b })) ∧
    exec (.txCommit via b true) s = .next (((a.dropTx r).event ⟨0x0600, 0, 0, 0, x.handle⟩).deliver r true
      (respond r b tkCommitFailed (msgHandle b) 0 (failureBody 8 0xFFFF)))) ∧
  (∀ (s : State) (m : Fin 2) (x : Tx), s.tx? m.val = some x → x.committing = true →
    (s.commitQuiet x.staged = true → x.staged.any (fun w => s.resultDue w.1) = false → exec (.txCommitApply m) s = .next (((s.dropTx m.val).applyStaged m.val x.staged).deliver m.val true
      (respond m.val (commitRequest x.reply x.handle) tkOk (msgHandle (commitRequest x.reply x.handle)) x.staged.length
        (((s.dropTx m.val).applyStaged m.val x.staged).commitItems x.staged)))) ∧
    (s.commitQuiet x.staged = false ∨ x.staged.any (fun w => s.resultDue w.1) = true → exec (.txCommitApply m) s = .next s) ∧
    exec (.txQuiescenceTimeout m) s = .next ((s.dropTx m.val).deliver m.val true
      (respond m.val (commitRequest x.reply x.handle) tkCommitFailed (msgHandle (commitRequest x.reply x.handle)) 0 (failureBody 7 0xFFFF))) ∧
    exec (.txExpire m) s = .next s) ∧
  (∀ (s : State) (m : Fin 2) (x : Tx), s.tx? m.val = some x → x.committing = false →
    exec (.txExpire m) s = .next ((s.dropTx m.val).event ⟨0x0600, 0, 0, 0, x.handle⟩)) ∧
  (∀ (s : State) (m : Nat), (s.dropTx m).tx? m = none)

/-- R427 to R429: an offer is taken by a module without an address whose `LEAD_IN` is high, and answered with its serial and MAC; its confirmation gives
the address, the numbers and the controller, and releases `LEAD_OUT`; after 100 ms without one the offer is gone.
What of it is the model's own reading or choice: log entries 18 and 79. -/
def Obligations.EnumerationTakesItsSteps : Prop :=  (∀ (s : State) (b body : List Byte), s.ostlerUp = true → s.obj oHalterPlcaNode = 0 → s.power.leadIn = true → s.power.beacon = true →
    enumBody 0x20 8 b = some body → offerOk body = true → ∃ t, exec (.enumOffer b) s = .next t ∧ t.power = { s.power with offer := some (body.take 8) } ∧
      t.dict = { s.dict with busOut := s.dict.busOut ++ [s.enumAccept b body] } ∧ t = { s with power := t.power, dict := t.dict }) ∧
  (∀ (s : State) (b : List Byte), s.obj oHalterPlcaNode ≠ 0 ∨ s.power.leadIn = false → exec (.enumOffer b) s = .next s) ∧
  (∀ (s : State) (src : Nat) (b o body : List Byte), s.ostlerUp = true → s.obj oHalterPlcaNode = 0 → s.power.offer = some o →
    enumBody 0x22 16 b = some body → offerOk body = true → le body 4 4 = le o 4 4 → le body 8 8 = s.obj oModuleSerial →
    ∃ t, exec (.enumConfirm src b) s = .next t ∧ t.obj oHalterPlcaNode = le body 0 1 ∧ t.obj oTopoDeviceNumber = le body 1 1 ∧
      t.obj oTopoBoroughNumber = le body 2 1 ∧ t.obj oHalterControllerAddr = src % 2 ^ 128 ∧ t.power.offer = none ∧ t.power.leadOutLow = false ∧
      t.exec = s.exec ∧ t.queues = s.queues) ∧
  (∀ s : State, exec .enumConfirmTimeout s = .next (s.withPower { s.power with offer := none })) ∧
  (∀ s : State, s.power.standby = true → exec .leadInHigh s = .next (s.withPower { s.power with leadIn := true })) ∧
  (∀ s : State, exec .halterBeaconLoss s = .next (s.withPower { s.power with beacon := false })) ∧
  (∀ s : State, exec .halterBeaconResume s = .next (s.withPower { s.power with beacon := true }))

/-! ## Tiles, stables and faults -/

/-- R25, R26, R27: a swap makes the filled shadow registers active and the active ones shadow, whose registers then take the walker's next slice where
there is one, and the accumulators hold what the lanes have taken so far; with its last slice the tile drains. The first swap of a tile waits for the
arbiter of its stable (R392). R39, R40, R83: a drained tile commits: its flags join its command's, its stable's and its tenant's; memory stays as it is
until the command completes.
What of it is the model's own reading or choice: log entries 8, 35, 65 and 81. -/
def Obligations.TilesSwapAndCommit : Prop :=
  (∀ (s g : State) (id ti : Nat) (c : Cmd) (t : Tile), s.tile? id ti = some (c, t) → s.tilesMove c.tenant = true → t.state = .fill ∨ t.state = .run →
    t.swapped < t.slices → s.tileHeld c t = false → (s.stable t.stable).service = 0 → s.stableRuns t.stable id ti = false →
    s.stableCurrent t.stable = true → t.swapped ≠ 0 ∨ s.holdsTiles t.stable = false → s.obj oSpurEnable ≠ 1 →
    (s.setTile id ti t).takeStable t id ti = some g →
    ∃ u, exec (.shadowSwap id ti) s = .next u ∧
      (u.stable t.stable).active = (if (s.stable t.stable).shadowTag = some (id, ti, t.swapped) then (s.stable t.stable).shadow
        else tileSlice (c.stationary.getD t.prod ⟨1, 1, 0, false, 256, [], []⟩) t t.swapped) ∧
      (u.stable t.stable).activeTag = some (id, ti, t.swapped) ∧
      ((g.nextFill t.stable id ti t.swapped t).isNone = true → (u.stable t.stable).shadow = (s.stable t.stable).active) ∧
      (∀ p x tag, g.nextFill t.stable id ti t.swapped t = some (p, x, tag) → (u.stable t.stable).shadow = tileSlice p x tag.2.2 ∧
        (u.stable t.stable).shadowTag = some tag) ∧
      (u.stable t.stable).acc = tileAcc (c.stationary.getD t.prod ⟨1, 1, 0, false, 256, [], []⟩) t (t.swapped + 1) ∧
      (∀ p, p ≠ t.stable → u.stable p = s.stable p) ∧
      u.tile? id ti = some ({ c with tiles := c.tiles.set ti { t with swapped := t.swapped + 1, state := if t.swapped + 1 = t.slices then .drain else .run } },
        { t with swapped := t.swapped + 1, state := if t.swapped + 1 = t.slices then .drain else .run }) ∧
      u = { s with exec := u.exec, sched := u.sched }) ∧
  (∀ (s : State) (id ti : Nat) (t : Tile), t.swapped ≠ 0 → s.takeStable t id ti = some s) ∧
  (∀ (s : State) (id ti ns : Nat) (c : Cmd) (t : Tile) (l n : Nat), s.tile? id ti = some (c, t) → s.tilesMove c.tenant = true → t.state = .drain →
    lastSegmentReady c t = true → s.tileHeld c t = false → (s.stable t.stable).service = 0 → (s.stable t.stable).logical = some l → c.tenant = some n →
    n < 1024 → l < 128 → s.obj oSpurEnable ≠ 1 → t.grant = 0 → s.coll? id = none →
    ∃ u c', exec (.tileCommit id ti ns) s = .next u ∧ u.cmd? id = some c' ∧ c'.flags = c.flags ||| t.flags ∧ c'.tiles[ti]? = some { t with state := .done } ∧
      c'.writes = c.writes ∧ u.obj (oStableFlags l) = s.obj (oStableFlags l) ||| t.flags.toNat ∧
      u.obj (oTenantFlags n) = s.obj (oTenantFlags n) ||| t.flags.toNat ∧ u.mem = s.mem ∧ u.queues = s.queues ∧ u.regs = s.regs)

/-- R158, R182, R379: a grant of the partial store is given where 1 GiB is not exceeded and the arbiter of R392 gives it, and its tiles fill; a request that
does not fit is counted once. A chunk of a collective gets its staging where that is not exceeded and its arbiter gives it.
What of it is the model's own reading or choice: log entries 35, 62 and 65. -/
def Obligations.GrantsAreGivenWithinTheirStores : Prop :=  (∀ (s : State) (id ti : Nat) (c : Cmd) (t : Tile) (g : State × Nat), s.tile? id ti = some (c, t) → s.tilesMove c.tenant = true →
    t.state = .waitGrant → s.exec.granted + t.grant ≤ 2 ^ 30 → 0 < t.grant →
    s.grantTo arbPartialStore 65536 (tileName id (firstTile c t ti)) s.grantReqs = some g →
    ∃ u t', exec (.partialStoreGrant id ti) s = .next u ∧ u.exec.granted = s.exec.granted + t.grant ∧
      (u.tile? id ti).map Prod.snd = some t' ∧ t'.state = (if t.slices = 0 then .drain else .fill) ∧
      s.obj oPartialStorePeak ≤ u.obj oPartialStorePeak ∧ u.mem = s.mem ∧ u.queues = s.queues) ∧
  (∀ (s : State) (id ti : Nat) (c : Cmd) (t : Tile), s.tile? id ti = some (c, t) → s.tilesMove c.tenant = true → t.state = .waitGrant →
    s.exec.granted + t.grant ≤ 2 ^ 30 → s.grantTo arbPartialStore 65536 (tileName id (firstTile c t ti)) s.grantReqs = none →
    exec (.partialStoreGrant id ti) s = .next s) ∧
  (∀ (s : State) (id ti : Nat) (c : Cmd) (t : Tile), s.tile? id ti = some (c, t) → s.tilesMove c.tenant = true → t.state = .waitGrant →
    2 ^ 30 < s.exec.granted + t.grant → (c.tiles.filter (sameOutput t)).any (fun (x : Tile) => x.waited) = false →
    ∃ u, exec (.partialStoreGrant id ti) s = .next u ∧ u.exec.granted = s.exec.granted ∧
      u.obj oPartialStoreWaits = satAdd (objBits oPartialStoreWaits) (s.obj oPartialStoreWaits) 1 ∧ u.mem = s.mem ∧ u.queues = s.queues) ∧
  (∀ (s : State) (id k : Nat) (c : Coll) (ch : Chunk) (g : State × Nat), s.coll? id = some c → c.chunks[k]? = some ch → ch.granted = false →
    s.stagingUsed + ch.bytes ≤ stagingBytes → s.grantTo arbStaging 65536 (id * 2 ^ 32 + k) s.stagingReqs = some g →
    ∃ a : State, exec (.collectiveStagingGrant id k) s = .next (a.sendPulls { c with chunks := c.chunks.set k { ch with granted := true } } false) ∧
      a.fabric = (s.setColl { c with chunks := c.chunks.set k { ch with granted := true } }).fabric ∧ a = { s with fabric := a.fabric, sched := a.sched, dict := a.dict, freeCount := a.freeCount }) ∧
  (∀ (s : State) (id k : Nat) (c : Coll) (ch : Chunk), s.coll? id = some c → c.chunks[k]? = some ch → ch.granted = false →
    s.grantTo arbStaging 65536 (id * 2 ^ 32 + k) s.stagingReqs = none → exec (.collectiveStagingGrant id k) s = .next s) ∧
  (∀ (s : State) (id k : Nat) (c : Coll) (ch : Chunk), s.coll? id = some c → c.chunks[k]? = some ch → stagingBytes < s.stagingUsed + ch.bytes →
    exec (.collectiveStagingGrant id k) s = .next s)

/-- R42, R43, R482, R487: the first residue mismatch of a tile replays it on its stable; one in its replay, and a walker's watchdog where tiles of the
stable are runnable, retire the stable for good.
What of it is the model's own reading or choice: log entries 35 and 36. -/
def Obligations.FailingStablesRetire : Prop :=  (∀ (s : State) (id ti ns : Nat) (c : Cmd) (t : Tile), s.tile? id ti = some (c, t) → t.state = .run ∨ t.state = .drain → t.masks = false →
    (s.stable t.stable).service = 0 → t.replays = 0 → ∃ u : State, exec (.residueMismatch id ti ns) s = .next u.staticCheck ∧
      (u.tile? id ti).map Prod.snd = some { t.restart t.stable with replays := 1 } ∧ u.exec.stables = s.exec.stables ∧ u.queues = s.queues) ∧
  (∀ (s : State) (id ti ns : Nat) (c : Cmd) (t : Tile), s.tile? id ti = some (c, t) → t.state = .run ∨ t.state = .drain → t.masks = false →
    (s.stable t.stable).service = 0 → t.replays ≠ 0 → t.stable < 136 → ∃ u : State, exec (.residueMismatch id ti ns) s = .next u.staticCheck ∧
      (u.stable t.stable).service = 3 ∧ (u.stable t.stable).logical = none ∧ bit (u.obj oRetiredStables) t.stable = true ∧ u.queues = s.queues) ∧
  (∀ (s : State) (p : Fin 136) (ns : Nat), (s.stable p.val).service = 0 →
    s.exec.cmds.any (fun c => c.tiles.any (fun t => t.stable == p.val && s.runnable c t)) = true →
    ∃ u : State, exec (.walkerWatchdogExpire p ns) s = .next u.staticCheck ∧
    (u.stable p.val).service = 3 ∧ (u.stable p.val).logical = none ∧ bit (u.obj oRetiredStables) p.val = true ∧
    (∀ r, r ≠ p.val → { u.stable r with manger := [] } = { s.stable r with manger := [] }) ∧ u.queues = s.queues) ∧
  (∀ (s : State) (p : Fin 136) (ns : Nat), (s.stable p.val).service ≠ 0 ∨
    s.exec.cmds.any (fun c => c.tiles.any (fun t => t.stable == p.val && s.runnable c t)) = false →
    exec (.walkerWatchdogExpire p ns) s = .next s.staticCheck)

/-- R43 to R45, R485, R488: a spare whose scrub has passed takes the logical number of the stable it replaces; one whose scrub failed retires. A quarter with fewer than 12
active stables leaves service. A scrub that passed leaves a cleared unit of this epoch.
What of it is the model's own reading or choice: log entry 36. -/
def Obligations.SparesQuartersAndScrubs : Prop :=  (∀ (s : State) (q : Fin 8) (p l : Nat), s.obj oSpareAutoActivate = 1 → s.outOfService q.val = false → s.power.rails = 2 →
    s.spareOf q.val = some p → s.exec.vacated.find? (fun x => x / 16 == q.val) = some l →
    (∃ u : State, exec (.spareActivate q true) s = .next u.staticCheck ∧ (u.stable p).service = 0 ∧ (u.stable p).logical = some l ∧
      (u.stable p).epoch = s.obj oDeviceEpoch ∧ (∀ r, r ≠ p → u.stable r = s.stable r) ∧ u.obj (oStableFlags l) = 0 ∧ l ∉ u.exec.vacated ∧
      u.obj (oQuarterSpareState q.val) = 1 ∧ u.queues = s.queues) ∧
    (∃ u : State, exec (.spareActivate q false) s = .next u.staticCheck ∧ (u.stable p).service = 3 ∧ (∀ r, r ≠ p → u.stable r = s.stable r) ∧
      u.obj (oQuarterSpareState q.val) = 2 ∧ u.queues = s.queues)) ∧
  (∀ (s : State) (q : Fin 8), s.outOfService q.val = false → s.activeCount q.val < 12 → ∃ u : State, exec (.quarterOutOfService q) s = .next u.staticCheck ∧
    u.outOfService q.val = true ∧ u.obj (oQuarterActiveStables q.val) = 0 ∧
    (∀ i, i < 17 → (s.stable (17 * q.val + i)).service ≠ 3 → (u.stable (17 * q.val + i)).service = 4) ∧ u.queues = s.queues) ∧
  (∀ (s : State) (q : Fin 8), 12 ≤ s.activeCount q.val → exec (.quarterOutOfService q) s = .next s.staticCheck) ∧
  (∀ (s : State) (p : Fin 136), s.power.scrubs.contains (0, p.val) = true → ∃ u : State, exec (.quarterScrubComplete false p true) s = .next u.staticCheck ∧
    u.stable p.val = (s.stable p.val).cleared (s.obj oDeviceEpoch) ∧ u.power = { s.power with scrubs := s.power.scrubs.erase (0, p.val) } ∧
    u.queues = s.queues ∧ u.mem = s.mem) ∧
  (∀ (s : State) (p : Fin 136), s.power.scrubs.contains (1, p.val) = true → ∃ u : State, exec (.quarterScrubComplete true p true) s = .next u.staticCheck ∧
    Store.get 0 u.exec.quarterEpochs p.val = s.obj oDeviceEpoch ∧ u.power = { s.power with scrubs := s.power.scrubs.erase (1, p.val) } ∧
    (∀ g off, g / 256 = p.val → off < 2 ^ 20 → s.granuleOwner g ≠ ownerRetired → u.mem.read (paddockKey g off) = 0) ∧ u.queues = s.queues)

/-- R109, R110, R483, R484: a corrected error is counted at its unit and changes no data; an uncorrectable line of HBM is poisoned, its frame suspect; one in a
stable's SRAM retires the stable. Patrol does for the line it reads what an access does.
What of it is the model's own reading or choice: log entry 26. -/
def Obligations.MemoryErrorsAreCountedOrContained : Prop :=  (∀ (s : State) (line : Nat), ∃ u, exec (.eccCorrected (.hbm line) false) s = .next u ∧
    u.obj (oHbmCeCount (stackOf (64 * line))) = satAdd (objBits (oHbmCeCount (stackOf (64 * line)))) (s.obj (oHbmCeCount (stackOf (64 * line)))) 1 ∧
    u.mem = s.mem ∧ u.exec = s.exec ∧ u.queues = s.queues ∧ u.regs = s.regs) ∧
  (∀ (s : State) (l : Nat) (due : Bool), ∃ u, exec (.eccCorrected (.stable l) due) s = .next u ∧
    u.obj (oMangerCeCount l) = satAdd (objBits (oMangerCeCount l)) (s.obj (oMangerCeCount l)) 1 ∧ u.exec = s.exec ∧ u.queues = s.queues ∧
    u.quiet.mem = s.quiet.mem) ∧
  (∀ (s : State) (line : Nat) (due : Bool), 64 * line / frameBytes < assignableFrames → s.mem.poison.contains line = false →
    ∃ u : State, exec (.eccUncorrectable (.hbm line) due) s = .next u.staticCheck ∧ u.mem.poison.contains line = true ∧
    u.mem.suspectFrames.contains (64 * line / frameBytes) = true ∧ (∀ k, k < 2 ^ 64 → u.mem.read k = s.mem.read k) ∧ u.exec = s.exec ∧ u.queues = s.queues) ∧
  (∀ (s : State) (p : Nat) (due : Bool), (s.stable p).service = 0 → p < 136 → ∃ u : State, exec (.eccUncorrectable (.sram p) due) s = .next u.staticCheck ∧
    (u.stable p).service = 3 ∧ bit (u.obj oRetiredStables) p = true ∧ u.queues = s.queues) ∧
  (∀ (s : State) (line : Nat) (due : Bool), exec (.patrolScrubTick (some (.hbm line, false)) due) s = exec (.eccCorrected (.hbm line) due) s) ∧
  (∀ (s : State) (line : Nat) (due : Bool), 64 * line / frameBytes < assignableFrames → s.mem.poison.contains line = false →
    ∃ u, exec (.patrolScrubTick (some (.hbm line, true)) due) s = .next u ∧ u.mem.poison.contains line = true ∧ u.exec = s.exec ∧ u.queues = s.queues) ∧
  (∀ (s : State) (due : Bool), exec (.patrolScrubTick none due) s = .next s)

/-- R492, R493: an engine that fails its self-check leaves service, and the frame it held fails with CONTAINED; a device-fatal fault sets FATAL and, being the
first, FATAL_CAUSE.
What of it is the model's own reading or choice: log entry 37. -/
def Obligations.EnginesAndDeviceFail : Prop :=  (∀ (s : State) (e : Fin 6), s.codec.down.contains e.val = false → s.codec.jobs.find? (fun j => j.engine == some e.val) = none →
    ∃ u, exec (.codecSelfCheckFail e) s = .next u ∧ u.codec = { s.codec with down := s.codec.down ++ [e.val] } ∧
      u.obj (if e.val < 4 then oCodecEncoders else oCodecDecoders) = s.obj (if e.val < 4 then oCodecEncoders else oCodecDecoders) - 1 ∧
      u.exec = s.exec ∧ u.queues = s.queues) ∧
  (∀ (s : State) (e : Fin 6) (j : CodecJob) (c : Cmd), s.codec.down.contains e.val = false → s.codec.jobs.find? (fun j => j.engine == some e.val) = some j →
    s.cmd? j.cmd = some c → (s.codecPool j.tenant).postEn = false → ∃ u c', exec (.codecSelfCheckFail e) s = .next u ∧ u.codec.down = s.codec.down ++ [e.val] ∧
      u.cmd? j.cmd = some c' ∧ c'.status = stContained ∧ c'.detail = 3 ∧ c'.wait = Wait.none ∧ u.queues = s.queues) ∧
  (∀ (s : State) (source : Nat), s.regs.fatal = false → ∃ u, exec (.deviceFatalFault 0x0812 source 0) s = .next u ∧ u.regs.fatal = true ∧
    u.obj oFatalCause = 0x0812 ∧ u.power.fatals = s.power.fatals ++ [(0x0812, 0, 1)] ∧ u.exec = s.exec ∧ u.queues = s.queues) ∧
  (∀ (s : State) (source unit : Nat), s.regs.fatal = false → 2 ≤ unit → unit ≤ 7 → ∃ u, exec (.deviceFatalFault 0x0811 source unit) s = .next u ∧
    u.regs.fatal = true ∧ u.obj oFatalCause = 0x0811 ∧ u.power.fatals = s.power.fatals ++ [(0x0811, unit, 0)] ∧ u.exec = s.exec ∧ u.queues = s.queues)

/-! ## Tenants and time -/

/-- R403 to R406: a tenant whose streams have stopped and that has nothing to drain or save is dismounted, and counted; one that no request holds resumes; an
overrun is reported once; a reset ends with the tenant's queues disabled, its flags clear and its run state as it is enabled.
What of it is the model's own reading or choice: log entries 55, 56 and 82. -/
def Obligations.TenantsDismountResumeAndReset : Prop :=  (∀ (s : State) (n : Fin 1024) (ns : Nat), s.obj (oTenantRunState n.val) = 2 → s.regs.fatal = false → (s.streamsOf n.val).all s.stopped = true →
    s.exec.cmds = [] → ∃ u : State, exec (.tenantDismounted n ns []) s = .next u.staticCheck ∧
      u.obj (oTenantRunState n.val) = (if setBits (s.preempt n.val).requests 2 1 0 = 0 then 4 else 3) ∧ u.exec = s.exec ∧ u.queues = s.queues ∧
      u.obj (oTenantPreemptions n.val) = satAdd (objBits (oTenantPreemptions n.val)) (s.obj (oTenantPreemptions n.val)) 1) ∧
  (∀ (s : State) (n : Fin 1024) (ns : Nat) (spent : List (Nat × Nat)), s.obj (oTenantRunState n.val) ≠ 2 →
    exec (.tenantDismounted n ns spent) s = .next s.staticCheck) ∧
  (∀ (s : State) (n : Fin 1024) (ns : Nat), s.obj (oTenantRunState n.val) = 4 → s.regs.fatal = false → (s.preempt n.val).gone = [] →
    (s.preempt n.val).saves = [] → ∃ u : State, exec (.tenantResume n ns) s = .next u.staticCheck ∧
    u.obj (oTenantRunState n.val) = (if (s.preempt n.val).requests = 0 then 1 else 2) ∧ (u.preempt n.val).saved = 0 ∧ u.exec = s.exec ∧ u.queues = s.queues) ∧
  (∀ (s : State) (n : Fin 1024), s.obj (oTenantRunState n.val) = 2 → (s.preempt n.val).late = false → ∃ u, exec (.preemptOverrun n) s = .next u ∧
    (u.preempt n.val).late = true ∧ u.obj oPreemptOverruns = satAdd (objBits oPreemptOverruns) (s.obj oPreemptOverruns) 1 ∧
    u.obj (oTenantRunState n.val) = 2 ∧ u.exec = s.exec ∧ u.queues = s.queues) ∧
  (∀ (s : State) (n : Fin 1024), s.obj (oTenantRunState n.val) = 2 → (s.preempt n.val).late = true → exec (.preemptOverrun n) s = .next s) ∧
  (∀ (s : State) (n : Fin 1024) (spent : List (Nat × Nat)), s.obj (oTenantRunState n.val) = 5 → s.regs.fatal = false → s.codec.jobs = [] →
    s.obj (oTenantEnable n.val) ≤ 1 → ∃ u : State, exec (.tenantResetComplete n spent) s = .next u.staticCheck ∧
      (∀ k, k < 8 → (u.queue (8 * n.val + k)).state = 0 ∧ cfgEnable (u.queueCfg (8 * n.val + k)) = false) ∧
      (u.obj (oTenantRunState n.val) = s.obj (oTenantEnable n.val) ∨ u.obj (oTenantRunState n.val) = 2) ∧ u.obj (oTenantFlags n.val) = 0) ∧
  (∀ (s : State) (n : Fin 1024) (spent : List (Nat × Nat)), s.obj (oTenantRunState n.val) ≠ 5 → exec (.tenantResetComplete n spent) s = .next s.staticCheck)

/-- R409 to R413: a slot boundary moves to the next slot, and past the last one begins a major frame under the objects as they now stand; a borough master sends
time on every live Street port; a delay measured is kept; a follower adopts its source's copy, and without one for 1 ms it holds over.
What of it is the model's own reading or choice: log entries 19, 20 and 118. -/
def Obligations.CarouselAndTime : Prop :=  (∀ s : State, s.sched.slot + 1 < s.sched.carCount → ∃ u : State, exec .carouselSlotBoundary s = .next u.staticCheck ∧ u.sched.slot = s.sched.slot + 1 ∧
    u.sched.carCount = s.sched.carCount ∧ u.sched.carLen = s.sched.carLen ∧ u.obj oCarouselFrameNumber = s.obj oCarouselFrameNumber ∧ u.exec = s.exec ∧ u.mem = s.mem ∧ u.queues = s.queues) ∧
  (∀ s : State, s.sched.carCount ≤ s.sched.slot + 1 → ∃ u : State, exec .carouselSlotBoundary s = .next u.staticCheck ∧ u.sched.slot = 0 ∧
    u.sched.carCount = s.obj oCarouselSlotCount ∧ u.sched.carLen = s.obj oCarouselSlotLen ∧ u.sched.carEnable = (s.obj oCarouselEnable == 1) ∧
    u.obj oCarouselFrameNumber = (s.obj oCarouselFrameNumber + 1) % 2 ^ 64 ∧ u.exec = s.exec ∧ u.mem = s.mem ∧ u.queues = s.queues) ∧
  (∀ (s : State) (phase : Nat), exec (.timeMasterTick phase) s =
    .next (if s.obj oCarouselTimeRole = 1 ∨ (s.obj oCarouselTimeRole = 3 ∧ s.obj oCarouselSyncState = 3) then s.sendTime (s.obj oCarouselFrameNumber) phase 0 none
      else s)) ∧
  (∀ (s : State) (p : Fin 16) (ns : Nat), s.portUp p.val = true → exec (.linkDelayMeasure p ns) s =
    .next ((s.setPort p.val { s.port p.val with delayNs := ns }).sendParams p.val)) ∧
  (∀ s : State, s.obj oCarouselTimeRole = 2 ∨ s.obj oCarouselTimeRole = 3 → s.sched.lost = false → ∃ u, exec .timeSourceLoss s = .next u ∧
    u.obj oCarouselSyncState = 1 ∧ u.quiet = ({ s with sched := { s.sched with lost := true } }.setObj oCarouselSyncState 1).quiet) ∧
  (∀ s : State, s.sched.lost = true → exec .timeSourceLoss s = .next s) ∧
  (∀ (s : State) (p : Fin 16) (k : Packet) (frame there phase hops : Nat), k.body = .time frame there hops → s.obj oCarouselTimeRole = 3 →
    p.val = 12 + s.obj oCarouselAvenuePort → s.regs.fatal = false → s.portUp p.val = true → k.hdr.crcOk = true → ∃ u, exec (.timePacketReceive p k phase) s = .next u ∧
      u.obj oCarouselSyncState = 3 ∧ u.sched.fresh = some (frame, there + (s.port p.val).delayNs, hops, p.val) ∧ u.exec = s.exec ∧ u.queues = s.queues) ∧
  (∀ (s : State) (p : Fin 16) (k : Packet) (frame there phase hops : Nat), k.body = .time frame there hops → s.obj oCarouselTimeRole = 2 → p.val < 12 →
    s.regs.fatal = false → s.portUp p.val = true → k.hdr.crcOk = true → s.sched.fresh = none → exec (.timePacketReceive p k phase) s =
      .next ((s.adoptTime p.val frame (there + (s.port p.val).delayNs) phase hops).sendTime frame (there + (s.port p.val).delayNs) (hops + 1) (some p.val)))

/-! ## Observation -/

/-- R463, R464, R497, R510, R512, R514: a frame takes the 46 oldest trace records, and records dropped before are told of once there is room; the window's shares are reported, 0 for a quarter out of service or a port not
up throughout; the log's buffer goes to flash; a stalled stream is analysed, again when a reply is missing.
What of it is the model's own reading or choice: log entries 19, 20 and 74. -/
def Obligations.ObservationRows : Prop :=  (∀ s : State, s.power.rails = 2 → s.obs.trace ≠ [] → exec (.traceFrameSend false) s = .next ({ s with obs := { s.obs with
    trace := s.obs.trace.drop (min 46 s.obs.trace.length), frameSeq := (s.obs.frameSeq + 1) % 2 ^ 32,
    frames := s.obs.frames ++ [frameHeader (min 46 s.obs.trace.length) s.obs.frameSeq ++ (s.obs.trace.take (min 46 s.obs.trace.length)).flatten] } }).reportDrops) ∧
  (∀ s : State, s.obs.traceOwed = 0 → s.reportDrops = s) ∧
  (∀ s : State, s.obs.traceOwed ≠ 0 → s.obs.trace.length < 2048 → s.traceOn 8 0xFFFF = true → ∃ ts, s.reportDrops.obs =
    { s.obs with trace := s.obs.trace ++ [traceRecord 8 0 0xFFFF ts (toLe 8 s.obs.traceOwed ++ toLe 8 0)], traceOwed := 0 }) ∧
  (∀ (s : State) (quarters ports : List Nat) (whole : List Bool), ∃ u, exec (.utilisationWindow quarters ports whole) s = .next u ∧
    (∀ q, q < 8 → u.obj (oQuarterUtilisation q) = if s.outOfService q = true then 0 else min 1000 (quarters.getD q 0)) ∧
    (∀ p, p < 12 → u.obj (oStreetUtilisation p) = if s.portUp p = true ∧ whole.getD p false = true then min 1000 (ports.getD p 0) else 0) ∧
    u = { s with dict := u.dict }) ∧
  (∀ s : State, s.ostler.logLost = 0 → s.ostler.log.length + s.ostler.logBuf.length ≤ 4096 → ∃ u, exec .logFlush s = .next u ∧
    u.ostler = { s.ostler with log := s.ostler.log ++ s.ostler.logBuf, logBuf := [], logLost := 0 } ∧
    u.obj oLogCount = s.ostler.log.length + s.ostler.logBuf.length ∧ u = { s with ostler := u.ostler, dict := u.dict }) ∧
  (∀ (s : State) (f : From) (others : List From) (src : Src), s.headOf f = some src → s.power.ostler = 1 → s.waitsOnly src = true → s.isQuiet src = false →
    s.obs.hangs.any (fun h => h.root == src) = false → ∃ h : HangScan, h.id = s.obs.nextHang ∧ h.root = src ∧ h.stalled = src :: others.filterMap s.headOf ∧
      exec (.hangStallDetect f others) s = .next (State.hangGo { s with obs := { s.obs with nextHang := s.obs.nextHang + 1 } } h)) ∧
  (∀ (s : State) (id : Nat) (h : HangScan), s.obs.hangs.find? (fun h => h.id == id) = some h → h.waiting ≠ [] →
    exec (.hangReplyTimeout id) s = .next (s.hangGo h))

/-- R463: LOG_COUNT counts records up to 4,096 and the oldest give way to the newest; a request of i places the i-th newest record in LOG_READ; one at
or above LOG_COUNT is refused with RANGE. -/
def Obligations.TheLogIsReadNewestFirst : Prop :=
  (∀ s : State, s.ostler.logLost = 0 → ∃ t, exec .logFlush s = .next t ∧ t.obj oLogCount = min 4096 (s.ostler.log.length + s.ostler.logBuf.length) ∧
    t.ostler.log = (s.ostler.log ++ s.ostler.logBuf).drop (s.ostler.log.length + s.ostler.logBuf.length - 4096)) ∧
  (∀ (s : State) (via : Via) (r v : Nat) (old new : List LogRec) (l : LogRec), s.takesWrite via r oLogReadReq v → s.ostler.log = old ++ l :: new → new.length = v →
    ∃ t, exec (.logReadReq via v) s = .next t ∧ t.obj oLogRead = ofLe l.bytes ∧ t.dict.seq oLogRead = t.dict.seq oLogReadReq ∧ t.ostler.log = s.ostler.log) ∧
  (∀ (s : State) (via : Via) (r v : Nat), s.reaches via r oLogReadReq v → r ≤ 1 → s.power.ostler = 1 → s.obj oLogCount ≤ v →
    ∃ t n, exec (.logReadReq via v) s = .next t ∧ t = { s with dict := { s.dict with answers := s.dict.answers ++ [(tkRange, n)] } })

/-! ## Links -/

/-- R339 to R342, R347, R355, R363: training that succeeds brings a port to state 3 with its credits, and discovery goes out; a failed attempt waits to be
repeated, after the eighth at width 4; the wait's end lets it train again; a loss of signal, of flits, of acknowledgements or of symbols retrains a live port.
What of it is the model's own reading or choice: log entry 66. -/
def Obligations.PortsTrainAndRetrain : Prop :=  (∀ (s : State) (p : Fin 16), s.linkState p.val = 2 → (s.port p.val).retryArmed = false → ∃ u, exec (.linkTraining p true) s = .next u ∧
    u.linkState p.val = 3 ∧ (u.port p.val).credits = List.replicate 16 512 ∧ (u.port p.val).width = (s.port p.val).width ∧ u.exec = s.exec ∧ u.mem = s.mem ∧
    u.queues = s.queues ∧ ∃ k, u.fabric.outbox = s.fabric.outbox ++ [(p.val, k)] ∧ k.hdr.typ = 10) ∧
  (∀ (s : State) (p : Fin 16), s.linkState p.val = 2 → (s.port p.val).retryArmed = false → (s.port p.val).width = 8 →
    exec (.linkTraining p false) s = .next (s.setPort p.val (if (s.port p.val).fails + 1 < 8 then { s.port p.val with fails := (s.port p.val).fails + 1, retryArmed := true }
      else { s.port p.val with fails := 0, width := 4, upper := false, retryArmed := true }))) ∧
  (∀ (s : State) (p : Fin 16), (s.port p.val).retryArmed = true → s.linkState p.val ≠ 1 →
    exec (.linkTrainRetryTimer p) s = .next (s.setPort p.val { s.port p.val with retryArmed := false })) ∧
  (∀ (s : State) (p : Fin 16), (s.port p.val).retryArmed = true → s.linkState p.val = 1 →
    ∃ u, exec (.linkTrainRetryTimer p) s = .next u ∧ u.linkState p.val = 2 ∧ (u.port p.val).retryArmed = false ∧ u.exec = s.exec ∧ u.queues = s.queues) ∧
  (∀ (s : State) (p : Fin 18), 3 ≤ s.linkState p.val → (∃ u, exec (.portSignalLoss p) s = .next u ∧ u.linkState p.val = 2 ∧ u.exec = s.exec ∧ u.queues = s.queues) ∧
    (∃ u, exec (.portFlitTimeout p) s = .next u ∧ u.linkState p.val = 2 ∧ u.exec = s.exec ∧ u.queues = s.queues)) ∧
  (∀ (s : State) (p : Fin 16), s.portUp p.val = true → (∃ u, exec (.symbolErrorRatioExceed p) s = .next u ∧ u.linkState p.val = 2 ∧ u.exec = s.exec ∧
    u.queues = s.queues) ∧ ((s.port p.val).replay ≠ [] → ∃ u, exec (.linkReplayTimeout p) s = .next u ∧ u.linkState p.val = 2 ∧ u.exec = s.exec ∧ u.queues = s.queues)) ∧
  (∀ (s : State) (p : Fin 16), 3 ≤ s.linkState p.val → (s.port p.val).sinceAck ≠ 0 → ∃ u, exec (.linkAckTimer p) s = .next u ∧
    u.fabric.acksSent = s.fabric.acksSent ++ [(p.val, (s.port p.val).rxSeq, false)] ∧ (u.port p.val).sinceAck = 0 ∧
    (u.port p.val).owed = List.replicate 16 0 ∧ u = { s with fabric := u.fabric }) ∧
  (∀ (s : State) (i : Fin 2) (mode node : Nat), s.linkState (16 + i.val) = 1 ∨ s.linkState (16 + i.val) = 2 →
    (mode = 1 ∧ (s.obj (oLineagePortMode i.val) = 1 ∨ s.obj (oLineagePortMode i.val) = 3)) ∨
      (mode = 2 ∧ (s.obj (oLineagePortMode i.val) = 2 ∨ s.obj (oLineagePortMode i.val) = 3)) →
    ∃ u, exec (.lineagePortTraining i mode node) s = .next u ∧ u.linkState (16 + i.val) = 4 ∧ (u.port (16 + i.val)).mode = mode ∧
      (u.port (16 + i.val)).node = node ∧ u.exec = s.exec ∧ u.queues = s.queues)

/-- R345 to R348: a flit with a wrong CRC or a wrong field is counted; a data flit of that kind opens a gap, and a NAK goes out once for it. A flit in order is
accepted and its FSEQ moves the count; its ACK releases what it names from the replay buffer.
What of it is the model's own reading or choice: log entry 66. -/
def Obligations.FlitsAreCheckedAndAcknowledged : Prop :=  (∀ (s : State) (p : Fin 16) (f : List Byte) (n : Nat), 3 ≤ s.linkState p.val → flitOk f = false →
    ∃ u, exec (.flitReceive p f n) s = .next u ∧
      u.obj (oLinkCrcErrors p.val) = satAdd (objBits (oLinkCrcErrors p.val)) (s.obj (oLinkCrcErrors p.val)) 1 ∧
      (u.port p.val).rxSeq = (s.port p.val).rxSeq ∧ (u.port p.val).credits = (s.port p.val).credits ∧
      (flitType f ≠ 0 → (u.port p.val).rxGap = true) ∧
      u.fabric.acksSent = s.fabric.acksSent ++ (if flitType f ≠ 0 ∧ (s.port p.val).rxGap = false then [(p.val, (s.port p.val).rxSeq, true)] else []) ∧
      u.exec = s.exec ∧ u.queues = s.queues ∧ u.mem = s.mem) ∧
  (∀ (s : State) (p : Fin 16) (f : List Byte) (n : Nat), 3 ≤ s.linkState p.val → flitOk f = true → flitType f = 1 → bit (le f 2 2) 12 = false →
    bits (le f 0 2) 0 12 = ((s.port p.val).rxSeq + 1) % 4096 → ∃ u, exec (.flitReceive p f n) s = .next u ∧
      (u.port p.val).rxSeq = ((s.port p.val).rxSeq + 1) % 4096 ∧ (u.port p.val).rxGap = false ∧ u.exec = s.exec ∧ u.queues = s.queues ∧ u.mem = s.mem) ∧
  (∀ (s : State) (p ack : Nat) (i : Nat), (s.port p).replay.findIdx? (fun r => r.fseq == ack) = some i →
    ((s.ackIn p ack false).port p).replay = (s.port p).replay.drop (i + 1))

/-- R341, R344: a discovery packet is kept and its sender checked; link parameters of an accepted peer make the port ACTIVE, or DEGRADED at width 4; an
advertisement with a newer epoch replaces what is known of its device, one that is not newer does not.
What of it is the model's own reading or choice: log entry 67. -/
def Obligations.PeersAreLearned : Prop :=  (∀ (s : State) (p : Fin 16) (k : Packet) (borough device port serial : Nat), k.body = .discovery borough device port serial →
    3 ≤ s.linkState p.val → k.hdr.crcOk = true → ∃ u, exec (.discoveryReceive p k) s = .next u ∧
      u.obj (oLinkPeer p.val) = borough % 256 + device % 256 * 2 ^ 8 + port % 256 * 2 ^ 16 + (s.port p.val).width * 2 ^ 24 + serial % 2 ^ 64 * 2 ^ 64 ∧
      u.exec = s.exec ∧ u.queues = s.queues ∧ u.quiet.mem = s.quiet.mem) ∧
  (∀ (s : State) (p : Fin 16) (k : Packet) (a w : Nat) (b e : List Nat), k.body = .params a w b e → s.linkState p.val = 3 → k.hdr.crcOk = true → (s.port p.val).accepted = true →
    ∃ u, exec (.linkParametersReceive p k) s = .next u ∧ u.linkState p.val = (if (s.port p.val).width = 8 then 4 else 5) ∧ (u.port p.val).params = true ∧
      u.exec = s.exec ∧ u.queues = s.queues) ∧
  (∀ (s : State) (p : Fin 16) (k : Packet) (d b e boot : Nat), k.body = .lsa d b e boot → d ≠ s.deviceNumber → d < 64 →
    p.val < 12 → 3 ≤ s.linkState p.val → k.hdr.crcOk = true → Store.get 0 s.fabric.peerBoot d = 0 ∨ Store.get 0 s.fabric.peerBoot d = boot → Store.get 0 s.fabric.mapEpochs d < e →
    ∃ u, exec (.linkStateAdvertisementReceive p k) s = .next u ∧ Store.get 0 u.fabric.mapEpochs d = e ∧ bits (u.obj oLinkMap) (16 * d) 16 = b % 2 ^ 16 ∧
      u.exec = s.exec ∧ u.queues = s.queues ∧ u.mem = s.mem) ∧
  (∀ (s : State) (p : Fin 16) (k : Packet) (d b e boot : Nat), k.body = .lsa d b e boot → d ≠ s.deviceNumber → d < 64 →
    p.val < 12 → 3 ≤ s.linkState p.val → k.hdr.crcOk = true → Store.get 0 s.fabric.peerBoot d = 0 ∨ Store.get 0 s.fabric.peerBoot d = boot → e ≤ Store.get 0 s.fabric.mapEpochs d →
    ∃ u, exec (.linkStateAdvertisementReceive p k) s = .next u ∧ u.fabric.mapEpochs = s.fabric.mapEpochs ∧ u.dict = s.dict ∧ u.exec = s.exec)

/-! ## Packets -/

/-- R350 to R355, R371: a packet for another device goes on; a sequenced packet for this one is applied in its stream's order: one that is next moves the stream
on, one ahead of a gap is kept, one applied before is counted a duplicate and acknowledged again, one with a wrong CRC is dropped and counted. With the Spur off, its entering the
Square changes nothing.
What of it is the model's own reading or choice: log entry 69. -/
def Obligations.SequencedPacketsAreAppliedOnce : Prop :=  (∀ (s : State) (p : Fin 16) (k : Packet), k.hdr.dst ≠ s.self → s.portUp p.val = true → linkLocal k = false →
    exec (.packetForward p k) s = .next (s.forward k (some p.val) none)) ∧
  (∀ s : State, s.obj oSpurEnable ≠ 1 → s.enterSquare = s) ∧
  (∀ (i : Packet → Instr) (types : List Nat) (apply : State → Packet → State) (stalled : List From) (s : State) (k : Packet),
    (apply = State.applyData ∧ ((i = Instr.writePacketReceive ∧ types = [1]) ∨ (i = Instr.readRequestReceive ∧ types = [2]) ∨
      (i = Instr.readResponseReceive ∧ types = [3]) ∨ (i = Instr.postUpdateReceive ∧ types = [4] ∧ k.subscribes = false) ∨
      (i = Instr.subscriptionReceive ∧ types = [4] ∧ k.subscribes = true) ∨ (i = Instr.collectiveAbortReceive ∧ types = [5] ∧ k.aborts = true) ∨
      (i = Instr.collectiveDataReceive ∧ types = [5] ∧ k.aborts = false))) ∨
      (apply = State.applyManagement stalled ∧ i = Instr.managementPacketReceive stalled ∧ types = [7]) →
    types.contains k.hdr.typ = true → k.hdr.dst = s.self → s.regs.fatal = false →
    (k.hdr.crcOk = false → exec (i k) s = .next (s.enterSquare.count oLinkE2eCrcDrops 1)) ∧
    (k.hdr.crcOk = true → k.hdr.stale = true → exec (i k) s = .next (s.enterSquare.count oE2eDuplicates 1)) ∧
    (k.hdr.crcOk = true → k.hdr.stale = false → 2 ^ 31 ≤ (k.hdr.seq + 2 ^ 32 - (s.streamIn k.hdr.src (typeClass k.hdr.typ)).next) % 2 ^ 32 →
      exec (i k) s = .next (((s.enterSquare.heardFrom k.hdr.src).count oE2eDuplicates 1).sendE2eAck k.hdr.src (typeClass k.hdr.typ))) ∧
    (k.hdr.crcOk = true → k.hdr.stale = false → 0 < (k.hdr.seq + 2 ^ 32 - (s.streamIn k.hdr.src (typeClass k.hdr.typ)).next) % 2 ^ 32 →
      (k.hdr.seq + 2 ^ 32 - (s.streamIn k.hdr.src (typeClass k.hdr.typ)).next) % 2 ^ 32 < 2 ^ 31 →
      (s.streamIn k.hdr.src (typeClass k.hdr.typ)).early.any (fun x => x.hdr.seq == k.hdr.seq) = false →
      (s.streamIn k.hdr.src (typeClass k.hdr.typ)).early.length < 256 →
      ∃ u, exec (i k) s = .next u ∧ (u.streamIn k.hdr.src (typeClass k.hdr.typ)).early = (s.streamIn k.hdr.src (typeClass k.hdr.typ)).early ++ [k] ∧
        u = { s.enterSquare with fabric := u.fabric }) ∧
    (k.hdr.crcOk = true → k.hdr.stale = false → k.hdr.seq = (s.streamIn k.hdr.src (typeClass k.hdr.typ)).next →
      k.hdr.seq < 2 ^ 32 → (s.streamIn k.hdr.src (typeClass k.hdr.typ)).early = [] → (s.streamIn k.hdr.src (typeClass k.hdr.typ)).sinceAck < 15 →
      ∃ a : State, (a.streamIn k.hdr.src (typeClass k.hdr.typ)).next = (k.hdr.seq + 1) % 2 ^ 32 ∧ a = { s.enterSquare with fabric := a.fabric } ∧ a.fabric.posts = s.fabric.posts ∧
        (((apply a k).streamIn k.hdr.src (typeClass k.hdr.typ)).early = [] → exec (i k) s = .next (apply a k))))

/-- R365 to R370: what a packet's data do once it is its turn. A write with the job's right stores its bytes, one without stores none, and both are answered; a
signal adds or sets its post where the job may use it; a subscription whose threshold is reached is answered at once, else it is held. A
hang query about a post its job may use is answered with the post's value and the signallers that the job's tenants have waiting.
What of it is the model's own reading or choice: log entries 70, 72 and 74. -/
def Obligations.PacketsHaveTheirEffect : Prop :=  (∀ (s : State) (k : Packet) (b : WriteBody) (w : List (Nat × Byte)), k.body = .write b → s.putRights b.job b.tenant = true →
    s.cellsVa (some b.tenant) b.va b.data = .ok w → s.applyData k = (s.withMem (s.mem.store w)).originate tagDevice k.hdr.src 4 (.writeResult b.put 0 0 none)) ∧
  (∀ (s : State) (k : Packet) (b : WriteBody), k.body = .write b → s.putRights b.job b.tenant = false → (s.applyData k).mem = s.mem ∧
    s.applyData k = s.originate tagDevice k.hdr.src 4 (.writeResult b.put stPostAccess (fieldDetail 0 104) none)) ∧
  (∀ (s : State) (k : Packet) (post job value cmd : Nat), k.body = .post (.signal post job 1 value cmd) → s.remoteUseOk post job = true →
    (s.applyData k).postValue post = (s.postValue post + value) % 2 ^ 64) ∧
  (∀ (s : State) (k : Packet) (post job value cmd : Nat), k.body = .post (.signal post job 2 value cmd) → s.remoteUseOk post job = true →
    (s.applyData k).postValue post = value) ∧
  (∀ (s : State) (k : Packet) (post job op value cmd : Nat), k.body = .post (.signal post job op value cmd) → s.remoteUseOk post job = false →
    s.applyData k = s.originate tagDevice k.hdr.src 4 (.post (.denied cmd)) ∧ (s.applyData k).fabric.posts = s.fabric.posts) ∧
  (∀ (s : State) (k : Packet) (stalled : List From) (a post job : Nat), k.body = .mgmt (.query a s.self post job) → s.remoteUseOk post job = true →
    s.applyManagement stalled k = s.originate tagDevice k.hdr.src 7 (.mgmt (.reply a s.self post (s.postValue post) ((s.postTenant post).getD 0)
      (((sortNodes (s.signallers (stalled.filterMap s.headOf) s.self post)).filter
        (fun n => decide (n.tenant < 1024) && s.obj (oTenantJobId n.tenant) == job && job != 0)).take 16)))) ∧
  (∀ (s : State) (k : Packet) (post job th w : Nat), k.body = .subscribe post job th w → s.remoteUseOk post job = true → s.postValue post < th →
    s.fabric.subs.length < 16384 → (s.applyData k).fabric.subs = s.fabric.subs ++ [⟨post, th, k.hdr.src, w⟩]) ∧
  (∀ (s : State) (k : Packet) (post job th w : Nat), k.body = .subscribe post job th w → s.remoteUseOk post job = true → th ≤ s.postValue post →
    s.applyData k = s.originate tagDevice k.hdr.src 4 (.post (.reply post (s.postValue post) w))) ∧
  (∀ (s : State) (k : Packet) (put st dt : Nat) (c : Cmd), k.body = .writeResult put st dt none → s.cmd? put = some c → c.wait = Wait.remote →
    opcodeOf c.bytes = 0x21 → c.packets = 1 → st = 0 → s.applyData k = s.setCmd { c with packets := 0, wait := Wait.none }) ∧
  (∀ (s : State) (w : RemoteWait), s.fabric.waits.find? (fun x => x.waiter == w.waiter) = some w → w.state = 4 →
    exec (.subscriptionRetry w.waiter) s = .next ((s.setWait w.waiter 0).originate (ctxTag (srcCtx s w.src)) w.device 4 (.subscribe w.post w.job w.threshold w.waiter))) ∧
  (∀ (s : State) (id : Nat) (c : Coll), s.coll? id = some c → exec (.collectiveRequestRetry id) s = .next (s.sendPulls c true))

/-- R371, R372: an acknowledgement takes what it covers out of the retransmit buffer; 2 µs after an application one goes out; an interval without one sends every
unacknowledged packet again and doubles, to 16 at most; a device without progress is declared unreachable and its streams are gone.
What of it is the model's own reading or choice: log entry 9. -/
def Obligations.StreamsAcknowledgeAndResend : Prop :=  (∀ (s : State) (k : Packet) (cls seq : Nat), k.body = .ack cls seq → k.hdr.dst = s.self → s.regs.fatal = false → k.hdr.crcOk = true →
    (s.streamOut k.hdr.src cls).waiting = [] → s.obj oSpurEnable ≠ 1 → ∃ u, exec (.e2eAckReceive k) s = .next u ∧
      (u.streamOut k.hdr.src cls).unacked = (s.streamOut k.hdr.src cls).unacked.filter (fun p => decide (2 ^ 31 ≤ (seq + 2 ^ 32 - p.2.hdr.seq) % 2 ^ 32)) ∧
      u = { s with fabric := u.fabric }) ∧
  (∀ (s : State) (k : Packet) (cls seq : Nat), k.body = .ack cls seq → k.hdr.dst = s.self → s.regs.fatal = false → k.hdr.crcOk = false →
    exec (.e2eAckReceive k) s = .next (s.enterSquare.count oLinkE2eCrcDrops 1)) ∧
  (∀ (s : State) (d : Fin 4096) (c : Fin 4), (s.streamIn d.val c.val).sinceAck ≠ 0 → exec (.e2eAckTimer d c) s = .next (s.sendE2eAck d.val c.val)) ∧
  (∀ (s : State) (d : Fin 4096) (c : Fin 4), (s.streamIn d.val c.val).sinceAck = 0 → exec (.e2eAckTimer d c) s = .next s) ∧
  (∀ (s : State) (d : Fin 4096) (c : Fin 4), (s.streamOut d.val c.val).unacked ≠ [] → exec (.e2eRetxTimer d c) s =
    .next ((s.streamOut d.val c.val).unacked.foldl (fun (acc : State) k => acc.forward k.2 none (some k.1))
      ((s.setStreamOut d.val c.val { s.streamOut d.val c.val with interval := min 16 (2 * (s.streamOut d.val c.val).interval) }).count oE2eRetransmits
        (s.streamOut d.val c.val).unacked.length))) ∧
  (∀ (s : State) (d : Fin 4096), s.fabric.unreachable.contains d.val = false → d.val ≠ s.self → s.noRoute d.val = true → s.fabric.colls = [] →
    ∃ u, exec (.e2eUnreachableTimer d) s = .next u ∧ u.fabric.unreachable = s.fabric.unreachable ++ [d.val] ∧ (∀ c, c < 4 → u.streamOut d.val c = StreamOut.idle) ∧
      (∀ c, c < 4 → u.streamIn d.val c = StreamIn.idle) ∧ (∀ x ∈ u.fabric.subs, x.device ≠ d.val) ∧ u.queues = s.queues)

/-- R359, R361, R370, R382: a Thrumyo write, read or signal on an open lineage port acts in the port's tenant's address space and posts and is answered; on a
port without a tenant, and where it cannot act, it is answered unsupported and changes nothing of the tenant's; an answer ends the oldest request.
What of it is the model's own reading or choice: log entry 71. -/
def Obligations.LineagePortsServeTheirTenant : Prop :=  (∀ (s : State) (i : Fin 2) (x : Thrumyo), s.linkState (16 + i.val) = 4 → s.obj (oLineagePortTenant i.val) = 0xFFFF → x.known = true →
    exec (.lineageTransactionReceive i x) s = .next (s.lineageAnswer i.val .unsupported)) ∧
  (∀ (s : State) (i : Fin 2) (x : Thrumyo), s.linkState (16 + i.val) = 4 → x.known = false →
    exec (.lineageTransactionReceive i x) s = .next (s.lineageRefuse i.val)) ∧
  (∀ (s : State) (i : Fin 2) (x : Thrumyo), s.linkState (16 + i.val) ≠ 4 → exec (.lineageTransactionReceive i x) s = .next s) ∧
  (∀ (s : State) (i : Fin 2) (a : Nat) (d : List Byte) (w : List (Nat × Byte)), s.linkState (16 + i.val) = 4 → s.obj (oLineagePortTenant i.val) ≠ 0xFFFF →
    d.length ≤ 4096 → s.cellsVa (some (s.obj (oLineagePortTenant i.val))) a d = .ok w →
    exec (.lineageTransactionReceive i (.write a d)) s = .next ((s.withMem (s.mem.store w)).lineageAnswer i.val (.ack 0))) ∧
  (∀ (s : State) (i : Fin 2) (a n : Nat) (b : List Byte), s.linkState (16 + i.val) = 4 → s.obj (oLineagePortTenant i.val) ≠ 0xFFFF →
    n ≤ 4096 → s.readVa (some (s.obj (oLineagePortTenant i.val))) a n = .ok b →
    exec (.lineageTransactionReceive i (.read a n)) s = .next (s.lineageAnswer i.val (.readData b))) ∧
  (∀ (s : State) (i : Fin 2) (a n : Nat) (f : AccFault), s.linkState (16 + i.val) = 4 → s.obj (oLineagePortTenant i.val) ≠ 0xFFFF →
    n ≤ 4096 → s.readVa (some (s.obj (oLineagePortTenant i.val))) a n = .error f →
    ∃ u, exec (.lineageTransactionReceive i (.read a n)) s = .next u ∧ u.mem = s.mem ∧ u.fabric.lineageOut = s.fabric.lineageOut ++ [(i.val, .unsupported)]) ∧
  (∀ (s : State) (i : Fin 2) (id v : Nat), s.linkState (16 + i.val) = 4 → s.obj (oLineagePortTenant i.val) ≠ 0xFFFF →
    s.postInRange (s.obj (oLineagePortTenant i.val)) id = false → exec (.lineageTransactionReceive i (.signal id v)) s = .next (s.lineageAnswer i.val .unsupported)) ∧
  (∀ (s : State) (i : Fin 2) (w : Nat × Nat × Nat), s.fabric.lineageWait.find? (fun w => w.1 == i.val) = some w →
    exec (.lineageResponseReceive i .unsupported) s = .next { s with fabric := { s.fabric with lineageWait := s.fabric.lineageWait.erase w } }) ∧
  (∀ (s : State) (i : Fin 2) (tag : Nat), exec (.lineageResponseReceive i (.ack tag)) s = .next (s.lineageAck i.val))

/-! ## Commands of queues and programs -/

/-- R129, R130, R140: the head of a stream begins once its waits are satisfied, its tenant may begin commands and there is room for it. A command that fails a check
begins with that failure's status and DETAIL; one that passes holds its result until it completes: nothing it writes is in memory yet, and the stream has
moved past it.
What of it is the model's own reading or choice: log entries 22, 52 and 64. -/
def Obligations.CommandsBeginAndHoldTheirResults : Prop :=  ∀ (i : Instr) (f : From) (mine : List Byte → Bool) (plan : State → Env → Plan) (launch : State → Env → Nat → State) (s g : State) (src : Src) (b : List Byte),
    begins i = some (f, mine, plan, launch) → s.beginsAt f mine src b g →
    (∀ e : Fail, g.beginFail src b plan = some e → leavesOpen e.status = false →
      ∃ (u : State) (c : Cmd), exec i s = .next u.staticCheck ∧ u.exec.cmds = g.exec.cmds ++ [c] ∧ c.id = g.exec.nextCmd ∧ c.src = src ∧ c.bytes = b ∧
        c.status = e.status ∧ c.detail = e.detail ∧ c.writes = [] ∧ u.mem = g.mem) ∧
    (∀ w : Work, g.beginFail src b plan = none → (plan g (g.planEnv src b).1).2 = .ok w → (g.planEnv src b).2 = none →
      launch = noLaunch →
      ∃ (u : State) (c : Cmd), exec i s = .next u.staticCheck ∧ u.exec.cmds = g.exec.cmds ++ [c] ∧ c.id = g.exec.nextCmd ∧ c.src = src ∧ c.bytes = b ∧
        c.status = stSuccess ∧ c.flags = 0 ∧ c.endFlags = w.flags ∧ c.writes = w.writes ∧ c.tiles = w.tiles ∧ c.stats = w.stats ∧ c.wait = w.wait ∧ u.mem = g.mem ∧
        (∀ q idx, src = .queue q idx → (u.queue q).sqHead = (idx + 1) % sqSize (g.queueCfg q) ∧ ∀ n, n ≠ q → u.queue n = g.queue n)) ∧
    (∀ w : Work, g.beginFail src b plan = none → (plan g (g.planEnv src b).1).2 = .ok w → (g.planEnv src b).2 = none →
      exec i s = .next (launch (g.startCmd src b (.ok w) (if (g.envOf src b).wantsDigest = true then g.workDigest (g.envOf src b) w (le b 80 8) else []))
        (g.envOf src b) g.exec.nextCmd).staticCheck)

/-- R238, R255, R286, R292, R303, R306, R370: what begins with some commands. A STEP waits for its turn as a run of its pen and holds room for its hand-off record; a frame
command is a job of the codec engines; a PUT to another device has a packet for every 4,096 bytes to be answered, and to a device declared unreachable
it fails; a MATMUL or ATTEND that is not fused and pins nothing begins nothing more.
What of it is the model's own reading or choice: log entries 59 and 70. -/
def Obligations.CommandsLaunchTheirWork : Prop :=  (∀ (s : State) (e : Env) (id t : Nat) (c : Cmd) (d : List Byte), e.ctx = some t → s.cmd? id = some c → s.readVa e.ctx (e.f 88 8) 640 = .ok d →
    ∃ r : Run, (launchStep s e id).remuda.runs = s.remuda.runs ++ [r] ∧ r.id = s.remuda.nextRun ∧ r.tenant = t ∧ r.pen = e.f 96 1 ∧ r.handoff = false ∧
      r.cmd = some id ∧ r.phase = 0 ∧ r.desc = d ∧ r.holdsRoom = (le d 24 8 != 0) ∧ (launchStep s e id).cmd? id = some { c with wait := Wait.step r.id } ∧
      (launchStep s e id).mem = s.mem) ∧
  (∀ (s : State) (e : Env) (id : Nat) (c : Cmd), s.cmd? id = some c → putScope (e.f 104 8) = 1 ∨ putScope (e.f 104 8) = 2 →
    s.fabric.unreachable.contains (s.putDevice (e.f 104 8)) = true → launchPut s e id = s.failCmd id stPeer 0 none) ∧
  (∀ (s : State) (e : Env) (id : Nat), putScope (e.f 104 8) = 0 → launchPut s e id = s) ∧
  (∀ (s : State) (e : Env) (id : Nat), drivesColl e.cmd = false → launchFused s e id = s)

/-- R131, R139, R142: a command with no signal that succeeded ends in one step: its bytes are in memory, its record in the next slot of the queue's CQ with the P bit that
slot is due, and the command is gone. One that is still waited for does not end.
What of it is the model's own reading or choice: log entries 22 and 49. -/
def Obligations.CommandsCompleteWithTheirRecord : Prop :=  (∀ (s : State) (id q idx pb hb : Nat) (c : Cmd) (w : List (Nat × Byte)), s.cmd? id = some c → s.mayEnd c = true → c.signalled = false →
    c.status = stSuccess → c.detail = 0 → c.src = .queue q idx → sigOp c.bytes = 0 → c.stats = [] → c.digest = [] → c.fault = none → c.pinned = [] →
    s.remuda.admits.find? (fun a => a.cmd == id) = none → s.job? id = none → c.bufs = [] →
    s.remuda.runs.any (fun r => r.cmd == some id && !r.handoff) = false → (s.queue q).state ≠ 0 → (s.queue q).dropRecords = false →
    (s.withMem (s.mem.store c.writes)).cellsVa (queueCtx q) (cfgCqBase (s.queueCfg q) + 32 * (s.queue q).cqTail)
      (recordBytes (le c.bytes 8 4) (s.queue q).sqHead q stSuccess (c.flags ||| c.endFlags) (s.queue q).phase 0 0) = .ok w →
    ∃ u : State, exec (.commandComplete id pb hb) s = .next u.staticCheck ∧ u.mem = (s.mem.store c.writes).store w ∧ u.cmd? id = none ∧
      (u.queue q).unread = (s.queue q).unread + 1 ∧
      (u.queue q).cqTail = (if (s.queue q).cqTail + 1 = cqSize (s.queueCfg q) then 0 else (s.queue q).cqTail + 1) ∧
      (u.queue q).phase = (if (s.queue q).cqTail + 1 = cqSize (s.queueCfg q) then !(s.queue q).phase else (s.queue q).phase) ∧
      (∀ n, n ≠ q → u.queue n = s.queue n)) ∧
  (∀ (s : State) (id pb hb : Nat) (c : Cmd), s.cmd? id = some c → s.mayEnd c = false → exec (.commandComplete id pb hb) s = .next s.staticCheck) ∧
  (∀ (s : State) (p v : Nat), (s.signalPost p 1 v).postValue p = (s.postValue p + v) % 2 ^ 64 ∧ (s.signalPost p 2 v).postValue p = v ∧
    (∀ op r, r ≠ p → (s.signalPost p op v).postValue r = s.postValue r) ∧ (∀ op, (s.signalPost p op v).mem = s.mem))

/-- R238 to R243, R254 to R256, R485: Select takes its entries, the work list is laid out and the program may begin; a STEP that cannot be prepared fails with
none of its program begun. A step that succeeded commits: each entry's STEP counts on, its two latent buffers change places, and it is FINISHED with its
last step; a failed one leaves LAST_STATUS and the entries IDLE. A hand-off batch lays out its work list and its program may begin; when it has ended, its
entries are FREE and counted.
What of it is the model's own reading or choice: log entries 59, 60 and 61. -/
def Obligations.StepsSelectCommitAndHandOff : Prop :=  (∀ (s : State) (id : Nat) (r : Run) (flt : AccFault), s.run? id = some r → r.handoff = false → r.phase = 0 → s.mayStart r = true →
    noStables (s.tenantQuarters (some r.tenant)) = false → s.bucketsAt (some r.tenant) (le r.desc 16 8) = .error flt →
    exec (.stepSelect id) s = .next (s.stepFails r flt.fail)) ∧
  (∀ (s : State) (id : Nat) (r : Run), s.run? id = some r → r.handoff = false → r.phase = 0 → s.mayStart r = true →
    noStables (s.tenantQuarters (some r.tenant)) = true → exec (.stepSelect id) s = .next (s.stepFails r ⟨stContained, 4, none⟩)) ∧
  (∀ (s : State) (id : Nat) (r : Run), s.run? id = some r → r.handoff = false → r.phase = 0 → s.mayStart r = false → exec (.stepSelect id) s = .next s) ∧
  (∀ (s a : State) (id : Nat) (r : Run) (set : Buckets), s.run? id = some r → r.handoff = false → r.phase = 0 → s.mayStart r = true →
    noStables (s.tenantQuarters (some r.tenant)) = false → s.bucketsAt (some r.tenant) (le r.desc 16 8) = .ok set →
    (s.stepTake r (s.stepBatch r set)).stepPrepare (s.stepRun r) set (s.stepBatch r set) (s.stepImages (s.stepBatch r set))
      (s.stepAppends r set (s.stepBatch r set)) = .ok a →
    exec (.stepSelect id) s = .next a) ∧
  (∀ (s a : State) (id : Nat) (r : Run) (set : Buckets), s.run? id = some r → r.handoff = false → r.phase = 0 → s.mayStart r = true →
    noStables (s.tenantQuarters (some r.tenant)) = false → s.bucketsAt (some r.tenant) (le r.desc 16 8) = .ok set → le r.desc 1 1 ≠ 2 →
    r.cmd.bind s.cmd? = none ∨ (∃ c, r.cmd.bind s.cmd? = some c ∧ bit (le c.bytes 1 1) 1 = false) →
    (s.stepTake r (s.stepBatch r set)).layOut (s.stepRun r) set (s.stepBatch r set) (s.stepImages (s.stepBatch r set)) = .ok a →
    ∃ x : Run, exec (.stepSelect id) s = .next a ∧ a.run? id = some x ∧ x.phase = 1 ∧ x.batch = s.stepBatch r set ∧
      Store.get 0 a.remuda.penSteps (256 * r.tenant + r.pen) = s.stepsTaken r + 1 ∧ a.remuda.entries = (s.stepTake r (s.stepBatch r set)).remuda.entries ∧
      a = { s with mem := a.mem, remuda := a.remuda }) ∧
  (∀ (s : State) (id : Nat) (r : Run) (set : Buckets) (f : Fail), s.run? id = some r → r.handoff = false → r.phase = 0 → s.mayStart r = true →
    noStables (s.tenantQuarters (some r.tenant)) = false → s.bucketsAt (some r.tenant) (le r.desc 16 8) = .ok set →
    (s.stepTake r (s.stepBatch r set)).stepPrepare (s.stepRun r) set (s.stepBatch r set) (s.stepImages (s.stepBatch r set))
      (s.stepAppends r set (s.stepBatch r set)) = .error f →
    exec (.stepSelect id) s = .next ((s.stepCounted r).stepRefused r (s.stepBatch r set) f)) ∧
  (∀ (s : State) (id : Nat) (r : Run), s.run? id = some r → r.handoff = false → r.phase = 1 → r.opened = [] → r.failed = none → r.next = r.total →
    s.runStands r = false → r.hold = false → exec (.stepCommit id) s = .next (s.commitOk r).staticCheck) ∧
  (∀ (s : State) (id : Nat) (r : Run) (w : List (Nat × Byte)), s.run? id = some r → r.handoff = false → r.phase = 1 → r.opened = [] → r.failed = none →
    r.next = r.total → s.runStands r = false → r.hold = true → s.holdCopies r (List.range r.batch.length) [] = (w, none) →
    ∃ a : State, exec (.stepCommit id) s = .next (a.commitOk r).staticCheck ∧ a.mem = s.mem.store w ∧ a.remuda = s.remuda ∧ a.exec = s.exec ∧ a.queues = s.queues) ∧
  (∀ (s : State) (id ix : Nat) (r : Run), s.run? id = some r → r.handoff = false → r.phase = 1 → r.opened = [] → r.failed = none → r.next = r.total →
    s.runStands r = false → r.hold = false → r.batch = [ix] → r.pinned = [] → r.copies = [] → r.dropWindow = none → s.remuda.admits = [] → s.remuda.retires = [] →
    (s.entry ix).retireBy = none →
    imgAutoRetire (commitImage r.desc (s.entry ix).image (r.appended.getD 0) (r.finish.contains 0) (Store.get (acxZero false) r.spend 0)
      ((r.reuse.filter (fun x => x.2.1 == 0)).length)).1 = false →
    ∃ u : State, exec (.stepCommit id) s = .next u.staticCheck ∧ (u.run? id).map Run.phase = some 2 ∧ (u.entry ix).order = r.penStep ∧
      (u.entry ix).image = (commitImage r.desc (s.entry ix).image (r.appended.getD 0) (r.finish.contains 0) (Store.get (acxZero false) r.spend 0)
        ((r.reuse.filter (fun x => x.2.1 == 0)).length)).1 ∧ (∀ n, n ≠ ix → u.entry n = s.entry n)) ∧
  (∀ (s : State) (id : Nat) (r : Run) (x : Nat × Nat × Nat), s.run? id = some r → r.handoff = false → r.phase = 1 → r.opened = [] → r.failed = some x →
    s.runStands r = false → exec (.stepCommit id) s = .next (s.commitFails r x.2.1 x.2.2 none).staticCheck) ∧
  (∀ (s : State) (id : Nat) (r : Run), s.run? id = some r → s.runStands r = true → exec (.stepCommit id) s = .next s.staticCheck) ∧
  (∀ (desc : List Byte) (img n : Nat) (finish : Bool) (spend : Acx) (reused : Nat), gateEnabled desc = false → img < 2 ^ 1024 → imgStep img + 1 < 2 ^ 32 →
    imgStep (commitImage desc img n finish spend reused).1 = imgStep img + 1 ∧ imgCur (commitImage desc img n finish spend reused).1 = 1 - imgCur img ∧
    imgState (commitImage desc img n finish spend reused).1 = (if imgStep img + 1 = imgTotal img ∨ finish = true then stFinished else stIdle) ∧
    imgSeed (commitImage desc img n finish spend reused).1 = imgSeed img) ∧
  (∀ (s : State) (id : Nat) (r : Run) (flt : AccFault), s.run? id = some r → r.handoff = true → r.phase = 0 → s.mayStart r = true →
    noStables (s.tenantQuarters (some r.tenant)) = false → s.bucketsAt (some r.tenant) (le r.desc 24 8) = .error flt →
    exec (.handoffBatchStart id) s = .next (s.handFails r flt.fail)) ∧
  (∀ (s : State) (id : Nat) (r : Run), s.run? id = some r → r.handoff = true → r.phase = 0 → s.mayStart r = true →
    noStables (s.tenantQuarters (some r.tenant)) = true → exec (.handoffBatchStart id) s = .next (s.handFails r ⟨stContained, 4, none⟩)) ∧
  (∀ (s a : State) (id : Nat) (r : Run) (set : Buckets), s.run? id = some r → r.handoff = true → r.phase = 0 → s.mayStart r = true →
    noStables (s.tenantQuarters (some r.tenant)) = false → s.bucketsAt (some r.tenant) (le r.desc 24 8) = .ok set →
    s.layOut r set r.batch (r.batch.map (fun ix => setLeN (s.entry ix).image 8 4 0)) = .ok a →
    ∃ x : Run, exec (.handoffBatchStart id) s = .next a ∧ a.run? id = some x ∧ x.phase = 1 ∧ x.batch = r.batch ∧ a.remuda.entries = s.remuda.entries ∧
      a = { s with mem := a.mem, remuda := a.remuda }) ∧
  (∀ (s : State) (id : Nat) (r : Run), s.run? id = some r → r.handoff = true → r.phase = 1 → r.opened = [] → r.failed = none → r.next = r.total →
    s.runStands r = false → s.recordBlocked r = false →
    ∃ u : State, exec (.handoffBatchComplete id) s = .next u.staticCheck ∧ (∀ ix, ix ∈ r.batch → u.entry ix = Entry.free) ∧
      (∀ ix, ix ∉ r.batch → u.entry ix = s.entry ix) ∧ u.run? id = none ∧
      u.obj oRemudaHandoffs = satAdd (objBits oRemudaHandoffs) (s.obj oRemudaHandoffs) 1 ∧ u.exec.stables = s.exec.stables) ∧
  (∀ (s : State) (id : Nat) (r : Run), s.run? id = some r → r.handoff = true → r.phase = 1 → s.runStands r = true ∨ s.recordBlocked r = true →
    exec (.handoffBatchComplete id) s = .next s.staticCheck)

/-- R292, R294, R296, R302 to R306: a frame takes the lowest-numbered buffers its size cap needs and waits for an engine, or ends with EXHAUSTED and is counted;
one whose stream or context does not allow it fails. A frame coded or decoded leaves its engine, no longer waits and holds the bytes it writes until it
completes; its context, its buffers and its outputs change only then.
What of it is the model's own reading or choice: log entries 11 and 62. -/
def Obligations.FramesTakeBuffersAndEnd : Prop :=  (∀ (s : State) (id : Nat) (j : CodecJob) (c : Cmd), s.job? id = some j → s.cmd? id = some c → j.enc = true → j.ready = false → s.ctxBusy j = false →
    s.regs.fatal = false →
    (∀ f, (s.asBegan c).frameRefused j (bit (le c.bytes 88 1) 2) = some f → exec (.encodeBufferRequest id) s = .next (s.jobFails j f.status f.detail f.fault)) ∧
    ((s.asBegan c).frameRefused j (bit (le c.bytes 88 1) 2) = none →
      ((s.asBegan c).freeBufs j.tenant (ceilDiv (parseEnc j.cfg).cap ((s.asBegan c).codecPool j.tenant).bytes)).length <
        ceilDiv (parseEnc j.cfg).cap ((s.asBegan c).codecPool j.tenant).bytes →
      exec (.encodeBufferRequest id) s = .next ((s.count (oTenantCodecExhausted j.tenant) 1).jobFails j stExhausted
        (ceilDiv (parseEnc j.cfg).cap ((s.asBegan c).codecPool j.tenant).bytes % 2 ^ 21) none)) ∧
    ((s.asBegan c).frameRefused j (bit (le c.bytes 88 1) 2) = none →
      ceilDiv (parseEnc j.cfg).cap ((s.asBegan c).codecPool j.tenant).bytes ≤
        ((s.asBegan c).freeBufs j.tenant (ceilDiv (parseEnc j.cfg).cap ((s.asBegan c).codecPool j.tenant).bytes)).length →
      ∃ u j' c', exec (.encodeBufferRequest id) s = .next u ∧ u.job? id = some j' ∧ j'.ready = true ∧
        j'.bufs = (s.asBegan c).freeBufs j.tenant (ceilDiv (parseEnc j.cfg).cap ((s.asBegan c).codecPool j.tenant).bytes) ∧
        (∀ b ∈ j'.bufs, u.buf j.tenant b = 1) ∧ u.cmd? id = some c' ∧ c' = { c with wait := Wait.engine } ∧ u.mem = s.mem ∧ u.queues = s.queues)) ∧
  (∀ (s : State) (id : Nat) (j : CodecJob), s.job? id = some j → j.enc = true → j.ready = true → exec (.encodeBufferRequest id) s = .next s) ∧
  (∀ (s : State) (id : Nat) (j : CodecJob), s.job? id = some j → s.ctxBusy j = true → exec (.encodeBufferRequest id) s = .next s) ∧
  (∀ (s : State) (j : CodecJob) (init : Bool), streamChange (parseEnc j.cfg) init (s.streamOf j) = none → (s.codecPool j.tenant).count = 0 →
    s.frameRefused j init = some ⟨stObjectState, 2 * 4096, none⟩) ∧
  (∀ (s : State) (id eng : Nat) (j : CodecJob) (c : Cmd) (f : AccFault), s.job? id = some j → s.cmd? id = some c → j.engine = some eng → s.regs.fatal = false →
    j.enc = true → (s.asBegan c).encodeFrame j c.bytes = .error f → exec (.codecFrameComplete id) s = .next (s.jobFails j f.fail.status f.fail.detail (some f))) ∧
  (∀ (s : State) (id eng : Nat) (j : CodecJob) (c : Cmd) (d : FrameDone), s.job? id = some j → s.cmd? id = some c → j.engine = some eng → s.regs.fatal = false →
    j.enc = true → (s.asBegan c).encodeFrame j c.bytes = .ok d →
    ∃ u j' c', exec (.codecFrameComplete id) s = .next u ∧ u.job? id = some j' ∧ j'.done = some ⟨some d.ctx, none, d.keep⟩ ∧ u.cmd? id = some c' ∧
      c' = { c with wait := Wait.none, writes := d.writes } ∧ u.codec.streams = s.codec.streams ∧ u.codec.decs = s.codec.decs ∧ u.queues = s.queues) ∧
  (∀ (s : State) (id eng : Nat) (j : CodecJob) (c : Cmd) (d : DecodeDone), s.job? id = some j → s.cmd? id = some c → j.engine = some eng → s.regs.fatal = false →
    j.enc = false → (s.asBegan c).decodeFrame j c.bytes = .ok d →
    ∃ u j' c', exec (.codecFrameComplete id) s = .next u ∧ u.job? id = some j' ∧ j'.done = some ⟨none, some d.ctx, []⟩ ∧ u.cmd? id = some c' ∧
      c' = { c with wait := Wait.none, writes := d.writes } ∧ u.codec.streams = s.codec.streams ∧ u.codec.decs = s.codec.decs ∧ u.queues = s.queues) ∧
  (∀ (s : State) (id : Nat) (j : CodecJob), s.job? id = some j → j.engine = none → exec (.codecFrameComplete id) s = .next s)

/-! ## Arithmetic -/

/-- R51, R58, R68: the code of a finite value that the format holds is that value's code: rounding what a code stands for gives the code back, and no flag, in every
rounding mode. -/
def Obligations.RoundingKeepsRepresentableValues : Prop :=  ∀ (code mode draw c : Nat) (sat : Bool), code ∈ [1, 2, 3, 4, 5, 6, 7, 8, 9, 10, 11] → c < 2 ^ fmtBits code → (decodeElem code c).isNaN = false →
    (decodeElem code c).isInf = false → roundOut code mode sat draw (decodeElem code c) = (c, 0)

/-- R63 to R65: an exact value of at most 64 significant bits in the range of the extended format is kept as it is, without a flag; the memory image of a value
gives it back. -/
def Obligations.ExtendedFormatKeepsSixtyFourBits : Prop :=  (∀ (n : Bool) (m : Nat) (e : Int), 2 ^ 63 ≤ m → m < 2 ^ 64 → acxMinExp ≤ e → e ≤ 2047 - 63 → (roundOdd (.fin n m e)).2 = 0 ∧
    (roundOdd (.fin n m e)).1.toNum = .fin n m e) ∧
  (∀ x : Acx, acxOfImage x.image = x)

/-- R74: the segments' partials combine in the canonical tree: neighbours in order, an odd last one passing up. -/
def Obligations.SegmentsCombineInTheCanonicalTree : Prop :=  (∀ (mode : Nat) (a b c d : Acx), (combineTree mode 7 [a, b, c, d]).1 =
    (combinePartials mode (combinePartials mode a b).1 (combinePartials mode c d).1).1) ∧
  (∀ (mode : Nat) (a b c : Acx), (combineTree mode 7 [a, b, c]).1 = (combinePartials mode (combinePartials mode a b).1 c).1) ∧
  (∀ (k s : Nat), 1 ≤ s → segmentsOk k s = true → (List.replicate s (segmentLen k s)).sum ≥ k)
end

