-- ==== Sys2Proof/Laws/Store.lean ====
section
/-! SUPPORT. Sparse stores and memory: a read after a write, and that every operation keeps the canonical form. -/

namespace Sys2Proof.Machine

theorem Store.wfFrom_mono {α : Type} [DecidableEq α] {d : α} {n k : Nat} {m : Store α} (h : Store.wfFrom d k m = true) (hn : n ≤ k) :
    Store.wfFrom d n m = true := by
  cases m with
  | nil => rfl
  | cons p rest =>
    obtain ⟨j, v⟩ := p
    simp only [Store.wfFrom, Bool.and_eq_true, decide_eq_true_eq] at h ⊢
    exact ⟨⟨by omega, h.1.2⟩, h.2⟩

theorem Store.wfFrom_put {α : Type} [DecidableEq α] {d : α} (v : α) (hv : v ≠ d) (k : Nat) :
    ∀ (m : Store α) (n : Nat), n ≤ k → Store.wfFrom d n m = true → Store.wfFrom d n (Store.put m k v) = true
  | [], n, hn, _ => by simp [Store.put, Store.wfFrom, hn, hv]
  | (j, w) :: rest, n, hn, h => by
    simp only [Store.wfFrom, Bool.and_eq_true, decide_eq_true_eq] at h
    unfold Store.put
    split
    · subst_vars
      simp [Store.wfFrom, hn, hv, h.2]
    · split
      · rename_i hlt
        simp only [Store.wfFrom, Bool.and_eq_true, decide_eq_true_eq]
        exact ⟨⟨hn, hv⟩, ⟨by omega, h.1.2⟩, h.2⟩
      · simp only [Store.wfFrom, Bool.and_eq_true, decide_eq_true_eq]
        exact ⟨h.1, Store.wfFrom_put v hv k rest (j + 1) (by omega) h.2⟩

theorem Store.wfFrom_erase {α : Type} [DecidableEq α] {d : α} (k : Nat) :
    ∀ (m : Store α) (n : Nat), Store.wfFrom d n m = true → Store.wfFrom d n (Store.erase m k) = true
  | [], _, _ => rfl
  | (j, w) :: rest, n, h => by
    simp only [Store.wfFrom, Bool.and_eq_true, decide_eq_true_eq] at h
    unfold Store.erase
    split
    · exact Store.wfFrom_mono (Store.wfFrom_erase k rest (j + 1) h.2) (by omega)
    · simp only [Store.wfFrom, Bool.and_eq_true, decide_eq_true_eq]
      exact ⟨h.1, Store.wfFrom_erase k rest (j + 1) h.2⟩

/-- A write keeps the canonical form. -/
theorem Store.wf_set {α : Type} [DecidableEq α] {d : α} {m : Store α} (h : Store.wf d m = true) (k : Nat) (v : α) :
    Store.wf d (Store.set d m k v) = true := by
  unfold Store.set
  split
  · exact Store.wfFrom_erase k m 0 h
  · exact Store.wfFrom_put v ‹_› k m 0 (Nat.zero_le k) h

theorem Store.wfFrom_filter {α : Type} [DecidableEq α] {d : α} (p : Nat × α → Bool) :
    ∀ (m : Store α) (n : Nat), Store.wfFrom d n m = true → Store.wfFrom d n (m.filter p) = true
  | [], _, _ => rfl
  | (j, w) :: rest, n, h => by
    simp only [Store.wfFrom, Bool.and_eq_true, decide_eq_true_eq] at h
    rw [List.filter_cons]
    split
    · simp only [Store.wfFrom, Bool.and_eq_true, decide_eq_true_eq]
      exact ⟨h.1, Store.wfFrom_filter p rest (j + 1) h.2⟩
    · exact Store.wfFrom_mono (Store.wfFrom_filter p rest (j + 1) h.2) (by omega)

/-- Leaving entries out keeps the canonical form. -/
theorem Store.wf_filter {α : Type} [DecidableEq α] {d : α} {m : Store α} (h : Store.wf d m = true) (p : Nat × α → Bool) :
    Store.wf d (m.filter p) = true := Store.wfFrom_filter p m 0 h

theorem Store.get_put {α : Type} (d v : α) (k j : Nat) (m : Store α) : Store.get d (Store.put m k v) j = if k = j then v else Store.get d m j := by
  induction m with
  | nil => rfl
  | cons c rest ih =>
    obtain ⟨i, w⟩ := c
    unfold Store.put
    split
    · subst_vars
      simp only [Store.get]
      split <;> rfl
    · split
      · simp only [Store.get]
      · simp only [Store.get, ih]
        split
        · rw [if_neg (by omega)]
        · rfl

theorem Store.get_erase {α : Type} (d : α) (k j : Nat) (m : Store α) : Store.get d (Store.erase m k) j = if k = j then d else Store.get d m j := by
  induction m with
  | nil => simp [Store.erase, Store.get]
  | cons c rest ih =>
    obtain ⟨i, w⟩ := c
    unfold Store.erase
    split
    · subst_vars
      rw [ih]
      simp only [Store.get]
      split <;> rfl
    · simp only [Store.get, ih]
      split
      · rw [if_neg (by omega)]
      · rfl

/-- A read after a write: the value written at that key, every other key as before. -/
theorem Store.get_set {α : Type} [DecidableEq α] (d : α) (m : Store α) (k j : Nat) (v : α) :
    Store.get d (Store.set d m k v) j = if k = j then v else Store.get d m j := by
  unfold Store.set
  split
  · subst_vars
    exact Store.get_erase _ k j m
  · exact Store.get_put d v k j m

@[simp] theorem Store.get_set_self {α : Type} [DecidableEq α] (d : α) (m : Store α) (k : Nat) (v : α) :
    Store.get d (Store.set d m k v) k = v := by
  rw [Store.get_set, if_pos rfl]

theorem Store.get_set_other {α : Type} [DecidableEq α] (d : α) (m : Store α) {k j : Nat} (v : α) (h : k ≠ j) :
    Store.get d (Store.set d m k v) j = Store.get d m j := by
  rw [Store.get_set, if_neg h]

@[simp] theorem Store.find?_put_self {α : Type} (m : Store α) (k : Nat) (v : α) : Store.find? (Store.put m k v) k = some v := by
  induction m with
  | nil => simp [Store.put, Store.find?]
  | cons c rest ih =>
    obtain ⟨i, w⟩ := c
    unfold Store.put
    split
    · simp [Store.find?]
    · split
      · simp [Store.find?]
      · simp only [Store.find?, ih]
        rw [if_neg (by omega)]

/-! ## Memory -/

theorem MemGroup.wf_write {m : MemGroup} (h : m.wf = true) (k : Nat) (b : Byte) : (m.write k b).wf = true := Store.wf_set h k b

theorem MemGroup.wf_writeCells {m : MemGroup} (h : m.wf = true) (cells : List (Nat × Byte)) : (m.writeCells cells).wf = true := by
  induction cells generalizing m with
  | nil => exact h
  | cons c rest ih => exact ih (MemGroup.wf_write h c.1 c.2)

theorem MemGroup.wf_store {m : MemGroup} (h : m.wf = true) (cells : List (Nat × Byte)) : (m.store cells).wf = true :=
  MemGroup.wf_writeCells h cells

theorem MemGroup.wf_zero {m : MemGroup} (h : m.wf = true) (lo hi : Nat) : (m.zero lo hi).wf = true := Store.wf_filter h _

theorem MemGroup.wf_fields {m : MemGroup} (h : m.wf = true) (po : List Nat) (fo go : Store Nat) (sf sg : List Nat) (al : Store (List Alloc))
    (de : List DelayedReq) (ha : List (Nat × Nat)) : MemGroup.wf ⟨m.bytes, po, fo, go, sf, sg, al, de, ha⟩ = true := h

theorem MemGroup.wf_filtered {m : MemGroup} (h : m.wf = true) (f : Nat × Byte → Bool) (po : List Nat) (fo go : Store Nat) (sf sg : List Nat)
    (al : Store (List Alloc)) (de : List DelayedReq) (ha : List (Nat × Nat)) : MemGroup.wf ⟨m.bytes.filter f, po, fo, go, sf, sg, al, de, ha⟩ = true :=
  Store.wf_filter h f

theorem MemGroup.wf_empty (po : List Nat) (fo go : Store Nat) (sf sg : List Nat) (al : Store (List Alloc))
    (de : List DelayedReq) (ha : List (Nat × Nat)) : MemGroup.wf ⟨[], po, fo, go, sf, sg, al, de, ha⟩ = true := rfl

theorem MemGroup.wf_foldl {α : Type} {f : MemGroup → α → MemGroup} {l : List α} {m : MemGroup} (h : m.wf = true)
    (hf : ∀ x a, x.wf = true → (f x a).wf = true) : (l.foldl f m).wf = true := by
  induction l generalizing m with
  | nil => exact h
  | cons a rest ih => exact ih (hf m a h)

/-- A byte not among the cells written reads as before. -/
theorem MemGroup.read_writeCells_other (m : MemGroup) (cells : List (Nat × Byte)) (a : Nat) (ha : ∀ c ∈ cells, c.1 ≠ a) :
    (m.writeCells cells).read a = m.read a := by
  induction cells generalizing m with
  | nil => rfl
  | cons c rest ih =>
    have h1 := ih (m.write c.1 c.2) (fun x hx => ha x (List.mem_cons_of_mem c hx))
    have h2 : (m.write c.1 c.2).read a = m.read a := Store.get_set_other 0 m.bytes c.2 (ha c (by simp))
    exact h1.trans h2

theorem MemGroup.read_store_other (m : MemGroup) (cells : List (Nat × Byte)) (a : Nat) (ha : ∀ c ∈ cells, c.1 ≠ a) :
    (m.store cells).read a = m.read a := MemGroup.read_writeCells_other m cells a ha

end Sys2Proof.Machine
end

