-- ==== Sys2Proof/Laws/Good.lean ====
section
/-! SUPPORT. What every function of the model keeps: the memory's canonical form, and the queue of waiting commands. -/

namespace Sys2Proof.Machine

/-- Memory is in its canonical form, and the commands that wait are `p`. -/
structure Good (p : List Instr) (s : State) : Prop where
  mem : s.mem.wf = true
  pending : s.pending = p

theorem good_mk {p : List Instr} {s : State} (h : Good p s) {q r d e rm o pw sc fb ob cd fc} :
    Good p ⟨s.mem, q, r, d, e, rm, o, pw, sc, fb, ob, cd, fc, s.pending⟩ := ⟨h.mem, h.pending⟩

theorem good_mem {p : List Instr} {s : State} (h : Good p s) {m : MemGroup} (hm : m.wf = true) {q r d e rm o pw sc fb ob cd fc} :
    Good p ⟨m, q, r, d, e, rm, o, pw, sc, fb, ob, cd, fc, s.pending⟩ := ⟨hm, h.pending⟩

theorem good_foldl {α : Type} {p : List Instr} {f : State → α → State} {l : List α} {s : State} (h : Good p s)
    (hf : ∀ x a, Good p x → Good p (f x a)) : Good p (l.foldl f s) := by
  induction l generalizing s with
  | nil => exact h
  | cons a rest ih => exact ih (hf s a h)

theorem good_foldl_fst {α β : Type} {p : List Instr} {f : State × β → α → State × β} {l : List α} {s : State × β} (h : Good p s.1)
    (hf : ∀ x a, Good p x.1 → Good p (f x a).1) : Good p (l.foldl f s).1 := by
  induction l generalizing s with
  | nil => exact h
  | cons a rest ih => exact ih (hf s a h)

theorem good_foldl_snd {α β : Type} {p : List Instr} {f : β × State → α → β × State} {l : List α} {s : β × State} (h : Good p s.2)
    (hf : ∀ x a, Good p x.2 → Good p (f x a).2) : Good p (l.foldl f s).2 := by
  induction l generalizing s with
  | nil => exact h
  | cons a rest ih => exact ih (hf s a h)

/-- The same of a result that may be a failure instead. -/
def GoodE {ε : Type} (p : List Instr) (r : Except ε State) : Prop := ∀ t, r = .ok t → Good p t

theorem goodE_ok {ε : Type} {p : List Instr} {s : State} (h : Good p s) : GoodE p (.ok s : Except ε State) := by
  intro t ht
  cases ht
  exact h

theorem goodE_pure {ε : Type} {p : List Instr} {s : State} (h : Good p s) : GoodE p (pure s : Except ε State) := goodE_ok h

theorem goodE_error {ε : Type} {p : List Instr} (e : ε) : GoodE p (.error e : Except ε State) := by
  intro t ht
  cases ht

theorem goodE_bind {ε α : Type} {p : List Instr} {x : Except ε α} {f : α → Except ε State} (hf : ∀ a, GoodE p (f a)) : GoodE p (x >>= f) := by
  cases x with
  | error e => exact goodE_error e
  | ok a => exact hf a

theorem goodE_bindS {ε : Type} {p : List Instr} {x : Except ε State} {f : State → Except ε State} (hx : GoodE p x)
    (hf : ∀ a, Good p a → GoodE p (f a)) : GoodE p (x >>= f) := by
  cases x with
  | error e => exact goodE_error e
  | ok a => exact hf a (hx a rfl)

theorem goodE_foldlM {ε α : Type} {p : List Instr} {f : State → α → Except ε State} {l : List α} {s : State} (h : Good p s)
    (hf : ∀ x a, Good p x → GoodE p (f x a)) : GoodE p (l.foldlM f s) := by
  induction l generalizing s with
  | nil => exact goodE_ok h
  | cons a rest ih =>
    rw [List.foldlM_cons]
    exact goodE_bindS (hf s a h) (fun b hb => ih hb)

end Sys2Proof.Machine
end

