-- ==== Sys2Proof/Laws/GoodCore.lean ====
section
/-! SUPPORT. The functions of memory, objects, links, posts and the beginning of a command keep the canonical form of memory and the queue of waiting commands (`Good`). -/

namespace Sys2Proof.Machine

/-! ## Machine/Dict.lean -/

theorem good_setObj {p : List Instr} {s : State} (h : Good p s) {key v} : Good p (State.setObj s key v) := by
  unfold State.setObj
  exact good_mk ‹_›

theorem good_count {p : List Instr} {s : State} (h : Good p s) {key n} : Good p (State.count s key n) := by
  unfold State.count
  exact good_setObj ‹_›

theorem good_writeObj {p : List Instr} {s : State} (h : Good p s) {key v} : Good p (State.writeObj s key v) := by
  unfold State.writeObj
  exact good_mk ‹_›

theorem good_answerObj {p : List Instr} {s : State} (h : Good p s) {res v seq} : Good p (State.answerObj s res v seq) := by
  unfold State.answerObj
  exact good_mk ‹_›

/-! ## Machine/Ops.lean -/

theorem good_withMem {p : List Instr} {s : State} (h : Good p s) {m : MemGroup} (hm : m.wf = true) : Good p (State.withMem s m) := ⟨hm, h.pending⟩

theorem good_setQueue {p : List Instr} {s : State} (h : Good p s) {q v} : Good p (State.setQueue s q v) := by
  unfold State.setQueue
  exact good_mk ‹_›

theorem good_sendVector {p : List Instr} {s : State} (h : Good p s) {f v} : Good p (State.sendVector s f v) := by
  unfold State.sendVector
  dsimp only
  exact good_mk ‹_›

theorem good_sendQueueVector {p : List Instr} {s : State} (h : Good p s) {q} : Good p (State.sendQueueVector s q) := by
  unfold State.sendQueueVector
  exact good_sendVector ‹_›

theorem good_tenantEvent {p : List Instr} {s : State} (h : Good p s) {a1 b} : Good p (State.tenantEvent s a1 b) := by
  unfold State.tenantEvent
  dsimp only
  split
  · assumption
  · split
    · exact good_sendQueueVector (good_mk ‹_›)
    · exact good_mk ‹_›

theorem good_putEvent {p : List Instr} {s : State} (h : Good p s) {e seq} : Good p (State.putEvent s e seq) := by
  unfold State.putEvent
  dsimp only
  apply good_sendVector
  apply good_mk
  apply good_withMem
  · assumption
  · apply MemGroup.wf_store
    refine Good.mem (p := p) ?_
    assumption

theorem good_free {p : List Instr} {s : State} (h : Good p s) : Good p ((State.free s).2) := by
  unfold State.free
  dsimp only
  exact good_mk ‹_›

theorem good_spurDraw {p : List Instr} {s : State} (h : Good p s) {k part} : Good p ((State.spurDraw s k part).1) := by
  unfold State.spurDraw
  dsimp only
  split
  · split
    · assumption
    · split
      · dsimp only
        exact good_count (good_free ‹_›)
      · dsimp only
        exact good_free ‹_›
  · split
    · assumption
    · split
      · dsimp only
        exact good_count (good_free ‹_›)
      · dsimp only
        exact good_free ‹_›

theorem good_logEvent {p : List Instr} {s : State} (h : Good p s) {e seq} : Good p (State.logEvent s e seq) := by
  unfold State.logEvent
  dsimp only
  split
  · exact good_mk ‹_›
  · exact good_mk (good_free ‹_›)

theorem good_notify {p : List Instr} {s : State} (h : Good p s) {rec} : Good p (State.notify s rec) := by
  unfold State.notify
  dsimp only
  exact good_mk ‹_›

theorem good_event {p : List Instr} {s : State} (h : Good p s) {e} : Good p (State.event s e) := by
  unfold State.event
  dsimp only
  split
  · split
    · exact good_notify (good_putEvent (good_logEvent (good_mk ‹_›)))
    · exact good_putEvent (good_logEvent (good_mk ‹_›))
  · split
    · exact good_notify (good_mk (good_logEvent (good_mk ‹_›)))
    · exact good_mk (good_logEvent (good_mk ‹_›))

/-! ## Machine/Linear.lean -/

theorem good_setEntry {p : List Instr} {s : State} (h : Good p s) {e v} : Good p (State.setEntry s e v) := by
  unfold State.setEntry
  dsimp only
  exact good_mk ‹_›

/-! ## Machine/Trace.lean -/

theorem good_reportDrops {p : List Instr} {s : State} (h : Good p s) : Good p (State.reportDrops s) := by
  unfold State.reportDrops
  split
  · assumption
  · dsimp only
    exact good_mk (good_free ‹_›)

theorem good_trace {p : List Instr} {s : State} (h : Good p s) {typ sub tenant tail} : Good p (State.trace s typ sub tenant tail) := by
  unfold State.trace
  split
  · assumption
  · dsimp only
    split
    · exact good_count (good_mk (good_reportDrops ‹_›))
    · exact good_mk (good_free (good_reportDrops ‹_›))

theorem good_traceCommand {p : List Instr} {s : State} (h : Good p s) {typ src c b status flags} : Good p (State.traceCommand s typ src c b status flags) := by
  unfold State.traceCommand
  dsimp only
  split
  · assumption
  · exact good_trace ‹_›

theorem good_traceMark {p : List Instr} {s : State} (h : Good p s) {src c b} : Good p (State.traceMark s src c b) := by
  unfold State.traceMark
  dsimp only
  exact good_trace ‹_›

theorem good_tracePost {p : List Instr} {s : State} (h : Good p s) {typ sub c queue ref value} : Good p (State.tracePost s typ sub c queue ref value) := by
  unfold State.tracePost
  exact good_trace ‹_›

theorem good_traceLink {p : List Instr} {s : State} (h : Good p s) {port st width} : Good p (State.traceLink s port st width) := by
  unfold State.traceLink
  exact good_trace ‹_›

theorem good_traceGait {p : List Instr} {s : State} (h : Good p s) {gait cause} : Good p (State.traceGait s gait cause) := by
  unfold State.traceGait
  exact good_trace ‹_›

theorem good_setAttrib {p : List Instr} {s : State} (h : Good p s) {a1 l} : Good p (State.setAttrib s a1 l) := by
  unfold State.setAttrib
  dsimp only
  exact good_mk ‹_›

theorem good_charge {p : List Instr} {s : State} (h : Good p s) {a1 key ns bytes commands} : Good p (State.charge s a1 key ns bytes commands) := by
  unfold State.charge
  dsimp only
  split
  · exact good_setAttrib ‹_›
  · split
    · exact good_setAttrib ‹_›
    · exact good_count ‹_›

theorem good_chargeEngine {p : List Instr} {s : State} (h : Good p s) {c key ns} : Good p (State.chargeEngine s c key ns) := by
  unfold State.chargeEngine
  split
  · exact good_charge (good_count ‹_›)
  · exact good_count ‹_›

theorem good_chargeBytes {p : List Instr} {s : State} (h : Good p s) {c key paddock hbm} : Good p (State.chargeBytes s c key paddock hbm) := by
  unfold State.chargeBytes
  split
  · exact good_charge (good_count (good_count ‹_›))
  · assumption

theorem good_faultInfo {p : List Instr} {s : State} (h : Good p s) {c queue f} : Good p (State.faultInfo s c queue f) := by
  unfold State.faultInfo
  dsimp only
  split
  · exact good_tenantEvent (good_setObj ‹_›)
  · exact good_event (good_setObj ‹_›)

/-! ## Machine/Arbiter.lean -/

theorem good_setArb {p : List Instr} {s : State} (h : Good p s) {n a} : Good p (State.setArb s n a) := by
  unfold State.setArb
  exact good_mk ‹_›

theorem good_arbitrate {p : List Instr} {s : State} {inc : Nat → Nat} (h : Good p s) {n reqs} : Good p (State.arbitrate s n inc reqs).1 := by
  unfold State.arbitrate
  split
  · assumption
  · dsimp only
    split
    · dsimp only
      exact good_free (good_spurDraw ‹_›)
    · dsimp only
      exact good_setArb (good_spurDraw ‹_›)

theorem good_grantTo {p : List Instr} {s : State} (h : Good p s) {n quantum name reqs} {g : State × Nat}
    (hg : s.grantTo n quantum name reqs = some g) : Good p g.1 := by
  unfold State.grantTo at hg
  have hk := good_arbitrate h (n := n) (inc := s.shareInc quantum) (reqs := reqs)
  rcases hq : s.arbitrate n (s.shareInc quantum) reqs with ⟨s1, o⟩
  rw [hq] at hk hg
  cases o with
  | none => cases hg
  | some r =>
    dsimp only at hg
    split at hg
    · cases hg
      exact hk
    · cases hg

theorem good_chargeArb {p : List Instr} {s : State} (h : Good p s) {n tag cost more} : Good p (State.chargeArb s n tag cost more) := by
  unfold State.chargeArb
  exact good_setArb ‹_›

theorem good_chargeLate {p : List Instr} {s : State} (h : Good p s) {n tag cost} : Good p (State.chargeLate s n tag cost) := by
  unfold State.chargeLate
  exact good_setArb ‹_›

/-! ## Machine/Fabric.lean -/

theorem good_setPort {p : List Instr} {s : State} (h : Good p s) {a1 v} : Good p (State.setPort s a1 v) := by
  unfold State.setPort
  dsimp only
  exact good_mk ‹_›

theorem good_outPacket {p : List Instr} {s : State} (h : Good p s) {a1 k} : Good p (State.outPacket s a1 k) := by
  unfold State.outPacket
  dsimp only
  apply good_mk
  split
  · exact good_spurDraw ‹_›
  · assumption

theorem good_pickOut {p : List Instr} {s : State} (h : Good p s) {p1} : Good p (State.pickOut s p1).1 := by
  unfold State.pickOut
  dsimp only
  split
  · assumption
  · split
    · dsimp only
      exact good_arbitrate (good_setArb ‹_›)
    · split
      · dsimp only
        exact good_setArb ‹_›
      · dsimp only
        exact good_setArb (good_setArb ‹_›)

theorem good_chargeOut {p : List Instr} {s : State} (h : Good p s) {p1 left tag k} : Good p (State.chargeOut s p1 left tag k) := by
  unfold State.chargeOut
  dsimp only
  split
  · exact good_chargeArb (good_chargeArb ‹_›)
  · exact good_chargeArb (good_chargeArb ‹_›)

theorem good_pumpFuel {p : List Instr} {s : State} (h : Good p s) {a1 a2} : Good p (State.pumpFuel s a1 a2) := by
  induction a2 generalizing s with
  | zero =>
    unfold State.pumpFuel
    assumption
  | succ n ih =>
    unfold State.pumpFuel
    have hk := good_pickOut h (p1 := a1)
    rcases hq : s.pickOut a1 with ⟨s1, o⟩
    rw [hq] at hk
    split
    · assumption
    · cases o with
      | none => assumption
      | some i =>
        dsimp only
        split
        · assumption
        · exact ih (good_outPacket (good_setPort (good_chargeOut hk)))

theorem good_pump {p : List Instr} {s : State} (h : Good p s) {a1} : Good p (State.pump s a1) := by
  unfold State.pump
  exact good_pumpFuel ‹_›

theorem good_sendOn {p : List Instr} {s : State} (h : Good p s) {p1 tag k} : Good p (State.sendOn s p1 tag k) := by
  unfold State.sendOn
  dsimp only
  exact good_pump (good_setPort ‹_›)

theorem good_forwardTo {p : List Instr} {s : State} (h : Good p s) {k dst inp tag} : Good p (State.forwardTo s k dst inp tag) := by
  unfold State.forwardTo
  split
  · exact good_sendOn ‹_›
  · exact good_count ‹_›
  · exact good_count ‹_›

theorem good_enterSquare {p : List Instr} {s : State} (h : Good p s) : Good p (State.enterSquare s) := by
  unfold State.enterSquare
  exact good_spurDraw ‹_›

theorem good_forward {p : List Instr} {s : State} (h : Good p s) {k inp tag} : Good p (State.forward s k inp tag) := by
  unfold State.forward
  dsimp only
  split
  · exact good_outPacket (good_enterSquare ‹_›)
  · split
    · exact good_forwardTo (good_enterSquare ‹_›)
    · split
      · exact good_count (good_enterSquare ‹_›)
      · split
        · exact good_count (good_enterSquare ‹_›)
        · split
          · split
            · exact good_count (good_enterSquare ‹_›)
            · exact good_sendOn (good_enterSquare ‹_›)
          · exact good_forwardTo (good_enterSquare ‹_›)

theorem good_setStreamOut {p : List Instr} {s : State} (h : Good p s) {dst cls v} : Good p (State.setStreamOut s dst cls v) := by
  unfold State.setStreamOut
  dsimp only
  exact good_mk ‹_›

theorem good_setStreamIn {p : List Instr} {s : State} (h : Good p s) {src cls v} : Good p (State.setStreamIn s src cls v) := by
  unfold State.setStreamIn
  dsimp only
  exact good_mk ‹_›

theorem good_drainStream {p : List Instr} {s : State} (h : Good p s) {a1 a2 a3} : Good p (State.drainStream s a1 a2 a3) := by
  induction a3 generalizing s with
  | zero =>
    unfold State.drainStream
    assumption
  | succ n ih =>
    unfold State.drainStream
    dsimp only
    split
    · assumption
    · split
      · assumption
      · apply ih
        exact good_forward (good_setStreamOut ‹_›)

theorem good_originate {p : List Instr} {s : State} (h : Good p s) {tag dst typ body} : Good p (State.originate s tag dst typ body) := by
  unfold State.originate
  split
  · assumption
  · dsimp only
    split
    · apply good_drainStream
      apply good_setStreamOut
      split
      · exact good_count ‹_›
      · assumption
    · apply good_forward
      split
      · exact good_count ‹_›
      · assumption

theorem good_sendE2eAck {p : List Instr} {s : State} (h : Good p s) {src cls} : Good p (State.sendE2eAck s src cls) := by
  unfold State.sendE2eAck
  dsimp only
  exact good_originate (good_setStreamIn ‹_›)

theorem good_floodLsa {p : List Instr} {s : State} (h : Good p s) {d but} : Good p (State.floodLsa s d but) := by
  unfold State.floodLsa
  apply good_foldl
  · assumption
  · intros
    exact good_sendOn ‹_›

theorem good_mapChanged {p : List Instr} {s : State} (h : Good p s) {a1 up} : Good p (State.mapChanged s a1 up) := by
  unfold State.mapChanged
  dsimp only
  split
  · assumption
  · exact good_floodLsa (good_event (good_setObj (good_setObj ‹_›)))

/-! ## Machine/Posts.lean -/

theorem good_setRun {p : List Instr} {s : State} (h : Good p s) {r} : Good p (State.setRun s r) := by
  unfold State.setRun
  dsimp only
  exact good_mk ‹_›

theorem good_setWaitsMet {p : List Instr} {s : State} (h : Good p s) {src l} : Good p (State.setWaitsMet s src l) := by
  unfold State.setWaitsMet
  dsimp only
  split
  · exact good_setQueue ‹_›
  · split
    · exact good_setRun ‹_›
    · assumption

theorem good_latch {p : List Instr} {s : State} (h : Good p s) {src} : Good p (State.latch s src) := by
  unfold State.latch
  dsimp only
  split
  · assumption
  · split
    · assumption
    · apply good_foldl
      · exact good_setWaitsMet ‹_›
      · intros
        exact good_tracePost ‹_›

theorem good_latchAll {p : List Instr} {s : State} (h : Good p s) : Good p (State.latchAll s) := by
  unfold State.latchAll
  apply good_foldl
  · assumption
  · intros
    exact good_latch ‹_›

theorem good_subscribe {p : List Instr} {s : State} (h : Good p s) {src b} : Good p (State.subscribe s src b) := by
  unfold State.subscribe
  dsimp only
  apply good_foldl
  · assumption
  · intros
    split
    · assumption
    · split
      · assumption
      · exact good_originate (good_mk ‹_›)

theorem good_dropWaits {p : List Instr} {s : State} (h : Good p s) {a1} : Good p (State.dropWaits s a1) := by
  unfold State.dropWaits
  dsimp only
  exact good_mk ‹_›

theorem good_setWait {p : List Instr} {s : State} (h : Good p s) {waiter st} : Good p (State.setWait s waiter st) := by
  unfold State.setWait
  dsimp only
  exact good_mk ‹_›

theorem good_replySubs {p : List Instr} {s : State} (h : Good p s) {a1} : Good p (State.replySubs s a1) := by
  unfold State.replySubs
  dsimp only
  apply good_foldl
  · exact good_setObj (good_mk ‹_›)
  · intros
    exact good_originate ‹_›

theorem good_arrivals {p : List Instr} {s : State} (h : Good p s) : Good p (State.arrivals s) := by
  unfold State.arrivals
  dsimp only
  exact good_mk ‹_›

theorem good_signalPost {p : List Instr} {s : State} (h : Good p s) {a1 op v} : Good p (State.signalPost s a1 op v) := by
  unfold State.signalPost
  dsimp only
  exact good_arrivals (good_replySubs (good_latchAll (good_spurDraw (good_mk (good_latchAll ‹_›)))))

theorem good_clearPosts {p : List Instr} {s : State} (h : Good p s) {lo hi} : Good p (State.clearPosts s lo hi) := by
  unfold State.clearPosts
  dsimp only
  exact good_mk ‹_›

/-! ## Machine/Gate.lean -/

theorem good_gateOpen {p : List Instr} {s : State} (h : Good p s) {src : Src} {t : State} (ht : s.gateOpen src = .ok t) : Good p t := by
  suffices hs : GoodE p (s.gateOpen src) from hs t ht
  unfold State.gateOpen
  split
  · exact goodE_ok h
  · split
    · exact goodE_ok h
    · split
      · exact goodE_ok h
      · split
        · exact goodE_ok h
        · refine goodE_bind fun r => goodE_bind fun keep => goodE_pure ?_
          exact good_count (good_count (good_setRun (good_withMem h (MemGroup.wf_store h.mem keep))))

theorem good_gateClose {p : List Instr} {s : State} (h : Good p s) {run : Run} {i : Nat} {t : State} (ht : s.gateClose run i = .ok t) : Good p t := by
  suffices hs : GoodE p (s.gateClose run i) from hs t ht
  unfold State.gateClose
  split
  · exact goodE_ok h
  · split
    · exact goodE_ok h
    · dsimp only
      refine goodE_foldlM h fun x slot hx => goodE_foldlM hx fun y lr hy => ?_
      refine goodE_bind fun out => goodE_bind fun w1 => goodE_bind fun w2 => goodE_pure ?_
      exact good_withMem hy (MemGroup.wf_store hy.mem _)

/-! ## Machine/Begin.lean -/

theorem good_setPreempt {p : List Instr} {s : State} (h : Good p s) {a1 v} : Good p (State.setPreempt s a1 v) := by
  unfold State.setPreempt
  dsimp only
  exact good_mk ‹_›

theorem good_preemptCheck {p : List Instr} {s : State} (h : Good p s) {a1} : Good p (State.preemptCheck s a1) := by
  unfold State.preemptCheck
  dsimp only
  split
  · exact good_setPreempt (good_setObj ‹_›)
  · split
    · exact good_setObj ‹_›
    · assumption

theorem good_holdTenant {p : List Instr} {s : State} (h : Good p s) {a1 b on} : Good p (State.holdTenant s a1 b on) := by
  unfold State.holdTenant
  dsimp only
  exact good_preemptCheck (good_setPreempt ‹_›)

theorem good_spurDismount {p : List Instr} {s : State} (h : Good p s) {c b} : Good p ((State.spurDismount s c b).1) := by
  unfold State.spurDismount
  dsimp only
  split
  · assumption
  · split
    · assumption
    · split
      · dsimp only
        exact good_holdTenant (good_spurDraw ‹_›)
      · exact good_spurDraw ‹_›

theorem good_advance {p : List Instr} {s : State} (h : Good p s) {src} : Good p (State.advance s src) := by
  unfold State.advance
  dsimp only
  split
  · exact good_setQueue (good_dropWaits ‹_›)
  · split
    · exact good_setRun (good_dropWaits ‹_›)
    · exact good_dropWaits ‹_›

theorem good_startCmd {p : List Instr} {s : State} (h : Good p s) {src b r dig} : Good p (State.startCmd s src b r dig) := by
  unfold State.startCmd
  dsimp only
  apply good_traceCommand
  apply good_mk
  split
  · split
    · exact good_free (good_advance ‹_›)
    · exact good_advance ‹_›
  · split
    · exact good_free (good_advance ‹_›)
    · exact good_advance ‹_›

theorem good_addStepDigest {p : List Instr} {s : State} (h : Good p s) {e sd w} : Good p (State.addStepDigest s e sd w) := by
  unfold State.addStepDigest
  split
  · exact good_setRun ‹_›
  · assumption

theorem good_beginNow {p : List Instr} {s : State} {launch : State → Env → Nat → State} (h : Good p s) (h_launch : ∀ y0 y1 y2, Good p y0 → Good p (launch y0 y1 y2)) {src b plan} : Good p (State.beginNow s src b plan launch) := by
  unfold State.beginNow
  dsimp only
  split
  · exact good_startCmd ‹_›
  · split
    · exact good_startCmd ‹_›
    · apply h_launch
      exact good_addStepDigest (good_startCmd ‹_›)

theorem good_fetchFault {p : List Instr} {s : State} (h : Good p s) {src f} : Good p (State.fetchFault s src f) := by
  unfold State.fetchFault
  dsimp only
  split
  · split
    · exact good_tenantEvent (good_event (good_faultInfo (good_setQueue ‹_›)))
    · exact good_faultInfo (good_setQueue ‹_›)
  · split
    · exact good_faultInfo (good_setRun ‹_›)
    · assumption

theorem good_beginGated {p : List Instr} {s : State} {launch : State → Env → Nat → State} (h : Good p s) (h_launch : ∀ y0 y1 y2, Good p y0 → Good p (launch y0 y1 y2)) {src b plan} : Good p (State.beginGated s src b plan launch) := by
  unfold State.beginGated
  split
  · apply good_beginNow
    · refine good_gateOpen ?_ (by assumption)
      assumption
    · assumption
  · exact good_startCmd ‹_›

theorem good_beginRow {p : List Instr} {s : State} {launch : State → Env → Nat → State} (h : Good p s) (h_launch : ∀ y0 y1 y2, Good p y0 → Good p (launch y0 y1 y2)) {f mine plan} : Good p (State.beginRow s f mine plan launch) := by
  unfold State.beginRow
  dsimp only
  split
  · assumption
  · split
    · assumption
    · split
      · exact good_fetchFault ‹_›
      · split
        · assumption
        · split
          · split
            · exact good_spurDismount (good_subscribe (good_latch ‹_›))
            · apply good_beginGated
              · exact good_spurDismount (good_subscribe (good_latch ‹_›))
              · assumption
          · exact good_subscribe (good_latch ‹_›)

theorem good_noLaunch {p : List Instr} {s : State} (h : Good p s) {a1 a2} : Good p (noLaunch s a1 a2) := by
  unfold noLaunch
  assumption

end Sys2Proof.Machine
end

