-- ==== Sys2Proof/Laws/GoodSteps.lean ====
section
/-! SUPPORT. The functions of completion records, stalls, steps, hand-off and admission keep the canonical form of memory and the queue of waiting commands (`Good`). -/

namespace Sys2Proof.Machine

/-! ## Machine/Record.lean -/

theorem good_setCmd {p : List Instr} {s : State} (h : Good p s) {c} : Good p (State.setCmd s c) := by
  unfold State.setCmd
  dsimp only
  exact good_mk ‹_›

theorem good_dropCmd {p : List Instr} {s : State} (h : Good p s) {id} : Good p (State.dropCmd s id) := by
  unfold State.dropCmd
  dsimp only
  exact good_mk ‹_›

theorem good_dropGrants {p : List Instr} {s : State} (h : Good p s) {c} : Good p (State.dropGrants s c) := by
  unfold State.dropGrants
  exact good_mk ‹_›

theorem good_chargeDiscard {p : List Instr} {s : State} (h : Good p s) {c status detail} : Good p (State.chargeDiscard s c status detail) := by
  unfold State.chargeDiscard
  split
  · assumption
  · dsimp only
    split
    · exact good_count (good_free ‹_›)
    · exact good_chargeEngine (good_free ‹_›)

theorem good_failCmdAs {p : List Instr} {s : State} (h : Good p s) {id status detail f wide} : Good p (State.failCmdAs s id status detail f wide) := by
  unfold State.failCmdAs
  split
  · dsimp only
    apply good_setCmd
    apply good_dropGrants
    split
    · exact good_free (good_chargeDiscard ‹_›)
    · exact good_chargeDiscard ‹_›
  · assumption

theorem good_failCmd {p : List Instr} {s : State} (h : Good p s) {id status detail f} : Good p (State.failCmd s id status detail f) := by
  unfold State.failCmd
  exact good_failCmdAs ‹_›

theorem good_irq {p : List Instr} {s : State} (h : Good p s) {q now} : Good p (State.irq s q now) := by
  unfold State.irq
  dsimp only
  split
  · assumption
  · split
    · exact good_sendQueueVector (good_setQueue ‹_›)
    · exact good_setQueue ‹_›

theorem good_putRecord {p : List Instr} {s : State} (h : Good p s) {q tag status fl detail dig now} : Good p (State.putRecord s q tag status fl detail dig now) := by
  unfold State.putRecord
  dsimp only
  split
  · assumption
  · split
    · split
      · exact good_tenantEvent (good_event (good_faultInfo (good_setQueue ‹_›)))
      · exact good_faultInfo (good_setQueue ‹_›)
    · apply good_irq
      apply good_setQueue
      apply good_withMem
      · assumption
      · apply MemGroup.wf_store
        refine Good.mem (p := p) ?_
        assumption

/-! ## Machine/Stalls.lean -/

theorem good_putStall {p : List Instr} {s : State} (h : Good p s) {a1 i v} : Good p (State.putStall s a1 i v) := by
  unfold State.putStall
  dsimp only
  exact good_mk ‹_›

theorem good_syncStalls {p : List Instr} {s : State} (h : Good p s) {a1} : Good p (State.syncStalls s a1) := by
  unfold State.syncStalls
  dsimp only
  exact good_setObj (good_setObj ‹_›)

theorem good_dropRef {p : List Instr} {s : State} (h : Good p s) {a1 i} : Good p ((State.dropRef s a1 i).1) := by
  unfold State.dropRef
  dsimp only
  exact good_putStall ‹_›

theorem good_sumDrops {p : List Instr} {s : State} {f : State → Nat → State × Nat} (h : Good p s) (h_f : ∀ y0 y1, Good p y0 → Good p ((f y0 y1).1)) {l} : Good p ((State.sumDrops s f l).1) := by
  unfold State.sumDrops
  dsimp only
  apply good_foldl_fst
  · assumption
  · intros
    dsimp only
    apply h_f
    assumption

theorem good_pin {p : List Instr} {s : State} (h : Good p s) {a1 l} : Good p (State.pin s a1 l) := by
  unfold State.pin
  dsimp only
  apply good_foldl
  · assumption
  · intros
    exact good_putStall ‹_›

theorem good_unpin {p : List Instr} {s : State} (h : Good p s) {a1 l} : Good p ((State.unpin s a1 l).1) := by
  unfold State.unpin
  dsimp only
  apply good_sumDrops
  · assumption
  · intros
    dsimp only
    exact good_putStall ‹_›

theorem good_returned {p : List Instr} {s : State} (h : Good p s) {a1 n} : Good p (State.returned s a1 n) := by
  unfold State.returned
  dsimp only
  split
  · exact good_syncStalls ‹_›
  · exact good_signalPost (good_syncStalls ‹_›)

theorem good_emptyList {p : List Instr} {s : State} (h : Good p s) {a1 ix} : Good p ((State.emptyList s a1 ix).1) := by
  unfold State.emptyList
  dsimp only
  apply good_sumDrops
  · exact good_setEntry ‹_›
  · intros
    exact good_dropRef ‹_›

theorem good_share {p : List Instr} {s : State} (h : Good p s) {a1 child parent} : Good p (State.share s a1 child parent) := by
  unfold State.share
  dsimp only
  apply good_foldl
  · exact good_setEntry ‹_›
  · intros
    exact good_putStall ‹_›

theorem good_copyStall {p : List Instr} {s : State} (h : Good p s) {t src dst : Nat} {r : State} (hr : s.copyStall t src dst = .ok r) : Good p r := by
  suffices hs : GoodE p (s.copyStall t src dst) from hs r hr
  unfold State.copyStall
  refine goodE_bind fun b => goodE_bind fun w => goodE_pure ?_
  exact good_withMem h (MemGroup.wf_store h.mem _)

theorem good_takeStalls {p : List Instr} {s : State} (h : Good p s) {t : Nat} {needs : List (Need × Nat)} {r : State}
    (hr : s.takeStalls t needs = .ok r) : Good p r := by
  suffices hs : GoodE p (s.takeStalls t needs) from hs r hr
  unfold State.takeStalls
  refine goodE_foldlM h fun x n hx => ?_
  dsimp only
  have h1 : Good p ((x.setEntry n.1.entry { x.entry n.1.entry with dir := Store.set 0 (x.entry n.1.entry).dir n.1.index (n.2 + 1) }).putStall t n.2 ⟨1, 0, 0⟩) :=
    good_putStall (good_setEntry hx)
  split
  · exact goodE_pure h1
  · refine goodE_bindS (fun q hq => good_copyStall h1 hq) fun y hy => goodE_pure ?_
    exact good_count (good_putStall hy)

theorem good_applyDrops {p : List Instr} {s : State} (h : Good p s) {a1 l} : Good p ((State.applyDrops s a1 l).1) := by
  unfold State.applyDrops
  dsimp only
  apply good_sumDrops
  · assumption
  · intros
    exact good_dropRef (good_putStall ‹_›)

theorem good_applyWindow {p : List Instr} {s : State} (h : Good p s) {a1 ix len window} : Good p ((State.applyWindow s a1 ix len window).1) := by
  unfold State.applyWindow
  dsimp only
  apply good_sumDrops
  · exact good_setEntry ‹_›
  · intros
    exact good_dropRef ‹_›

/-! ## Machine/Remuda.lean -/

theorem good_syncRemuda {p : List Instr} {s : State} (h : Good p s) {a1} : Good p (State.syncRemuda s a1) := by
  unfold State.syncRemuda
  exact good_setObj (good_setObj ‹_›)

theorem good_setImage {p : List Instr} {s : State} (h : Good p s) {ix img} : Good p (State.setImage s ix img) := by
  unfold State.setImage
  dsimp only
  exact good_setEntry ‹_›

theorem good_holdRoom {p : List Instr} {s : State} (h : Good p s) {q n} : Good p (State.holdRoom s q n) := by
  unfold State.holdRoom
  dsimp only
  exact good_setQueue ‹_›

theorem good_launchStep {p : List Instr} {s : State} (h : Good p s) {e id} : Good p (launchStep s e id) := by
  unfold launchStep
  dsimp only
  split
  · apply good_setCmd
    split
    · exact good_holdRoom (good_mk ‹_›)
    · exact good_mk ‹_›
  · assumption

theorem good_dropRun {p : List Instr} {s : State} (h : Good p s) {id} : Good p (State.dropRun s id) := by
  unfold State.dropRun
  dsimp only
  exact good_mk ‹_›

theorem good_releaseRoom {p : List Instr} {s : State} (h : Good p s) {r} : Good p (State.releaseRoom s r) := by
  unfold State.releaseRoom
  split
  · exact good_holdRoom ‹_›
  · assumption

theorem good_stepFails {p : List Instr} {s : State} (h : Good p s) {r f} : Good p (State.stepFails s r f) := by
  unfold State.stepFails
  dsimp only
  split
  · exact good_failCmd (good_releaseRoom (good_setRun ‹_›))
  · exact good_releaseRoom (good_setRun ‹_›)

theorem good_reserve {p : List Instr} {s : State} (h : Good p s) {r : Run} {n : Nat} {seqs : List Nat} {t : State}
    (ht : s.reserve r n seqs = .ok t) : Good p t := by
  suffices hs : GoodE p (s.reserve r n seqs) from hs t ht
  unfold State.reserve
  dsimp only
  split
  · exact goodE_error _
  · split
    · exact goodE_error _
    · split
      · exact goodE_error _
      · split
        · exact goodE_error _
        · refine goodE_ok (good_syncStalls (good_setRun (good_pin ?_)))
          exact good_takeStalls h ‹_›

theorem good_layOut {p : List Instr} {s : State} (h : Good p s) {r : Run} {set : Buckets} {batch images : List Nat} {t : State}
    (ht : s.layOut r set batch images = .ok t) : Good p t := by
  have put : ∀ (r : Run) (bytes : List Byte) (q : Run), GoodE p (match s.cellsVa (some r.tenant) (penWl r.desc r.handoff) bytes with
      | .error f => (.error f.fail : Except Fail State)
      | .ok w => .ok ((s.withMem (s.mem.store w)).setRun q)) := by
    intro r bytes q
    split
    · exact goodE_error _
    · exact goodE_ok (good_setRun (good_withMem h (MemGroup.wf_store h.mem _)))
  suffices hs : GoodE p (s.layOut r set batch images) from hs t ht
  unfold State.layOut
  dsimp only
  split
  · exact goodE_error _
  · split
    · exact put _ _ _
    · split
      · exact goodE_error _
      · exact goodE_error _
      · split
        · exact goodE_error _
        · exact goodE_error _
        · exact put _ _ _

theorem good_stepPrepare {p : List Instr} {s : State} (h : Good p s) {r : Run} {set : Buckets} {batch images : List Nat}
    {a : Except AccFault Nat} {t : State} (ht : s.stepPrepare r set batch images a = .ok t) : Good p t := by
  suffices hs : GoodE p (s.stepPrepare r set batch images a) from hs t ht
  unfold State.stepPrepare
  refine goodE_bind fun n => goodE_bindS ?_ fun s3 h3 => goodE_bindS (fun t ht => good_layOut h3 ht) fun s4 h4 => ?_
  · split
    · intro t ht
      exact good_reserve h ht
    · exact goodE_ok h
  · split
    · split
      · split
        · exact goodE_ok h4
        · exact goodE_error _
      · exact goodE_ok h4
    · exact goodE_ok h4

theorem good_stepRefused {p : List Instr} {s : State} (h : Good p s) {r batch f} : Good p (State.stepRefused s r batch f) := by
  unfold State.stepRefused
  dsimp only
  apply good_stepFails
  split
  · split
    · exact good_count ‹_›
    · assumption
  · apply good_foldl
    · split
      · exact good_count ‹_›
      · assumption
    · intros
      exact good_setImage ‹_›

theorem good_stepSelect {p : List Instr} {s : State} (h : Good p s) {id} : Good p (State.stepSelect s id) := by
  unfold State.stepSelect
  split
  · assumption
  · split
    · assumption
    · split
      · exact good_stepFails ‹_›
      · split
        · exact good_stepFails ‹_›
        · dsimp only
          split
          · refine good_stepPrepare ?_ (by assumption)
            apply good_foldl
            · exact good_setRun (good_mk ‹_›)
            · intros
              exact good_setImage ‹_›
          · exact good_stepRefused (good_mk ‹_›)

/-! ## Machine/Commit.lean -/

theorem good_retire {p : List Instr} {s : State} (h : Good p s) {a1 ix img by' hand} : Good p ((State.retire s a1 ix img by' hand).1) := by
  unfold State.retire
  dsimp only
  apply good_syncRemuda
  split
  · apply good_setEntry
    split
    · split
      · apply good_withMem
        · exact good_emptyList ‹_›
        · apply MemGroup.wf_store
          refine Good.mem (p := p) ?_
          exact good_emptyList ‹_›
      · exact good_emptyList ‹_›
    · exact good_emptyList ‹_›
  · apply good_setEntry
    split
    · split
      · apply good_withMem
        · exact good_emptyList ‹_›
        · apply MemGroup.wf_store
          refine Good.mem (p := p) ?_
          exact good_emptyList ‹_›
      · exact good_emptyList ‹_›
    · exact good_emptyList ‹_›

theorem good_addRun {p : List Instr} {s : State} (h : Good p s) {f} : Good p (State.addRun s f) := by
  unfold State.addRun
  dsimp only
  exact good_mk ‹_›

theorem good_endWait {p : List Instr} {s : State} (h : Good p s) {id} : Good p (State.endWait s id) := by
  unfold State.endWait
  split
  · exact good_setCmd ‹_›
  · assumption

theorem good_finishRetires {p : List Instr} {s : State} (h : Good p s) : Good p (State.finishRetires s) := by
  unfold State.finishRetires
  dsimp only
  apply good_foldl
  · assumption
  · intros
    split
    · assumption
    · split
      · exact good_addRun (good_mk ‹_›)
      · exact good_endWait (good_mk ‹_›)

theorem good_shareChildren {p : List Instr} {s : State} (h : Good p s) {a1 parent} : Good p (State.shareChildren s a1 parent) := by
  unfold State.shareChildren
  dsimp only
  apply good_foldl
  · apply good_mk
    apply good_foldl
    · assumption
    · intros
      apply good_foldl
      · assumption
      · intros
        exact good_share ‹_›
  · intros
    split
    · exact good_endWait ‹_›
    · assumption

theorem good_boundary {p : List Instr} {s : State} (h : Good p s) {r retiring window} : Good p (State.boundary s r retiring window) := by
  unfold State.boundary
  dsimp only
  apply good_finishRetires
  apply good_returned
  apply good_foldl_fst
  · dsimp only
    split
    · apply good_foldl_fst
      · dsimp only
        apply good_applyDrops
        apply good_unpin
        apply good_foldl
        · assumption
        · intros
          exact good_shareChildren ‹_›
      · intros
        dsimp only
        exact good_applyWindow ‹_›
    · dsimp only
      apply good_applyDrops
      apply good_unpin
      apply good_foldl
      · assumption
      · intros
        exact good_shareChildren ‹_›
  · intros
    dsimp only
    exact good_retire ‹_›

theorem good_commitFails {p : List Instr} {s : State} (h : Good p s) {r status detail f} : Good p (State.commitFails s r status detail f) := by
  unfold State.commitFails
  dsimp only
  split
  · split
    · apply good_setCmd
      apply good_boundary
      apply good_releaseRoom
      apply good_setRun
      apply good_foldl
      · assumption
      · intros
        exact good_setImage ‹_›
    · apply good_boundary
      apply good_releaseRoom
      apply good_setRun
      apply good_foldl
      · assumption
      · intros
        exact good_setImage ‹_›
  · apply good_boundary
    apply good_releaseRoom
    apply good_setRun
    apply good_foldl
    · assumption
    · intros
      exact good_setImage ‹_›

theorem good_commitOk {p : List Instr} {s : State} (h : Good p s) {r} : Good p (State.commitOk s r) := by
  unfold State.commitOk
  dsimp only
  split
  · apply good_setCmd
    split
    · split
      · apply good_releaseRoom
        apply good_boundary
        apply good_setRun
        split
        · apply good_withMem
          · apply good_foldl
            · assumption
            · intros
              exact good_setEntry ‹_›
          · apply MemGroup.wf_store
            refine Good.mem (p := p) ?_
            apply good_foldl
            · assumption
            · intros
              exact good_setEntry ‹_›
        · apply good_foldl
          · assumption
          · intros
            exact good_setEntry ‹_›
      · apply good_addRun
        apply good_boundary
        apply good_setRun
        split
        · apply good_withMem
          · apply good_foldl
            · assumption
            · intros
              exact good_setEntry ‹_›
          · apply MemGroup.wf_store
            refine Good.mem (p := p) ?_
            apply good_foldl
            · assumption
            · intros
              exact good_setEntry ‹_›
        · apply good_foldl
          · assumption
          · intros
            exact good_setEntry ‹_›
    · split
      · apply good_releaseRoom
        apply good_boundary
        apply good_setRun
        split
        · apply good_withMem
          · apply good_foldl
            · assumption
            · intros
              exact good_setEntry ‹_›
          · apply MemGroup.wf_store
            refine Good.mem (p := p) ?_
            apply good_foldl
            · assumption
            · intros
              exact good_setEntry ‹_›
        · apply good_foldl
          · assumption
          · intros
            exact good_setEntry ‹_›
      · apply good_addRun
        apply good_boundary
        apply good_setRun
        split
        · apply good_withMem
          · apply good_foldl
            · assumption
            · intros
              exact good_setEntry ‹_›
          · apply MemGroup.wf_store
            refine Good.mem (p := p) ?_
            apply good_foldl
            · assumption
            · intros
              exact good_setEntry ‹_›
        · apply good_foldl
          · assumption
          · intros
            exact good_setEntry ‹_›
  · split
    · split
      · apply good_releaseRoom
        apply good_boundary
        apply good_setRun
        split
        · apply good_withMem
          · apply good_foldl
            · assumption
            · intros
              exact good_setEntry ‹_›
          · apply MemGroup.wf_store
            refine Good.mem (p := p) ?_
            apply good_foldl
            · assumption
            · intros
              exact good_setEntry ‹_›
        · apply good_foldl
          · assumption
          · intros
            exact good_setEntry ‹_›
      · apply good_addRun
        apply good_boundary
        apply good_setRun
        split
        · apply good_withMem
          · apply good_foldl
            · assumption
            · intros
              exact good_setEntry ‹_›
          · apply MemGroup.wf_store
            refine Good.mem (p := p) ?_
            apply good_foldl
            · assumption
            · intros
              exact good_setEntry ‹_›
        · apply good_foldl
          · assumption
          · intros
            exact good_setEntry ‹_›
    · split
      · apply good_releaseRoom
        apply good_boundary
        apply good_setRun
        split
        · apply good_withMem
          · apply good_foldl
            · assumption
            · intros
              exact good_setEntry ‹_›
          · apply MemGroup.wf_store
            refine Good.mem (p := p) ?_
            apply good_foldl
            · assumption
            · intros
              exact good_setEntry ‹_›
        · apply good_foldl
          · assumption
          · intros
            exact good_setEntry ‹_›
      · apply good_addRun
        apply good_boundary
        apply good_setRun
        split
        · apply good_withMem
          · apply good_foldl
            · assumption
            · intros
              exact good_setEntry ‹_›
          · apply MemGroup.wf_store
            refine Good.mem (p := p) ?_
            apply good_foldl
            · assumption
            · intros
              exact good_setEntry ‹_›
        · apply good_foldl
          · assumption
          · intros
            exact good_setEntry ‹_›

theorem good_stepCommit {p : List Instr} {s : State} (h : Good p s) {id} : Good p (State.stepCommit s id) := by
  unfold State.stepCommit
  dsimp only
  split
  · assumption
  · split
    · assumption
    · split
      · exact good_commitFails ‹_›
      · split
        · exact good_commitOk ‹_›
        · split
          · apply good_commitFails
            apply good_withMem
            · exact good_free ‹_›
            · apply MemGroup.wf_store
              refine Good.mem (p := p) ?_
              exact good_free ‹_›
          · apply good_commitOk
            apply good_chargeBytes
            apply good_withMem
            · assumption
            · apply MemGroup.wf_store
              refine Good.mem (p := p) ?_
              assumption

theorem good_handFails {p : List Instr} {s : State} (h : Good p s) {r f} : Good p (State.handFails s r f) := by
  unfold State.handFails
  dsimp only
  split
  · exact good_setCmd (good_setRun ‹_›)
  · exact good_faultInfo (good_setRun ‹_›)
  · exact good_setRun ‹_›

theorem good_handoffStart {p : List Instr} {s : State} (h : Good p s) {id} : Good p (State.handoffStart s id) := by
  unfold State.handoffStart
  split
  · assumption
  · split
    · assumption
    · split
      · exact good_handFails ‹_›
      · split
        · exact good_handFails ‹_›
        · dsimp only
          split
          · exact good_layOut ‹_› (by assumption)
          · exact good_handFails ‹_›

theorem good_handoffComplete {p : List Instr} {s : State} (h : Good p s) {id} : Good p (State.handoffComplete s id) := by
  unfold State.handoffComplete
  dsimp only
  split
  · assumption
  · split
    · assumption
    · split
      · split
        · apply good_setCmd
          apply good_releaseRoom
          apply good_dropRun
          apply good_count
          apply good_syncRemuda
          apply good_foldl
          · assumption
          · intros
            exact good_setEntry ‹_›
        · apply good_releaseRoom
          apply good_dropRun
          apply good_count
          apply good_syncRemuda
          apply good_foldl
          · assumption
          · intros
            exact good_setEntry ‹_›
      · apply good_putRecord
        apply good_releaseRoom
        apply good_dropRun
        apply good_count
        apply good_syncRemuda
        apply good_foldl
        · assumption
        · intros
          exact good_setEntry ‹_›

theorem good_launchRetire {p : List Instr} {s : State} (h : Good p s) {e id} : Good p (launchRetire s e id) := by
  unfold launchRetire
  dsimp only
  split
  · apply good_finishRetires
    apply good_returned
    apply good_foldl_fst
    · dsimp only
      exact good_mk ‹_›
    · intros
      split
      · dsimp only
        exact good_setEntry ‹_›
      · dsimp only
        exact good_retire ‹_›
  · assumption

/-! ## Machine/Admit.lean -/

theorem good_launchAdmit {p : List Instr} {s : State} (h : Good p s) {e id} : Good p (launchAdmit s e id) := by
  unfold launchAdmit
  dsimp only
  split
  · split
    · assumption
    · split
      · exact good_setCmd ‹_›
      · split
        · apply good_mk
          apply good_foldl
          · apply good_foldl
            · assumption
            · intros
              exact good_setEntry ‹_›
          · intros
            exact good_share ‹_›
        · apply good_setCmd
          apply good_mk
          apply good_foldl
          · apply good_foldl
            · assumption
            · intros
              exact good_setEntry ‹_›
          · intros
            exact good_share ‹_›
  · assumption

theorem good_admitDone {p : List Instr} {s : State} (h : Good p s) {id} : Good p (State.admitDone s id) := by
  unfold State.admitDone
  dsimp only
  split
  · assumption
  · apply good_syncRemuda
    apply good_mk
    apply good_foldl
    · assumption
    · intros
      exact good_setEntry ‹_›

end Sys2Proof.Machine
end

