-- ==== Sys2Proof/Laws/GoodPackets.lean ====
section
/-! SUPPORT. The functions of codec engines, collectives, packets and ports keep the canonical form of memory and the queue of waiting commands (`Good`). -/

namespace Sys2Proof.Machine

/-! ## Machine/Codec.lean -/

theorem good_setBuf {p : List Instr} {s : State} (h : Good p s) {a1 b v} : Good p (State.setBuf s a1 b v) := by
  unfold State.setBuf
  dsimp only
  exact good_mk ‹_›

theorem good_syncBufs {p : List Instr} {s : State} (h : Good p s) {a1} : Good p (State.syncBufs s a1) := by
  unfold State.syncBufs
  dsimp only
  exact good_setObj (good_setObj ‹_›)

theorem good_returnBufs {p : List Instr} {s : State} (h : Good p s) {a1 l} : Good p (State.returnBufs s a1 l) := by
  unfold State.returnBufs
  dsimp only
  split
  · apply good_syncBufs
    apply good_foldl
    · assumption
    · intros
      exact good_setBuf ‹_›
  · apply good_signalPost
    apply good_syncBufs
    apply good_foldl
    · assumption
    · intros
      exact good_setBuf ‹_›

theorem good_launchEncode {p : List Instr} {s : State} (h : Good p s) {e id} : Good p (launchEncode s e id) := by
  unfold launchEncode
  dsimp only
  exact good_mk ‹_›

theorem good_setJob {p : List Instr} {s : State} (h : Good p s) {j} : Good p (State.setJob s j) := by
  unfold State.setJob
  dsimp only
  exact good_mk ‹_›

theorem good_assignOne {p : List Instr} {s : State} (h : Good p s) {enc} : Good p (State.assignOne s enc) := by
  unfold State.assignOne
  split
  · assumption
  · have hk := good_arbitrate h (n := codecArb enc) (inc := s.shareInc 1) (reqs := s.engineReqs enc)
    rcases hq : s.arbitrate (codecArb enc) (s.shareInc 1) (s.engineReqs enc) with ⟨s1, o⟩
    rw [hq] at hk
    cases o with
    | none => exact hk
    | some r =>
      dsimp only
      split
      · exact good_chargeArb (good_setJob hk)
      · exact hk

theorem good_assignEngines {p : List Instr} {s : State} (h : Good p s) : Good p (State.assignEngines s) := by
  unfold State.assignEngines
  dsimp only
  apply good_foldl
  · apply good_foldl
    · assumption
    · intros
      exact good_assignOne ‹_›
  · intros
    exact good_assignOne ‹_›

theorem good_dropJob {p : List Instr} {s : State} (h : Good p s) {id} : Good p (State.dropJob s id) := by
  unfold State.dropJob
  dsimp only
  exact good_assignEngines (good_mk ‹_›)

theorem good_jobFails {p : List Instr} {s : State} (h : Good p s) {j status detail f} : Good p (State.jobFails s j status detail f) := by
  unfold State.jobFails
  exact good_failCmd (good_dropJob (good_returnBufs ‹_›))

theorem good_launchDecode {p : List Instr} {s : State} (h : Good p s) {e id} : Good p (launchDecode s e id) := by
  unfold launchDecode
  dsimp only
  exact good_assignEngines (good_mk ‹_›)

theorem good_takeBuffers {p : List Instr} {s : State} (h : Good p s) {j g init} : Good p (State.takeBuffers s j g init) := by
  unfold State.takeBuffers
  split
  · exact good_jobFails ‹_›
  · dsimp only
    split
    · exact good_jobFails (good_count ‹_›)
    · split
      · apply good_setCmd
        apply good_assignEngines
        apply good_setJob
        apply good_syncBufs
        apply good_foldl
        · assumption
        · intros
          exact good_setBuf ‹_›
      · apply good_assignEngines
        apply good_setJob
        apply good_syncBufs
        apply good_foldl
        · assumption
        · intros
          exact good_setBuf ‹_›

theorem good_bufferRequest {p : List Instr} {s : State} (h : Good p s) {id} : Good p (State.bufferRequest s id) := by
  unfold State.bufferRequest
  split
  · assumption
  · split
    · assumption
    · split
      · exact good_takeBuffers ‹_›
      · exact good_takeBuffers ‹_›

theorem good_launchRelease {p : List Instr} {s : State} (h : Good p s) {e id} : Good p (launchRelease s e id) := by
  unfold launchRelease
  split
  · apply good_foldl
    · assumption
    · intros
      exact good_setBuf ‹_›
  · assumption

theorem good_frameComplete {p : List Instr} {s : State} (h : Good p s) {id} : Good p (State.frameComplete s id) := by
  unfold State.frameComplete
  split
  · split
    · assumption
    · split
      · assumption
      · split
        · split
          · exact good_jobFails ‹_›
          · dsimp only
            apply good_setCmd
            apply good_assignEngines
            apply good_setJob
            apply good_count
            split
            · exact good_event ‹_›
            · assumption
        · split
          · dsimp only
            apply good_jobFails
            split
            · apply good_withMem
              · apply good_free
                apply good_foldl
                · assumption
                · intros
                  exact good_event ‹_›
              · apply MemGroup.wf_store
                refine Good.mem (p := p) ?_
                apply good_free
                apply good_foldl
                · assumption
                · intros
                  exact good_event ‹_›
            · apply good_foldl
              · assumption
              · intros
                exact good_event ‹_›
          · dsimp only
            apply good_setCmd
            apply good_assignEngines
            apply good_chargeLate
            apply good_setJob
            apply good_count
            apply good_foldl
            · assumption
            · intros
              exact good_event ‹_›
  · assumption

theorem good_releaseDone {p : List Instr} {s : State} (h : Good p s) {c} : Good p (State.releaseDone s c) := by
  unfold State.releaseDone
  split
  · split
    · assumption
    · split
      · exact good_returnBufs ‹_›
      · apply good_foldl
        · assumption
        · intros
          exact good_setBuf ‹_›
  · assumption

theorem good_selfCheckFail {p : List Instr} {s : State} (h : Good p s) {eng} : Good p (State.selfCheckFail s eng) := by
  unfold State.selfCheckFail
  dsimp only
  split
  · assumption
  · split
    · exact good_jobFails (good_event (good_setObj (good_mk ‹_›)))
    · exact good_event (good_setObj (good_mk ‹_›))

/-! ## Machine/Collective.lean -/

theorem good_setColl {p : List Instr} {s : State} (h : Good p s) {c} : Good p (State.setColl s c) := by
  unfold State.setColl
  dsimp only
  exact good_mk ‹_›

theorem good_setColls {p : List Instr} {s : State} (h : Good p s) {l} : Good p (State.setColls s l) := by
  unfold State.setColls
  dsimp only
  exact good_setObj (good_mk ‹_›)

theorem good_dropColl {p : List Instr} {s : State} (h : Good p s) {cmd} : Good p (State.dropColl s cmd) := by
  unfold State.dropColl
  exact good_setColls ‹_›

theorem good_abortColl {p : List Instr} {s : State} (h : Good p s) {c status detail tell} : Good p (State.abortColl s c status detail tell) := by
  unfold State.abortColl
  dsimp only
  split
  · exact good_mk (good_failCmdAs (good_dropColl ‹_›))
  · apply good_event
    apply good_foldl
    · exact good_mk (good_failCmdAs (good_dropColl ‹_›))
    · intros
      exact good_originate ‹_›

theorem good_abortReceived {p : List Instr} {s : State} (h : Good p s) {key status detail} : Good p (State.abortReceived s key status detail) := by
  unfold State.abortReceived
  apply good_foldl
  · assumption
  · intros
    exact good_abortColl ‹_›

theorem good_collsLose {p : List Instr} {s : State} (h : Good p s) {dev} : Good p (State.collsLose s dev) := by
  unfold State.collsLose
  apply good_foldl
  · assumption
  · intros
    exact good_abortColl ‹_›

theorem good_sendPulls {p : List Instr} {s : State} (h : Good p s) {c again} : Good p (State.sendPulls s c again) := by
  unfold State.sendPulls
  dsimp only
  apply good_foldl
  · exact good_setColl ‹_›
  · intros
    exact good_originate ‹_›

theorem good_tryServe {p : List Instr} {s : State} (h : Good p s) {a1} : Good p ((State.tryServe s a1).1) := by
  unfold State.tryServe
  dsimp only
  split
  · assumption
  · split
    · dsimp only
      exact good_abortColl ‹_›
    · split
      · assumption
      · dsimp only
        apply good_foldl
        · assumption
        · intros
          exact good_originate ‹_›

theorem good_serveHeld {p : List Instr} {s : State} (h : Good p s) : Good p (State.serveHeld s) := by
  unfold State.serveHeld
  dsimp only
  apply good_foldl
  · assumption
  · intros
    split
    · assumption
    · split
      · exact good_mk (good_tryServe ‹_›)
      · exact good_tryServe ‹_›

theorem good_sendReleases {p : List Instr} {s : State} (h : Good p s) {c} : Good p (State.sendReleases s c) := by
  unfold State.sendReleases
  dsimp only
  split
  · assumption
  · apply good_foldl
    · exact good_setColl ‹_›
    · intros
      exact good_originate ‹_›

theorem good_lineageSend {p : List Instr} {s : State} (h : Good p s) {lport cmd tag a4} : Good p (State.lineageSend s lport cmd tag a4) := by
  unfold State.lineageSend
  dsimp only
  exact good_mk ‹_›

theorem good_lineageWrites {p : List Instr} {s : State} (h : Good p s) {lport cmd tag addr bs} : Good p ((State.lineageWrites s lport cmd tag addr bs).1) := by
  unfold State.lineageWrites
  dsimp only
  apply good_foldl
  · assumption
  · intros
    exact good_lineageSend ‹_›

theorem good_startHosted {p : List Instr} {s : State} (h : Good p s) {c} : Good p (State.startHosted s c) := by
  unfold State.startHosted
  dsimp only
  split
  · assumption
  · apply good_foldl
    · assumption
    · intros
      split
      · split
        · exact good_setColl (good_lineageWrites ‹_›)
        · assumption
      · assumption

theorem good_setWork {p : List Instr} {s : State} (h : Good p s) {id pre r e sd} : Good p (State.setWork s id pre r e sd) := by
  unfold State.setWork
  dsimp only
  split
  · exact good_setCmd (good_addStepDigest ‹_›)
  · exact good_failCmd ‹_›
  · assumption

theorem good_pushPartials {p : List Instr} {s : State} (h : Good p s) {c m ps last} : Good p (State.pushPartials s c m ps last) := by
  unfold State.pushPartials
  apply good_foldl
  · assumption
  · intros
    dsimp only
    split
    · apply good_originate
      apply good_foldl
      · assumption
      · intros
        exact good_originate ‹_›
    · apply good_foldl
      · assumption
      · intros
        exact good_originate ‹_›

theorem good_finishFused {p : List Instr} {s : State} (h : Good p s) {c} : Good p (State.finishFused s c) := by
  unfold State.finishFused
  split
  · exact good_dropColl ‹_›
  · split
    · exact good_failCmd (good_dropColl ‹_›)
    · dsimp only
      apply good_setWork
      split
      · exact good_setCmd (good_dropGrants (good_dropColl ‹_›))
      · exact good_dropColl ‹_›

theorem good_endColl {p : List Instr} {s : State} (h : Good p s) {c} : Good p (State.endColl s c) := by
  unfold State.endColl
  dsimp only
  split
  · assumption
  · split
    · exact good_finishFused ‹_›
    · split
      · exact good_dropColl ‹_›
      · split
        · exact good_failCmd (good_dropColl ‹_›)
        · exact good_setCmd (good_dropColl ‹_›)

theorem good_refreshFused {p : List Instr} {s : State} (h : Good p s) {c} : Good p (State.refreshFused s c) := by
  unfold State.refreshFused
  split
  · assumption
  · split
    · assumption
    · split
      · assumption
      · split
        · exact good_setCmd ‹_›
        · assumption

theorem good_collStep {p : List Instr} {s : State} (h : Good p s) {id} : Good p (State.collStep s id) := by
  unfold State.collStep
  split
  · assumption
  · split
    · exact good_failCmd (good_dropColl ‹_›)
    · dsimp only
      split
      · apply good_endColl
        apply good_refreshFused
        split
        · exact good_startHosted (good_sendReleases (good_setColl ‹_›))
        · exact good_sendReleases (good_setColl ‹_›)
      · apply good_refreshFused
        split
        · exact good_startHosted (good_sendReleases (good_setColl ‹_›))
        · exact good_sendReleases (good_setColl ‹_›)

theorem good_collProgress {p : List Instr} {s : State} (h : Good p s) : Good p (State.collProgress s) := by
  unfold State.collProgress
  apply good_serveHeld
  apply good_foldl
  · assumption
  · intros
    exact good_collStep ‹_›

theorem good_startColl {p : List Instr} {s : State} (h : Good p s) {c} : Good p (State.startColl s c) := by
  unfold State.startColl
  dsimp only
  split
  · exact good_abortColl (good_arrivals (good_setColls ‹_›))
  · exact good_collProgress (good_arrivals (good_setColls ‹_›))

theorem good_launchCollective {p : List Instr} {s : State} (h : Good p s) {e id} : Good p (launchCollective s e id) := by
  unfold launchCollective
  dsimp only
  split
  · assumption
  · exact good_startColl ‹_›

theorem good_launchFused {p : List Instr} {s : State} (h : Good p s) {e id} : Good p (launchFused s e id) := by
  unfold launchFused
  dsimp only
  split
  · assumption
  · split
    · assumption
    · split
      · assumption
      · apply good_startColl
        split
        · split
          · exact good_pushPartials (good_mk ‹_›)
          · exact good_mk ‹_›
        · split
          · exact good_pushPartials (good_mk ‹_›)
          · exact good_mk ‹_›

theorem good_stagingGrant {p : List Instr} {s : State} (h : Good p s) {cmd chunk} : Good p (State.stagingGrant s cmd chunk) := by
  unfold State.stagingGrant
  split
  · assumption
  · split
    · assumption
    · split
      · assumption
      · split
        · assumption
        · dsimp only
          exact good_sendPulls (good_chargeArb (good_setColl (good_grantTo ‹_› (by assumption))))

theorem good_collRetry {p : List Instr} {s : State} (h : Good p s) {cmd} : Good p (State.collRetry s cmd) := by
  unfold State.collRetry
  split
  · exact good_sendPulls ‹_›
  · assumption

theorem good_readRequest {p : List Instr} {s : State} (h : Good p s) {dev key a3 pull req} : Good p (State.readRequest s dev key a3 pull req) := by
  unfold State.readRequest
  dsimp only
  split
  · exact good_tryServe ‹_›
  · split
    · exact good_mk ‹_›
    · exact good_originate ‹_›

theorem good_readResponse {p : List Instr} {s : State} (h : Good p s) {key pull req a4} : Good p (State.readResponse s key pull req a4) := by
  unfold State.readResponse
  split
  · split
    · assumption
    · exact good_collProgress (good_setColl ‹_›)
  · assumption

theorem good_readRefusal {p : List Instr} {s : State} (h : Good p s) {key pull req} : Good p (State.readRefusal s key pull req) := by
  unfold State.readRefusal
  split
  · split
    · assumption
    · exact good_setColl ‹_›
  · assumption

theorem good_collData {p : List Instr} {s : State} (h : Good p s) {b} : Good p (State.collData s b) := by
  unfold State.collData
  dsimp only
  split
  · split
    · exact good_collProgress (good_setColl ‹_›)
    · exact good_mk ‹_›
  · exact good_collProgress (good_mk ‹_›)

theorem good_lineageAck {p : List Instr} {s : State} (h : Good p s) {lport} : Good p (State.lineageAck s lport) := by
  unfold State.lineageAck
  dsimp only
  split
  · assumption
  · split
    · split
      · exact good_setCmd (good_mk ‹_›)
      · exact good_mk ‹_›
    · split
      · exact good_mk ‹_›
      · split
        · split
          · exact good_collProgress (good_setColl (good_mk ‹_›))
          · split
            · exact good_lineageSend (good_setColl (good_mk ‹_›))
            · exact good_setColl (good_mk ‹_›)
        · exact good_mk ‹_›

/-! ## Machine/Put.lean -/

theorem good_launchPut {p : List Instr} {s : State} (h : Good p s) {e id} : Good p (launchPut s e id) := by
  unfold launchPut
  dsimp only
  split
  · assumption
  · split
    · assumption
    · split
      · exact good_setCmd (good_lineageWrites ‹_›)
      · split
        · exact good_failCmd ‹_›
        · apply good_foldl
          · exact good_setCmd ‹_›
          · intros
            exact good_originate ‹_›

theorem good_applyWrite {p : List Instr} {s : State} (h : Good p s) {src b} : Good p (State.applyWrite s src b) := by
  unfold State.applyWrite
  dsimp only
  split
  · exact good_originate ‹_›
  · split
    · apply good_originate
      apply good_withMem
      · assumption
      · apply MemGroup.wf_store
        refine Good.mem (p := p) ?_
        assumption
    · apply good_originate
      apply good_withMem
      · exact good_free ‹_›
      · apply MemGroup.wf_store
        refine Good.mem (p := p) ?_
        exact good_free ‹_›

theorem good_writeResult {p : List Instr} {s : State} (h : Good p s) {put st dt f} : Good p (State.writeResult s put st dt f) := by
  unfold State.writeResult
  split
  · assumption
  · split
    · assumption
    · split
      · exact good_failCmd ‹_›
      · exact good_setCmd ‹_›

theorem good_subscribed {p : List Instr} {s : State} (h : Good p s) {src post job th w} : Good p (State.subscribed s src post job th w) := by
  unfold State.subscribed
  dsimp only
  split
  · exact good_originate ‹_›
  · split
    · exact good_originate ‹_›
    · split
      · exact good_originate ‹_›
      · exact good_setObj (good_mk ‹_›)

theorem good_resubscribe {p : List Instr} {s : State} (h : Good p s) {waiter} : Good p (State.resubscribe s waiter) := by
  unfold State.resubscribe
  split
  · split
    · exact good_originate (good_setWait ‹_›)
    · assumption
  · assumption

theorem good_signalAnswered {p : List Instr} {s : State} (h : Good p s) {cmd st dt} : Good p (State.signalAnswered s cmd st dt) := by
  unfold State.signalAnswered
  split
  · split
    · exact good_setCmd ‹_›
    · assumption
  · assumption

theorem good_postUpdate {p : List Instr} {s : State} (h : Good p s) {src b} : Good p (State.postUpdate s src b) := by
  unfold State.postUpdate
  split
  · split
    · exact good_collProgress (good_originate (good_tracePost (good_signalPost ‹_›)))
    · exact good_originate ‹_›
  · split
    · split
      · exact good_tracePost (good_setWait ‹_›)
      · assumption
    · assumption
  · exact good_setWait ‹_›
  · exact good_setWait ‹_›
  · exact good_signalAnswered ‹_›
  · exact good_signalAnswered ‹_›

/-! ## Machine/Receive.lean -/

theorem good_applyData {p : List Instr} {s : State} (h : Good p s) {k} : Good p (State.applyData s k) := by
  unfold State.applyData
  split
  · exact good_applyWrite ‹_›
  · exact good_readRequest ‹_›
  · exact good_readResponse ‹_›
  · exact good_readRefusal ‹_›
  · exact good_writeResult ‹_›
  · exact good_postUpdate ‹_›
  · exact good_subscribed ‹_›
  · exact good_collData ‹_›
  · exact good_abortReceived ‹_›
  · assumption

theorem good_heardFrom {p : List Instr} {s : State} (h : Good p s) {dev} : Good p (State.heardFrom s dev) := by
  unfold State.heardFrom
  dsimp only
  exact good_mk ‹_›

theorem good_applyNext {p : List Instr} {s : State} {a1 : State → Packet → State} (h : Good p s) (ha1 : ∀ y0 y1, Good p y0 → Good p (a1 y0 y1)) {a2 a3 a4 a5} : Good p (State.applyNext s a1 a2 a3 a4 a5) := by
  induction a5 generalizing s a4 with
  | zero =>
    unfold State.applyNext
    assumption
  | succ n ih =>
    unfold State.applyNext
    dsimp only
    split
    · apply ih
      split
      · apply good_sendE2eAck
        apply ha1
        exact good_setStreamIn ‹_›
      · apply ha1
        exact good_setStreamIn ‹_›
    · split
      · apply good_sendE2eAck
        apply ha1
        exact good_setStreamIn ‹_›
      · apply ha1
        exact good_setStreamIn ‹_›

theorem good_e2eReceive {p : List Instr} {s : State} {apply : State → Packet → State} (h : Good p s) (h_apply : ∀ y0 y1, Good p y0 → Good p (apply y0 y1)) {k} : Good p (State.e2eReceive s apply k) := by
  unfold State.e2eReceive
  split
  · assumption
  · split
    · exact good_count (good_enterSquare ‹_›)
    · split
      · exact good_count (good_enterSquare ‹_›)
      · dsimp only
        split
        · apply good_applyNext
          · exact good_heardFrom (good_enterSquare ‹_›)
          · intros
            apply h_apply
            assumption
        · split
          · split
            · exact good_heardFrom (good_enterSquare ‹_›)
            · exact good_setStreamIn (good_heardFrom (good_enterSquare ‹_›))
          · exact good_sendE2eAck (good_count (good_heardFrom (good_enterSquare ‹_›)))

theorem good_receiveTyped {p : List Instr} {s : State} (h : Good p s) {types k} : Good p (State.receiveTyped s types k) := by
  unfold State.receiveTyped
  split
  · apply good_e2eReceive
    · assumption
    · intros
      exact good_applyData ‹_›
  · assumption

theorem good_e2eAck {p : List Instr} {s : State} (h : Good p s) {k} : Good p (State.e2eAck s k) := by
  unfold State.e2eAck
  split
  · split
    · assumption
    · split
      · exact good_count (good_enterSquare ‹_›)
      · dsimp only
        split
        · exact good_heardFrom (good_enterSquare ‹_›)
        · exact good_drainStream (good_setStreamOut (good_heardFrom (good_enterSquare ‹_›)))
  · assumption

theorem good_e2eAckTimer {p : List Instr} {s : State} (h : Good p s) {src cls} : Good p (State.e2eAckTimer s src cls) := by
  unfold State.e2eAckTimer
  split
  · assumption
  · exact good_sendE2eAck ‹_›

theorem good_e2eRetx {p : List Instr} {s : State} (h : Good p s) {dst cls} : Good p (State.e2eRetx s dst cls) := by
  unfold State.e2eRetx
  dsimp only
  split
  · assumption
  · apply good_foldl
    · exact good_count (good_setStreamOut ‹_›)
    · intros
      exact good_forward ‹_›

theorem good_dropStreams {p : List Instr} {s : State} (h : Good p s) {dev} : Good p (State.dropStreams s dev) := by
  unfold State.dropStreams
  dsimp only
  exact good_mk ‹_›

theorem good_cmdLoses {p : List Instr} {s : State} (h : Good p s) {dev c} : Good p (State.cmdLoses s dev c) := by
  unfold State.cmdLoses
  split
  · split
    · exact good_setCmd ‹_›
    · assumption
  · split
    · exact good_failCmd ‹_›
    · assumption

theorem good_loseDevice {p : List Instr} {s : State} (h : Good p s) {dev} : Good p (State.loseDevice s dev) := by
  unfold State.loseDevice
  dsimp only
  apply good_event
  apply good_collsLose
  apply good_foldl
  · exact good_setObj (good_mk (good_dropStreams ‹_›))
  · intros
    exact good_cmdLoses ‹_›

theorem good_e2eUnreachable {p : List Instr} {s : State} (h : Good p s) {dev} : Good p (State.e2eUnreachable s dev) := by
  unfold State.e2eUnreachable
  split
  · assumption
  · split
    · exact good_loseDevice ‹_›
    · assumption

theorem good_peerEpoch {p : List Instr} {s : State} (h : Good p s) {d boot} : Good p (State.peerEpoch s d boot) := by
  unfold State.peerEpoch
  dsimp only
  split
  · exact good_mk ‹_›
  · exact good_heardFrom (good_loseDevice (good_mk ‹_›))

/-! ## Machine/Links.lean -/

theorem good_setLink {p : List Instr} {s : State} (h : Good p s) {a1 st} : Good p (State.setLink s a1 st) := by
  unfold State.setLink
  exact good_traceLink (good_setObj ‹_›)

theorem good_unloadPort {p : List Instr} {s : State} (h : Good p s) {a1} : Good p (State.unloadPort s a1) := by
  unfold State.unloadPort
  dsimp only
  apply good_foldl
  · exact good_mapChanged (good_setPort ‹_›)
  · intros
    exact good_forward ‹_›

theorem good_stopPort {p : List Instr} {s : State} (h : Good p s) {a1 st cause} : Good p (State.stopPort s a1 st cause) := by
  unfold State.stopPort
  dsimp only
  apply good_setPort
  split
  · exact good_unloadPort (good_event (good_setLink ‹_›))
  · exact good_setLink ‹_›

theorem good_retrain {p : List Instr} {s : State} (h : Good p s) {a1 cause} : Good p (State.retrain s a1 cause) := by
  unfold State.retrain
  exact good_stopPort ‹_›

theorem good_sendDiscovery {p : List Instr} {s : State} (h : Good p s) {a1} : Good p (State.sendDiscovery s a1) := by
  unfold State.sendDiscovery
  exact good_outPacket ‹_›

theorem good_sendParams {p : List Instr} {s : State} (h : Good p s) {a1} : Good p (State.sendParams s a1) := by
  unfold State.sendParams
  dsimp only
  exact good_outPacket ‹_›

theorem good_linkTraining {p : List Instr} {s : State} (h : Good p s) {a1 ok} : Good p (State.linkTraining s a1 ok) := by
  unfold State.linkTraining
  dsimp only
  split
  · assumption
  · split
    · exact good_sendDiscovery (good_setLink (good_setPort ‹_›))
    · split
      · split
        · exact good_setPort ‹_›
        · exact good_setPort ‹_›
      · split
        · exact good_setPort ‹_›
        · exact good_setLink (good_setPort ‹_›)

theorem good_trainRetry {p : List Instr} {s : State} (h : Good p s) {a1} : Good p (State.trainRetry s a1) := by
  unfold State.trainRetry
  dsimp only
  split
  · assumption
  · split
    · exact good_setLink (good_setPort ‹_›)
    · exact good_setPort ‹_›

theorem good_portActive {p : List Instr} {s : State} (h : Good p s) {a1} : Good p (State.portActive s a1) := by
  unfold State.portActive
  dsimp only
  exact good_pump (good_mapChanged (good_event (good_setLink ‹_›)))

theorem good_checkPeer {p : List Instr} {s : State} (h : Good p s) {a1} : Good p (State.checkPeer s a1) := by
  unfold State.checkPeer
  dsimp only
  split
  · assumption
  · split
    · split
      · assumption
      · exact good_setPort (good_unloadPort (good_setLink ‹_›))
    · split
      · split
        · assumption
        · split
          · apply good_portActive
            split
            · split
              · exact good_setLink ‹_›
              · assumption
            · apply good_sendParams
              apply good_setPort
              split
              · exact good_setLink ‹_›
              · assumption
          · split
            · split
              · exact good_setLink ‹_›
              · assumption
            · apply good_sendParams
              apply good_setPort
              split
              · exact good_setLink ‹_›
              · assumption
      · split
        · assumption
        · apply good_setPort
          split
          · exact good_event (good_setLink ‹_›)
          · exact good_unloadPort (good_event (good_setLink ‹_›))

theorem good_recheckPeers {p : List Instr} {s : State} (h : Good p s) : Good p (State.recheckPeers s) := by
  unfold State.recheckPeers
  apply good_foldl
  · assumption
  · intros
    exact good_checkPeer ‹_›

theorem good_discovered {p : List Instr} {s : State} (h : Good p s) {p1 k} : Good p (State.discovered s p1 k) := by
  unfold State.discovered
  split
  · split
    · assumption
    · split
      · exact good_count ‹_›
      · dsimp only
        exact good_checkPeer (good_setPort (good_setObj ‹_›))
  · assumption

theorem good_mergeMaps {p : List Instr} {s : State} (h : Good p s) {bitsL epochs} : Good p (State.mergeMaps s bitsL epochs) := by
  unfold State.mergeMaps
  apply good_foldl
  · assumption
  · intros
    dsimp only
    split
    · split
      · exact good_event (good_setObj ‹_›)
      · assumption
    · split
      · exact good_setObj (good_mk ‹_›)
      · assumption

theorem good_paramsReceived {p : List Instr} {s : State} (h : Good p s) {p1 k} : Good p (State.paramsReceived s p1 k) := by
  unfold State.paramsReceived
  split
  · split
    · assumption
    · split
      · exact good_count ‹_›
      · dsimp only
        split
        · split
          · exact good_portActive (good_mergeMaps (good_setPort ‹_›))
          · exact good_mergeMaps (good_setPort ‹_›)
        · split
          · exact good_portActive (good_setPort ‹_›)
          · exact good_setPort ‹_›
  · assumption

theorem good_lsaReceived {p : List Instr} {s : State} (h : Good p s) {p1 k} : Good p (State.lsaReceived s p1 k) := by
  unfold State.lsaReceived
  split
  · split
    · assumption
    · split
      · exact good_count ‹_›
      · dsimp only
        split
        · exact good_floodLsa (good_setObj (good_mk (good_peerEpoch ‹_›)))
        · exact good_peerEpoch ‹_›
  · assumption

theorem good_linkEnabled {p : List Instr} {s : State} (h : Good p s) {a1 on} : Good p (State.linkEnabled s a1 on) := by
  unfold State.linkEnabled
  split
  · split
    · exact good_setLink (good_setPort ‹_›)
    · assumption
  · split
    · assumption
    · exact good_stopPort ‹_›

theorem good_linkAck {p : List Instr} {s : State} (h : Good p s) {a1 nak} : Good p (State.linkAck s a1 nak) := by
  unfold State.linkAck
  dsimp only
  exact good_mk (good_setPort ‹_›)

theorem good_ackIn {p : List Instr} {s : State} (h : Good p s) {a1 ack nak} : Good p (State.ackIn s a1 ack nak) := by
  unfold State.ackIn
  dsimp only
  split
  · exact good_setPort ‹_›
  · split
    · split
      · exact good_retrain (good_count (good_setPort ‹_›))
      · exact good_count (good_setPort ‹_›)
    · split
      · exact good_retrain (good_count (good_setPort ‹_›))
      · exact good_count (good_setPort ‹_›)

theorem good_flitReceived {p : List Instr} {s : State} (h : Good p s) {a1 f fixed} : Good p (State.flitReceived s a1 f fixed) := by
  unfold State.flitReceived
  dsimp only
  split
  · assumption
  · split
    · split
      · exact good_count (good_count ‹_›)
      · exact good_linkAck (good_setPort (good_count (good_count ‹_›)))
    · apply good_pump
      split
      · exact good_ackIn (good_setPort (good_count ‹_›))
      · split
        · split
          · exact good_linkAck (good_setPort (good_ackIn (good_setPort (good_count ‹_›))))
          · exact good_setPort (good_ackIn (good_setPort (good_count ‹_›)))
        · split
          · exact good_ackIn (good_setPort (good_count ‹_›))
          · exact good_linkAck (good_setPort (good_ackIn (good_setPort (good_count ‹_›))))

theorem good_linkAckTimer {p : List Instr} {s : State} (h : Good p s) {a1} : Good p (State.linkAckTimer s a1) := by
  unfold State.linkAckTimer
  split
  · assumption
  · exact good_linkAck ‹_›

theorem good_replayTimeout {p : List Instr} {s : State} (h : Good p s) {a1} : Good p (State.replayTimeout s a1) := by
  unfold State.replayTimeout
  split
  · assumption
  · exact good_retrain ‹_›

theorem good_portLost {p : List Instr} {s : State} (h : Good p s) {a1 cause} : Good p (State.portLost s a1 cause) := by
  unfold State.portLost
  split
  · assumption
  · split
    · exact good_event (good_setLink (good_setPort ‹_›))
    · exact good_retrain ‹_›

theorem good_symbolErrors {p : List Instr} {s : State} (h : Good p s) {a1} : Good p (State.symbolErrors s a1) := by
  unfold State.symbolErrors
  split
  · assumption
  · exact good_retrain ‹_›

theorem good_transit {p : List Instr} {s : State} (h : Good p s) {a1 k} : Good p (State.transit s a1 k) := by
  unfold State.transit
  split
  · assumption
  · exact good_forward ‹_›

theorem good_lineageMode {p : List Instr} {s : State} (h : Good p s) {i mode} : Good p (State.lineageMode s i mode) := by
  unfold State.lineageMode
  dsimp only
  split
  · exact good_event (good_setLink (good_setPort ‹_›))
  · exact good_setLink (good_setPort ‹_›)

theorem good_lineageTrained {p : List Instr} {s : State} (h : Good p s) {i mode node} : Good p (State.lineageTrained s i mode node) := by
  unfold State.lineageTrained
  dsimp only
  split
  · assumption
  · split
    · exact good_event (good_setLink (good_setPort ‹_›))
    · exact good_setLink ‹_›

theorem good_lineageAnswer {p : List Instr} {s : State} (h : Good p s) {i a2} : Good p (State.lineageAnswer s i a2) := by
  unfold State.lineageAnswer
  dsimp only
  exact good_mk ‹_›

theorem good_lineageRefuse {p : List Instr} {s : State} (h : Good p s) {i} : Good p (State.lineageRefuse s i) := by
  unfold State.lineageRefuse
  exact good_lineageAnswer (good_mk ‹_›)

theorem good_lineageTransaction {p : List Instr} {s : State} (h : Good p s) {i x} : Good p (State.lineageTransaction s i x) := by
  unfold State.lineageTransaction
  dsimp only
  split
  · assumption
  · split
    · exact good_lineageRefuse ‹_›
    · split
      · exact good_lineageAnswer ‹_›
      · split
        · split
          · apply good_lineageAnswer
            apply good_withMem
            · assumption
            · apply MemGroup.wf_store
              exact Good.mem (p := p) ‹_›
          · exact good_lineageAnswer (good_faultInfo ‹_›)
        · split
          · exact good_lineageAnswer ‹_›
          · exact good_lineageAnswer (good_faultInfo ‹_›)
        · split
          · exact good_collProgress (good_lineageAnswer (good_signalPost ‹_›))
          · exact good_lineageAnswer ‹_›
        · exact good_lineageAnswer ‹_›

theorem good_lineageResponse {p : List Instr} {s : State} (h : Good p s) {i a2} : Good p (State.lineageResponse s i a2) := by
  unfold State.lineageResponse
  dsimp only
  split
  · exact good_lineageAck ‹_›
  · split
    · exact good_mk ‹_›
    · assumption

end Sys2Proof.Machine
end

