-- ==== Sys2Proof/Laws/GoodPower.lean ====
section
/-! SUPPORT. The functions of tiles, requests, faults, scheduling, resets, power and firmware keep the canonical form of memory and the queue of waiting commands (`Good`). -/

namespace Sys2Proof.Machine

/-! ## Machine/Tiles.lean -/

theorem good_putStable {p : List Instr} {s : State} (h : Good p s) {a1 v} : Good p (State.putStable s a1 v) := by
  unfold State.putStable
  dsimp only
  exact good_mk ‹_›

theorem good_setTile {p : List Instr} {s : State} (h : Good p s) {id ti a3} : Good p (State.setTile s id ti a3) := by
  unfold State.setTile
  split
  · exact good_setCmd ‹_›
  · assumption

theorem good_spurPlace {p : List Instr} {s : State} (h : Good p s) {c a2} : Good p ((State.spurPlace s c a2).1) := by
  unfold State.spurPlace
  dsimp only
  split
  · assumption
  · split
    · dsimp only
      exact good_free (good_spurDraw ‹_›)
    · dsimp only
      exact good_spurDraw ‹_›

theorem good_takeStable {p : List Instr} {s : State} (h : Good p s) {a1 : Tile} {id ti} {g : State} (hg : s.takeStable a1 id ti = some g) :
    Good p g := by
  unfold State.takeStable State.assignStable at hg
  split at hg
  · split at hg
    · cases hg
    · cases hg
      exact good_chargeArb (good_grantTo ‹_› (by assumption))
  · cases hg
    assumption

theorem good_swapNow {p : List Instr} {s : State} (h : Good p s) {c a1 id ti v} : Good p (State.swapNow s c a1 id ti v) := by
  unfold State.swapNow
  dsimp only
  exact good_setTile (good_putStable ‹_›)

theorem good_shadowSwap {p : List Instr} {s : State} (h : Good p s) {id ti} : Good p (State.shadowSwap s id ti) := by
  unfold State.shadowSwap
  split
  · assumption
  · split
    · assumption
    · dsimp only
      split
      · assumption
      · split
        · assumption
        · exact good_swapNow (good_takeStable (good_setTile (good_spurPlace ‹_›)) (by assumption))

theorem good_partialGrant {p : List Instr} {s : State} (h : Good p s) {id ti} : Good p (State.partialGrant s id ti) := by
  unfold State.partialGrant
  split
  · assumption
  · split
    · assumption
    · split
      · split
        · assumption
        · exact good_count (good_setTile ‹_›)
      · dsimp only
        split
        · assumption
        · exact good_chargeArb (good_setObj (good_setCmd (good_mk (good_grantTo ‹_› (by assumption)))))

theorem good_releaseGrant {p : List Instr} {s : State} (h : Good p s) {id a2} : Good p (State.releaseGrant s id a2) := by
  unfold State.releaseGrant
  dsimp only
  split
  · assumption
  · split
    · assumption
    · exact good_setCmd (good_mk ‹_›)

theorem good_flagSets {p : List Instr} {s : State} (h : Good p s) {c stable f} : Good p (State.flagSets s c stable f) := by
  unfold State.flagSets
  dsimp only
  split
  · apply good_setObj
    split
    · exact good_setObj ‹_›
    · assumption
  · split
    · exact good_setObj ‹_›
    · assumption

theorem good_sendPartials {p : List Instr} {s : State} (h : Good p s) {cm t last} : Good p (State.sendPartials s cm t last) := by
  unfold State.sendPartials
  split
  · assumption
  · split
    · assumption
    · split
      · dsimp only
        exact good_pushPartials ‹_›
      · assumption

theorem good_storePartials {p : List Instr} {s : State} (h : Good p s) {c t} : Good p (State.storePartials s c t) := by
  unfold State.storePartials
  split
  · assumption
  · exact good_mk ‹_›

theorem good_tileDone {p : List Instr} {s : State} (h : Good p s) {c t ti ns} : Good p (State.tileDone s c t ti ns) := by
  unfold State.tileDone
  dsimp only
  apply good_releaseGrant
  apply good_sendPartials
  apply good_storePartials
  split
  · exact good_putStable (good_chargeLate (good_chargeEngine (good_flagSets ‹_›)))
  · exact good_chargeLate (good_chargeEngine (good_flagSets ‹_›))

theorem good_tileCommit {p : List Instr} {s : State} (h : Good p s) {id ti ns} : Good p (State.tileCommit s id ti ns) := by
  unfold State.tileCommit
  split
  · assumption
  · split
    · assumption
    · dsimp only
      split
      · split
        · assumption
        · split
          · split
            · apply good_count
              apply good_setCmd
              dsimp only
              exact good_spurPlace ‹_›
            · apply good_tileDone
              apply good_setCmd
              dsimp only
              exact good_spurPlace ‹_›
          · split
            · exact good_count (good_setCmd (good_spurDraw (good_spurPlace ‹_›)))
            · exact good_tileDone (good_setCmd (good_spurDraw (good_spurPlace ‹_›)))
      · split
        · assumption
        · split
          · split
            · exact good_count (good_setCmd ‹_›)
            · exact good_tileDone (good_setCmd ‹_›)
          · split
            · exact good_count (good_setCmd (good_spurDraw ‹_›))
            · exact good_tileDone (good_setCmd (good_spurDraw ‹_›))

theorem good_launchAttend {p : List Instr} {s : State} (h : Good p s) {e id} : Good p (launchAttend s e id) := by
  unfold launchAttend
  dsimp only
  split
  · exact good_launchFused ‹_›
  · split
    · split
      · split
        · exact good_setCmd (good_pin (good_launchFused ‹_›))
        · exact good_launchFused ‹_›
      · split
        · split
          · exact good_setRun (good_launchFused ‹_›)
          · exact good_launchFused ‹_›
        · exact good_launchFused ‹_›
    · exact good_launchFused ‹_›

/-! ## Machine/Complete.lean -/

theorem good_closeGate {p : List Instr} {s : State} (h : Good p s) {c} : Good p (State.closeGate s c) := by
  unfold State.closeGate
  split
  · assumption
  · split
    · refine good_gateClose ?_ (by assumption)
      assumption
    · exact good_failCmd ‹_›

theorem good_showDigest {p : List Instr} {s : State} (h : Good p s) {c} : Good p (State.showDigest s c) := by
  unfold State.showDigest
  split
  · apply good_withMem
    · assumption
    · apply MemGroup.wf_store
      exact Good.mem (p := p) ‹_›
  · assumption

theorem good_showWrites {p : List Instr} {s : State} (h : Good p s) {c} : Good p (State.showWrites s c) := by
  unfold State.showWrites
  dsimp only
  split
  · split
    · apply good_closeGate
      apply good_admitDone
      apply good_foldl
      · apply good_setCmd
        split
        · apply good_withMem
          · assumption
          · apply MemGroup.wf_store
            exact Good.mem (p := p) ‹_›
        · apply good_showDigest
          apply good_withMem
          · assumption
          · apply MemGroup.wf_store
            exact Good.mem (p := p) ‹_›
      · intros
        exact good_count ‹_›
    · apply good_admitDone
      apply good_foldl
      · apply good_setCmd
        split
        · apply good_withMem
          · assumption
          · apply MemGroup.wf_store
            exact Good.mem (p := p) ‹_›
        · apply good_showDigest
          apply good_withMem
          · assumption
          · apply MemGroup.wf_store
            exact Good.mem (p := p) ‹_›
      · intros
        exact good_count ‹_›
  · apply good_setCmd
    split
    · apply good_withMem
      · assumption
      · apply MemGroup.wf_store
        exact Good.mem (p := p) ‹_›
    · apply good_showDigest
      apply good_withMem
      · assumption
      · apply MemGroup.wf_store
        exact Good.mem (p := p) ‹_›

theorem good_signalStep {p : List Instr} {s : State} (h : Good p s) {c} : Good p (State.signalStep s c) := by
  unfold State.signalStep
  dsimp only
  split
  · exact good_setCmd ‹_›
  · split
    · exact good_collProgress (good_tracePost (good_signalPost (good_setCmd ‹_›)))
    · split
      · exact good_setCmd ‹_›
      · exact good_originate (good_setCmd ‹_›)

theorem good_faultStep {p : List Instr} {s : State} (h : Good p s) {c} : Good p (State.faultStep s c) := by
  unfold State.faultStep
  dsimp only
  split
  · split
    · apply good_tenantEvent
      apply good_event
      split
      · exact good_faultInfo ‹_›
      · assumption
    · split
      · exact good_faultInfo ‹_›
      · assumption
  · split
    · exact good_faultInfo ‹_›
    · assumption

theorem good_endInRun {p : List Instr} {s : State} (h : Good p s) {c r i} : Good p (State.endInRun s c r i) := by
  unfold State.endInRun
  exact good_setRun ‹_›

theorem good_recordStep {p : List Instr} {s : State} (h : Good p s) {c} : Good p (State.recordStep s c) := by
  unfold State.recordStep
  dsimp only
  split
  · split
    · exact good_endInRun ‹_›
    · assumption
  · exact good_putRecord ‹_›

theorem good_openAreas {p : List Instr} {s : State} (h : Good p s) {t l} : Good p (State.openAreas s t l) := by
  unfold State.openAreas
  dsimp only
  apply good_withMem
  · exact good_free ‹_›
  · apply MemGroup.wf_store
    exact Good.mem (p := p) (good_free ‹_›)

theorem good_putContexts {p : List Instr} {s : State} (h : Good p s) {j d} : Good p (State.putContexts s j d) := by
  unfold State.putContexts
  dsimp only
  exact good_mk ‹_›

theorem good_codecCommit {p : List Instr} {s : State} (h : Good p s) {c} : Good p (State.codecCommit s c) := by
  unfold State.codecCommit
  split
  · assumption
  · split
    · exact good_dropJob ‹_›
    · dsimp only
      apply good_dropJob
      apply good_returnBufs
      split
      · apply good_putContexts
        apply good_foldl
        · assumption
        · intros
          exact good_setBuf ‹_›
      · apply good_openAreas
        apply good_putContexts
        apply good_foldl
        · assumption
        · intros
          exact good_setBuf ‹_›

theorem good_codecDrop {p : List Instr} {s : State} (h : Good p s) {c} : Good p (State.codecDrop s c) := by
  unfold State.codecDrop
  split
  · assumption
  · exact good_dropJob (good_returnBufs ‹_›)

theorem good_endRun {p : List Instr} {s : State} (h : Good p s) {r} : Good p (State.endRun s r) := by
  unfold State.endRun
  split
  · assumption
  · dsimp only
    exact good_returned (good_applyDrops (good_unpin ‹_›))

theorem good_leave {p : List Instr} {s : State} (h : Good p s) {c} : Good p (State.leave s c) := by
  unfold State.leave
  dsimp only
  split
  · split
    · apply good_mk
      apply good_foldl
      · apply good_dropCmd
        apply good_dropGrants
        apply good_releaseDone
        split
        · exact good_codecCommit ‹_›
        · exact good_codecDrop ‹_›
      · intros
        exact good_endRun ‹_›
    · apply good_returned
      apply good_unpin
      apply good_mk
      apply good_foldl
      · apply good_dropCmd
        apply good_dropGrants
        apply good_releaseDone
        split
        · exact good_codecCommit ‹_›
        · exact good_codecDrop ‹_›
      · intros
        exact good_endRun ‹_›
  · apply good_mk
    apply good_foldl
    · apply good_dropCmd
      apply good_dropGrants
      apply good_releaseDone
      split
      · exact good_codecCommit ‹_›
      · exact good_codecDrop ‹_›
    · intros
      exact good_endRun ‹_›

theorem good_chargeEnd {p : List Instr} {s : State} (h : Good p s) {c paddock hbm} : Good p (State.chargeEnd s c paddock hbm) := by
  unfold State.chargeEnd
  split
  · exact good_count (good_charge (good_chargeBytes ‹_›))
  · assumption

theorem good_traceEnd {p : List Instr} {s : State} (h : Good p s) {c} : Good p (State.traceEnd s c) := by
  unfold State.traceEnd
  split
  · exact good_traceMark ‹_›
  · exact good_traceCommand ‹_›

theorem good_spurDraws {p : List Instr} {s : State} (h : Good p s) {k n part} : Good p (State.spurDraws s k n part) := by
  unfold State.spurDraws
  dsimp only
  split
  · split
    · assumption
    · exact good_count (good_free ‹_›)
  · split
    · assumption
    · exact good_count (good_free ‹_›)

theorem good_endCmd {p : List Instr} {s : State} (h : Good p s) {c0 paddock hbm force} : Good p (State.endCmd s c0 paddock hbm force) := by
  unfold State.endCmd
  dsimp only
  split
  · split
    · assumption
    · split
      · exact good_signalStep (good_showWrites ‹_›)
      · exact good_showWrites ‹_›
  · split
    · split
      · assumption
      · split
        · exact good_signalStep (good_showWrites ‹_›)
        · exact good_showWrites ‹_›
    · apply good_traceEnd
      apply good_chargeEnd
      apply good_spurDraws
      apply good_leave
      apply good_recordStep
      apply good_flagSets
      apply good_faultStep
      apply good_showDigest
      split
      · assumption
      · split
        · exact good_signalStep (good_showWrites ‹_›)
        · exact good_showWrites ‹_›

theorem good_complete {p : List Instr} {s : State} (h : Good p s) {id paddock hbm} : Good p (State.complete s id paddock hbm) := by
  unfold State.complete
  split
  · assumption
  · split
    · exact good_endCmd ‹_›
    · assumption

/-! ## Machine/Requests.lean -/

theorem good_setFrame {p : List Instr} {s : State} (h : Good p s) {f o} : Good p (State.setFrame s f o) := by
  unfold State.setFrame
  dsimp only
  apply good_withMem
  · assumption
  · apply MemGroup.wf_fields
    refine Good.mem (p := p) ?_
    assumption

theorem good_setGranule {p : List Instr} {s : State} (h : Good p s) {g o} : Good p (State.setGranule s g o) := by
  unfold State.setGranule
  dsimp only
  apply good_withMem
  · assumption
  · apply MemGroup.wf_fields
    refine Good.mem (p := p) ?_
    assumption

theorem good_syncMemory {p : List Instr} {s : State} (h : Good p s) {a1} : Good p (State.syncMemory s a1) := by
  unfold State.syncMemory
  dsimp only
  split
  · apply good_setObj
    apply good_setObj
    apply good_setObj
    apply good_setObj
    apply good_foldl
    · assumption
    · intros
      exact good_setObj ‹_›
  · apply good_setObj
    apply good_setObj
    apply good_foldl
    · assumption
    · intros
      exact good_setObj ‹_›

theorem good_addDelayed {p : List Instr} {s : State} (h : Good p s) {r} : Good p (State.addDelayed s r) := by
  unfold State.addDelayed
  dsimp only
  apply good_withMem
  · assumption
  · apply MemGroup.wf_fields
    refine Good.mem (p := p) ?_
    assumption

theorem good_giveResult {p : List Instr} {s : State} (h : Good p s) {res v r} : Good p (State.giveResult s res v r) := by
  unfold State.giveResult
  dsimp only
  apply good_answerObj
  apply good_withMem
  · assumption
  · apply MemGroup.wf_fields
    refine Good.mem (p := p) ?_
    assumption

theorem good_paddockAllocate {p : List Instr} {s : State} (h : Good p s) {a1 v seq} : Good p (State.paddockAllocate s a1 v seq) := by
  unfold State.paddockAllocate
  dsimp only
  split
  · exact good_addDelayed ‹_›
  · apply good_syncMemory
    apply good_addDelayed
    apply good_foldl
    · assumption
    · intros
      exact good_setGranule ‹_›

theorem good_paddockAllocated {p : List Instr} {s : State} (h : Good p s) {a1} : Good p (State.paddockAllocated s a1) := by
  unfold State.paddockAllocated
  dsimp only
  split
  · assumption
  · split
    · assumption
    · apply good_giveResult
      split
      · apply good_withMem
        · assumption
        · apply MemGroup.wf_fields
          apply MemGroup.wf_foldl
          · refine Good.mem (p := p) ?_
            assumption
          · intros
            apply MemGroup.wf_zero
            assumption
      · assumption

theorem good_noteGone {p : List Instr} {s : State} (h : Good p s) {c} : Good p (State.noteGone s c) := by
  unfold State.noteGone
  split
  · dsimp only
    exact good_setPreempt ‹_›
  · assumption

theorem good_goneFor {p : List Instr} {s : State} (h : Good p s) {t} : Good p (State.goneFor s t) := by
  unfold State.goneFor
  apply good_foldl
  · assumption
  · intros
    exact good_noteGone ‹_›

theorem good_paddockFree {p : List Instr} {s : State} (h : Good p s) {t v seq} : Good p (State.paddockFree s t v seq) := by
  unfold State.paddockFree
  dsimp only
  split
  · exact good_addDelayed ‹_›
  · split
    · exact good_addDelayed ‹_›
    · apply good_goneFor
      apply good_addDelayed
      apply good_withMem
      · assumption
      · apply MemGroup.wf_fields
        exact Good.mem (p := p) ‹_›

theorem good_releaseGranule {p : List Instr} {s : State} (h : Good p s) {g} : Good p (State.releaseGranule s g) := by
  unfold State.releaseGranule
  dsimp only
  split
  · exact good_setObj (good_count (good_setObj (good_setGranule ‹_›)))
  · exact good_setGranule ‹_›

theorem good_paddockFreed {p : List Instr} {s : State} (h : Good p s) {t} : Good p (State.paddockFreed s t) := by
  unfold State.paddockFreed
  split
  · assumption
  · split
    · assumption
    · dsimp only
      apply good_syncMemory
      apply good_giveResult
      split
      · apply good_foldl
        · assumption
        · intros
          exact good_releaseGranule ‹_›
      · assumption

theorem good_frameRequest {p : List Instr} {s : State} (h : Good p s) {v seq} : Good p (State.frameRequest s v seq) := by
  unfold State.frameRequest
  dsimp only
  apply good_syncMemory
  apply good_addDelayed
  split
  · split
    · exact good_goneFor ‹_›
    · assumption
  · apply good_foldl
    · split
      · exact good_goneFor ‹_›
      · assumption
    · intros
      exact good_setFrame ‹_›

theorem good_framesAssigned {p : List Instr} {s : State} (h : Good p s) : Good p (State.framesAssigned s) := by
  unfold State.framesAssigned
  dsimp only
  split
  · assumption
  · split
    · assumption
    · apply good_syncMemory
      apply good_giveResult
      split
      · apply good_foldl
        · apply good_withMem
          · assumption
          · apply MemGroup.wf_zero
            refine Good.mem (p := p) ?_
            assumption
        · intros
          exact good_setFrame ‹_›
      · assumption

theorem good_releaseFrame {p : List Instr} {s : State} (h : Good p s) {f} : Good p (State.releaseFrame s f) := by
  unfold State.releaseFrame
  dsimp only
  split
  · split
    · exact good_setObj (good_count (good_setFrame ‹_›))
    · exact good_count (good_setFrame ‹_›)
  · exact good_setFrame ‹_›

theorem good_framesReleased {p : List Instr} {s : State} (h : Good p s) : Good p (State.framesReleased s) := by
  unfold State.framesReleased
  split
  · assumption
  · split
    · assumption
    · dsimp only
      apply good_syncMemory
      apply good_giveResult
      split
      · apply good_foldl
        · assumption
        · intros
          exact good_releaseFrame ‹_›
      · assumption

theorem good_tlbInvalidate {p : List Instr} {s : State} (h : Good p s) {a1 v seq} : Good p (State.tlbInvalidate s a1 v seq) := by
  unfold State.tlbInvalidate
  exact good_addDelayed ‹_›

theorem good_tlbInvalidated {p : List Instr} {s : State} (h : Good p s) {a1} : Good p (State.tlbInvalidated s a1) := by
  unfold State.tlbInvalidated
  dsimp only
  split
  · assumption
  · split
    · assumption
    · apply good_withMem
      · assumption
      · apply MemGroup.wf_fields
        refine Good.mem (p := p) ?_
        assumption

theorem good_correctedEvent {p : List Instr} {s : State} (h : Good p s) {kind source due} : Good p (State.correctedEvent s kind source due) := by
  unfold State.correctedEvent
  dsimp only
  split
  · exact good_event (good_mk ‹_›)
  · exact good_mk ‹_›

theorem good_eccCorrected {p : List Instr} {s : State} (h : Good p s) {site due} : Good p (State.eccCorrected s site due) := by
  unfold State.eccCorrected
  split
  · exact good_correctedEvent (good_count ‹_›)
  · exact good_correctedEvent (good_count ‹_›)
  · exact good_correctedEvent (good_count ‹_›)
  · exact good_correctedEvent ‹_›
  · exact good_correctedEvent ‹_›

theorem good_poisonLine {p : List Instr} {s : State} (h : Good p s) {line} : Good p (State.poisonLine s line) := by
  unfold State.poisonLine
  dsimp only
  split
  · assumption
  · split
    · apply good_event
      apply good_count
      apply good_withMem
      · apply good_withMem
        · assumption
        · apply MemGroup.wf_fields
          refine Good.mem (p := p) ?_
          assumption
      · apply MemGroup.wf_fields
        refine Good.mem (p := p) ?_
        apply good_withMem
        · assumption
        · apply MemGroup.wf_fields
          refine Good.mem (p := p) ?_
          assumption
    · apply good_event
      apply good_count
      apply good_withMem
      · apply good_withMem
        · assumption
        · apply MemGroup.wf_fields
          refine Good.mem (p := p) ?_
          assumption
      · apply MemGroup.wf_fields
        refine Good.mem (p := p) ?_
        apply good_withMem
        · assumption
        · apply MemGroup.wf_fields
          refine Good.mem (p := p) ?_
          assumption

theorem good_paddockBad {p : List Instr} {s : State} (h : Good p s) {g off bad due} : Good p (State.paddockBad s g off bad due) := by
  unfold State.paddockBad
  dsimp only
  split
  · apply good_foldl
    · assumption
    · intros
      apply good_correctedEvent
      apply good_count
      apply good_withMem
      · assumption
      · apply MemGroup.wf_fields
        apply MemGroup.wf_store
        refine Good.mem (p := p) ?_
        assumption
  · apply good_foldl
    · assumption
    · intros
      exact good_poisonLine ‹_›

theorem good_hbmBad {p : List Instr} {s : State} (h : Good p s) {line due} : Good p (State.hbmBad s line due) := by
  unfold State.hbmBad
  split
  · exact good_poisonLine ‹_›
  · exact good_correctedEvent ‹_›

/-! ## Machine/Faults.lean -/

theorem good_staticOne {p : List Instr} {s : State} (h : Good p s) {a1} : Good p (State.staticOne s a1) := by
  unfold State.staticOne
  dsimp only
  split
  · assumption
  · split
    · assumption
    · split
      · split
        · exact good_event (good_mk ‹_›)
        · assumption
      · split
        · assumption
        · exact good_event (good_mk ‹_›)

theorem good_staticCheck {p : List Instr} {s : State} (h : Good p s) : Good p (State.staticCheck s) := by
  unfold State.staticCheck
  apply good_foldl
  · assumption
  · intros
    exact good_staticOne ‹_›

theorem good_capacityEvent {p : List Instr} {s : State} (h : Good p s) {q} : Good p (State.capacityEvent s q) := by
  unfold State.capacityEvent
  apply good_foldl
  · assumption
  · intros
    exact good_tenantEvent ‹_›

theorem good_syncActive {p : List Instr} {s : State} (h : Good p s) {q} : Good p (State.syncActive s q) := by
  unfold State.syncActive
  exact good_setObj ‹_›

theorem good_dealAgain {p : List Instr} {s : State} (h : Good p s) {p1 c} : Good p (State.dealAgain s p1 c) := by
  unfold State.dealAgain
  dsimp only
  split
  · assumption
  · split
    · exact good_failCmd ‹_›
    · exact good_setCmd ‹_›

theorem good_dealAll {p : List Instr} {s : State} (h : Good p s) {a1} : Good p (State.dealAll s a1) := by
  unfold State.dealAll
  apply good_foldl
  · assumption
  · intros
    split
    · exact good_dealAgain ‹_›
    · assumption

theorem good_vacate {p : List Instr} {s : State} (h : Good p s) {l} : Good p (State.vacate s l) := by
  unfold State.vacate
  split
  · exact good_mk ‹_›
  · assumption

theorem good_retireStable {p : List Instr} {s : State} (h : Good p s) {p1 cause} : Good p (State.retireStable s p1 cause) := by
  unfold State.retireStable
  dsimp only
  split
  · assumption
  · apply good_capacityEvent
    apply good_event
    split
    · exact good_setObj (good_setObj (good_putStable ‹_›))
    · exact good_syncActive (good_dealAll (good_vacate (good_setObj (good_putStable ‹_›))))

theorem good_occupy {p : List Instr} {s : State} (h : Good p s) {l} : Good p (State.occupy s l) := by
  unfold State.occupy
  exact good_mk ‹_›

theorem good_joinQuarter {p : List Instr} {s : State} (h : Good p s) {p1 l} : Good p (State.joinQuarter s p1 l) := by
  unfold State.joinQuarter
  dsimp only
  exact good_capacityEvent (good_event (good_syncActive (good_putStable (good_setObj (good_occupy ‹_›)))))

theorem good_spareActivate {p : List Instr} {s : State} (h : Good p s) {q ok} : Good p (State.spareActivate s q ok) := by
  unfold State.spareActivate
  split
  · assumption
  · split
    · split
      · exact good_joinQuarter (good_setObj ‹_›)
      · exact good_retireStable (good_event ‹_›)
    · assumption

theorem good_residueMismatch {p : List Instr} {s : State} (h : Good p s) {id ti ns} : Good p (State.residueMismatch s id ti ns) := by
  unfold State.residueMismatch
  dsimp only
  split
  · assumption
  · split
    · assumption
    · split
      · exact good_event (good_setCmd (good_count ‹_›))
      · exact good_retireStable (good_count ‹_›)

theorem good_watchdog {p : List Instr} {s : State} (h : Good p s) {a1 ns} : Good p (State.watchdog s a1 ns) := by
  unfold State.watchdog
  split
  · assumption
  · exact good_retireStable (good_count ‹_›)

theorem good_loseWork {p : List Instr} {s : State} (h : Good p s) {p1} : Good p (State.loseWork s p1) := by
  unfold State.loseWork
  split
  · assumption
  · dsimp only
    exact good_count (good_free ‹_›)

theorem good_quarterOut {p : List Instr} {s : State} (h : Good p s) {q} : Good p (State.quarterOut s q) := by
  unfold State.quarterOut
  dsimp only
  split
  · assumption
  · apply good_capacityEvent
    apply good_event
    apply good_setObj
    apply good_setObj
    apply good_mk
    apply good_foldl
    · apply good_foldl
      · assumption
      · intros
        split
        · assumption
        · exact good_putStable (good_loseWork ‹_›)
    · intros
      exact good_dealAll ‹_›

theorem good_withPower {p : List Instr} {s : State} (h : Good p s) {a1} : Good p (State.withPower s a1) := by
  unfold State.withPower
  exact good_mk ‹_›

theorem good_quarterBack {p : List Instr} {s : State} (h : Good p s) {q} : Good p (State.quarterBack s q) := by
  unfold State.quarterBack
  dsimp only
  split
  · assumption
  · split
    · exact good_withPower ‹_›
    · split
      · assumption
      · apply good_capacityEvent
        apply good_event
        apply good_setObj
        apply good_syncActive
        split
        · apply good_setObj
          apply good_foldl
          · assumption
          · intros
            split
            · exact good_putStable (good_setObj ‹_›)
            · exact good_putStable ‹_›
        · apply good_foldl
          · assumption
          · intros
            split
            · exact good_putStable (good_setObj ‹_›)
            · exact good_putStable ‹_›

theorem good_repairDone {p : List Instr} {s : State} (h : Good p s) {a1 ok} : Good p (State.repairDone s a1 ok) := by
  unfold State.repairDone
  dsimp only
  split
  · exact good_event (good_setObj (good_putStable (good_withPower ‹_›)))
  · split
    · exact good_quarterBack (good_putStable (good_withPower ‹_›))
    · split
      · exact good_quarterBack (good_putStable (good_event (good_setObj (good_withPower ‹_›))))
      · split
        · exact good_joinQuarter (good_putStable (good_event (good_setObj (good_withPower ‹_›))))
        · exact good_setObj (good_putStable (good_event (good_setObj (good_withPower ‹_›))))

theorem good_repairRequest {p : List Instr} {s : State} (h : Good p s) {a1} : Good p (State.repairRequest s a1) := by
  unfold State.repairRequest
  dsimp only
  exact good_withPower ‹_›

theorem good_zeroPaddock {p : List Instr} {s : State} (h : Good p s) {q} : Good p (State.zeroPaddock s q) := by
  unfold State.zeroPaddock
  apply good_withMem
  · assumption
  · apply MemGroup.wf_foldl
    · refine Good.mem (p := p) ?_
      assumption
    · intros
      split
      · assumption
      · apply MemGroup.wf_zero
        assumption

theorem good_scrubDone {p : List Instr} {s : State} (h : Good p s) {kind unit ok} : Good p (State.scrubDone s kind unit ok) := by
  unfold State.scrubDone
  dsimp only
  split
  · split
    · split
      · exact good_mk (good_zeroPaddock (good_withPower ‹_›))
      · exact good_withPower ‹_›
    · split
      · split
        · exact good_setObj (good_putStable (good_withPower ‹_›))
        · exact good_putStable (good_withPower ‹_›)
      · exact good_retireStable (good_withPower ‹_›)
  · split
    · exact good_repairDone ‹_›
    · assumption

theorem good_startScrubs {p : List Instr} {s : State} (h : Good p s) : Good p (State.startScrubs s) := by
  unfold State.startScrubs
  dsimp only
  exact good_withPower ‹_›

theorem good_newEpoch {p : List Instr} {s : State} (h : Good p s) : Good p (State.newEpoch s) := by
  unfold State.newEpoch
  dsimp only
  exact good_setObj (good_free ‹_›)

theorem good_fatalFault {p : List Instr} {s : State} (h : Good p s) {e clear} : Good p (State.fatalFault s e clear) := by
  unfold State.fatalFault
  dsimp only
  split
  · exact good_logEvent (good_mk (good_withPower ‹_›))
  · exact good_event (good_setObj (good_mk (good_withPower ‹_›)))

theorem good_portsDown {p : List Instr} {s : State} (h : Good p s) {n} : Good p (State.portsDown s n) := by
  unfold State.portsDown
  dsimp only
  apply good_foldl
  · apply good_foldl
    · assumption
    · intros
      split
      · exact good_setPort ‹_›
      · apply good_setPort
        split
        · exact good_event (good_setLink ‹_›)
        · exact good_setLink ‹_›
  · intros
    exact good_mapChanged ‹_›

theorem good_deviceFatal {p : List Instr} {s : State} (h : Good p s) {code source unit} : Good p (State.deviceFatal s code source unit) := by
  unfold State.deviceFatal
  dsimp only
  split
  · exact good_fatalFault ‹_›
  · split
    · exact good_fatalFault ‹_›
    · split
      · split
        · exact good_portsDown (good_fatalFault ‹_›)
        · exact good_fatalFault ‹_›
      · exact good_fatalFault ‹_›

theorem good_grantBad {p : List Instr} {s : State} (h : Good p s) {id staging} : Good p (State.grantBad s id staging) := by
  unfold State.grantBad
  split
  · assumption
  · dsimp only
    split
    · exact good_abortColl ‹_›
    · split
      · assumption
      · exact good_failCmd ‹_›

theorem good_eccBad {p : List Instr} {s : State} (h : Good p s) {site due} : Good p (State.eccBad s site due) := by
  unfold State.eccBad
  split
  · split
    · exact good_retireStable (good_loseWork ‹_›)
    · assumption
  · exact good_paddockBad ‹_›
  · exact good_hbmBad ‹_›
  · exact good_grantBad ‹_›
  · split
    · exact good_deviceFatal ‹_›
    · exact good_correctedEvent ‹_›
  · split
    · exact good_deviceFatal ‹_›
    · assumption

theorem good_patrol {p : List Instr} {s : State} (h : Good p s) {find due} : Good p (State.patrol s find due) := by
  unfold State.patrol
  split
  · assumption
  · assumption
  · exact good_correctedEvent ‹_›
  · assumption
  · split
    · exact good_paddockBad ‹_›
    · exact good_eccCorrected ‹_›
  · split
    · exact good_hbmBad ‹_›
    · exact good_eccCorrected ‹_›

theorem good_retireRequest {p : List Instr} {s : State} (h : Good p s) {p1} : Good p (State.retireRequest s p1) := by
  unfold State.retireRequest
  exact good_retireStable (good_loseWork ‹_›)

/-! ## Machine/Sched.lean -/

theorem good_chargeSpent {p : List Instr} {s : State} (h : Good p s) {l} : Good p (State.chargeSpent s l) := by
  unfold State.chargeSpent
  apply good_foldl
  · assumption
  · intros
    split
    · exact good_chargeEngine ‹_›
    · assumption

theorem good_chargeMove {p : List Instr} {s : State} (h : Good p s) {a1 ns} : Good p (State.chargeMove s a1 ns) := by
  unfold State.chargeMove
  exact good_count (good_count ‹_›)

theorem good_letGo {p : List Instr} {s : State} (h : Good p s) {t} : Good p (State.letGo s t) := by
  unfold State.letGo
  dsimp only
  apply good_setPreempt
  apply good_withMem
  · assumption
  · apply MemGroup.wf_fields
    exact Good.mem (p := p) ‹_›

theorem good_dismounted {p : List Instr} {s : State} (h : Good p s) {t ns spent} : Good p (State.dismounted s t ns spent) := by
  unfold State.dismounted
  dsimp only
  split
  · assumption
  · apply good_holdTenant
    apply good_event
    apply good_letGo
    apply good_setPreempt
    apply good_setObj
    apply good_count
    apply good_count
    apply good_count
    apply good_foldl
    · apply good_chargeMove
      apply good_chargeSpent
      split
      · dsimp only
        apply good_withMem
        · assumption
        · apply MemGroup.wf_store
          exact Good.mem (p := p) ‹_›
      · dsimp only
        exact good_event ‹_›
    · intros
      split
      · split
        · exact good_setCmd ‹_›
        · assumption
      · assumption

theorem good_overrun {p : List Instr} {s : State} (h : Good p s) {a1} : Good p (State.overrun s a1) := by
  unfold State.overrun
  dsimp only
  split
  · assumption
  · exact good_event (good_count (good_setPreempt ‹_›))

theorem good_loadTile {p : List Instr} {s : State} (h : Good p s) {taken area x} : Good p (State.loadTile s taken area x).1 := by
  unfold State.loadTile
  split
  · assumption
  · dsimp only
    split
    · assumption
    · split
      · dsimp only
        exact good_setTile (good_putStable ‹_›)
      · split
        · dsimp only
          exact good_setTile (good_putStable ‹_›)
        · dsimp only
          exact good_setCmd (good_free (good_setTile (good_putStable ‹_›)))

theorem good_restore {p : List Instr} {s : State} (h : Good p s) {t} : Good p (State.restore s t) := by
  unfold State.restore
  dsimp only
  split
  · assumption
  · split
    · apply good_withMem
      · apply good_foldl_fst
        · assumption
        · intros
          exact good_loadTile ‹_›
      · apply MemGroup.wf_store
        refine Good.mem (p := p) ?_
        apply good_foldl_fst
        · assumption
        · intros
          exact good_loadTile ‹_›
    · apply good_foldl
      · assumption
      · intros
        split
        · exact good_setTile ‹_›
        · assumption

theorem good_resumeWithout {p : List Instr} {s : State} (h : Good p s) {id} : Good p (State.resumeWithout s id) := by
  unfold State.resumeWithout
  split
  · assumption
  · dsimp only
    split
    · assumption
    · split
      · exact good_failCmd (good_setCmd ‹_›)
      · assumption

theorem good_resumed {p : List Instr} {s : State} (h : Good p s) {t ns} : Good p (State.resumed s t ns) := by
  unfold State.resumed
  split
  · assumption
  · dsimp only
    apply good_preemptCheck
    apply good_event
    apply good_setObj
    apply good_setPreempt
    apply good_count
    apply good_chargeMove
    apply good_restore
    apply good_foldl
    · assumption
    · intros
      exact good_resumeWithout ‹_›

theorem good_tenantEnable {p : List Instr} {s : State} (h : Good p s) {a1 v} : Good p (State.tenantEnable s a1 v) := by
  unfold State.tenantEnable
  dsimp only
  split
  · assumption
  · split
    · exact good_holdTenant (good_setObj (good_setPreempt (good_setObj ‹_›)))
    · exact good_setObj (good_setPreempt (good_setObj ‹_›))

theorem good_tenantHold {p : List Instr} {s : State} (h : Good p s) {a1 v} : Good p (State.tenantHold s a1 v) := by
  unfold State.tenantHold
  dsimp only
  split
  · exact good_holdTenant (good_setObj ‹_›)
  · exact good_setObj ‹_›

theorem good_tenantReset {p : List Instr} {s : State} (h : Good p s) {t} : Good p (State.tenantReset s t) := by
  unfold State.tenantReset
  split
  · assumption
  · dsimp only
    apply good_foldl
    · apply good_foldl
      · exact good_setPreempt (good_setObj ‹_›)
      · intros
        exact good_abortColl ‹_›
    · intros
      split
      · assumption
      · split
        · exact good_jobFails ‹_›
        · exact good_failCmd ‹_›
        · assumption

theorem good_clearQueue {p : List Instr} {s : State} (h : Good p s) {q} : Good p (State.clearQueue s q) := by
  unfold State.clearQueue
  dsimp only
  exact good_setQueue (good_setObj ‹_›)

theorem good_clearEntries {p : List Instr} {s : State} (h : Good p s) {a1} : Good p (State.clearEntries s a1) := by
  unfold State.clearEntries
  dsimp only
  apply good_returned
  apply good_foldl_fst
  · assumption
  · intros
    dsimp only
    exact good_retire ‹_›

theorem good_resetComplete {p : List Instr} {s : State} (h : Good p s) {t spent} : Good p (State.resetComplete s t spent) := by
  unfold State.resetComplete
  dsimp only
  split
  · assumption
  · apply good_preemptCheck
    apply good_setObj
    apply good_event
    apply good_setObj
    apply good_foldl
    · apply good_dropWaits
      apply good_returnBufs
      apply good_clearEntries
      apply good_mk
      apply good_foldl
      · exact good_chargeSpent ‹_›
      · intros
        split
        · apply good_endCmd
          split
          · split
            · assumption
            · split
              · exact good_jobFails ‹_›
              · exact good_failCmd ‹_›
          · split
            · assumption
            · split
              · exact good_jobFails ‹_›
              · exact good_failCmd ‹_›
        · split
          · split
            · assumption
            · split
              · exact good_jobFails ‹_›
              · exact good_failCmd ‹_›
          · split
            · assumption
            · split
              · exact good_jobFails ‹_›
              · exact good_failCmd ‹_›
    · intros
      exact good_clearQueue ‹_›

theorem good_functionReset {p : List Instr} {s : State} (h : Good p s) {f} : Good p (State.functionReset s f) := by
  unfold State.functionReset
  apply good_foldl
  · assumption
  · intros
    exact good_tenantReset ‹_›

theorem good_slotRequests {p : List Instr} {s : State} (h : Good p s) {a1} : Good p (State.slotRequests s a1) := by
  unfold State.slotRequests
  dsimp only
  apply good_foldl
  · assumption
  · intros
    exact good_holdTenant ‹_›

theorem good_majorFrame {p : List Instr} {s : State} (h : Good p s) : Good p (State.majorFrame s) := by
  unfold State.majorFrame
  dsimp only
  exact good_mk (good_setObj ‹_›)

theorem good_slotBoundary {p : List Instr} {s : State} (h : Good p s) : Good p (State.slotBoundary s) := by
  unfold State.slotBoundary
  dsimp only
  apply good_foldl
  · split
    · exact good_majorFrame ‹_›
    · exact good_mk ‹_›
  · intros
    exact good_slotRequests ‹_›

theorem good_timeRole {p : List Instr} {s : State} (h : Good p s) {v} : Good p (State.timeRole s v) := by
  unfold State.timeRole
  dsimp only
  exact good_mk (good_setObj (good_setObj ‹_›))

theorem good_sendTime {p : List Instr} {s : State} (h : Good p s) {frame phase hops but} : Good p (State.sendTime s frame phase hops but) := by
  unfold State.sendTime
  apply good_foldl
  · assumption
  · intros
    exact good_sendOn ‹_›

theorem good_masterTick {p : List Instr} {s : State} (h : Good p s) {phase} : Good p (State.masterTick s phase) := by
  unfold State.masterTick
  dsimp only
  split
  · exact good_sendTime ‹_›
  · assumption

theorem good_adoptTime {p : List Instr} {s : State} (h : Good p s) {a1 frame there phase hops} : Good p (State.adoptTime s a1 frame there phase hops) := by
  unfold State.adoptTime
  dsimp only
  split
  · exact good_event (good_mk (good_setObj (good_setObj ‹_›)))
  · split
    · exact good_setObj (good_mk (good_setObj (good_setObj ‹_›)))
    · exact good_mk (good_setObj (good_setObj ‹_›))

theorem good_timeReceived {p : List Instr} {s : State} (h : Good p s) {p1 k phase} : Good p (State.timeReceived s p1 k phase) := by
  unfold State.timeReceived
  split
  · dsimp only
    split
    · assumption
    · split
      · exact good_count ‹_›
      · split
        · exact good_adoptTime ‹_›
        · split
          · split
            · split
              · exact good_sendTime (good_adoptTime ‹_›)
              · split
                · exact good_adoptTime ‹_›
                · assumption
            · exact good_sendTime (good_adoptTime ‹_›)
          · assumption
  · assumption

theorem good_delayMeasured {p : List Instr} {s : State} (h : Good p s) {a1 ns} : Good p (State.delayMeasured s a1 ns) := by
  unfold State.delayMeasured
  dsimp only
  split
  · assumption
  · exact good_sendParams (good_setPort ‹_›)

theorem good_timeLost {p : List Instr} {s : State} (h : Good p s) : Good p (State.timeLost s) := by
  unfold State.timeLost
  dsimp only
  split
  · exact good_event (good_setObj (good_mk ‹_›))
  · assumption

/-! ## Machine/Reset.lean -/

theorem good_keepObjs {p : List Instr} {s : State} (h : Good p s) {keep} : Good p (State.keepObjs s keep) := by
  unfold State.keepObjs
  dsimp only
  exact good_mk ‹_›

theorem good_dropTx {p : List Instr} {s : State} (h : Good p s) {m} : Good p (State.dropTx s m) := by
  unfold State.dropTx
  dsimp only
  exact good_mk ‹_›

theorem good_freeAll {p : List Instr} {s : State} (h : Good p s) : Good p (State.freeAll s) := by
  unfold State.freeAll
  dsimp only
  apply good_syncMemory
  apply good_withMem
  · apply good_foldl
    · apply good_foldl
      · assumption
      · intros
        exact good_releaseGranule ‹_›
    · intros
      exact good_releaseFrame ‹_›
  · apply MemGroup.wf_fields
    refine Good.mem (p := p) ?_
    apply good_foldl
    · apply good_foldl
      · assumption
      · intros
        exact good_releaseGranule ‹_›
    · intros
      exact good_releaseFrame ‹_›

theorem good_functionRegs {p : List Instr} {s : State} (h : Good p s) : Good p (State.functionRegs s) := by
  unfold State.functionRegs
  dsimp only
  exact good_mk ‹_›

theorem good_noCommands {p : List Instr} {s : State} (h : Good p s) : Good p (State.noCommands s) := by
  unfold State.noCommands
  dsimp only
  exact good_mk ‹_›

theorem good_noPosts {p : List Instr} {s : State} (h : Good p s) : Good p (State.noPosts s) := by
  unfold State.noPosts
  dsimp only
  exact good_mk ‹_›

theorem good_hostReset {p : List Instr} {s : State} (h : Good p s) : Good p (State.hostReset s) := by
  unfold State.hostReset
  dsimp only
  exact good_setObj (good_setObj (good_setObj (good_mk (good_freeAll (good_dropTx (good_keepObjs (good_functionRegs (good_noPosts (good_noCommands ‹_›)))))))))

theorem good_unitsOff {p : List Instr} {s : State} (h : Good p s) : Good p (State.unitsOff s) := by
  unfold State.unitsOff
  dsimp only
  exact good_mk ‹_›

theorem good_memoryLost {p : List Instr} {s : State} (h : Good p s) : Good p (State.memoryLost s) := by
  unfold State.memoryLost
  dsimp only
  apply good_withMem
  · assumption
  · apply MemGroup.wf_filtered
    refine Good.mem (p := p) ?_
    assumption

theorem good_streamsLost {p : List Instr} {s : State} (h : Good p s) : Good p (State.streamsLost s) := by
  unfold State.streamsLost
  apply good_mk
  assumption

theorem good_supplyLost {p : List Instr} {s : State} (h : Good p s) : Good p (State.supplyLost s) := by
  unfold State.supplyLost
  exact good_withPower ‹_›

theorem good_railsOff {p : List Instr} {s : State} (h : Good p s) : Good p (State.railsOff s) := by
  unfold State.railsOff
  dsimp only
  split
  · assumption
  · apply good_foldl
    · exact good_setObj (good_setObj (good_supplyLost (good_streamsLost (good_unitsOff (good_memoryLost (good_portsDown (good_hostReset ‹_›)))))))
    · intros
      exact good_setObj ‹_›

/-! ## Machine/Power.lean -/

theorem good_divider {p : List Instr} {s : State} (h : Good p s) {g cause} : Good p (State.divider s g cause) := by
  unfold State.divider
  dsimp only
  exact good_traceGait (good_setObj (good_setObj (good_withPower ‹_›)))

theorem good_changeGait {p : List Instr} {s : State} (h : Good p s) {g cause} : Good p (State.changeGait s g cause) := by
  unfold State.changeGait
  exact good_event (good_divider ‹_›)

theorem good_setRail {p : List Instr} {s : State} (h : Good p s) {q tenths} : Good p (State.setRail s q tenths) := by
  unfold State.setRail
  dsimp only
  exact good_setObj (good_withPower (good_free ‹_›))

theorem good_settleRail {p : List Instr} {s : State} (h : Good p s) {g q} : Good p (State.settleRail s g q) := by
  unfold State.settleRail
  dsimp only
  exact good_setRail (good_free ‹_›)

theorem good_raiseRails {p : List Instr} {s : State} (h : Good p s) {g} : Good p (State.raiseRails s g) := by
  unfold State.raiseRails
  apply good_foldl
  · assumption
  · intros
    split
    · assumption
    · exact good_settleRail ‹_›

theorem good_reselect {p : List Instr} {s : State} (h : Good p s) {downCause upCause} : Good p (State.reselect s downCause upCause) := by
  unfold State.reselect
  dsimp only
  split
  · exact good_changeGait ‹_›
  · split
    · exact good_withPower ‹_›
    · split
      · split
        · assumption
        · exact good_raiseRails (good_withPower ‹_›)
      · exact good_raiseRails (good_withPower ‹_›)

theorem good_gaitUp {p : List Instr} {s : State} (h : Good p s) : Good p (State.gaitUp s) := by
  unfold State.gaitUp
  split
  · exact good_changeGait ‹_›
  · assumption

theorem good_startGait {p : List Instr} {s : State} (h : Good p s) : Good p (State.startGait s) := by
  unfold State.startGait
  dsimp only
  exact good_setObj (good_setObj (good_withPower ‹_›))

theorem good_gaitCeiling {p : List Instr} {s : State} (h : Good p s) {v} : Good p (State.gaitCeiling s v) := by
  unfold State.gaitCeiling
  exact good_reselect (good_setObj ‹_›)

theorem good_reinAssert {p : List Instr} {s : State} (h : Good p s) {late} : Good p (State.reinAssert s late) := by
  unfold State.reinAssert
  dsimp only
  split
  · assumption
  · apply good_staticCheck
    split
    · apply good_event
      split
      · exact good_setObj (good_withPower ‹_›)
      · exact good_divider (good_setObj (good_withPower ‹_›))
    · split
      · exact good_setObj (good_withPower ‹_›)
      · exact good_divider (good_setObj (good_withPower ‹_›))

theorem good_reinDeassert {p : List Instr} {s : State} (h : Good p s) : Good p (State.reinDeassert s) := by
  unfold State.reinDeassert
  dsimp only
  split
  · assumption
  · exact good_staticCheck (good_setObj (good_withPower ‹_›))

theorem good_reinExpire {p : List Instr} {s : State} (h : Good p s) : Good p (State.reinExpire s) := by
  unfold State.reinExpire
  dsimp only
  split
  · assumption
  · exact good_reselect (good_withPower ‹_›)

theorem good_powerTick {p : List Instr} {s : State} (h : Good p s) {watts mv due} : Good p (State.powerTick s watts mv due) := by
  unfold State.powerTick
  dsimp only
  split
  · assumption
  · split
    · split
      · exact good_event (good_reselect (good_withPower (good_count (good_setObj (good_setObj ‹_›)))))
      · exact good_reselect (good_withPower (good_count (good_setObj (good_setObj ‹_›))))
    · split
      · exact good_withPower (good_count (good_setObj (good_setObj ‹_›)))
      · exact good_count (good_setObj (good_setObj ‹_›))

theorem good_powerRaise {p : List Instr} {s : State} (h : Good p s) : Good p (State.powerRaise s) := by
  unfold State.powerRaise
  dsimp only
  split
  · assumption
  · exact good_reselect (good_withPower ‹_›)

theorem good_powerStall {p : List Instr} {s : State} (h : Good p s) : Good p (State.powerStall s) := by
  unfold State.powerStall
  dsimp only
  split
  · assumption
  · exact good_withPower ‹_›

theorem good_thermalTick {p : List Instr} {s : State} (h : Good p s) {points hbm} : Good p (State.thermalTick s points hbm) := by
  unfold State.thermalTick
  dsimp only
  split
  · assumption
  · split
    · apply good_foldl
      · apply good_foldl
        · assumption
        · intros
          exact good_setObj ‹_›
      · intros
        exact good_setObj ‹_›
    · apply good_reselect
      apply good_withPower
      apply good_foldl
      · apply good_foldl
        · assumption
        · intros
          exact good_setObj ‹_›
      · intros
        exact good_setObj ‹_›

theorem good_thermalRaise {p : List Instr} {s : State} (h : Good p s) : Good p (State.thermalRaise s) := by
  unfold State.thermalRaise
  dsimp only
  split
  · assumption
  · exact good_reselect (good_withPower ‹_›)

theorem good_coolingEnter {p : List Instr} {s : State} (h : Good p s) {q} : Good p (State.coolingEnter s q) := by
  unfold State.coolingEnter
  dsimp only
  split
  · assumption
  · exact good_event (good_withPower ‹_›)

theorem good_coolingLeave {p : List Instr} {s : State} (h : Good p s) {q} : Good p (State.coolingLeave s q) := by
  unfold State.coolingLeave
  dsimp only
  split
  · assumption
  · exact good_event (good_withPower ‹_›)

theorem good_droop {p : List Instr} {s : State} (h : Good p s) {q} : Good p (State.droop s q) := by
  unfold State.droop
  dsimp only
  split
  · assumption
  · exact good_count (good_withPower ‹_›)

theorem good_droopEnd {p : List Instr} {s : State} (h : Good p s) {q} : Good p (State.droopEnd s q) := by
  unfold State.droopEnd
  dsimp only
  exact good_withPower ‹_›

theorem good_canaryLow {p : List Instr} {s : State} (h : Good p s) {q failure} : Good p (State.canaryLow s q failure) := by
  unfold State.canaryLow
  dsimp only
  split
  · assumption
  · split
    · exact good_droop (good_setRail ‹_›)
    · exact good_setRail ‹_›

theorem good_stepDown {p : List Instr} {s : State} (h : Good p s) {q} : Good p (State.stepDown s q) := by
  unfold State.stepDown
  dsimp only
  split
  · assumption
  · split
    · exact good_settleRail ‹_›
    · exact good_setRail ‹_›

theorem good_trip {p : List Instr} {s : State} (h : Good p s) {cause} : Good p (State.trip s cause) := by
  unfold State.trip
  split
  · assumption
  · exact good_railsOff (good_fatalFault ‹_›)

theorem good_inputOut {p : List Instr} {s : State} (h : Good p s) {mv} : Good p (State.inputOut s mv) := by
  unfold State.inputOut
  dsimp only
  split
  · assumption
  · split
    · exact good_trip (good_withPower (good_setObj ‹_›))
    · split
      · exact good_setObj ‹_›
      · exact good_reselect (good_event (good_withPower (good_setObj ‹_›)))

theorem good_inputBack {p : List Instr} {s : State} (h : Good p s) {mv} : Good p (State.inputBack s mv) := by
  unfold State.inputBack
  dsimp only
  split
  · assumption
  · exact good_reselect (good_withPower (good_setObj ‹_›))

theorem good_coolant {p : List Instr} {s : State} (h : Good p s) {inlet outlet} : Good p (State.coolant s inlet outlet) := by
  unfold State.coolant
  dsimp only
  split
  · assumption
  · apply good_reselect
    split
    · exact good_event (good_withPower (good_setObj (good_setObj ‹_›)))
    · exact good_withPower (good_setObj (good_setObj ‹_›))

theorem good_lockstep {p : List Instr} {s : State} (h : Good p s) : Good p (State.lockstep s) := by
  unfold State.lockstep
  dsimp only
  split
  · assumption
  · split
    · exact good_withPower ‹_›
    · exact good_setObj (good_mk (good_withPower ‹_›))

theorem good_clockFault {p : List Instr} {s : State} (h : Good p s) : Good p (State.clockFault s) := by
  unfold State.clockFault
  dsimp only
  apply good_withPower
  apply good_railsOff
  split
  · exact good_withPower ‹_›
  · exact good_setObj (good_mk (good_withPower ‹_›))

theorem good_refclkLoss {p : List Instr} {s : State} (h : Good p s) : Good p (State.refclkLoss s) := by
  unfold State.refclkLoss
  dsimp only
  split
  · assumption
  · exact good_withPower (good_clockFault ‹_›)

theorem good_pllLoss {p : List Instr} {s : State} (h : Good p s) : Good p (State.pllLoss s) := by
  unfold State.pllLoss
  dsimp only
  split
  · assumption
  · exact good_withPower (good_clockFault ‹_›)

theorem good_srefclkLoss {p : List Instr} {s : State} (h : Good p s) : Good p (State.srefclkLoss s) := by
  unfold State.srefclkLoss
  dsimp only
  split
  · assumption
  · exact good_portsDown (good_withPower ‹_›)

theorem good_trainPorts {p : List Instr} {s : State} (h : Good p s) : Good p (State.trainPorts s) := by
  unfold State.trainPorts
  apply good_foldl
  · assumption
  · intros
    split
    · assumption
    · exact good_setLink (good_setPort ‹_›)

theorem good_srefclkRestore {p : List Instr} {s : State} (h : Good p s) : Good p (State.srefclkRestore s) := by
  unfold State.srefclkRestore
  dsimp only
  split
  · assumption
  · split
    · exact good_trainPorts (good_withPower ‹_›)
    · exact good_withPower ‹_›

/-! ## Machine/Firmware.lean -/

theorem good_setSlot {p : List Instr} {s : State} (h : Good p s) {i f} : Good p (State.setSlot s i f) := by
  unfold State.setSlot
  dsimp only
  exact good_setObj (good_mk ‹_›)

theorem good_setSession {p : List Instr} {s : State} (h : Good p s) {a1} : Good p (State.setSession s a1) := by
  unfold State.setSession
  dsimp only
  exact good_mk ‹_›

theorem good_setStage {p : List Instr} {s : State} (h : Good p s) {v} : Good p (State.setStage s v) := by
  unfold State.setStage
  dsimp only
  exact good_setObj (good_setObj (good_setObj ‹_›))

theorem good_stageBegin {p : List Instr} {s : State} (h : Good p s) {m} : Good p (State.stageBegin s m) := by
  unfold State.stageBegin
  exact good_setStage (good_setSlot (good_setSession ‹_›))

theorem good_stageChunk {p : List Instr} {s : State} (h : Good p s) {chunk} : Good p (State.stageChunk s chunk) := by
  unfold State.stageChunk
  dsimp only
  split
  · exact good_setStage ‹_›
  · split
    · exact good_setStage ‹_›
    · exact good_mk ‹_›

theorem good_stageActivate {p : List Instr} {s : State} (h : Good p s) : Good p (State.stageActivate s) := by
  unfold State.stageActivate
  split
  · exact good_setSession (good_setStage ‹_›)
  · exact good_setStage ‹_›

theorem good_stageAbandon {p : List Instr} {s : State} (h : Good p s) : Good p (State.stageAbandon s) := by
  unfold State.stageAbandon
  exact good_setSession (good_setStage ‹_›)

theorem good_stageTimeout {p : List Instr} {s : State} (h : Good p s) : Good p (State.stageTimeout s) := by
  unfold State.stageTimeout
  split
  · exact good_stageAbandon ‹_›
  · assumption

theorem good_stageVerify {p : List Instr} {s : State} {apply : State → List Byte → State} (h : Good p s) (h_apply : ∀ y0 y1, Good p y0 → Good p (apply y0 y1)) : Good p (State.stageVerify s apply) := by
  unfold State.stageVerify
  dsimp only
  split
  · exact good_setStage ‹_›
  · split
    · split
      · apply good_event
        apply good_setSession
        apply good_setStage
        apply h_apply
        assumption
      · exact good_setStage ‹_›
    · split
      · exact good_setStage ‹_›
      · exact good_setStage (good_setSlot ‹_›)

theorem good_logFlush {p : List Instr} {s : State} (h : Good p s) : Good p (State.logFlush s) := by
  unfold State.logFlush
  dsimp only
  split
  · exact good_setObj (good_mk ‹_›)
  · exact good_event (good_setObj (good_mk ‹_›))

theorem good_trySlot {p : List Instr} {s : State} (h : Good p s) {fails i} : Good p ((State.trySlot s fails i).1) := by
  unfold State.trySlot
  split
  · dsimp only
    exact good_event ‹_›
  · split
    · dsimp only
      exact good_event ‹_›
    · assumption

theorem good_pickSlot {p : List Instr} {s : State} (h : Good p s) {active pending fails} : Good p ((State.pickSlot s active pending fails).1) := by
  unfold State.pickSlot
  dsimp only
  split
  · split
    · dsimp only
      exact good_trySlot ‹_›
    · dsimp only
      exact good_trySlot (good_trySlot ‹_›)
  · split
    · dsimp only
      exact good_trySlot ‹_›
    · dsimp only
      exact good_trySlot (good_trySlot ‹_›)

theorem good_ostlerDefaults {p : List Instr} {s : State} (h : Good p s) : Good p (State.ostlerDefaults s) := by
  unfold State.ostlerDefaults
  dsimp only
  exact good_mk (good_keepObjs ‹_›)

theorem good_bootObjects {p : List Instr} {s : State} (h : Good p s) {slot} : Good p (State.bootObjects s slot) := by
  unfold State.bootObjects
  dsimp only
  apply good_timeRole
  apply good_setObj
  apply good_foldl
  · exact good_setObj (good_setObj (good_setObj (good_setObj (good_setObj ‹_›))))
  · intros
    exact good_setObj ‹_›

theorem good_railsOn {p : List Instr} {s : State} (h : Good p s) : Good p (State.railsOn s) := by
  unfold State.railsOn
  split
  · exact good_withPower ‹_›
  · split
    · exact good_withPower ‹_›
    · assumption

theorem good_railsAwaited {p : List Instr} {s : State} (h : Good p s) : Good p (State.railsAwaited s) := by
  unfold State.railsAwaited
  split
  · exact good_railsOn ‹_›
  · assumption

theorem good_bootClean {p : List Instr} {s : State} (h : Good p s) {mv left} : Good p (State.bootClean s mv left) := by
  unfold State.bootClean
  dsimp only
  exact good_withPower (good_setObj (good_setObj (good_setObj (good_mk (good_ostlerDefaults ‹_›)))))

theorem good_bootLatched {p : List Instr} {s : State} (h : Good p s) {latched} : Good p (State.bootLatched s latched) := by
  unfold State.bootLatched
  dsimp only
  apply good_foldl
  · assumption
  · intros
    exact good_logEvent (good_mk ‹_›)

theorem good_bootFrom {p : List Instr} {s : State} (h : Good p s) {slot activated} : Good p (State.bootFrom s slot activated) := by
  unfold State.bootFrom
  dsimp only
  split
  · split
    · exact good_railsOn (good_event (good_setObj (good_withPower (good_startGait (good_newEpoch (good_bootObjects ‹_›))))))
    · exact good_event (good_setObj (good_withPower (good_startGait (good_newEpoch (good_bootObjects ‹_›)))))
  · split
    · exact good_railsOn (good_setObj (good_withPower (good_startGait (good_newEpoch (good_bootObjects ‹_›)))))
    · exact good_setObj (good_withPower (good_startGait (good_newEpoch (good_bootObjects ‹_›))))

theorem good_ostlerBoot {p : List Instr} {s : State} (h : Good p s) {fails mv} : Good p (State.ostlerBoot s fails mv) := by
  unfold State.ostlerBoot
  dsimp only
  split
  · assumption
  · split
    · exact good_withPower (good_setObj (good_pickSlot (good_bootLatched (good_bootClean ‹_›))))
    · exact good_bootFrom (good_pickSlot (good_bootLatched (good_bootClean ‹_›)))

end Sys2Proof.Machine
end

