-- ==== Sys2Proof/Laws/GoodObjects.lean ====
section
/-! SUPPORT. The functions of registers, observation, hang analysis, objects, the Tack engine and what the pins do keep the canonical form of memory and the queue of waiting commands (`Good`). -/

namespace Sys2Proof.Machine

/-! ## Machine/Queues.lean -/

theorem good_doorbellRange {p : List Instr} {s : State} (h : Good p s) {q v} : Good p (State.doorbellRange s q v) := by
  unfold State.doorbellRange
  dsimp only
  split
  · exact good_tenantEvent (good_event ‹_›)
  · exact good_event ‹_›

theorem good_sqTailWrite {p : List Instr} {s : State} (h : Good p s) {f q v} : Good p (State.sqTailWrite s f q v) := by
  unfold State.sqTailWrite
  dsimp only
  split
  · assumption
  · split
    · exact good_setQueue ‹_›
    · split
      · exact good_doorbellRange (good_setQueue ‹_›)
      · exact good_setQueue (good_setQueue ‹_›)

theorem good_cqHeadWrite {p : List Instr} {s : State} (h : Good p s) {f q v} : Good p (State.cqHeadWrite s f q v) := by
  unfold State.cqHeadWrite
  dsimp only
  split
  · assumption
  · split
    · exact good_setQueue ‹_›
    · split
      · exact good_doorbellRange (good_setQueue ‹_›)
      · exact good_setQueue (good_setQueue ‹_›)

theorem good_tenantEventsClear {p : List Instr} {s : State} (h : Good p s) {f a2 v} : Good p (State.tenantEventsClear s f a2 v) := by
  unfold State.tenantEventsClear
  dsimp only
  split
  · assumption
  · exact good_mk ‹_›

theorem good_evqCtrlWrite {p : List Instr} {s : State} (h : Good p s) {v} : Good p (State.evqCtrlWrite s v) := by
  unfold State.evqCtrlWrite
  dsimp only
  split
  · assumption
  · split
    · split
      · assumption
      · exact good_mk ‹_›
    · split
      · split
        · assumption
        · exact good_mk ‹_›
      · exact good_mk ‹_›

theorem good_evqHeadWrite {p : List Instr} {s : State} (h : Good p s) {v} : Good p (State.evqHeadWrite s v) := by
  unfold State.evqHeadWrite
  dsimp only
  split
  · assumption
  · split
    · exact good_mk ‹_›
    · exact good_mk ‹_›

theorem good_evqBaseLoWrite {p : List Instr} {s : State} (h : Good p s) {v} : Good p (State.evqBaseLoWrite s v) := by
  unfold State.evqBaseLoWrite
  dsimp only
  split
  · exact good_mk ‹_›
  · assumption

theorem good_evqBaseHiWrite {p : List Instr} {s : State} (h : Good p s) {v} : Good p (State.evqBaseHiWrite s v) := by
  unfold State.evqBaseHiWrite
  dsimp only
  split
  · exact good_mk ‹_›
  · assumption

theorem good_overflowRecord {p : List Instr} {s : State} (h : Good p s) : Good p (State.overflowRecord s) := by
  unfold State.overflowRecord
  dsimp only
  split
  · exact good_event (good_mk ‹_›)
  · assumption

theorem good_irqDelayExpire {p : List Instr} {s : State} (h : Good p s) {q} : Good p (State.irqDelayExpire s q) := by
  unfold State.irqDelayExpire
  dsimp only
  split
  · exact good_sendQueueVector (good_setQueue ‹_›)
  · assumption

theorem good_queueCfgWrite {p : List Instr} {s : State} (h : Good p s) {q c} : Good p (State.queueCfgWrite s q c) := by
  unfold State.queueCfgWrite
  dsimp only
  split
  · exact good_setQueue (good_setObj ‹_›)
  · split
    · exact good_dropWaits (good_setQueue (good_setObj ‹_›))
    · exact good_setObj ‹_›

theorem good_queueDrained {p : List Instr} {s : State} (h : Good p s) {q} : Good p (State.queueDrained s q) := by
  unfold State.queueDrained
  dsimp only
  split
  · split
    · exact good_tenantEvent (good_event (good_setQueue ‹_›))
    · exact good_event (good_setQueue ‹_›)
  · assumption

theorem good_setTenantMbx {p : List Instr} {s : State} (h : Good p s) {a1 m} : Good p (State.setTenantMbx s a1 m) := by
  unfold State.setTenantMbx
  dsimp only
  exact good_mk ‹_›

theorem good_setAdminMbx {p : List Instr} {s : State} (h : Good p s) {m} : Good p (State.setAdminMbx s m) := by
  unfold State.setAdminMbx
  dsimp only
  exact good_mk ‹_›

theorem good_bar4Write {p : List Instr} {s : State} (h : Good p s) {f off size v} : Good p (State.bar4Write s f off size v) := by
  unfold State.bar4Write
  dsimp only
  split
  · exact good_mk ‹_›
  · assumption

/-! ## Machine/Observe.lean -/

theorem good_attribQuota {p : List Instr} {s : State} (h : Good p s) {a1 v} : Good p (State.attribQuota s a1 v) := by
  unfold State.attribQuota
  exact good_setAttrib (good_setObj (good_setObj ‹_›))

theorem good_traceEnable {p : List Instr} {s : State} (h : Good p s) {v} : Good p (State.traceEnable s v) := by
  unfold State.traceEnable
  dsimp only
  split
  · exact good_mk (good_setObj ‹_›)
  · exact good_setObj ‹_›

theorem good_traceFrameSend {p : List Instr} {s : State} (h : Good p s) {due} : Good p (State.traceFrameSend s due) := by
  unfold State.traceFrameSend
  dsimp only
  split
  · assumption
  · split
    · exact good_event (good_mk (good_reportDrops (good_mk ‹_›)))
    · exact good_reportDrops (good_mk ‹_›)

theorem good_utilisation {p : List Instr} {s : State} (h : Good p s) {quarters ports whole} : Good p (State.utilisation s quarters ports whole) := by
  unfold State.utilisation
  dsimp only
  apply good_foldl
  · apply good_foldl
    · assumption
    · intros
      exact good_setObj ‹_›
  · intros
    exact good_setObj ‹_›

theorem good_syncSpur {p : List Instr} {s : State} (h : Good p s) : Good p (State.syncSpur s) := by
  unfold State.syncSpur
  exact good_setObj ‹_›

theorem good_spurEnable {p : List Instr} {s : State} (h : Good p s) {v} : Good p (State.spurEnable s v) := by
  unfold State.spurEnable
  dsimp only
  split
  · exact good_syncSpur (good_setObj ‹_›)
  · split
    · exact good_event (good_syncSpur (good_setObj ‹_›))
    · exact good_event (good_syncSpur (good_setObj ‹_›))

theorem good_spurLock {p : List Instr} {s : State} (h : Good p s) {v} : Good p (State.spurLock s v) := by
  unfold State.spurLock
  dsimp only
  split
  · exact good_syncSpur (good_setObj ‹_›)
  · split
    · apply good_syncSpur
      apply good_setObj
      split
      · exact good_event (good_setObj ‹_›)
      · assumption
    · apply good_event
      apply good_syncSpur
      apply good_setObj
      split
      · exact good_event (good_setObj ‹_›)
      · assumption

/-! ## Machine/Hang.lean -/

theorem good_hangReport {p : List Instr} {s : State} (h : Good p s) {kind path0} : Good p (State.hangReport s kind path0) := by
  unfold State.hangReport
  dsimp only
  exact good_event (good_mk (good_setObj (good_free (good_count ‹_›))))

theorem good_dropScan {p : List Instr} {s : State} (h : Good p s) {id} : Good p (State.dropScan s id) := by
  unfold State.dropScan
  dsimp only
  exact good_mk ‹_›

theorem good_setScan {p : List Instr} {s : State} (h : Good p s) {a1} : Good p (State.setScan s a1) := by
  unfold State.setScan
  dsimp only
  exact good_mk (good_dropScan ‹_›)

theorem good_hangGo {p : List Instr} {s : State} (h : Good p s) {a1} : Good p (State.hangGo s a1) := by
  unfold State.hangGo
  dsimp only
  split
  · exact good_dropScan ‹_›
  · split
    · exact good_dropScan ‹_›
    · exact good_hangReport (good_dropScan ‹_›)
  · apply good_foldl
    · exact good_setScan ‹_›
    · intros
      exact good_originate ‹_›

theorem good_hangDetect {p : List Instr} {s : State} (h : Good p s) {f others} : Good p (State.hangDetect s f others) := by
  unfold State.hangDetect
  dsimp only
  split
  · assumption
  · split
    · assumption
    · exact good_hangGo (good_mk ‹_›)

theorem good_hangTimeout {p : List Instr} {s : State} (h : Good p s) {id} : Good p (State.hangTimeout s id) := by
  unfold State.hangTimeout
  split
  · split
    · assumption
    · exact good_hangGo ‹_›
  · assumption

theorem good_hangAnswer {p : List Instr} {s : State} (h : Good p s) {held src analysis dev post job} : Good p (State.hangAnswer s held src analysis dev post job) := by
  unfold State.hangAnswer
  dsimp only
  apply good_originate
  split
  · assumption
  · exact good_free ‹_›

theorem good_hangReply {p : List Instr} {s : State} (h : Good p s) {src analysis dev post value owner nodes} : Good p (State.hangReply s src analysis dev post value owner nodes) := by
  unfold State.hangReply
  dsimp only
  split
  · assumption
  · split
    · exact good_hangGo ‹_›
    · exact good_setScan ‹_›

theorem good_applyManagement {p : List Instr} {s : State} (h : Good p s) {stalled k} : Good p (State.applyManagement stalled s k) := by
  unfold State.applyManagement
  split
  · exact good_hangAnswer ‹_›
  · exact good_hangReply ‹_›
  · assumption

theorem good_mgmtReceive {p : List Instr} {s : State} (h : Good p s) {stalled k} : Good p (State.mgmtReceive s stalled k) := by
  unfold State.mgmtReceive
  split
  · assumption
  · apply good_e2eReceive
    · assumption
    · intros
      exact good_applyManagement ‹_›

/-! ## Machine/Objects.lean -/

theorem good_numbersChanged {p : List Instr} {s : State} (h : Good p s) : Good p (State.numbersChanged s) := by
  unfold State.numbersChanged
  dsimp only
  apply good_foldl
  · exact good_recheckPeers ‹_›
  · intros
    exact good_sendDiscovery ‹_›

theorem good_loseAddress {p : List Instr} {s : State} (h : Good p s) {cause} : Good p (State.loseAddress s cause) := by
  unfold State.loseAddress
  dsimp only
  split
  · exact good_withPower ‹_›
  · exact good_event (good_numbersChanged (good_dropTx (good_setObj (good_setObj (good_setObj (good_withPower ‹_›))))))

theorem good_boroughWrite {p : List Instr} {s : State} (h : Good p s) {v} : Good p (State.boroughWrite s v) := by
  unfold State.boroughWrite
  exact good_numbersChanged (good_setObj (good_setObj ‹_›))

theorem good_linkEnableWrite {p : List Instr} {s : State} (h : Good p s) {a1 v} : Good p (State.linkEnableWrite s a1 v) := by
  unfold State.linkEnableWrite
  dsimp only
  split
  · split
    · exact good_setLink (good_setObj ‹_›)
    · exact good_setObj ‹_›
  · exact good_linkEnabled (good_setObj ‹_›)

theorem good_lineageModeWrite {p : List Instr} {s : State} (h : Good p s) {i v} : Good p (State.lineageModeWrite s i v) := by
  unfold State.lineageModeWrite
  dsimp only
  split
  · exact good_setLink (good_setPort (good_setObj ‹_›))
  · exact good_lineageMode (good_setObj ‹_›)

theorem good_stableFlagsClear {p : List Instr} {s : State} (h : Good p s) {v} : Good p (State.stableFlagsClear s v) := by
  unfold State.stableFlagsClear
  split
  · apply good_foldl
    · assumption
    · intros
      exact good_setObj ‹_›
  · exact good_setObj ‹_›

theorem good_mainRails {p : List Instr} {s : State} (h : Good p s) {v} : Good p (State.mainRails s v) := by
  unfold State.mainRails
  dsimp only
  split
  · split
    · exact good_railsOn (good_setObj ‹_›)
    · exact good_setObj ‹_›
  · exact good_railsOff (good_withPower (good_setObj ‹_›))

theorem good_postRangeWrite {p : List Instr} {s : State} (h : Good p s) {a1 v} : Good p (State.postRangeWrite s a1 v) := by
  unfold State.postRangeWrite
  exact good_clearPosts (good_setObj ‹_›)

theorem good_applyTenant {p : List Instr} {s : State} (h : Good p s) {a1 sub key v seq} : Good p (State.applyTenant s a1 sub key v seq) := by
  unfold State.applyTenant
  split
  · exact good_queueCfgWrite ‹_›
  · split
    · exact good_tenantEnable ‹_›
    · exact good_tenantReset ‹_›
    · exact good_tenantHold ‹_›
    · exact good_setObj ‹_›
    · split
      · exact good_paddockFree ‹_›
      · exact good_paddockAllocate ‹_›
    · exact good_tlbInvalidate ‹_›
    · exact good_syncStalls (good_setObj ‹_›)
    · exact good_syncRemuda (good_setObj ‹_›)
    · exact good_answerObj ‹_›
    · exact good_syncBufs (good_setObj ‹_›)
    · exact good_postRangeWrite ‹_›
    · exact good_answerObj ‹_›
    · exact good_attribQuota ‹_›
    · exact good_answerObj ‹_›
    · exact good_setObj ‹_›

theorem good_stageCommand {p : List Instr} {s : State} {apply : State → List Byte → State} (h : Good p s) (h_apply : ∀ y0 y1, Good p y0 → Good p (apply y0 y1)) {master v} : Good p (State.stageCommand s master v apply) := by
  unfold State.stageCommand
  split
  · exact good_stageBegin ‹_›
  · apply good_stageVerify
    · assumption
    · assumption
  · exact good_stageActivate ‹_›
  · exact good_stageAbandon ‹_›

theorem good_applyEffect {p : List Instr} {s : State} {apply : State → List Byte → State} (h : Good p s) (h_apply : ∀ y0 y1, Good p y0 → Good p (apply y0 y1)) {master key v seq} : Good p (State.applyEffect s master key v seq apply) := by
  unfold State.applyEffect
  dsimp only
  split
  · exact good_applyTenant ‹_›
  · split
    · exact good_loseAddress ‹_›
    · exact good_queueCfgWrite ‹_›
    · exact good_gaitCeiling ‹_›
    · exact good_mainRails ‹_›
    · exact good_frameRequest ‹_›
    · split
      · exact good_timeRole ‹_›
      · exact good_setObj ‹_›
    · exact good_boroughWrite ‹_›
    · exact good_linkEnableWrite ‹_›
    · exact good_lineageModeWrite ‹_›
    · exact good_answerObj ‹_›
    · exact good_stableFlagsClear ‹_›
    · exact good_retireRequest ‹_›
    · split
      · exact good_repairRequest ‹_›
      · assumption
    · exact good_traceEnable ‹_›
    · exact good_spurLock ‹_›
    · exact good_spurEnable ‹_›
    · exact good_stageChunk ‹_›
    · apply good_stageCommand
      · assumption
      · assumption
    · exact good_answerObj ‹_›
    · exact good_setObj ‹_›

theorem good_applyWriteTo {p : List Instr} {s : State} {apply : State → List Byte → State} (h : Good p s) (h_apply : ∀ y0 y1, Good p y0 → Good p (apply y0 y1)) {master key v} : Good p (State.applyWriteTo s master key v apply) := by
  unfold State.applyWriteTo
  dsimp only
  apply good_staticCheck
  apply good_applyEffect
  · exact good_mk ‹_›
  · assumption

theorem good_txState {p : List Instr} {s : State} (h : Good p s) {m} : Good p ((State.txState s m).2) := by
  unfold State.txState
  dsimp only
  split
  · dsimp only
    exact good_free ‹_›
  · assumption

theorem good_readObj {p : List Instr} {s : State} (h : Good p s) {key} : Good p ((State.readObj s key).2) := by
  unfold State.readObj
  dsimp only
  split
  · exact good_txState ‹_›
  · split
    · assumption
    · split
      · assumption
      · assumption

/-! ## Machine/Tack.lean -/

theorem good_applyService {p : List Instr} {s : State} (h : Good p s) {i} : Good p (State.applyService s i) := by
  unfold State.applyService
  split
  · split
    · apply good_applyWriteTo
      · assumption
      · intros
        assumption
    · assumption
  · assumption

theorem good_applyRecord {p : List Instr} {s : State} (h : Good p s) {b} : Good p (State.applyRecord s b) := by
  unfold State.applyRecord
  apply good_foldl
  · assumption
  · intros
    exact good_applyService ‹_›

theorem good_writeItem {p : List Instr} {s : State} (h : Good p s) {route i} : Good p ((State.writeItem s route i).1) := by
  unfold State.writeItem
  dsimp only
  split
  · assumption
  · split
    · assumption
    · dsimp only
      apply good_applyWriteTo
      · assumption
      · intros
        exact good_applyRecord ‹_›

theorem good_writeItems {p : List Instr} {s : State} (h : Good p s) {a1 a2} : Good p ((State.writeItems s a1 a2).1) := by
  induction a2 generalizing s with
  | nil =>
    unfold State.writeItems
    dsimp only
    assumption
  | cons i rest ih =>
    unfold State.writeItems
    split
    · assumption
    · exact ih (good_writeItem ‹_›)

theorem good_readItems {p : List Instr} {s : State} (h : Good p s) {a1 a2} : Good p ((State.readItems s a1 a2).1) := by
  induction a2 generalizing s with
  | nil =>
    unfold State.readItems
    dsimp only
    assumption
  | cons i rest ih =>
    unfold State.readItems
    dsimp only
    apply ih
    split
    · dsimp only
      exact good_readObj ‹_›
    · assumption

theorem good_setTx {p : List Instr} {s : State} (h : Good p s) {m a2} : Good p (State.setTx s m a2) := by
  unfold State.setTx
  dsimp only
  exact good_mk ‹_›

theorem good_stageItems {p : List Instr} {s : State} (h : Good p s) {route : Nat} {x : Tx} {items : List TackItem} {t : State × List Byte}
    (ht : s.stageItems route x items = some t) : Good p t.1 := by
  unfold State.stageItems at ht
  dsimp only at ht
  split at ht
  · cases ht
  · cases ht
    exact good_setTx h

theorem good_merged {p : List Instr} {s : State} (h : Good p s) {staged} : Good p (State.merged s staged) := by
  unfold State.merged
  apply good_foldl
  · assumption
  · intros
    exact good_setObj ‹_›

theorem good_applyStaged {p : List Instr} {s : State} (h : Good p s) {master staged} : Good p (State.applyStaged s master staged) := by
  unfold State.applyStaged
  apply good_foldl
  · assumption
  · intros
    apply good_applyWriteTo
    · assumption
    · intros
      exact good_applyRecord ‹_›

theorem good_deliver {p : List Instr} {s : State} (h : Good p s) {route mbx resp} : Good p (State.deliver s route mbx resp) := by
  unfold State.deliver
  dsimp only
  split
  · exact good_mk ‹_›
  · split
    · exact good_sendVector (good_setAdminMbx ‹_›)
    · exact good_mk ‹_›
    · exact good_tenantEvent (good_setTenantMbx ‹_›)

theorem good_endCommit {p : List Instr} {s : State} (h : Good p s) {master req staged failure} : Good p ((State.endCommit s master req staged failure).1) := by
  unfold State.endCommit
  dsimp only
  split
  · dsimp only
    exact good_dropTx ‹_›
  · dsimp only
    exact good_applyStaged (good_dropTx ‹_›)

theorem good_txExpire {p : List Instr} {s : State} (h : Good p s) {m} : Good p (State.txExpire s m) := by
  unfold State.txExpire
  split
  · split
    · assumption
    · exact good_event (good_dropTx ‹_›)
  · assumption

theorem good_holdMsg {p : List Instr} {s : State} (h : Good p s) {w} : Good p (State.holdMsg s w) := by
  unfold State.holdMsg
  exact good_mk ‹_›

theorem good_engineFrom {p : List Instr} {s : State} (h : Good p s) {route mbx b done out} : Good p (State.engineFrom s route mbx b done out).1 := by
  unfold State.engineFrom
  dsimp only
  split
  · assumption
  · split
    · split
      · assumption
      · split
        · split
          · split
            · assumption
            · split
              · split
                · dsimp only
                  exact good_stageItems ‹_› (by assumption)
                · assumption
              · dsimp only
                exact good_readItems ‹_›
          · assumption
        · split
          · dsimp only
            exact good_readItems ‹_›
          · split
            · dsimp only
              exact good_holdMsg ‹_›
            · split
              · dsimp only
                exact good_writeItems ‹_›
              · dsimp only
                exact good_holdMsg (good_writeItems ‹_›)
    · split
      · assumption
      · split
        · assumption
        · split
          · split
            · assumption
            · split
              · assumption
              · dsimp only
                exact good_mk (good_setTx ‹_›)
          · split
            · assumption
            · split
              · assumption
              · split
                · dsimp only
                  exact good_dropTx ‹_›
                · split
                  · dsimp only
                    exact good_holdMsg ‹_›
                  · split
                    · dsimp only
                      exact good_endCommit ‹_›
                    · split
                      · dsimp only
                        exact good_endCommit ‹_›
                      · dsimp only
                        exact good_setTx ‹_›

theorem good_engine {p : List Instr} {s : State} (h : Good p s) {route mbx b} : Good p (State.engine s route mbx b).1 := by
  unfold State.engine
  exact good_engineFrom ‹_›

theorem good_answered {p : List Instr} {r : State × Option (List Byte)} (h : Good p r.1) {route mbx} : Good p (State.answered route mbx r) := by
  unfold State.answered
  split
  · exact good_deliver h
  · exact h

theorem good_request {p : List Instr} {s : State} (h : Good p s) {route mbx b} : Good p (State.request s route mbx b) :=
  good_answered (good_engine h)

theorem good_wakeMsgs {p : List Instr} {s : State} (h : Good p s) : Good p (State.wakeMsgs s) := by
  unfold State.wakeMsgs
  dsimp only
  apply good_foldl
  · assumption
  · intros
    exact good_answered (good_engineFrom (good_mk ‹_›))

theorem good_commitApply {p : List Instr} {s : State} (h : Good p s) {m} : Good p (State.commitApply s m) := by
  unfold State.commitApply
  dsimp only
  split
  · split
    · exact good_deliver (good_endCommit ‹_›)
    · assumption
  · assumption

theorem good_commitTimeout {p : List Instr} {s : State} (h : Good p s) {m} : Good p (State.commitTimeout s m) := by
  unfold State.commitTimeout
  dsimp only
  split
  · split
    · exact good_deliver (good_endCommit ‹_›)
    · assumption
  · assumption

theorem good_ringWith {p : List Instr} {s : State} {serve : State → Nat → List Byte → State} (h : Good p s) (h_serve : ∀ y0 y1 y2, Good p y0 → Good p (serve y0 y1 y2)) {route len} : Good p (State.ringWith s serve route len) := by
  unfold State.ringWith
  dsimp only
  split
  · split
    · exact good_setAdminMbx ‹_›
    · exact good_setTenantMbx ‹_›
  · apply h_serve
    split
    · exact good_setAdminMbx ‹_›
    · exact good_setTenantMbx ‹_›

theorem good_serveMsg {p : List Instr} {s : State} (h : Good p s) {route b} : Good p (State.serveMsg s route b) := by
  unfold State.serveMsg
  exact good_request ‹_›

theorem good_ring {p : List Instr} {s : State} (h : Good p s) {route len} : Good p (State.ring s route len) := by
  unfold State.ring
  apply good_ringWith
  · assumption
  · intros
    exact good_serveMsg ‹_›

theorem good_adminDoorbell {p : List Instr} {s : State} (h : Good p s) {v} : Good p (State.adminDoorbell s v) := by
  unfold State.adminDoorbell
  split
  · exact good_ring ‹_›
  · assumption

theorem good_tenantDoorbell {p : List Instr} {s : State} (h : Good p s) {f a2 v} : Good p (State.tenantDoorbell s f a2 v) := by
  unfold State.tenantDoorbell
  split
  · exact good_ring ‹_›
  · assumption

theorem good_datagramWith {p : List Instr} {s : State} {serve : State → Nat → List Byte → State} (h : Good p s) (h_serve : ∀ y0 y1 y2, Good p y0 → Good p (serve y0 y1 y2)) {src b} : Good p (State.datagramWith s serve src b) := by
  unfold State.datagramWith
  dsimp only
  split
  · assumption
  · split
    · exact good_count ‹_›
    · split
      · split
        · exact good_mk (good_count ‹_›)
        · exact good_count ‹_›
      · apply h_serve
        assumption

theorem good_sendMessage {p : List Instr} {s : State} {serve : State → Nat → List Byte → State} (h : Good p s) (h_serve : ∀ y0 y1 y2, Good p y0 → Good p (serve y0 y1 y2)) {via b} : Good p (State.sendMessage s serve via b) := by
  unfold State.sendMessage
  dsimp only
  split
  · split
    · apply good_ringWith
      · exact good_setAdminMbx ‹_›
      · assumption
    · assumption
  · split
    · apply good_ringWith
      · exact good_setTenantMbx ‹_›
      · assumption
    · assumption
  · apply good_datagramWith
    · assumption
    · assumption

theorem good_tackRow {p : List Instr} {s : State} (h : Good p s) {op via b} : Good p (State.tackRow s op via b) := by
  unfold State.tackRow
  split
  · apply good_sendMessage
    · assumption
    · intros
      exact good_serveMsg ‹_›
  · assumption

theorem good_serveLate {p : List Instr} {s : State} (h : Good p s) {route b} : Good p (State.serveLate s route b) := by
  unfold State.serveLate
  dsimp only
  split
  · split
    · exact good_deliver (good_txExpire ‹_›)
    · exact good_serveMsg ‹_›
  · exact good_serveMsg ‹_›

theorem good_commitRow {p : List Instr} {s : State} (h : Good p s) {late via b} : Good p (State.commitRow s late via b) := by
  unfold State.commitRow
  split
  · apply good_sendMessage
    · assumption
    · intros
      exact good_serveLate ‹_›
  · exact good_tackRow ‹_›

theorem good_rowWrite {p : List Instr} {s : State} (h : Good p s) {route key v} : Good p (State.rowWrite s route key v) := by
  unfold State.rowWrite
  split
  · exact good_request ‹_›
  · assumption

theorem good_viaWrite {p : List Instr} {s : State} (h : Good p s) {via key v} : Good p (State.viaWrite s via key v) := by
  unfold State.viaWrite
  split
  · exact good_rowWrite ‹_›
  · exact good_rowWrite ‹_›
  · split
    · exact good_rowWrite ‹_›
    · split
      · exact good_count ‹_›
      · assumption

/-! ## Machine/Boot.lean -/

theorem good_enumOffer {p : List Instr} {s : State} (h : Good p s) {req} : Good p (State.enumOffer s req) := by
  unfold State.enumOffer
  dsimp only
  split
  · assumption
  · split
    · split
      · assumption
      · exact good_mk (good_withPower ‹_›)
    · assumption

theorem good_busBorough {p : List Instr} {s : State} (h : Good p s) {v} : Good p (State.busBorough s v) := by
  unfold State.busBorough
  apply good_applyWriteTo
  · assumption
  · intros
    exact good_applyRecord ‹_›

theorem good_enumConfirm {p : List Instr} {s : State} (h : Good p s) {src req} : Good p (State.enumConfirm s src req) := by
  unfold State.enumConfirm
  dsimp only
  split
  · split
    · assumption
    · exact good_withPower (good_event (good_busBorough (good_setObj (good_setObj (good_setObj ‹_›)))))
  · assumption

theorem good_enumTimeout {p : List Instr} {s : State} (h : Good p s) : Good p (State.enumTimeout s) := by
  unfold State.enumTimeout
  dsimp only
  exact good_withPower ‹_›

theorem good_leadInHigh {p : List Instr} {s : State} (h : Good p s) : Good p (State.leadInHigh s) := by
  unfold State.leadInHigh
  dsimp only
  split
  · exact good_withPower ‹_›
  · assumption

theorem good_setBeacon {p : List Instr} {s : State} (h : Good p s) {on} : Good p (State.setBeacon s on) := by
  unfold State.setBeacon
  dsimp only
  exact good_withPower ‹_›

theorem good_railsGood {p : List Instr} {s : State} (h : Good p s) : Good p (State.railsGood s) := by
  unfold State.railsGood
  dsimp only
  split
  · assumption
  · exact good_raiseRails (good_startGait (good_withPower ‹_›))

theorem good_pllLock {p : List Instr} {s : State} (h : Good p s) : Good p (State.pllLock s) := by
  unfold State.pllLock
  dsimp only
  split
  · assumption
  · exact good_mk (good_startScrubs (good_newEpoch (good_setObj ‹_›)))

theorem good_pcieDetect {p : List Instr} {s : State} (h : Good p s) : Good p (State.pcieDetect s) := by
  unfold State.pcieDetect
  dsimp only
  split
  · exact good_withPower ‹_›
  · assumption

theorem good_hbmTrained {p : List Instr} {s : State} (h : Good p s) : Good p (State.hbmTrained s) := by
  unfold State.hbmTrained
  dsimp only
  split
  · assumption
  · apply good_pcieDetect
    split
    · exact good_trainPorts (good_withPower ‹_›)
    · exact good_withPower ‹_›

theorem good_syncReady {p : List Instr} {s : State} (h : Good p s) : Good p (State.syncReady s) := by
  unfold State.syncReady
  dsimp only
  exact good_mk ‹_›

theorem good_pcieLinkUp {p : List Instr} {s : State} (h : Good p s) : Good p (State.pcieLinkUp s) := by
  unfold State.pcieLinkUp
  dsimp only
  split
  · exact good_syncReady (good_withPower ‹_›)
  · assumption

theorem good_scrubFrames {p : List Instr} {s : State} (h : Good p s) : Good p (State.scrubFrames s) := by
  unfold State.scrubFrames
  dsimp only
  apply good_withMem
  · assumption
  · apply MemGroup.wf_foldl
    · refine Good.mem (p := p) ?_
      assumption
    · intros
      apply MemGroup.wf_zero
      assumption

theorem good_clearFatals {p : List Instr} {s : State} (h : Good p s) : Good p (State.clearFatals s) := by
  unfold State.clearFatals
  dsimp only
  split
  · assumption
  · split
    · exact good_startScrubs (good_newEpoch (good_mk (good_setObj (good_withPower ‹_›))))
    · exact good_mk (good_setObj (good_withPower ‹_›))

theorem good_perstAssert {p : List Instr} {s : State} (h : Good p s) : Good p (State.perstAssert s) := by
  unfold State.perstAssert
  dsimp only
  split
  · exact good_withPower ‹_›
  · apply good_clearFatals
    apply good_withPower
    apply good_hostReset
    split
    · apply good_scrubFrames
      split
      · exact good_withPower ‹_›
      · apply good_foldl
        · exact good_withPower ‹_›
        · intros
          exact good_abortColl ‹_›
    · split
      · exact good_withPower ‹_›
      · apply good_foldl
        · exact good_withPower ‹_›
        · intros
          exact good_abortColl ‹_›

theorem good_perstScrubbed {p : List Instr} {s : State} (h : Good p s) : Good p (State.perstScrubbed s) := by
  unfold State.perstScrubbed
  dsimp only
  split
  · exact good_syncReady (good_withPower ‹_›)
  · assumption

theorem good_perstDeassert {p : List Instr} {s : State} (h : Good p s) : Good p (State.perstDeassert s) := by
  unfold State.perstDeassert
  dsimp only
  exact good_pcieDetect (good_withPower ‹_›)

theorem good_ostlerStop {p : List Instr} {s : State} (h : Good p s) : Good p (State.ostlerStop s) := by
  unfold State.ostlerStop
  dsimp only
  exact good_mk (good_setObj (good_setObj (good_setObj (good_logFlush (good_railsOff ‹_›)))))

theorem good_mrstAssert {p : List Instr} {s : State} (h : Good p s) : Good p (State.mrstAssert s) := by
  unfold State.mrstAssert
  dsimp only
  split
  · assumption
  · apply good_withPower
    apply good_ostlerStop
    split
    · exact good_loseAddress ‹_›
    · assumption

theorem good_mrstDeassert {p : List Instr} {s : State} (h : Good p s) {fails mv} : Good p (State.mrstDeassert s fails mv) := by
  unfold State.mrstDeassert
  dsimp only
  split
  · exact good_ostlerBoot (good_withPower ‹_›)
  · assumption

theorem good_refclkRestore {p : List Instr} {s : State} (h : Good p s) {fails mv} : Good p (State.refclkRestore s fails mv) := by
  unfold State.refclkRestore
  dsimp only
  split
  · assumption
  · exact good_ostlerBoot (good_withPower (good_ostlerStop ‹_›))

theorem good_standbyLoss {p : List Instr} {s : State} (h : Good p s) : Good p (State.standbyLoss s) := by
  unfold State.standbyLoss
  dsimp only
  split
  · assumption
  · exact good_withPower (good_ostlerStop ‹_›)

end Sys2Proof.Machine
end

