-- ==== Sys2Proof/Laws/GoodRows.lean ====
section
/-! SUPPORT. The functions of the rows keep the canonical form of memory and the queue of waiting commands (`Good`). -/

namespace Sys2Proof.Machine

/-! ## Machine/RowsCommands.lean -/

theorem good_opcodeRow {p : List Instr} {s : State} {launch : State → Env → Nat → State} (h : Good p s) (h_launch : ∀ y0 y1 y2, Good p y0 → Good p (launch y0 y1 y2)) {f op plan} : Good p (State.opcodeRow s f op plan launch) := by
  unfold State.opcodeRow
  apply good_staticCheck
  apply good_beginRow
  · assumption
  · assumption

theorem good_execMatmul {p : List Instr} {s : State} (h : Good p s) {f} {t : State} (ht : execMatmul f s = .next t) : Good p t := by
  unfold execMatmul at ht
  rw [← Host.Outcome.next.inj ht]
  apply good_opcodeRow
  · assumption
  · intros
    exact good_launchFused ‹_›

theorem good_execMatmulList {p : List Instr} {s : State} (h : Good p s) {f} {t : State} (ht : execMatmulList f s = .next t) : Good p t := by
  unfold execMatmulList at ht
  rw [← Host.Outcome.next.inj ht]
  apply good_opcodeRow
  · assumption
  · intros
    exact good_noLaunch ‹_›

theorem good_execConv {p : List Instr} {s : State} (h : Good p s) {f} {t : State} (ht : execConv f s = .next t) : Good p t := by
  unfold execConv at ht
  rw [← Host.Outcome.next.inj ht]
  apply good_opcodeRow
  · assumption
  · intros
    exact good_noLaunch ‹_›

theorem good_execPool {p : List Instr} {s : State} (h : Good p s) {f} {t : State} (ht : execPool f s = .next t) : Good p t := by
  unfold execPool at ht
  rw [← Host.Outcome.next.inj ht]
  apply good_opcodeRow
  · assumption
  · intros
    exact good_noLaunch ‹_›

theorem good_execResample {p : List Instr} {s : State} (h : Good p s) {f} {t : State} (ht : execResample f s = .next t) : Good p t := by
  unfold execResample at ht
  rw [← Host.Outcome.next.inj ht]
  apply good_opcodeRow
  · assumption
  · intros
    exact good_noLaunch ‹_›

theorem good_execAttend {p : List Instr} {s : State} (h : Good p s) {f} {t : State} (ht : execAttend f s = .next t) : Good p t := by
  unfold execAttend at ht
  rw [← Host.Outcome.next.inj ht]
  apply good_opcodeRow
  · assumption
  · intros
    exact good_launchAttend ‹_›

theorem good_execNorm {p : List Instr} {s : State} (h : Good p s) {f} {t : State} (ht : execNorm f s = .next t) : Good p t := by
  unfold execNorm at ht
  rw [← Host.Outcome.next.inj ht]
  apply good_opcodeRow
  · assumption
  · intros
    exact good_noLaunch ‹_›

theorem good_execChain {p : List Instr} {s : State} (h : Good p s) {f} {t : State} (ht : execChain f s = .next t) : Good p t := by
  unfold execChain at ht
  rw [← Host.Outcome.next.inj ht]
  apply good_opcodeRow
  · assumption
  · intros
    exact good_noLaunch ‹_›

theorem good_execGather {p : List Instr} {s : State} (h : Good p s) {f} {t : State} (ht : execGather f s = .next t) : Good p t := by
  unfold execGather at ht
  rw [← Host.Outcome.next.inj ht]
  apply good_opcodeRow
  · assumption
  · intros
    exact good_noLaunch ‹_›

theorem good_execScatterOrdered {p : List Instr} {s : State} (h : Good p s) {f} {t : State} (ht : execScatterOrdered f s = .next t) : Good p t := by
  unfold execScatterOrdered at ht
  rw [← Host.Outcome.next.inj ht]
  apply good_opcodeRow
  · assumption
  · intros
    exact good_noLaunch ‹_›

theorem good_execDistance {p : List Instr} {s : State} (h : Good p s) {f} {t : State} (ht : execDistance f s = .next t) : Good p t := by
  unfold execDistance at ht
  rw [← Host.Outcome.next.inj ht]
  apply good_opcodeRow
  · assumption
  · intros
    exact good_noLaunch ‹_›

theorem good_execCopy {p : List Instr} {s : State} (h : Good p s) {f} {t : State} (ht : execCopy f s = .next t) : Good p t := by
  unfold execCopy at ht
  rw [← Host.Outcome.next.inj ht]
  apply good_opcodeRow
  · assumption
  · intros
    exact good_noLaunch ‹_›

theorem good_execFill {p : List Instr} {s : State} (h : Good p s) {f} {t : State} (ht : execFill f s = .next t) : Good p t := by
  unfold execFill at ht
  rw [← Host.Outcome.next.inj ht]
  apply good_opcodeRow
  · assumption
  · intros
    exact good_noLaunch ‹_›

theorem good_execTokenSample {p : List Instr} {s : State} (h : Good p s) {f} {t : State} (ht : execTokenSample f s = .next t) : Good p t := by
  unfold execTokenSample at ht
  rw [← Host.Outcome.next.inj ht]
  apply good_opcodeRow
  · assumption
  · intros
    exact good_noLaunch ‹_›

theorem good_execNoise {p : List Instr} {s : State} (h : Good p s) {f} {t : State} (ht : execNoise f s = .next t) : Good p t := by
  unfold execNoise at ht
  rw [← Host.Outcome.next.inj ht]
  apply good_opcodeRow
  · assumption
  · intros
    exact good_noLaunch ‹_›

theorem good_execPostWait {p : List Instr} {s : State} (h : Good p s) {f} {t : State} (ht : execPostWait f s = .next t) : Good p t := by
  unfold execPostWait at ht
  rw [← Host.Outcome.next.inj ht]
  apply good_opcodeRow
  · assumption
  · intros
    exact good_noLaunch ‹_›

theorem good_execPostSignal {p : List Instr} {s : State} (h : Good p s) {f} {t : State} (ht : execPostSignal f s = .next t) : Good p t := by
  unfold execPostSignal at ht
  rw [← Host.Outcome.next.inj ht]
  apply good_opcodeRow
  · assumption
  · intros
    exact good_noLaunch ‹_›

theorem good_execMark {p : List Instr} {s : State} (h : Good p s) {f} {t : State} (ht : execMark f s = .next t) : Good p t := by
  unfold execMark at ht
  rw [← Host.Outcome.next.inj ht]
  apply good_opcodeRow
  · assumption
  · intros
    exact good_noLaunch ‹_›

theorem good_execStep {p : List Instr} {s : State} (h : Good p s) {f} {t : State} (ht : execStep f s = .next t) : Good p t := by
  unfold execStep at ht
  rw [← Host.Outcome.next.inj ht]
  apply good_opcodeRow
  · assumption
  · intros
    exact good_launchStep ‹_›

theorem good_execStepSelect {p : List Instr} {s : State} (h : Good p s) {run} {t : State} (ht : execStepSelect run s = .next t) : Good p t := by
  unfold execStepSelect at ht
  rw [← Host.Outcome.next.inj ht]
  exact good_stepSelect ‹_›

theorem good_execStepCommit {p : List Instr} {s : State} (h : Good p s) {run} {t : State} (ht : execStepCommit run s = .next t) : Good p t := by
  unfold execStepCommit at ht
  rw [← Host.Outcome.next.inj ht]
  exact good_staticCheck (good_stepCommit ‹_›)

theorem good_execAdmitEntries {p : List Instr} {s : State} (h : Good p s) {f} {t : State} (ht : execAdmitEntries f s = .next t) : Good p t := by
  unfold execAdmitEntries at ht
  rw [← Host.Outcome.next.inj ht]
  apply good_opcodeRow
  · assumption
  · intros
    exact good_launchAdmit ‹_›

theorem good_execRetire {p : List Instr} {s : State} (h : Good p s) {f} {t : State} (ht : execRetire f s = .next t) : Good p t := by
  unfold execRetire at ht
  rw [← Host.Outcome.next.inj ht]
  apply good_opcodeRow
  · assumption
  · intros
    exact good_launchRetire ‹_›

theorem good_execHandoffBatchStart {p : List Instr} {s : State} (h : Good p s) {run} {t : State} (ht : execHandoffBatchStart run s = .next t) : Good p t := by
  unfold execHandoffBatchStart at ht
  rw [← Host.Outcome.next.inj ht]
  exact good_handoffStart ‹_›

theorem good_execHandoffBatchComplete {p : List Instr} {s : State} (h : Good p s) {run} {t : State} (ht : execHandoffBatchComplete run s = .next t) : Good p t := by
  unfold execHandoffBatchComplete at ht
  rw [← Host.Outcome.next.inj ht]
  exact good_staticCheck (good_handoffComplete ‹_›)

theorem good_execCollective {p : List Instr} {s : State} (h : Good p s) {f} {t : State} (ht : execCollective f s = .next t) : Good p t := by
  unfold execCollective at ht
  rw [← Host.Outcome.next.inj ht]
  apply good_opcodeRow
  · assumption
  · intros
    exact good_launchCollective ‹_›

theorem good_execPut {p : List Instr} {s : State} (h : Good p s) {f} {t : State} (ht : execPut f s = .next t) : Good p t := by
  unfold execPut at ht
  rw [← Host.Outcome.next.inj ht]
  apply good_opcodeRow
  · assumption
  · intros
    exact good_launchPut ‹_›

theorem good_execEncodeFrame {p : List Instr} {s : State} (h : Good p s) {f} {t : State} (ht : execEncodeFrame f s = .next t) : Good p t := by
  unfold execEncodeFrame at ht
  rw [← Host.Outcome.next.inj ht]
  apply good_staticCheck
  apply good_beginRow
  · assumption
  · intros
    exact good_launchEncode ‹_›

theorem good_execEncodeBufferRequest {p : List Instr} {s : State} (h : Good p s) {cmd} {t : State} (ht : execEncodeBufferRequest cmd s = .next t) : Good p t := by
  unfold execEncodeBufferRequest at ht
  rw [← Host.Outcome.next.inj ht]
  exact good_bufferRequest ‹_›

theorem good_execCodecFrameComplete {p : List Instr} {s : State} (h : Good p s) {cmd} {t : State} (ht : execCodecFrameComplete cmd s = .next t) : Good p t := by
  unfold execCodecFrameComplete at ht
  rw [← Host.Outcome.next.inj ht]
  exact good_frameComplete ‹_›

theorem good_execEncodeRelease {p : List Instr} {s : State} (h : Good p s) {f} {t : State} (ht : execEncodeRelease f s = .next t) : Good p t := by
  unfold execEncodeRelease at ht
  rw [← Host.Outcome.next.inj ht]
  apply good_staticCheck
  apply good_beginRow
  · assumption
  · intros
    exact good_launchRelease ‹_›

theorem good_execDecode {p : List Instr} {s : State} (h : Good p s) {f} {t : State} (ht : execDecode f s = .next t) : Good p t := by
  unfold execDecode at ht
  rw [← Host.Outcome.next.inj ht]
  apply good_opcodeRow
  · assumption
  · intros
    exact good_launchDecode ‹_›

theorem good_execCommandComplete {p : List Instr} {s : State} (h : Good p s) {cmd paddockBytes hbmBytes} {t : State} (ht : execCommandComplete cmd paddockBytes hbmBytes s = .next t) : Good p t := by
  unfold execCommandComplete at ht
  rw [← Host.Outcome.next.inj ht]
  exact good_staticCheck (good_complete ‹_›)

/-! ## Machine/RowsTiles.lean -/

theorem good_execShadowSwap {p : List Instr} {s : State} (h : Good p s) {cmd tile} {t : State} (ht : execShadowSwap cmd tile s = .next t) : Good p t := by
  unfold execShadowSwap at ht
  rw [← Host.Outcome.next.inj ht]
  exact good_shadowSwap ‹_›

theorem good_execTileCommit {p : List Instr} {s : State} (h : Good p s) {cmd tile ns} {t : State} (ht : execTileCommit cmd tile ns s = .next t) : Good p t := by
  unfold execTileCommit at ht
  rw [← Host.Outcome.next.inj ht]
  exact good_tileCommit ‹_›

theorem good_execPartialStoreGrant {p : List Instr} {s : State} (h : Good p s) {cmd tile} {t : State} (ht : execPartialStoreGrant cmd tile s = .next t) : Good p t := by
  unfold execPartialStoreGrant at ht
  rw [← Host.Outcome.next.inj ht]
  exact good_partialGrant ‹_›

theorem good_execCollectiveStagingGrant {p : List Instr} {s : State} (h : Good p s) {cmd chunk} {t : State} (ht : execCollectiveStagingGrant cmd chunk s = .next t) : Good p t := by
  unfold execCollectiveStagingGrant at ht
  rw [← Host.Outcome.next.inj ht]
  exact good_stagingGrant ‹_›

theorem good_execResidueMismatch {p : List Instr} {s : State} (h : Good p s) {cmd tile ns} {t : State} (ht : execResidueMismatch cmd tile ns s = .next t) : Good p t := by
  unfold execResidueMismatch at ht
  rw [← Host.Outcome.next.inj ht]
  exact good_staticCheck (good_residueMismatch ‹_›)

theorem good_execWalkerWatchdogExpire {p : List Instr} {s : State} (h : Good p s) {stable ns} {t : State} (ht : execWalkerWatchdogExpire stable ns s = .next t) : Good p t := by
  unfold execWalkerWatchdogExpire at ht
  rw [← Host.Outcome.next.inj ht]
  exact good_staticCheck (good_watchdog ‹_›)

theorem good_execSpareActivate {p : List Instr} {s : State} (h : Good p s) {quarter passed} {t : State} (ht : execSpareActivate quarter passed s = .next t) : Good p t := by
  unfold execSpareActivate at ht
  rw [← Host.Outcome.next.inj ht]
  exact good_staticCheck (good_spareActivate ‹_›)

theorem good_execQuarterOutOfService {p : List Instr} {s : State} (h : Good p s) {quarter} {t : State} (ht : execQuarterOutOfService quarter s = .next t) : Good p t := by
  unfold execQuarterOutOfService at ht
  rw [← Host.Outcome.next.inj ht]
  exact good_staticCheck (good_quarterOut ‹_›)

theorem good_execQuarterScrubComplete {p : List Instr} {s : State} (h : Good p s) {paddock unit passed} {t : State} (ht : execQuarterScrubComplete paddock unit passed s = .next t) : Good p t := by
  unfold execQuarterScrubComplete at ht
  rw [← Host.Outcome.next.inj ht]
  exact good_staticCheck (good_scrubDone ‹_›)

theorem good_execEccCorrected {p : List Instr} {s : State} (h : Good p s) {site due} {t : State} (ht : execEccCorrected site due s = .next t) : Good p t := by
  unfold execEccCorrected at ht
  rw [← Host.Outcome.next.inj ht]
  exact good_eccCorrected ‹_›

theorem good_execEccUncorrectable {p : List Instr} {s : State} (h : Good p s) {site due} {t : State} (ht : execEccUncorrectable site due s = .next t) : Good p t := by
  unfold execEccUncorrectable at ht
  rw [← Host.Outcome.next.inj ht]
  exact good_staticCheck (good_eccBad ‹_›)

theorem good_execPatrolScrubTick {p : List Instr} {s : State} (h : Good p s) {find due} {t : State} (ht : execPatrolScrubTick find due s = .next t) : Good p t := by
  unfold execPatrolScrubTick at ht
  rw [← Host.Outcome.next.inj ht]
  exact good_patrol ‹_›

theorem good_execCodecSelfCheckFail {p : List Instr} {s : State} (h : Good p s) {engine} {t : State} (ht : execCodecSelfCheckFail engine s = .next t) : Good p t := by
  unfold execCodecSelfCheckFail at ht
  rw [← Host.Outcome.next.inj ht]
  exact good_selfCheckFail ‹_›

theorem good_execDeviceFatalFault {p : List Instr} {s : State} (h : Good p s) {code source unit} {t : State} (ht : execDeviceFatalFault code source unit s = .next t) : Good p t := by
  unfold execDeviceFatalFault at ht
  rw [← Host.Outcome.next.inj ht]
  exact good_deviceFatal ‹_›

/-! ## Machine/RowsRegisters.lean -/

theorem good_execSqTailWrite {p : List Instr} {s : State} (h : Good p s) {function queue value} {t : State} (ht : execSqTailWrite function queue value s = .next t) : Good p t := by
  unfold execSqTailWrite at ht
  rw [← Host.Outcome.next.inj ht]
  exact good_sqTailWrite ‹_›

theorem good_execCqHeadWrite {p : List Instr} {s : State} (h : Good p s) {function queue value} {t : State} (ht : execCqHeadWrite function queue value s = .next t) : Good p t := by
  unfold execCqHeadWrite at ht
  rw [← Host.Outcome.next.inj ht]
  exact good_cqHeadWrite ‹_›

theorem good_execAdminMbxDoorbell {p : List Instr} {s : State} (h : Good p s) {value} {t : State} (ht : execAdminMbxDoorbell value s = .next t) : Good p t := by
  unfold execAdminMbxDoorbell at ht
  rw [← Host.Outcome.next.inj ht]
  exact good_adminDoorbell ‹_›

theorem good_execTenantMbxDoorbell {p : List Instr} {s : State} (h : Good p s) {function tenant value} {t : State} (ht : execTenantMbxDoorbell function tenant value s = .next t) : Good p t := by
  unfold execTenantMbxDoorbell at ht
  rw [← Host.Outcome.next.inj ht]
  exact good_tenantDoorbell ‹_›

theorem good_execTenantEventsClear {p : List Instr} {s : State} (h : Good p s) {function tenant value} {t : State} (ht : execTenantEventsClear function tenant value s = .next t) : Good p t := by
  unfold execTenantEventsClear at ht
  rw [← Host.Outcome.next.inj ht]
  exact good_tenantEventsClear ‹_›

theorem good_execEvqCtrlWrite {p : List Instr} {s : State} (h : Good p s) {value} {t : State} (ht : execEvqCtrlWrite value s = .next t) : Good p t := by
  unfold execEvqCtrlWrite at ht
  rw [← Host.Outcome.next.inj ht]
  exact good_evqCtrlWrite ‹_›

theorem good_execEvqHeadWrite {p : List Instr} {s : State} (h : Good p s) {value} {t : State} (ht : execEvqHeadWrite value s = .next t) : Good p t := by
  unfold execEvqHeadWrite at ht
  rw [← Host.Outcome.next.inj ht]
  exact good_evqHeadWrite ‹_›

theorem good_bar0Write {p : List Instr} {s : State} (h : Good p s) {off size v} : Good p (State.bar0Write s off size v) := by
  unfold State.bar0Write
  split
  · split
    · exact good_setAdminMbx ‹_›
    · assumption
  · split
    · assumption
    · split
      · exact good_adminDoorbell ‹_›
      · exact good_evqBaseLoWrite ‹_›
      · exact good_evqBaseHiWrite ‹_›
      · exact good_evqCtrlWrite ‹_›
      · exact good_evqHeadWrite ‹_›
      · exact good_sqTailWrite ‹_›
      · exact good_cqHeadWrite ‹_›
      · exact good_sqTailWrite ‹_›
      · exact good_cqHeadWrite ‹_›
      · assumption

theorem good_pageWrite {p : List Instr} {s : State} (h : Good p s) {f a2 off size v} : Good p (State.pageWrite s f a2 off size v) := by
  unfold State.pageWrite
  split
  · assumption
  · split
    · exact good_setTenantMbx ‹_›
    · split
      · assumption
      · split
        · split
          · exact good_sqTailWrite ‹_›
          · split
            · exact good_cqHeadWrite ‹_›
            · assumption
        · split
          · exact good_tenantDoorbell ‹_›
          · split
            · exact good_tenantEventsClear ‹_›
            · assumption

theorem good_registerWrite {p : List Instr} {s : State} (h : Good p s) {f bar off size v} : Good p (State.registerWrite s f bar off size v) := by
  unfold State.registerWrite
  split
  · split
    · exact good_bar0Write ‹_›
    · assumption
  · split
    · exact good_pageWrite ‹_›
    · split
      · exact good_bar4Write ‹_›
      · assumption

theorem good_execRegisterWrite {p : List Instr} {s : State} (h : Good p s) {function bar offset size value} {t : State} (ht : execRegisterWrite function bar offset size value s = .next t) : Good p t := by
  unfold execRegisterWrite at ht
  rw [← Host.Outcome.next.inj ht]
  exact good_registerWrite ‹_›

theorem good_execIrqDelayExpire {p : List Instr} {s : State} (h : Good p s) {queue} {t : State} (ht : execIrqDelayExpire queue s = .next t) : Good p t := by
  unfold execIrqDelayExpire at ht
  rw [← Host.Outcome.next.inj ht]
  exact good_irqDelayExpire ‹_›

theorem good_execEventOverflowRecord {p : List Instr} {s : State} (h : Good p s) {t : State} (ht : execEventOverflowRecord s = .next t) : Good p t := by
  unfold execEventOverflowRecord at ht
  rw [← Host.Outcome.next.inj ht]
  exact good_overflowRecord ‹_›

theorem good_execFunctionLevelReset {p : List Instr} {s : State} (h : Good p s) {function} {t : State} (ht : execFunctionLevelReset function s = .next t) : Good p t := by
  unfold execFunctionLevelReset at ht
  rw [← Host.Outcome.next.inj ht]
  exact good_functionReset ‹_›

/-! ## Machine/RowsTack.lean -/

theorem good_execTackRead {p : List Instr} {s : State} (h : Good p s) {via message} {t : State} (ht : execTackRead via message s = .next t) : Good p t := by
  unfold execTackRead at ht
  rw [← Host.Outcome.next.inj ht]
  exact good_tackRow ‹_›

theorem good_execTackWrite {p : List Instr} {s : State} (h : Good p s) {via message} {t : State} (ht : execTackWrite via message s = .next t) : Good p t := by
  unfold execTackWrite at ht
  rw [← Host.Outcome.next.inj ht]
  exact good_tackRow ‹_›

theorem good_execTxBegin {p : List Instr} {s : State} (h : Good p s) {via message} {t : State} (ht : execTxBegin via message s = .next t) : Good p t := by
  unfold execTxBegin at ht
  rw [← Host.Outcome.next.inj ht]
  exact good_tackRow ‹_›

theorem good_execTxCommit {p : List Instr} {s : State} (h : Good p s) {via message late} {t : State} (ht : execTxCommit via message late s = .next t) : Good p t := by
  unfold execTxCommit at ht
  rw [← Host.Outcome.next.inj ht]
  exact good_commitRow ‹_›

theorem good_execTxCommitApply {p : List Instr} {s : State} (h : Good p s) {master} {t : State} (ht : execTxCommitApply master s = .next t) : Good p t := by
  unfold execTxCommitApply at ht
  rw [← Host.Outcome.next.inj ht]
  exact good_commitApply ‹_›

theorem good_execTxQuiescenceTimeout {p : List Instr} {s : State} (h : Good p s) {master} {t : State} (ht : execTxQuiescenceTimeout master s = .next t) : Good p t := by
  unfold execTxQuiescenceTimeout at ht
  rw [← Host.Outcome.next.inj ht]
  exact good_commitTimeout ‹_›

theorem good_execTxRollback {p : List Instr} {s : State} (h : Good p s) {via message} {t : State} (ht : execTxRollback via message s = .next t) : Good p t := by
  unfold execTxRollback at ht
  rw [← Host.Outcome.next.inj ht]
  exact good_tackRow ‹_›

theorem good_execTxExpire {p : List Instr} {s : State} (h : Good p s) {master} {t : State} (ht : execTxExpire master s = .next t) : Good p t := by
  unfold execTxExpire at ht
  rw [← Host.Outcome.next.inj ht]
  exact good_txExpire ‹_›

theorem good_execEnumOffer {p : List Instr} {s : State} (h : Good p s) {message} {t : State} (ht : execEnumOffer message s = .next t) : Good p t := by
  unfold execEnumOffer at ht
  rw [← Host.Outcome.next.inj ht]
  exact good_enumOffer ‹_›

theorem good_execEnumConfirm {p : List Instr} {s : State} (h : Good p s) {source message} {t : State} (ht : execEnumConfirm source message s = .next t) : Good p t := by
  unfold execEnumConfirm at ht
  rw [← Host.Outcome.next.inj ht]
  exact good_enumConfirm ‹_›

theorem good_execEnumConfirmTimeout {p : List Instr} {s : State} (h : Good p s) {t : State} (ht : execEnumConfirmTimeout s = .next t) : Good p t := by
  unfold execEnumConfirmTimeout at ht
  rw [← Host.Outcome.next.inj ht]
  exact good_enumTimeout ‹_›

theorem good_execLeadInHigh {p : List Instr} {s : State} (h : Good p s) {t : State} (ht : execLeadInHigh s = .next t) : Good p t := by
  unfold execLeadInHigh at ht
  rw [← Host.Outcome.next.inj ht]
  exact good_leadInHigh ‹_›

theorem good_execHalterBeaconLoss {p : List Instr} {s : State} (h : Good p s) {t : State} (ht : execHalterBeaconLoss s = .next t) : Good p t := by
  unfold execHalterBeaconLoss at ht
  rw [← Host.Outcome.next.inj ht]
  exact good_setBeacon ‹_›

theorem good_execHalterBeaconResume {p : List Instr} {s : State} (h : Good p s) {t : State} (ht : execHalterBeaconResume s = .next t) : Good p t := by
  unfold execHalterBeaconResume at ht
  rw [← Host.Outcome.next.inj ht]
  exact good_setBeacon ‹_›

/-! ## Machine/RowsObjects.lean -/

theorem good_execHalterRelease {p : List Instr} {s : State} (h : Good p s) {via value} {t : State} (ht : execHalterRelease via value s = .next t) : Good p t := by
  unfold execHalterRelease at ht
  rw [← Host.Outcome.next.inj ht]
  exact good_viaWrite ‹_›

theorem good_execPaddockAllocate {p : List Instr} {s : State} (h : Good p s) {via tenant value} {t : State} (ht : execPaddockAllocate via tenant value s = .next t) : Good p t := by
  unfold execPaddockAllocate at ht
  rw [← Host.Outcome.next.inj ht]
  split
  · assumption
  · exact good_viaWrite ‹_›

theorem good_execPaddockAllocateResult {p : List Instr} {s : State} (h : Good p s) {tenant} {t : State} (ht : execPaddockAllocateResult tenant s = .next t) : Good p t := by
  unfold execPaddockAllocateResult at ht
  rw [← Host.Outcome.next.inj ht]
  exact good_wakeMsgs (good_paddockAllocated ‹_›)

theorem good_execPaddockFree {p : List Instr} {s : State} (h : Good p s) {via tenant value} {t : State} (ht : execPaddockFree via tenant value s = .next t) : Good p t := by
  unfold execPaddockFree at ht
  rw [← Host.Outcome.next.inj ht]
  split
  · exact good_viaWrite ‹_›
  · assumption

theorem good_execPaddockFreeResult {p : List Instr} {s : State} (h : Good p s) {tenant} {t : State} (ht : execPaddockFreeResult tenant s = .next t) : Good p t := by
  unfold execPaddockFreeResult at ht
  rw [← Host.Outcome.next.inj ht]
  exact good_wakeMsgs (good_paddockFreed ‹_›)

theorem good_execHbmFrameAssign {p : List Instr} {s : State} (h : Good p s) {via value} {t : State} (ht : execHbmFrameAssign via value s = .next t) : Good p t := by
  unfold execHbmFrameAssign at ht
  rw [← Host.Outcome.next.inj ht]
  split
  · assumption
  · exact good_viaWrite ‹_›

theorem good_execHbmFrameAssignResult {p : List Instr} {s : State} (h : Good p s) {t : State} (ht : execHbmFrameAssignResult s = .next t) : Good p t := by
  unfold execHbmFrameAssignResult at ht
  rw [← Host.Outcome.next.inj ht]
  exact good_wakeMsgs (good_framesAssigned ‹_›)

theorem good_execHbmFrameRelease {p : List Instr} {s : State} (h : Good p s) {via value} {t : State} (ht : execHbmFrameRelease via value s = .next t) : Good p t := by
  unfold execHbmFrameRelease at ht
  rw [← Host.Outcome.next.inj ht]
  split
  · exact good_viaWrite ‹_›
  · assumption

theorem good_execHbmFrameReleaseResult {p : List Instr} {s : State} (h : Good p s) {t : State} (ht : execHbmFrameReleaseResult s = .next t) : Good p t := by
  unfold execHbmFrameReleaseResult at ht
  rw [← Host.Outcome.next.inj ht]
  exact good_wakeMsgs (good_framesReleased ‹_›)

theorem good_execTenantTlbInvalidate {p : List Instr} {s : State} (h : Good p s) {via tenant value} {t : State} (ht : execTenantTlbInvalidate via tenant value s = .next t) : Good p t := by
  unfold execTenantTlbInvalidate at ht
  rw [← Host.Outcome.next.inj ht]
  exact good_viaWrite ‹_›

theorem good_execTlbInvalidateComplete {p : List Instr} {s : State} (h : Good p s) {tenant} {t : State} (ht : execTlbInvalidateComplete tenant s = .next t) : Good p t := by
  unfold execTlbInvalidateComplete at ht
  rw [← Host.Outcome.next.inj ht]
  exact good_tlbInvalidated ‹_›

theorem good_execQueueEnable {p : List Instr} {s : State} (h : Good p s) {via queue value} {t : State} (ht : execQueueEnable via queue value s = .next t) : Good p t := by
  unfold execQueueEnable at ht
  rw [← Host.Outcome.next.inj ht]
  split
  · exact good_viaWrite ‹_›
  · assumption

theorem good_execQueueDisable {p : List Instr} {s : State} (h : Good p s) {via queue value} {t : State} (ht : execQueueDisable via queue value s = .next t) : Good p t := by
  unfold execQueueDisable at ht
  rw [← Host.Outcome.next.inj ht]
  split
  · assumption
  · exact good_viaWrite ‹_›

theorem good_execQueueDrainComplete {p : List Instr} {s : State} (h : Good p s) {queue} {t : State} (ht : execQueueDrainComplete queue s = .next t) : Good p t := by
  unfold execQueueDrainComplete at ht
  rw [← Host.Outcome.next.inj ht]
  exact good_queueDrained ‹_›

theorem good_execStableFlagsClear {p : List Instr} {s : State} (h : Good p s) {via value} {t : State} (ht : execStableFlagsClear via value s = .next t) : Good p t := by
  unfold execStableFlagsClear at ht
  rw [← Host.Outcome.next.inj ht]
  exact good_viaWrite ‹_›

theorem good_execTenantFlagsClear {p : List Instr} {s : State} (h : Good p s) {via tenant value} {t : State} (ht : execTenantFlagsClear via tenant value s = .next t) : Good p t := by
  unfold execTenantFlagsClear at ht
  rw [← Host.Outcome.next.inj ht]
  exact good_viaWrite ‹_›

theorem good_execSpareAutoActivateWrite {p : List Instr} {s : State} (h : Good p s) {via value} {t : State} (ht : execSpareAutoActivateWrite via value s = .next t) : Good p t := by
  unfold execSpareAutoActivateWrite at ht
  rw [← Host.Outcome.next.inj ht]
  exact good_viaWrite ‹_›

theorem good_execTenantRemudaReadReq {p : List Instr} {s : State} (h : Good p s) {via tenant value} {t : State} (ht : execTenantRemudaReadReq via tenant value s = .next t) : Good p t := by
  unfold execTenantRemudaReadReq at ht
  rw [← Host.Outcome.next.inj ht]
  exact good_viaWrite ‹_›

theorem good_execRngProbeRequest {p : List Instr} {s : State} (h : Good p s) {via value} {t : State} (ht : execRngProbeRequest via value s = .next t) : Good p t := by
  unfold execRngProbeRequest at ht
  rw [← Host.Outcome.next.inj ht]
  exact good_viaWrite ‹_›

theorem good_execTenantPostReadReq {p : List Instr} {s : State} (h : Good p s) {via tenant value} {t : State} (ht : execTenantPostReadReq via tenant value s = .next t) : Good p t := by
  unfold execTenantPostReadReq at ht
  rw [← Host.Outcome.next.inj ht]
  exact good_viaWrite ‹_›

theorem good_execTenantAttribReadReq {p : List Instr} {s : State} (h : Good p s) {via tenant value} {t : State} (ht : execTenantAttribReadReq via tenant value s = .next t) : Good p t := by
  unfold execTenantAttribReadReq at ht
  rw [← Host.Outcome.next.inj ht]
  exact good_viaWrite ‹_›

theorem good_execTenantAttribQuota {p : List Instr} {s : State} (h : Good p s) {via tenant value} {t : State} (ht : execTenantAttribQuota via tenant value s = .next t) : Good p t := by
  unfold execTenantAttribQuota at ht
  rw [← Host.Outcome.next.inj ht]
  exact good_viaWrite ‹_›

theorem good_execLogReadReq {p : List Instr} {s : State} (h : Good p s) {via value} {t : State} (ht : execLogReadReq via value s = .next t) : Good p t := by
  unfold execLogReadReq at ht
  rw [← Host.Outcome.next.inj ht]
  exact good_viaWrite ‹_›

theorem good_execTenantEnable {p : List Instr} {s : State} (h : Good p s) {via tenant value} {t : State} (ht : execTenantEnable via tenant value s = .next t) : Good p t := by
  unfold execTenantEnable at ht
  rw [← Host.Outcome.next.inj ht]
  exact good_viaWrite ‹_›

theorem good_execTenantPostRange {p : List Instr} {s : State} (h : Good p s) {via tenant value} {t : State} (ht : execTenantPostRange via tenant value s = .next t) : Good p t := by
  unfold execTenantPostRange at ht
  rw [← Host.Outcome.next.inj ht]
  exact good_viaWrite ‹_›

theorem good_execTenantReset {p : List Instr} {s : State} (h : Good p s) {via tenant value} {t : State} (ht : execTenantReset via tenant value s = .next t) : Good p t := by
  unfold execTenantReset at ht
  rw [← Host.Outcome.next.inj ht]
  exact good_viaWrite ‹_›

theorem good_execTenantResetComplete {p : List Instr} {s : State} (h : Good p s) {tenant spent} {t : State} (ht : execTenantResetComplete tenant spent s = .next t) : Good p t := by
  unfold execTenantResetComplete at ht
  rw [← Host.Outcome.next.inj ht]
  exact good_staticCheck (good_resetComplete ‹_›)

theorem good_execTenantHold {p : List Instr} {s : State} (h : Good p s) {via tenant value} {t : State} (ht : execTenantHold via tenant value s = .next t) : Good p t := by
  unfold execTenantHold at ht
  rw [← Host.Outcome.next.inj ht]
  exact good_viaWrite ‹_›

theorem good_execTenantDismounted {p : List Instr} {s : State} (h : Good p s) {tenant ns spent} {t : State} (ht : execTenantDismounted tenant ns spent s = .next t) : Good p t := by
  unfold execTenantDismounted at ht
  rw [← Host.Outcome.next.inj ht]
  exact good_staticCheck (good_dismounted ‹_›)

theorem good_execTenantResume {p : List Instr} {s : State} (h : Good p s) {tenant ns} {t : State} (ht : execTenantResume tenant ns s = .next t) : Good p t := by
  unfold execTenantResume at ht
  rw [← Host.Outcome.next.inj ht]
  exact good_staticCheck (good_resumed ‹_›)

theorem good_execPreemptOverrun {p : List Instr} {s : State} (h : Good p s) {tenant} {t : State} (ht : execPreemptOverrun tenant s = .next t) : Good p t := by
  unfold execPreemptOverrun at ht
  rw [← Host.Outcome.next.inj ht]
  exact good_overrun ‹_›

theorem good_execCarouselSlotBoundary {p : List Instr} {s : State} (h : Good p s) {t : State} (ht : execCarouselSlotBoundary s = .next t) : Good p t := by
  unfold execCarouselSlotBoundary at ht
  rw [← Host.Outcome.next.inj ht]
  exact good_staticCheck (good_slotBoundary ‹_›)

theorem good_execTimeMasterTick {p : List Instr} {s : State} (h : Good p s) {phase} {t : State} (ht : execTimeMasterTick phase s = .next t) : Good p t := by
  unfold execTimeMasterTick at ht
  rw [← Host.Outcome.next.inj ht]
  exact good_masterTick ‹_›

theorem good_execLinkDelayMeasure {p : List Instr} {s : State} (h : Good p s) {port ns} {t : State} (ht : execLinkDelayMeasure port ns s = .next t) : Good p t := by
  unfold execLinkDelayMeasure at ht
  rw [← Host.Outcome.next.inj ht]
  exact good_delayMeasured ‹_›

theorem good_execTimeSourceLoss {p : List Instr} {s : State} (h : Good p s) {t : State} (ht : execTimeSourceLoss s = .next t) : Good p t := by
  unfold execTimeSourceLoss at ht
  rw [← Host.Outcome.next.inj ht]
  exact good_timeLost ‹_›

theorem good_execSpurEnable {p : List Instr} {s : State} (h : Good p s) {via value} {t : State} (ht : execSpurEnable via value s = .next t) : Good p t := by
  unfold execSpurEnable at ht
  rw [← Host.Outcome.next.inj ht]
  exact good_viaWrite ‹_›

theorem good_execSpurProductionLock {p : List Instr} {s : State} (h : Good p s) {via value} {t : State} (ht : execSpurProductionLock via value s = .next t) : Good p t := by
  unfold execSpurProductionLock at ht
  rw [← Host.Outcome.next.inj ht]
  exact good_viaWrite ‹_›

theorem good_execTraceEnable {p : List Instr} {s : State} (h : Good p s) {via value} {t : State} (ht : execTraceEnable via value s = .next t) : Good p t := by
  unfold execTraceEnable at ht
  rw [← Host.Outcome.next.inj ht]
  exact good_viaWrite ‹_›

theorem good_execTraceFrameSend {p : List Instr} {s : State} (h : Good p s) {due} {t : State} (ht : execTraceFrameSend due s = .next t) : Good p t := by
  unfold execTraceFrameSend at ht
  rw [← Host.Outcome.next.inj ht]
  exact good_traceFrameSend ‹_›

theorem good_execUtilisationWindow {p : List Instr} {s : State} (h : Good p s) {quarters ports whole} {t : State} (ht : execUtilisationWindow quarters ports whole s = .next t) : Good p t := by
  unfold execUtilisationWindow at ht
  rw [← Host.Outcome.next.inj ht]
  exact good_utilisation ‹_›

theorem good_execHangStallDetect {p : List Instr} {s : State} (h : Good p s) {stream others} {t : State} (ht : execHangStallDetect stream others s = .next t) : Good p t := by
  unfold execHangStallDetect at ht
  rw [← Host.Outcome.next.inj ht]
  exact good_hangDetect ‹_›

theorem good_execHangReplyTimeout {p : List Instr} {s : State} (h : Good p s) {analysis} {t : State} (ht : execHangReplyTimeout analysis s = .next t) : Good p t := by
  unfold execHangReplyTimeout at ht
  rw [← Host.Outcome.next.inj ht]
  exact good_hangTimeout ‹_›

theorem good_execFwStageBegin {p : List Instr} {s : State} (h : Good p s) {via} {t : State} (ht : execFwStageBegin via s = .next t) : Good p t := by
  unfold execFwStageBegin at ht
  rw [← Host.Outcome.next.inj ht]
  exact good_viaWrite ‹_›

theorem good_execFwStageChunk {p : List Instr} {s : State} (h : Good p s) {via value} {t : State} (ht : execFwStageChunk via value s = .next t) : Good p t := by
  unfold execFwStageChunk at ht
  rw [← Host.Outcome.next.inj ht]
  exact good_viaWrite ‹_›

theorem good_execFwStageVerify {p : List Instr} {s : State} (h : Good p s) {via} {t : State} (ht : execFwStageVerify via s = .next t) : Good p t := by
  unfold execFwStageVerify at ht
  rw [← Host.Outcome.next.inj ht]
  exact good_viaWrite ‹_›

theorem good_execFwStageActivate {p : List Instr} {s : State} (h : Good p s) {via} {t : State} (ht : execFwStageActivate via s = .next t) : Good p t := by
  unfold execFwStageActivate at ht
  rw [← Host.Outcome.next.inj ht]
  exact good_viaWrite ‹_›

theorem good_execFwStageAbandon {p : List Instr} {s : State} (h : Good p s) {via} {t : State} (ht : execFwStageAbandon via s = .next t) : Good p t := by
  unfold execFwStageAbandon at ht
  rw [← Host.Outcome.next.inj ht]
  exact good_viaWrite ‹_›

theorem good_execFwStageTimeout {p : List Instr} {s : State} (h : Good p s) {t : State} (ht : execFwStageTimeout s = .next t) : Good p t := by
  unfold execFwStageTimeout at ht
  rw [← Host.Outcome.next.inj ht]
  exact good_stageTimeout ‹_›

theorem good_execStableRetireRequest {p : List Instr} {s : State} (h : Good p s) {via value} {t : State} (ht : execStableRetireRequest via value s = .next t) : Good p t := by
  unfold execStableRetireRequest at ht
  rw [← Host.Outcome.next.inj ht]
  exact good_viaWrite ‹_›

theorem good_execMainRailsCommand {p : List Instr} {s : State} (h : Good p s) {via value} {t : State} (ht : execMainRailsCommand via value s = .next t) : Good p t := by
  unfold execMainRailsCommand at ht
  rw [← Host.Outcome.next.inj ht]
  exact good_viaWrite ‹_›

theorem good_execGaitCeilingWrite {p : List Instr} {s : State} (h : Good p s) {via value} {t : State} (ht : execGaitCeilingWrite via value s = .next t) : Good p t := by
  unfold execGaitCeilingWrite at ht
  rw [← Host.Outcome.next.inj ht]
  exact good_viaWrite ‹_›

theorem good_execLinkEnableWrite {p : List Instr} {s : State} (h : Good p s) {via port value} {t : State} (ht : execLinkEnableWrite via port value s = .next t) : Good p t := by
  unfold execLinkEnableWrite at ht
  rw [← Host.Outcome.next.inj ht]
  exact good_viaWrite ‹_›

theorem good_execLineagePortModeWrite {p : List Instr} {s : State} (h : Good p s) {via port value} {t : State} (ht : execLineagePortModeWrite via port value s = .next t) : Good p t := by
  unfold execLineagePortModeWrite at ht
  rw [← Host.Outcome.next.inj ht]
  exact good_viaWrite ‹_›

theorem good_execTopoBoroughNumberWrite {p : List Instr} {s : State} (h : Good p s) {via value} {t : State} (ht : execTopoBoroughNumberWrite via value s = .next t) : Good p t := by
  unfold execTopoBoroughNumberWrite at ht
  rw [← Host.Outcome.next.inj ht]
  exact good_viaWrite ‹_›

/-! ## Machine/RowsPower.lean -/

theorem good_execOstlerBoot {p : List Instr} {s : State} (h : Good p s) {fails millivolts} {t : State} (ht : execOstlerBoot fails millivolts s = .next t) : Good p t := by
  unfold execOstlerBoot at ht
  rw [← Host.Outcome.next.inj ht]
  exact good_ostlerBoot ‹_›

theorem good_execMainRailsGood {p : List Instr} {s : State} (h : Good p s) {t : State} (ht : execMainRailsGood s = .next t) : Good p t := by
  unfold execMainRailsGood at ht
  rw [← Host.Outcome.next.inj ht]
  exact good_railsGood ‹_›

theorem good_execRootPllLock {p : List Instr} {s : State} (h : Good p s) {t : State} (ht : execRootPllLock s = .next t) : Good p t := by
  unfold execRootPllLock at ht
  rw [← Host.Outcome.next.inj ht]
  exact good_pllLock ‹_›

theorem good_execHbmTrainingComplete {p : List Instr} {s : State} (h : Good p s) {t : State} (ht : execHbmTrainingComplete s = .next t) : Good p t := by
  unfold execHbmTrainingComplete at ht
  rw [← Host.Outcome.next.inj ht]
  exact good_hbmTrained ‹_›

theorem good_execPcieLinkUp {p : List Instr} {s : State} (h : Good p s) {t : State} (ht : execPcieLinkUp s = .next t) : Good p t := by
  unfold execPcieLinkUp at ht
  rw [← Host.Outcome.next.inj ht]
  exact good_pcieLinkUp ‹_›

theorem good_execPerstAssert {p : List Instr} {s : State} (h : Good p s) {t : State} (ht : execPerstAssert s = .next t) : Good p t := by
  unfold execPerstAssert at ht
  rw [← Host.Outcome.next.inj ht]
  exact good_staticCheck (good_perstAssert ‹_›)

theorem good_execPerstScrubComplete {p : List Instr} {s : State} (h : Good p s) {t : State} (ht : execPerstScrubComplete s = .next t) : Good p t := by
  unfold execPerstScrubComplete at ht
  rw [← Host.Outcome.next.inj ht]
  exact good_perstScrubbed ‹_›

theorem good_execPerstDeassert {p : List Instr} {s : State} (h : Good p s) {t : State} (ht : execPerstDeassert s = .next t) : Good p t := by
  unfold execPerstDeassert at ht
  rw [← Host.Outcome.next.inj ht]
  exact good_perstDeassert ‹_›

theorem good_execMrstAssert {p : List Instr} {s : State} (h : Good p s) {t : State} (ht : execMrstAssert s = .next t) : Good p t := by
  unfold execMrstAssert at ht
  rw [← Host.Outcome.next.inj ht]
  exact good_mrstAssert ‹_›

theorem good_execMrstDeassert {p : List Instr} {s : State} (h : Good p s) {fails millivolts} {t : State} (ht : execMrstDeassert fails millivolts s = .next t) : Good p t := by
  unfold execMrstDeassert at ht
  rw [← Host.Outcome.next.inj ht]
  exact good_mrstDeassert ‹_›

theorem good_execStandbyPowerLoss {p : List Instr} {s : State} (h : Good p s) {t : State} (ht : execStandbyPowerLoss s = .next t) : Good p t := by
  unfold execStandbyPowerLoss at ht
  rw [← Host.Outcome.next.inj ht]
  exact good_standbyLoss ‹_›

theorem good_execReinAssert {p : List Instr} {s : State} (h : Good p s) {late} {t : State} (ht : execReinAssert late s = .next t) : Good p t := by
  unfold execReinAssert at ht
  rw [← Host.Outcome.next.inj ht]
  exact good_reinAssert ‹_›

theorem good_execReinDeassert {p : List Instr} {s : State} (h : Good p s) {t : State} (ht : execReinDeassert s = .next t) : Good p t := by
  unfold execReinDeassert at ht
  rw [← Host.Outcome.next.inj ht]
  exact good_reinDeassert ‹_›

theorem good_execReinHoldExpire {p : List Instr} {s : State} (h : Good p s) {t : State} (ht : execReinHoldExpire s = .next t) : Good p t := by
  unfold execReinHoldExpire at ht
  rw [← Host.Outcome.next.inj ht]
  exact good_reinExpire ‹_›

theorem good_execInputVoltageExcursion {p : List Instr} {s : State} (h : Good p s) {millivolts} {t : State} (ht : execInputVoltageExcursion millivolts s = .next t) : Good p t := by
  unfold execInputVoltageExcursion at ht
  rw [← Host.Outcome.next.inj ht]
  exact good_inputOut ‹_›

theorem good_execInputVoltageRecover {p : List Instr} {s : State} (h : Good p s) {millivolts} {t : State} (ht : execInputVoltageRecover millivolts s = .next t) : Good p t := by
  unfold execInputVoltageRecover at ht
  rw [← Host.Outcome.next.inj ht]
  exact good_railsAwaited (good_inputBack ‹_›)

theorem good_execTrip {p : List Instr} {s : State} (h : Good p s) {cause} {t : State} (ht : execTrip cause s = .next t) : Good p t := by
  unfold execTrip at ht
  rw [← Host.Outcome.next.inj ht]
  exact good_trip ‹_›

theorem good_execLockstepMismatch {p : List Instr} {s : State} (h : Good p s) {t : State} (ht : execLockstepMismatch s = .next t) : Good p t := by
  unfold execLockstepMismatch at ht
  rw [← Host.Outcome.next.inj ht]
  exact good_lockstep ‹_›

theorem good_execRefclkLoss {p : List Instr} {s : State} (h : Good p s) {t : State} (ht : execRefclkLoss s = .next t) : Good p t := by
  unfold execRefclkLoss at ht
  rw [← Host.Outcome.next.inj ht]
  exact good_refclkLoss ‹_›

theorem good_execRootPllLockLoss {p : List Instr} {s : State} (h : Good p s) {t : State} (ht : execRootPllLockLoss s = .next t) : Good p t := by
  unfold execRootPllLockLoss at ht
  rw [← Host.Outcome.next.inj ht]
  exact good_pllLoss ‹_›

theorem good_execRefclkRestore {p : List Instr} {s : State} (h : Good p s) {fails millivolts} {t : State} (ht : execRefclkRestore fails millivolts s = .next t) : Good p t := by
  unfold execRefclkRestore at ht
  rw [← Host.Outcome.next.inj ht]
  exact good_refclkRestore ‹_›

theorem good_execSrefclkLoss {p : List Instr} {s : State} (h : Good p s) {t : State} (ht : execSrefclkLoss s = .next t) : Good p t := by
  unfold execSrefclkLoss at ht
  rw [← Host.Outcome.next.inj ht]
  exact good_srefclkLoss ‹_›

theorem good_execSrefclkRestore {p : List Instr} {s : State} (h : Good p s) {t : State} (ht : execSrefclkRestore s = .next t) : Good p t := by
  unfold execSrefclkRestore at ht
  rw [← Host.Outcome.next.inj ht]
  exact good_srefclkRestore ‹_›

theorem good_execPowerGaitTick {p : List Instr} {s : State} (h : Good p s) {watts millivolts due} {t : State} (ht : execPowerGaitTick watts millivolts due s = .next t) : Good p t := by
  unfold execPowerGaitTick at ht
  rw [← Host.Outcome.next.inj ht]
  exact good_powerTick ‹_›

theorem good_execPowerGaitRaise {p : List Instr} {s : State} (h : Good p s) {t : State} (ht : execPowerGaitRaise s = .next t) : Good p t := by
  unfold execPowerGaitRaise at ht
  rw [← Host.Outcome.next.inj ht]
  exact good_powerRaise ‹_›

theorem good_execPowerWalkStall {p : List Instr} {s : State} (h : Good p s) {t : State} (ht : execPowerWalkStall s = .next t) : Good p t := by
  unfold execPowerWalkStall at ht
  rw [← Host.Outcome.next.inj ht]
  exact good_powerStall ‹_›

theorem good_execThermalGaitTick {p : List Instr} {s : State} (h : Good p s) {points hbm} {t : State} (ht : execThermalGaitTick points hbm s = .next t) : Good p t := by
  unfold execThermalGaitTick at ht
  rw [← Host.Outcome.next.inj ht]
  exact good_thermalTick ‹_›

theorem good_execThermalGaitRaise {p : List Instr} {s : State} (h : Good p s) {t : State} (ht : execThermalGaitRaise s = .next t) : Good p t := by
  unfold execThermalGaitRaise at ht
  rw [← Host.Outcome.next.inj ht]
  exact good_thermalRaise ‹_›

theorem good_execGaitUpComplete {p : List Instr} {s : State} (h : Good p s) {t : State} (ht : execGaitUpComplete s = .next t) : Good p t := by
  unfold execGaitUpComplete at ht
  rw [← Host.Outcome.next.inj ht]
  exact good_gaitUp ‹_›

theorem good_execCoolantSample {p : List Instr} {s : State} (h : Good p s) {inlet outlet} {t : State} (ht : execCoolantSample inlet outlet s = .next t) : Good p t := by
  unfold execCoolantSample at ht
  rw [← Host.Outcome.next.inj ht]
  exact good_coolant ‹_›

theorem good_execDroopDetect {p : List Instr} {s : State} (h : Good p s) {quarter} {t : State} (ht : execDroopDetect quarter s = .next t) : Good p t := by
  unfold execDroopDetect at ht
  rw [← Host.Outcome.next.inj ht]
  exact good_droop ‹_›

theorem good_execDroopStretchEnd {p : List Instr} {s : State} (h : Good p s) {quarter} {t : State} (ht : execDroopStretchEnd quarter s = .next t) : Good p t := by
  unfold execDroopStretchEnd at ht
  rw [← Host.Outcome.next.inj ht]
  exact good_droopEnd ‹_›

theorem good_execCanaryLowMargin {p : List Instr} {s : State} (h : Good p s) {quarter failure} {t : State} (ht : execCanaryLowMargin quarter failure s = .next t) : Good p t := by
  unfold execCanaryLowMargin at ht
  rw [← Host.Outcome.next.inj ht]
  exact good_canaryLow ‹_›

theorem good_execVoltageStepDownTick {p : List Instr} {s : State} (h : Good p s) {quarter} {t : State} (ht : execVoltageStepDownTick quarter s = .next t) : Good p t := by
  unfold execVoltageStepDownTick at ht
  rw [← Host.Outcome.next.inj ht]
  exact good_stepDown ‹_›

theorem good_execQuarterCoolingEnter {p : List Instr} {s : State} (h : Good p s) {quarter} {t : State} (ht : execQuarterCoolingEnter quarter s = .next t) : Good p t := by
  unfold execQuarterCoolingEnter at ht
  rw [← Host.Outcome.next.inj ht]
  exact good_coolingEnter ‹_›

theorem good_execQuarterCoolingLeave {p : List Instr} {s : State} (h : Good p s) {quarter} {t : State} (ht : execQuarterCoolingLeave quarter s = .next t) : Good p t := by
  unfold execQuarterCoolingLeave at ht
  rw [← Host.Outcome.next.inj ht]
  exact good_coolingLeave ‹_›

theorem good_execLogFlush {p : List Instr} {s : State} (h : Good p s) {t : State} (ht : execLogFlush s = .next t) : Good p t := by
  unfold execLogFlush at ht
  rw [← Host.Outcome.next.inj ht]
  exact good_logFlush ‹_›

/-! ## Machine/RowsLinks.lean -/

theorem good_execLinkTraining {p : List Instr} {s : State} (h : Good p s) {port ok} {t : State} (ht : execLinkTraining port ok s = .next t) : Good p t := by
  unfold execLinkTraining at ht
  rw [← Host.Outcome.next.inj ht]
  exact good_linkTraining ‹_›

theorem good_execLinkTrainRetryTimer {p : List Instr} {s : State} (h : Good p s) {port} {t : State} (ht : execLinkTrainRetryTimer port s = .next t) : Good p t := by
  unfold execLinkTrainRetryTimer at ht
  rw [← Host.Outcome.next.inj ht]
  exact good_trainRetry ‹_›

theorem good_execDiscoveryReceive {p : List Instr} {s : State} (h : Good p s) {port packet} {t : State} (ht : execDiscoveryReceive port packet s = .next t) : Good p t := by
  unfold execDiscoveryReceive at ht
  rw [← Host.Outcome.next.inj ht]
  exact good_discovered ‹_›

theorem good_execPortSignalLoss {p : List Instr} {s : State} (h : Good p s) {port} {t : State} (ht : execPortSignalLoss port s = .next t) : Good p t := by
  unfold execPortSignalLoss at ht
  rw [← Host.Outcome.next.inj ht]
  exact good_portLost ‹_›

theorem good_execPortFlitTimeout {p : List Instr} {s : State} (h : Good p s) {port} {t : State} (ht : execPortFlitTimeout port s = .next t) : Good p t := by
  unfold execPortFlitTimeout at ht
  rw [← Host.Outcome.next.inj ht]
  exact good_portLost ‹_›

theorem good_execFlitReceive {p : List Instr} {s : State} (h : Good p s) {port flit corrected} {t : State} (ht : execFlitReceive port flit corrected s = .next t) : Good p t := by
  unfold execFlitReceive at ht
  rw [← Host.Outcome.next.inj ht]
  exact good_flitReceived ‹_›

theorem good_execLinkAckTimer {p : List Instr} {s : State} (h : Good p s) {port} {t : State} (ht : execLinkAckTimer port s = .next t) : Good p t := by
  unfold execLinkAckTimer at ht
  rw [← Host.Outcome.next.inj ht]
  exact good_linkAckTimer ‹_›

theorem good_execLinkReplayTimeout {p : List Instr} {s : State} (h : Good p s) {port} {t : State} (ht : execLinkReplayTimeout port s = .next t) : Good p t := by
  unfold execLinkReplayTimeout at ht
  rw [← Host.Outcome.next.inj ht]
  exact good_replayTimeout ‹_›

theorem good_execSymbolErrorRatioExceed {p : List Instr} {s : State} (h : Good p s) {port} {t : State} (ht : execSymbolErrorRatioExceed port s = .next t) : Good p t := by
  unfold execSymbolErrorRatioExceed at ht
  rw [← Host.Outcome.next.inj ht]
  exact good_symbolErrors ‹_›

theorem good_execPacketForward {p : List Instr} {s : State} (h : Good p s) {port packet} {t : State} (ht : execPacketForward port packet s = .next t) : Good p t := by
  unfold execPacketForward at ht
  rw [← Host.Outcome.next.inj ht]
  exact good_transit ‹_›

theorem good_execLinkStateAdvertisementReceive {p : List Instr} {s : State} (h : Good p s) {port packet} {t : State} (ht : execLinkStateAdvertisementReceive port packet s = .next t) : Good p t := by
  unfold execLinkStateAdvertisementReceive at ht
  rw [← Host.Outcome.next.inj ht]
  exact good_lsaReceived ‹_›

theorem good_execLinkParametersReceive {p : List Instr} {s : State} (h : Good p s) {port packet} {t : State} (ht : execLinkParametersReceive port packet s = .next t) : Good p t := by
  unfold execLinkParametersReceive at ht
  rw [← Host.Outcome.next.inj ht]
  exact good_paramsReceived ‹_›

theorem good_execTimePacketReceive {p : List Instr} {s : State} (h : Good p s) {port packet phase} {t : State} (ht : execTimePacketReceive port packet phase s = .next t) : Good p t := by
  unfold execTimePacketReceive at ht
  rw [← Host.Outcome.next.inj ht]
  exact good_timeReceived ‹_›

theorem good_execWritePacketReceive {p : List Instr} {s : State} (h : Good p s) {packet} {t : State} (ht : execWritePacketReceive packet s = .next t) : Good p t := by
  unfold execWritePacketReceive at ht
  rw [← Host.Outcome.next.inj ht]
  exact good_receiveTyped ‹_›

theorem good_execReadRequestReceive {p : List Instr} {s : State} (h : Good p s) {packet} {t : State} (ht : execReadRequestReceive packet s = .next t) : Good p t := by
  unfold execReadRequestReceive at ht
  rw [← Host.Outcome.next.inj ht]
  exact good_receiveTyped ‹_›

theorem good_execReadResponseReceive {p : List Instr} {s : State} (h : Good p s) {packet} {t : State} (ht : execReadResponseReceive packet s = .next t) : Good p t := by
  unfold execReadResponseReceive at ht
  rw [← Host.Outcome.next.inj ht]
  exact good_receiveTyped ‹_›

theorem good_execPostUpdateReceive {p : List Instr} {s : State} (h : Good p s) {packet} {t : State} (ht : execPostUpdateReceive packet s = .next t) : Good p t := by
  unfold execPostUpdateReceive at ht
  rw [← Host.Outcome.next.inj ht]
  split
  · assumption
  · exact good_receiveTyped ‹_›

theorem good_execSubscriptionReceive {p : List Instr} {s : State} (h : Good p s) {packet} {t : State} (ht : execSubscriptionReceive packet s = .next t) : Good p t := by
  unfold execSubscriptionReceive at ht
  rw [← Host.Outcome.next.inj ht]
  split
  · exact good_receiveTyped ‹_›
  · assumption

theorem good_execSubscriptionRetry {p : List Instr} {s : State} (h : Good p s) {waiter} {t : State} (ht : execSubscriptionRetry waiter s = .next t) : Good p t := by
  unfold execSubscriptionRetry at ht
  rw [← Host.Outcome.next.inj ht]
  exact good_resubscribe ‹_›

theorem good_execCollectiveRequestRetry {p : List Instr} {s : State} (h : Good p s) {cmd} {t : State} (ht : execCollectiveRequestRetry cmd s = .next t) : Good p t := by
  unfold execCollectiveRequestRetry at ht
  rw [← Host.Outcome.next.inj ht]
  exact good_collRetry ‹_›

theorem good_execCollectiveAbortReceive {p : List Instr} {s : State} (h : Good p s) {packet} {t : State} (ht : execCollectiveAbortReceive packet s = .next t) : Good p t := by
  unfold execCollectiveAbortReceive at ht
  rw [← Host.Outcome.next.inj ht]
  split
  · exact good_receiveTyped ‹_›
  · assumption

theorem good_execCollectiveDataReceive {p : List Instr} {s : State} (h : Good p s) {packet} {t : State} (ht : execCollectiveDataReceive packet s = .next t) : Good p t := by
  unfold execCollectiveDataReceive at ht
  rw [← Host.Outcome.next.inj ht]
  split
  · assumption
  · exact good_receiveTyped ‹_›

theorem good_execManagementPacketReceive {p : List Instr} {s : State} (h : Good p s) {stalled packet} {t : State} (ht : execManagementPacketReceive stalled packet s = .next t) : Good p t := by
  unfold execManagementPacketReceive at ht
  rw [← Host.Outcome.next.inj ht]
  exact good_mgmtReceive ‹_›

theorem good_execE2eAckReceive {p : List Instr} {s : State} (h : Good p s) {packet} {t : State} (ht : execE2eAckReceive packet s = .next t) : Good p t := by
  unfold execE2eAckReceive at ht
  rw [← Host.Outcome.next.inj ht]
  exact good_e2eAck ‹_›

theorem good_execE2eAckTimer {p : List Instr} {s : State} (h : Good p s) {device cls} {t : State} (ht : execE2eAckTimer device cls s = .next t) : Good p t := by
  unfold execE2eAckTimer at ht
  rw [← Host.Outcome.next.inj ht]
  exact good_e2eAckTimer ‹_›

theorem good_execE2eRetxTimer {p : List Instr} {s : State} (h : Good p s) {device cls} {t : State} (ht : execE2eRetxTimer device cls s = .next t) : Good p t := by
  unfold execE2eRetxTimer at ht
  rw [← Host.Outcome.next.inj ht]
  exact good_e2eRetx ‹_›

theorem good_execE2eUnreachableTimer {p : List Instr} {s : State} (h : Good p s) {device} {t : State} (ht : execE2eUnreachableTimer device s = .next t) : Good p t := by
  unfold execE2eUnreachableTimer at ht
  rw [← Host.Outcome.next.inj ht]
  exact good_e2eUnreachable ‹_›

theorem good_execLineageTransactionReceive {p : List Instr} {s : State} (h : Good p s) {port transaction} {t : State} (ht : execLineageTransactionReceive port transaction s = .next t) : Good p t := by
  unfold execLineageTransactionReceive at ht
  rw [← Host.Outcome.next.inj ht]
  exact good_lineageTransaction ‹_›

theorem good_execLineagePortTraining {p : List Instr} {s : State} (h : Good p s) {port mode node} {t : State} (ht : execLineagePortTraining port mode node s = .next t) : Good p t := by
  unfold execLineagePortTraining at ht
  rw [← Host.Outcome.next.inj ht]
  exact good_lineageTrained ‹_›

theorem good_execLineageResponseReceive {p : List Instr} {s : State} (h : Good p s) {port transaction} {t : State} (ht : execLineageResponseReceive port transaction s = .next t) : Good p t := by
  unfold execLineageResponseReceive at ht
  rw [← Host.Outcome.next.inj ht]
  exact good_lineageResponse ‹_›

end Sys2Proof.Machine
end

