-- ==== Sys2Proof/Laws/State.lean ====
section
/-! SUPPORT. One lemma per field per update of State: the groups an update leaves as they were, and what it puts where. -/

namespace Sys2Proof.Machine

@[simp] theorem State.answerObj_mem (s : State) res v seq : (State.answerObj s res v seq).mem = s.mem := rfl
@[simp] theorem State.answerObj_queues (s : State) res v seq : (State.answerObj s res v seq).queues = s.queues := rfl
@[simp] theorem State.answerObj_regs (s : State) res v seq : (State.answerObj s res v seq).regs = s.regs := rfl
@[simp] theorem State.answerObj_exec (s : State) res v seq : (State.answerObj s res v seq).exec = s.exec := rfl
@[simp] theorem State.answerObj_remuda (s : State) res v seq : (State.answerObj s res v seq).remuda = s.remuda := rfl
@[simp] theorem State.answerObj_ostler (s : State) res v seq : (State.answerObj s res v seq).ostler = s.ostler := rfl
@[simp] theorem State.answerObj_power (s : State) res v seq : (State.answerObj s res v seq).power = s.power := rfl
@[simp] theorem State.answerObj_sched (s : State) res v seq : (State.answerObj s res v seq).sched = s.sched := rfl
@[simp] theorem State.answerObj_fabric (s : State) res v seq : (State.answerObj s res v seq).fabric = s.fabric := rfl
@[simp] theorem State.answerObj_obs (s : State) res v seq : (State.answerObj s res v seq).obs = s.obs := rfl
@[simp] theorem State.answerObj_codec (s : State) res v seq : (State.answerObj s res v seq).codec = s.codec := rfl
@[simp] theorem State.answerObj_freeCount (s : State) res v seq : (State.answerObj s res v seq).freeCount = s.freeCount := rfl
@[simp] theorem State.answerObj_pending (s : State) res v seq : (State.answerObj s res v seq).pending = s.pending := rfl

@[simp] theorem State.writeObj_mem (s : State) key v : (State.writeObj s key v).mem = s.mem := rfl
@[simp] theorem State.writeObj_queues (s : State) key v : (State.writeObj s key v).queues = s.queues := rfl
@[simp] theorem State.writeObj_regs (s : State) key v : (State.writeObj s key v).regs = s.regs := rfl
@[simp] theorem State.writeObj_exec (s : State) key v : (State.writeObj s key v).exec = s.exec := rfl
@[simp] theorem State.writeObj_remuda (s : State) key v : (State.writeObj s key v).remuda = s.remuda := rfl
@[simp] theorem State.writeObj_ostler (s : State) key v : (State.writeObj s key v).ostler = s.ostler := rfl
@[simp] theorem State.writeObj_power (s : State) key v : (State.writeObj s key v).power = s.power := rfl
@[simp] theorem State.writeObj_sched (s : State) key v : (State.writeObj s key v).sched = s.sched := rfl
@[simp] theorem State.writeObj_fabric (s : State) key v : (State.writeObj s key v).fabric = s.fabric := rfl
@[simp] theorem State.writeObj_obs (s : State) key v : (State.writeObj s key v).obs = s.obs := rfl
@[simp] theorem State.writeObj_codec (s : State) key v : (State.writeObj s key v).codec = s.codec := rfl
@[simp] theorem State.writeObj_freeCount (s : State) key v : (State.writeObj s key v).freeCount = s.freeCount := rfl
@[simp] theorem State.writeObj_pending (s : State) key v : (State.writeObj s key v).pending = s.pending := rfl

@[simp] theorem State.setObj_mem (s : State) key v : (State.setObj s key v).mem = s.mem := rfl
@[simp] theorem State.setObj_queues (s : State) key v : (State.setObj s key v).queues = s.queues := rfl
@[simp] theorem State.setObj_regs (s : State) key v : (State.setObj s key v).regs = s.regs := rfl
@[simp] theorem State.setObj_exec (s : State) key v : (State.setObj s key v).exec = s.exec := rfl
@[simp] theorem State.setObj_remuda (s : State) key v : (State.setObj s key v).remuda = s.remuda := rfl
@[simp] theorem State.setObj_ostler (s : State) key v : (State.setObj s key v).ostler = s.ostler := rfl
@[simp] theorem State.setObj_power (s : State) key v : (State.setObj s key v).power = s.power := rfl
@[simp] theorem State.setObj_sched (s : State) key v : (State.setObj s key v).sched = s.sched := rfl
@[simp] theorem State.setObj_fabric (s : State) key v : (State.setObj s key v).fabric = s.fabric := rfl
@[simp] theorem State.setObj_obs (s : State) key v : (State.setObj s key v).obs = s.obs := rfl
@[simp] theorem State.setObj_codec (s : State) key v : (State.setObj s key v).codec = s.codec := rfl
@[simp] theorem State.setObj_freeCount (s : State) key v : (State.setObj s key v).freeCount = s.freeCount := rfl
@[simp] theorem State.setObj_pending (s : State) key v : (State.setObj s key v).pending = s.pending := rfl

@[simp] theorem State.notify_mem (s : State) a0 : (State.notify s a0).mem = s.mem := rfl
@[simp] theorem State.notify_queues (s : State) a0 : (State.notify s a0).queues = s.queues := rfl
@[simp] theorem State.notify_regs (s : State) a0 : (State.notify s a0).regs = s.regs := rfl
@[simp] theorem State.notify_exec (s : State) a0 : (State.notify s a0).exec = s.exec := rfl
@[simp] theorem State.notify_remuda (s : State) a0 : (State.notify s a0).remuda = s.remuda := rfl
@[simp] theorem State.notify_ostler (s : State) a0 : (State.notify s a0).ostler = s.ostler := rfl
@[simp] theorem State.notify_power (s : State) a0 : (State.notify s a0).power = s.power := rfl
@[simp] theorem State.notify_sched (s : State) a0 : (State.notify s a0).sched = s.sched := rfl
@[simp] theorem State.notify_fabric (s : State) a0 : (State.notify s a0).fabric = s.fabric := rfl
@[simp] theorem State.notify_obs (s : State) a0 : (State.notify s a0).obs = s.obs := rfl
@[simp] theorem State.notify_codec (s : State) a0 : (State.notify s a0).codec = s.codec := rfl
@[simp] theorem State.notify_freeCount (s : State) a0 : (State.notify s a0).freeCount = s.freeCount := rfl
@[simp] theorem State.notify_pending (s : State) a0 : (State.notify s a0).pending = s.pending := rfl

@[simp] theorem State.sendVector_mem (s : State) f v : (State.sendVector s f v).mem = s.mem := rfl
@[simp] theorem State.sendVector_queues (s : State) f v : (State.sendVector s f v).queues = s.queues := rfl
@[simp] theorem State.sendVector_dict (s : State) f v : (State.sendVector s f v).dict = s.dict := rfl
@[simp] theorem State.sendVector_exec (s : State) f v : (State.sendVector s f v).exec = s.exec := rfl
@[simp] theorem State.sendVector_remuda (s : State) f v : (State.sendVector s f v).remuda = s.remuda := rfl
@[simp] theorem State.sendVector_ostler (s : State) f v : (State.sendVector s f v).ostler = s.ostler := rfl
@[simp] theorem State.sendVector_power (s : State) f v : (State.sendVector s f v).power = s.power := rfl
@[simp] theorem State.sendVector_sched (s : State) f v : (State.sendVector s f v).sched = s.sched := rfl
@[simp] theorem State.sendVector_fabric (s : State) f v : (State.sendVector s f v).fabric = s.fabric := rfl
@[simp] theorem State.sendVector_obs (s : State) f v : (State.sendVector s f v).obs = s.obs := rfl
@[simp] theorem State.sendVector_codec (s : State) f v : (State.sendVector s f v).codec = s.codec := rfl
@[simp] theorem State.sendVector_freeCount (s : State) f v : (State.sendVector s f v).freeCount = s.freeCount := rfl
@[simp] theorem State.sendVector_pending (s : State) f v : (State.sendVector s f v).pending = s.pending := rfl

@[simp] theorem State.setQueue_mem (s : State) q v : (State.setQueue s q v).mem = s.mem := rfl
@[simp] theorem State.setQueue_regs (s : State) q v : (State.setQueue s q v).regs = s.regs := rfl
@[simp] theorem State.setQueue_dict (s : State) q v : (State.setQueue s q v).dict = s.dict := rfl
@[simp] theorem State.setQueue_exec (s : State) q v : (State.setQueue s q v).exec = s.exec := rfl
@[simp] theorem State.setQueue_remuda (s : State) q v : (State.setQueue s q v).remuda = s.remuda := rfl
@[simp] theorem State.setQueue_ostler (s : State) q v : (State.setQueue s q v).ostler = s.ostler := rfl
@[simp] theorem State.setQueue_power (s : State) q v : (State.setQueue s q v).power = s.power := rfl
@[simp] theorem State.setQueue_sched (s : State) q v : (State.setQueue s q v).sched = s.sched := rfl
@[simp] theorem State.setQueue_fabric (s : State) q v : (State.setQueue s q v).fabric = s.fabric := rfl
@[simp] theorem State.setQueue_obs (s : State) q v : (State.setQueue s q v).obs = s.obs := rfl
@[simp] theorem State.setQueue_codec (s : State) q v : (State.setQueue s q v).codec = s.codec := rfl
@[simp] theorem State.setQueue_freeCount (s : State) q v : (State.setQueue s q v).freeCount = s.freeCount := rfl
@[simp] theorem State.setQueue_pending (s : State) q v : (State.setQueue s q v).pending = s.pending := rfl

@[simp] theorem State.withMem_queues (s : State) m : (State.withMem s m).queues = s.queues := rfl
@[simp] theorem State.withMem_regs (s : State) m : (State.withMem s m).regs = s.regs := rfl
@[simp] theorem State.withMem_dict (s : State) m : (State.withMem s m).dict = s.dict := rfl
@[simp] theorem State.withMem_exec (s : State) m : (State.withMem s m).exec = s.exec := rfl
@[simp] theorem State.withMem_remuda (s : State) m : (State.withMem s m).remuda = s.remuda := rfl
@[simp] theorem State.withMem_ostler (s : State) m : (State.withMem s m).ostler = s.ostler := rfl
@[simp] theorem State.withMem_power (s : State) m : (State.withMem s m).power = s.power := rfl
@[simp] theorem State.withMem_sched (s : State) m : (State.withMem s m).sched = s.sched := rfl
@[simp] theorem State.withMem_fabric (s : State) m : (State.withMem s m).fabric = s.fabric := rfl
@[simp] theorem State.withMem_obs (s : State) m : (State.withMem s m).obs = s.obs := rfl
@[simp] theorem State.withMem_codec (s : State) m : (State.withMem s m).codec = s.codec := rfl
@[simp] theorem State.withMem_freeCount (s : State) m : (State.withMem s m).freeCount = s.freeCount := rfl
@[simp] theorem State.withMem_pending (s : State) m : (State.withMem s m).pending = s.pending := rfl

@[simp] theorem State.setEntry_mem (s : State) e v : (State.setEntry s e v).mem = s.mem := rfl
@[simp] theorem State.setEntry_queues (s : State) e v : (State.setEntry s e v).queues = s.queues := rfl
@[simp] theorem State.setEntry_regs (s : State) e v : (State.setEntry s e v).regs = s.regs := rfl
@[simp] theorem State.setEntry_dict (s : State) e v : (State.setEntry s e v).dict = s.dict := rfl
@[simp] theorem State.setEntry_exec (s : State) e v : (State.setEntry s e v).exec = s.exec := rfl
@[simp] theorem State.setEntry_ostler (s : State) e v : (State.setEntry s e v).ostler = s.ostler := rfl
@[simp] theorem State.setEntry_power (s : State) e v : (State.setEntry s e v).power = s.power := rfl
@[simp] theorem State.setEntry_sched (s : State) e v : (State.setEntry s e v).sched = s.sched := rfl
@[simp] theorem State.setEntry_fabric (s : State) e v : (State.setEntry s e v).fabric = s.fabric := rfl
@[simp] theorem State.setEntry_obs (s : State) e v : (State.setEntry s e v).obs = s.obs := rfl
@[simp] theorem State.setEntry_codec (s : State) e v : (State.setEntry s e v).codec = s.codec := rfl
@[simp] theorem State.setEntry_freeCount (s : State) e v : (State.setEntry s e v).freeCount = s.freeCount := rfl
@[simp] theorem State.setEntry_pending (s : State) e v : (State.setEntry s e v).pending = s.pending := rfl

@[simp] theorem State.setAttrib_mem (s : State) t l : (State.setAttrib s t l).mem = s.mem := rfl
@[simp] theorem State.setAttrib_queues (s : State) t l : (State.setAttrib s t l).queues = s.queues := rfl
@[simp] theorem State.setAttrib_regs (s : State) t l : (State.setAttrib s t l).regs = s.regs := rfl
@[simp] theorem State.setAttrib_dict (s : State) t l : (State.setAttrib s t l).dict = s.dict := rfl
@[simp] theorem State.setAttrib_exec (s : State) t l : (State.setAttrib s t l).exec = s.exec := rfl
@[simp] theorem State.setAttrib_remuda (s : State) t l : (State.setAttrib s t l).remuda = s.remuda := rfl
@[simp] theorem State.setAttrib_ostler (s : State) t l : (State.setAttrib s t l).ostler = s.ostler := rfl
@[simp] theorem State.setAttrib_power (s : State) t l : (State.setAttrib s t l).power = s.power := rfl
@[simp] theorem State.setAttrib_sched (s : State) t l : (State.setAttrib s t l).sched = s.sched := rfl
@[simp] theorem State.setAttrib_fabric (s : State) t l : (State.setAttrib s t l).fabric = s.fabric := rfl
@[simp] theorem State.setAttrib_codec (s : State) t l : (State.setAttrib s t l).codec = s.codec := rfl
@[simp] theorem State.setAttrib_freeCount (s : State) t l : (State.setAttrib s t l).freeCount = s.freeCount := rfl
@[simp] theorem State.setAttrib_pending (s : State) t l : (State.setAttrib s t l).pending = s.pending := rfl

@[simp] theorem State.setPort_mem (s : State) p v : (State.setPort s p v).mem = s.mem := rfl
@[simp] theorem State.setPort_queues (s : State) p v : (State.setPort s p v).queues = s.queues := rfl
@[simp] theorem State.setPort_regs (s : State) p v : (State.setPort s p v).regs = s.regs := rfl
@[simp] theorem State.setPort_dict (s : State) p v : (State.setPort s p v).dict = s.dict := rfl
@[simp] theorem State.setPort_exec (s : State) p v : (State.setPort s p v).exec = s.exec := rfl
@[simp] theorem State.setPort_remuda (s : State) p v : (State.setPort s p v).remuda = s.remuda := rfl
@[simp] theorem State.setPort_ostler (s : State) p v : (State.setPort s p v).ostler = s.ostler := rfl
@[simp] theorem State.setPort_power (s : State) p v : (State.setPort s p v).power = s.power := rfl
@[simp] theorem State.setPort_sched (s : State) p v : (State.setPort s p v).sched = s.sched := rfl
@[simp] theorem State.setPort_obs (s : State) p v : (State.setPort s p v).obs = s.obs := rfl
@[simp] theorem State.setPort_codec (s : State) p v : (State.setPort s p v).codec = s.codec := rfl
@[simp] theorem State.setPort_freeCount (s : State) p v : (State.setPort s p v).freeCount = s.freeCount := rfl
@[simp] theorem State.setPort_pending (s : State) p v : (State.setPort s p v).pending = s.pending := rfl

@[simp] theorem State.setStreamOut_mem (s : State) dst cls v : (State.setStreamOut s dst cls v).mem = s.mem := rfl
@[simp] theorem State.setStreamOut_queues (s : State) dst cls v : (State.setStreamOut s dst cls v).queues = s.queues := rfl
@[simp] theorem State.setStreamOut_regs (s : State) dst cls v : (State.setStreamOut s dst cls v).regs = s.regs := rfl
@[simp] theorem State.setStreamOut_dict (s : State) dst cls v : (State.setStreamOut s dst cls v).dict = s.dict := rfl
@[simp] theorem State.setStreamOut_exec (s : State) dst cls v : (State.setStreamOut s dst cls v).exec = s.exec := rfl
@[simp] theorem State.setStreamOut_remuda (s : State) dst cls v : (State.setStreamOut s dst cls v).remuda = s.remuda := rfl
@[simp] theorem State.setStreamOut_ostler (s : State) dst cls v : (State.setStreamOut s dst cls v).ostler = s.ostler := rfl
@[simp] theorem State.setStreamOut_power (s : State) dst cls v : (State.setStreamOut s dst cls v).power = s.power := rfl
@[simp] theorem State.setStreamOut_sched (s : State) dst cls v : (State.setStreamOut s dst cls v).sched = s.sched := rfl
@[simp] theorem State.setStreamOut_obs (s : State) dst cls v : (State.setStreamOut s dst cls v).obs = s.obs := rfl
@[simp] theorem State.setStreamOut_codec (s : State) dst cls v : (State.setStreamOut s dst cls v).codec = s.codec := rfl
@[simp] theorem State.setStreamOut_freeCount (s : State) dst cls v : (State.setStreamOut s dst cls v).freeCount = s.freeCount := rfl
@[simp] theorem State.setStreamOut_pending (s : State) dst cls v : (State.setStreamOut s dst cls v).pending = s.pending := rfl

@[simp] theorem State.setStreamIn_mem (s : State) src cls v : (State.setStreamIn s src cls v).mem = s.mem := rfl
@[simp] theorem State.setStreamIn_queues (s : State) src cls v : (State.setStreamIn s src cls v).queues = s.queues := rfl
@[simp] theorem State.setStreamIn_regs (s : State) src cls v : (State.setStreamIn s src cls v).regs = s.regs := rfl
@[simp] theorem State.setStreamIn_dict (s : State) src cls v : (State.setStreamIn s src cls v).dict = s.dict := rfl
@[simp] theorem State.setStreamIn_exec (s : State) src cls v : (State.setStreamIn s src cls v).exec = s.exec := rfl
@[simp] theorem State.setStreamIn_remuda (s : State) src cls v : (State.setStreamIn s src cls v).remuda = s.remuda := rfl
@[simp] theorem State.setStreamIn_ostler (s : State) src cls v : (State.setStreamIn s src cls v).ostler = s.ostler := rfl
@[simp] theorem State.setStreamIn_power (s : State) src cls v : (State.setStreamIn s src cls v).power = s.power := rfl
@[simp] theorem State.setStreamIn_sched (s : State) src cls v : (State.setStreamIn s src cls v).sched = s.sched := rfl
@[simp] theorem State.setStreamIn_obs (s : State) src cls v : (State.setStreamIn s src cls v).obs = s.obs := rfl
@[simp] theorem State.setStreamIn_codec (s : State) src cls v : (State.setStreamIn s src cls v).codec = s.codec := rfl
@[simp] theorem State.setStreamIn_freeCount (s : State) src cls v : (State.setStreamIn s src cls v).freeCount = s.freeCount := rfl
@[simp] theorem State.setStreamIn_pending (s : State) src cls v : (State.setStreamIn s src cls v).pending = s.pending := rfl

@[simp] theorem State.setRun_mem (s : State) r : (State.setRun s r).mem = s.mem := rfl
@[simp] theorem State.setRun_queues (s : State) r : (State.setRun s r).queues = s.queues := rfl
@[simp] theorem State.setRun_regs (s : State) r : (State.setRun s r).regs = s.regs := rfl
@[simp] theorem State.setRun_dict (s : State) r : (State.setRun s r).dict = s.dict := rfl
@[simp] theorem State.setRun_exec (s : State) r : (State.setRun s r).exec = s.exec := rfl
@[simp] theorem State.setRun_ostler (s : State) r : (State.setRun s r).ostler = s.ostler := rfl
@[simp] theorem State.setRun_power (s : State) r : (State.setRun s r).power = s.power := rfl
@[simp] theorem State.setRun_sched (s : State) r : (State.setRun s r).sched = s.sched := rfl
@[simp] theorem State.setRun_fabric (s : State) r : (State.setRun s r).fabric = s.fabric := rfl
@[simp] theorem State.setRun_obs (s : State) r : (State.setRun s r).obs = s.obs := rfl
@[simp] theorem State.setRun_codec (s : State) r : (State.setRun s r).codec = s.codec := rfl
@[simp] theorem State.setRun_freeCount (s : State) r : (State.setRun s r).freeCount = s.freeCount := rfl
@[simp] theorem State.setRun_pending (s : State) r : (State.setRun s r).pending = s.pending := rfl

@[simp] theorem State.setWait_mem (s : State) waiter st : (State.setWait s waiter st).mem = s.mem := rfl
@[simp] theorem State.setWait_queues (s : State) waiter st : (State.setWait s waiter st).queues = s.queues := rfl
@[simp] theorem State.setWait_regs (s : State) waiter st : (State.setWait s waiter st).regs = s.regs := rfl
@[simp] theorem State.setWait_dict (s : State) waiter st : (State.setWait s waiter st).dict = s.dict := rfl
@[simp] theorem State.setWait_exec (s : State) waiter st : (State.setWait s waiter st).exec = s.exec := rfl
@[simp] theorem State.setWait_remuda (s : State) waiter st : (State.setWait s waiter st).remuda = s.remuda := rfl
@[simp] theorem State.setWait_ostler (s : State) waiter st : (State.setWait s waiter st).ostler = s.ostler := rfl
@[simp] theorem State.setWait_power (s : State) waiter st : (State.setWait s waiter st).power = s.power := rfl
@[simp] theorem State.setWait_sched (s : State) waiter st : (State.setWait s waiter st).sched = s.sched := rfl
@[simp] theorem State.setWait_obs (s : State) waiter st : (State.setWait s waiter st).obs = s.obs := rfl
@[simp] theorem State.setWait_codec (s : State) waiter st : (State.setWait s waiter st).codec = s.codec := rfl
@[simp] theorem State.setWait_freeCount (s : State) waiter st : (State.setWait s waiter st).freeCount = s.freeCount := rfl
@[simp] theorem State.setWait_pending (s : State) waiter st : (State.setWait s waiter st).pending = s.pending := rfl

@[simp] theorem State.clearPosts_mem (s : State) lo hi : (State.clearPosts s lo hi).mem = s.mem := rfl
@[simp] theorem State.clearPosts_queues (s : State) lo hi : (State.clearPosts s lo hi).queues = s.queues := rfl
@[simp] theorem State.clearPosts_regs (s : State) lo hi : (State.clearPosts s lo hi).regs = s.regs := rfl
@[simp] theorem State.clearPosts_dict (s : State) lo hi : (State.clearPosts s lo hi).dict = s.dict := rfl
@[simp] theorem State.clearPosts_exec (s : State) lo hi : (State.clearPosts s lo hi).exec = s.exec := rfl
@[simp] theorem State.clearPosts_remuda (s : State) lo hi : (State.clearPosts s lo hi).remuda = s.remuda := rfl
@[simp] theorem State.clearPosts_ostler (s : State) lo hi : (State.clearPosts s lo hi).ostler = s.ostler := rfl
@[simp] theorem State.clearPosts_power (s : State) lo hi : (State.clearPosts s lo hi).power = s.power := rfl
@[simp] theorem State.clearPosts_sched (s : State) lo hi : (State.clearPosts s lo hi).sched = s.sched := rfl
@[simp] theorem State.clearPosts_obs (s : State) lo hi : (State.clearPosts s lo hi).obs = s.obs := rfl
@[simp] theorem State.clearPosts_codec (s : State) lo hi : (State.clearPosts s lo hi).codec = s.codec := rfl
@[simp] theorem State.clearPosts_freeCount (s : State) lo hi : (State.clearPosts s lo hi).freeCount = s.freeCount := rfl
@[simp] theorem State.clearPosts_pending (s : State) lo hi : (State.clearPosts s lo hi).pending = s.pending := rfl

@[simp] theorem State.dropWaits_mem (s : State) p : (State.dropWaits s p).mem = s.mem := rfl
@[simp] theorem State.dropWaits_queues (s : State) p : (State.dropWaits s p).queues = s.queues := rfl
@[simp] theorem State.dropWaits_regs (s : State) p : (State.dropWaits s p).regs = s.regs := rfl
@[simp] theorem State.dropWaits_dict (s : State) p : (State.dropWaits s p).dict = s.dict := rfl
@[simp] theorem State.dropWaits_exec (s : State) p : (State.dropWaits s p).exec = s.exec := rfl
@[simp] theorem State.dropWaits_remuda (s : State) p : (State.dropWaits s p).remuda = s.remuda := rfl
@[simp] theorem State.dropWaits_ostler (s : State) p : (State.dropWaits s p).ostler = s.ostler := rfl
@[simp] theorem State.dropWaits_power (s : State) p : (State.dropWaits s p).power = s.power := rfl
@[simp] theorem State.dropWaits_sched (s : State) p : (State.dropWaits s p).sched = s.sched := rfl
@[simp] theorem State.dropWaits_obs (s : State) p : (State.dropWaits s p).obs = s.obs := rfl
@[simp] theorem State.dropWaits_codec (s : State) p : (State.dropWaits s p).codec = s.codec := rfl
@[simp] theorem State.dropWaits_freeCount (s : State) p : (State.dropWaits s p).freeCount = s.freeCount := rfl
@[simp] theorem State.dropWaits_pending (s : State) p : (State.dropWaits s p).pending = s.pending := rfl

@[simp] theorem State.arrivals_mem (s : State) : (State.arrivals s).mem = s.mem := rfl
@[simp] theorem State.arrivals_queues (s : State) : (State.arrivals s).queues = s.queues := rfl
@[simp] theorem State.arrivals_regs (s : State) : (State.arrivals s).regs = s.regs := rfl
@[simp] theorem State.arrivals_dict (s : State) : (State.arrivals s).dict = s.dict := rfl
@[simp] theorem State.arrivals_exec (s : State) : (State.arrivals s).exec = s.exec := rfl
@[simp] theorem State.arrivals_remuda (s : State) : (State.arrivals s).remuda = s.remuda := rfl
@[simp] theorem State.arrivals_ostler (s : State) : (State.arrivals s).ostler = s.ostler := rfl
@[simp] theorem State.arrivals_power (s : State) : (State.arrivals s).power = s.power := rfl
@[simp] theorem State.arrivals_sched (s : State) : (State.arrivals s).sched = s.sched := rfl
@[simp] theorem State.arrivals_obs (s : State) : (State.arrivals s).obs = s.obs := rfl
@[simp] theorem State.arrivals_codec (s : State) : (State.arrivals s).codec = s.codec := rfl
@[simp] theorem State.arrivals_freeCount (s : State) : (State.arrivals s).freeCount = s.freeCount := rfl
@[simp] theorem State.arrivals_pending (s : State) : (State.arrivals s).pending = s.pending := rfl

@[simp] theorem State.setPreempt_mem (s : State) t v : (State.setPreempt s t v).mem = s.mem := rfl
@[simp] theorem State.setPreempt_queues (s : State) t v : (State.setPreempt s t v).queues = s.queues := rfl
@[simp] theorem State.setPreempt_regs (s : State) t v : (State.setPreempt s t v).regs = s.regs := rfl
@[simp] theorem State.setPreempt_dict (s : State) t v : (State.setPreempt s t v).dict = s.dict := rfl
@[simp] theorem State.setPreempt_exec (s : State) t v : (State.setPreempt s t v).exec = s.exec := rfl
@[simp] theorem State.setPreempt_remuda (s : State) t v : (State.setPreempt s t v).remuda = s.remuda := rfl
@[simp] theorem State.setPreempt_ostler (s : State) t v : (State.setPreempt s t v).ostler = s.ostler := rfl
@[simp] theorem State.setPreempt_power (s : State) t v : (State.setPreempt s t v).power = s.power := rfl
@[simp] theorem State.setPreempt_fabric (s : State) t v : (State.setPreempt s t v).fabric = s.fabric := rfl
@[simp] theorem State.setPreempt_obs (s : State) t v : (State.setPreempt s t v).obs = s.obs := rfl
@[simp] theorem State.setPreempt_codec (s : State) t v : (State.setPreempt s t v).codec = s.codec := rfl
@[simp] theorem State.setPreempt_freeCount (s : State) t v : (State.setPreempt s t v).freeCount = s.freeCount := rfl
@[simp] theorem State.setPreempt_pending (s : State) t v : (State.setPreempt s t v).pending = s.pending := rfl

@[simp] theorem State.dropCmd_mem (s : State) id : (State.dropCmd s id).mem = s.mem := rfl
@[simp] theorem State.dropCmd_queues (s : State) id : (State.dropCmd s id).queues = s.queues := rfl
@[simp] theorem State.dropCmd_regs (s : State) id : (State.dropCmd s id).regs = s.regs := rfl
@[simp] theorem State.dropCmd_dict (s : State) id : (State.dropCmd s id).dict = s.dict := rfl
@[simp] theorem State.dropCmd_remuda (s : State) id : (State.dropCmd s id).remuda = s.remuda := rfl
@[simp] theorem State.dropCmd_ostler (s : State) id : (State.dropCmd s id).ostler = s.ostler := rfl
@[simp] theorem State.dropCmd_power (s : State) id : (State.dropCmd s id).power = s.power := rfl
@[simp] theorem State.dropCmd_sched (s : State) id : (State.dropCmd s id).sched = s.sched := rfl
@[simp] theorem State.dropCmd_fabric (s : State) id : (State.dropCmd s id).fabric = s.fabric := rfl
@[simp] theorem State.dropCmd_obs (s : State) id : (State.dropCmd s id).obs = s.obs := rfl
@[simp] theorem State.dropCmd_codec (s : State) id : (State.dropCmd s id).codec = s.codec := rfl
@[simp] theorem State.dropCmd_freeCount (s : State) id : (State.dropCmd s id).freeCount = s.freeCount := rfl
@[simp] theorem State.dropCmd_pending (s : State) id : (State.dropCmd s id).pending = s.pending := rfl

@[simp] theorem State.setCmd_mem (s : State) c : (State.setCmd s c).mem = s.mem := rfl
@[simp] theorem State.setCmd_queues (s : State) c : (State.setCmd s c).queues = s.queues := rfl
@[simp] theorem State.setCmd_regs (s : State) c : (State.setCmd s c).regs = s.regs := rfl
@[simp] theorem State.setCmd_dict (s : State) c : (State.setCmd s c).dict = s.dict := rfl
@[simp] theorem State.setCmd_remuda (s : State) c : (State.setCmd s c).remuda = s.remuda := rfl
@[simp] theorem State.setCmd_ostler (s : State) c : (State.setCmd s c).ostler = s.ostler := rfl
@[simp] theorem State.setCmd_power (s : State) c : (State.setCmd s c).power = s.power := rfl
@[simp] theorem State.setCmd_sched (s : State) c : (State.setCmd s c).sched = s.sched := rfl
@[simp] theorem State.setCmd_fabric (s : State) c : (State.setCmd s c).fabric = s.fabric := rfl
@[simp] theorem State.setCmd_obs (s : State) c : (State.setCmd s c).obs = s.obs := rfl
@[simp] theorem State.setCmd_codec (s : State) c : (State.setCmd s c).codec = s.codec := rfl
@[simp] theorem State.setCmd_freeCount (s : State) c : (State.setCmd s c).freeCount = s.freeCount := rfl
@[simp] theorem State.setCmd_pending (s : State) c : (State.setCmd s c).pending = s.pending := rfl

@[simp] theorem State.putStall_mem (s : State) t i v : (State.putStall s t i v).mem = s.mem := rfl
@[simp] theorem State.putStall_queues (s : State) t i v : (State.putStall s t i v).queues = s.queues := rfl
@[simp] theorem State.putStall_regs (s : State) t i v : (State.putStall s t i v).regs = s.regs := rfl
@[simp] theorem State.putStall_dict (s : State) t i v : (State.putStall s t i v).dict = s.dict := rfl
@[simp] theorem State.putStall_exec (s : State) t i v : (State.putStall s t i v).exec = s.exec := rfl
@[simp] theorem State.putStall_ostler (s : State) t i v : (State.putStall s t i v).ostler = s.ostler := rfl
@[simp] theorem State.putStall_power (s : State) t i v : (State.putStall s t i v).power = s.power := rfl
@[simp] theorem State.putStall_sched (s : State) t i v : (State.putStall s t i v).sched = s.sched := rfl
@[simp] theorem State.putStall_fabric (s : State) t i v : (State.putStall s t i v).fabric = s.fabric := rfl
@[simp] theorem State.putStall_obs (s : State) t i v : (State.putStall s t i v).obs = s.obs := rfl
@[simp] theorem State.putStall_codec (s : State) t i v : (State.putStall s t i v).codec = s.codec := rfl
@[simp] theorem State.putStall_freeCount (s : State) t i v : (State.putStall s t i v).freeCount = s.freeCount := rfl
@[simp] theorem State.putStall_pending (s : State) t i v : (State.putStall s t i v).pending = s.pending := rfl

@[simp] theorem State.dropRun_mem (s : State) id : (State.dropRun s id).mem = s.mem := rfl
@[simp] theorem State.dropRun_queues (s : State) id : (State.dropRun s id).queues = s.queues := rfl
@[simp] theorem State.dropRun_regs (s : State) id : (State.dropRun s id).regs = s.regs := rfl
@[simp] theorem State.dropRun_dict (s : State) id : (State.dropRun s id).dict = s.dict := rfl
@[simp] theorem State.dropRun_exec (s : State) id : (State.dropRun s id).exec = s.exec := rfl
@[simp] theorem State.dropRun_ostler (s : State) id : (State.dropRun s id).ostler = s.ostler := rfl
@[simp] theorem State.dropRun_power (s : State) id : (State.dropRun s id).power = s.power := rfl
@[simp] theorem State.dropRun_sched (s : State) id : (State.dropRun s id).sched = s.sched := rfl
@[simp] theorem State.dropRun_fabric (s : State) id : (State.dropRun s id).fabric = s.fabric := rfl
@[simp] theorem State.dropRun_obs (s : State) id : (State.dropRun s id).obs = s.obs := rfl
@[simp] theorem State.dropRun_codec (s : State) id : (State.dropRun s id).codec = s.codec := rfl
@[simp] theorem State.dropRun_freeCount (s : State) id : (State.dropRun s id).freeCount = s.freeCount := rfl
@[simp] theorem State.dropRun_pending (s : State) id : (State.dropRun s id).pending = s.pending := rfl

@[simp] theorem State.addRun_mem (s : State) f : (State.addRun s f).mem = s.mem := rfl
@[simp] theorem State.addRun_queues (s : State) f : (State.addRun s f).queues = s.queues := rfl
@[simp] theorem State.addRun_regs (s : State) f : (State.addRun s f).regs = s.regs := rfl
@[simp] theorem State.addRun_dict (s : State) f : (State.addRun s f).dict = s.dict := rfl
@[simp] theorem State.addRun_exec (s : State) f : (State.addRun s f).exec = s.exec := rfl
@[simp] theorem State.addRun_ostler (s : State) f : (State.addRun s f).ostler = s.ostler := rfl
@[simp] theorem State.addRun_power (s : State) f : (State.addRun s f).power = s.power := rfl
@[simp] theorem State.addRun_sched (s : State) f : (State.addRun s f).sched = s.sched := rfl
@[simp] theorem State.addRun_fabric (s : State) f : (State.addRun s f).fabric = s.fabric := rfl
@[simp] theorem State.addRun_obs (s : State) f : (State.addRun s f).obs = s.obs := rfl
@[simp] theorem State.addRun_codec (s : State) f : (State.addRun s f).codec = s.codec := rfl
@[simp] theorem State.addRun_freeCount (s : State) f : (State.addRun s f).freeCount = s.freeCount := rfl
@[simp] theorem State.addRun_pending (s : State) f : (State.addRun s f).pending = s.pending := rfl

@[simp] theorem launchEncode_mem (s : State) e id : (launchEncode s e id).mem = s.mem := rfl
@[simp] theorem launchEncode_queues (s : State) e id : (launchEncode s e id).queues = s.queues := rfl
@[simp] theorem launchEncode_regs (s : State) e id : (launchEncode s e id).regs = s.regs := rfl
@[simp] theorem launchEncode_dict (s : State) e id : (launchEncode s e id).dict = s.dict := rfl
@[simp] theorem launchEncode_exec (s : State) e id : (launchEncode s e id).exec = s.exec := rfl
@[simp] theorem launchEncode_remuda (s : State) e id : (launchEncode s e id).remuda = s.remuda := rfl
@[simp] theorem launchEncode_ostler (s : State) e id : (launchEncode s e id).ostler = s.ostler := rfl
@[simp] theorem launchEncode_power (s : State) e id : (launchEncode s e id).power = s.power := rfl
@[simp] theorem launchEncode_sched (s : State) e id : (launchEncode s e id).sched = s.sched := rfl
@[simp] theorem launchEncode_fabric (s : State) e id : (launchEncode s e id).fabric = s.fabric := rfl
@[simp] theorem launchEncode_obs (s : State) e id : (launchEncode s e id).obs = s.obs := rfl
@[simp] theorem launchEncode_freeCount (s : State) e id : (launchEncode s e id).freeCount = s.freeCount := rfl
@[simp] theorem launchEncode_pending (s : State) e id : (launchEncode s e id).pending = s.pending := rfl

@[simp] theorem State.setJob_mem (s : State) j : (State.setJob s j).mem = s.mem := rfl
@[simp] theorem State.setJob_queues (s : State) j : (State.setJob s j).queues = s.queues := rfl
@[simp] theorem State.setJob_regs (s : State) j : (State.setJob s j).regs = s.regs := rfl
@[simp] theorem State.setJob_dict (s : State) j : (State.setJob s j).dict = s.dict := rfl
@[simp] theorem State.setJob_exec (s : State) j : (State.setJob s j).exec = s.exec := rfl
@[simp] theorem State.setJob_remuda (s : State) j : (State.setJob s j).remuda = s.remuda := rfl
@[simp] theorem State.setJob_ostler (s : State) j : (State.setJob s j).ostler = s.ostler := rfl
@[simp] theorem State.setJob_power (s : State) j : (State.setJob s j).power = s.power := rfl
@[simp] theorem State.setJob_sched (s : State) j : (State.setJob s j).sched = s.sched := rfl
@[simp] theorem State.setJob_fabric (s : State) j : (State.setJob s j).fabric = s.fabric := rfl
@[simp] theorem State.setJob_obs (s : State) j : (State.setJob s j).obs = s.obs := rfl
@[simp] theorem State.setJob_freeCount (s : State) j : (State.setJob s j).freeCount = s.freeCount := rfl
@[simp] theorem State.setJob_pending (s : State) j : (State.setJob s j).pending = s.pending := rfl

@[simp] theorem State.setBuf_mem (s : State) t b v : (State.setBuf s t b v).mem = s.mem := rfl
@[simp] theorem State.setBuf_queues (s : State) t b v : (State.setBuf s t b v).queues = s.queues := rfl
@[simp] theorem State.setBuf_regs (s : State) t b v : (State.setBuf s t b v).regs = s.regs := rfl
@[simp] theorem State.setBuf_dict (s : State) t b v : (State.setBuf s t b v).dict = s.dict := rfl
@[simp] theorem State.setBuf_exec (s : State) t b v : (State.setBuf s t b v).exec = s.exec := rfl
@[simp] theorem State.setBuf_remuda (s : State) t b v : (State.setBuf s t b v).remuda = s.remuda := rfl
@[simp] theorem State.setBuf_ostler (s : State) t b v : (State.setBuf s t b v).ostler = s.ostler := rfl
@[simp] theorem State.setBuf_power (s : State) t b v : (State.setBuf s t b v).power = s.power := rfl
@[simp] theorem State.setBuf_sched (s : State) t b v : (State.setBuf s t b v).sched = s.sched := rfl
@[simp] theorem State.setBuf_fabric (s : State) t b v : (State.setBuf s t b v).fabric = s.fabric := rfl
@[simp] theorem State.setBuf_obs (s : State) t b v : (State.setBuf s t b v).obs = s.obs := rfl
@[simp] theorem State.setBuf_freeCount (s : State) t b v : (State.setBuf s t b v).freeCount = s.freeCount := rfl
@[simp] theorem State.setBuf_pending (s : State) t b v : (State.setBuf s t b v).pending = s.pending := rfl

@[simp] theorem State.setColl_mem (s : State) c : (State.setColl s c).mem = s.mem := rfl
@[simp] theorem State.setColl_queues (s : State) c : (State.setColl s c).queues = s.queues := rfl
@[simp] theorem State.setColl_regs (s : State) c : (State.setColl s c).regs = s.regs := rfl
@[simp] theorem State.setColl_dict (s : State) c : (State.setColl s c).dict = s.dict := rfl
@[simp] theorem State.setColl_exec (s : State) c : (State.setColl s c).exec = s.exec := rfl
@[simp] theorem State.setColl_remuda (s : State) c : (State.setColl s c).remuda = s.remuda := rfl
@[simp] theorem State.setColl_ostler (s : State) c : (State.setColl s c).ostler = s.ostler := rfl
@[simp] theorem State.setColl_power (s : State) c : (State.setColl s c).power = s.power := rfl
@[simp] theorem State.setColl_sched (s : State) c : (State.setColl s c).sched = s.sched := rfl
@[simp] theorem State.setColl_obs (s : State) c : (State.setColl s c).obs = s.obs := rfl
@[simp] theorem State.setColl_codec (s : State) c : (State.setColl s c).codec = s.codec := rfl
@[simp] theorem State.setColl_freeCount (s : State) c : (State.setColl s c).freeCount = s.freeCount := rfl
@[simp] theorem State.setColl_pending (s : State) c : (State.setColl s c).pending = s.pending := rfl

@[simp] theorem State.lineageSend_mem (s : State) lport cmd tag a3 : (State.lineageSend s lport cmd tag a3).mem = s.mem := rfl
@[simp] theorem State.lineageSend_queues (s : State) lport cmd tag a3 : (State.lineageSend s lport cmd tag a3).queues = s.queues := rfl
@[simp] theorem State.lineageSend_regs (s : State) lport cmd tag a3 : (State.lineageSend s lport cmd tag a3).regs = s.regs := rfl
@[simp] theorem State.lineageSend_dict (s : State) lport cmd tag a3 : (State.lineageSend s lport cmd tag a3).dict = s.dict := rfl
@[simp] theorem State.lineageSend_exec (s : State) lport cmd tag a3 : (State.lineageSend s lport cmd tag a3).exec = s.exec := rfl
@[simp] theorem State.lineageSend_remuda (s : State) lport cmd tag a3 : (State.lineageSend s lport cmd tag a3).remuda = s.remuda := rfl
@[simp] theorem State.lineageSend_ostler (s : State) lport cmd tag a3 : (State.lineageSend s lport cmd tag a3).ostler = s.ostler := rfl
@[simp] theorem State.lineageSend_power (s : State) lport cmd tag a3 : (State.lineageSend s lport cmd tag a3).power = s.power := rfl
@[simp] theorem State.lineageSend_sched (s : State) lport cmd tag a3 : (State.lineageSend s lport cmd tag a3).sched = s.sched := rfl
@[simp] theorem State.lineageSend_obs (s : State) lport cmd tag a3 : (State.lineageSend s lport cmd tag a3).obs = s.obs := rfl
@[simp] theorem State.lineageSend_codec (s : State) lport cmd tag a3 : (State.lineageSend s lport cmd tag a3).codec = s.codec := rfl
@[simp] theorem State.lineageSend_freeCount (s : State) lport cmd tag a3 : (State.lineageSend s lport cmd tag a3).freeCount = s.freeCount := rfl
@[simp] theorem State.lineageSend_pending (s : State) lport cmd tag a3 : (State.lineageSend s lport cmd tag a3).pending = s.pending := rfl

@[simp] theorem State.dropStreams_mem (s : State) dev : (State.dropStreams s dev).mem = s.mem := rfl
@[simp] theorem State.dropStreams_queues (s : State) dev : (State.dropStreams s dev).queues = s.queues := rfl
@[simp] theorem State.dropStreams_regs (s : State) dev : (State.dropStreams s dev).regs = s.regs := rfl
@[simp] theorem State.dropStreams_dict (s : State) dev : (State.dropStreams s dev).dict = s.dict := rfl
@[simp] theorem State.dropStreams_exec (s : State) dev : (State.dropStreams s dev).exec = s.exec := rfl
@[simp] theorem State.dropStreams_remuda (s : State) dev : (State.dropStreams s dev).remuda = s.remuda := rfl
@[simp] theorem State.dropStreams_ostler (s : State) dev : (State.dropStreams s dev).ostler = s.ostler := rfl
@[simp] theorem State.dropStreams_power (s : State) dev : (State.dropStreams s dev).power = s.power := rfl
@[simp] theorem State.dropStreams_sched (s : State) dev : (State.dropStreams s dev).sched = s.sched := rfl
@[simp] theorem State.dropStreams_obs (s : State) dev : (State.dropStreams s dev).obs = s.obs := rfl
@[simp] theorem State.dropStreams_codec (s : State) dev : (State.dropStreams s dev).codec = s.codec := rfl
@[simp] theorem State.dropStreams_freeCount (s : State) dev : (State.dropStreams s dev).freeCount = s.freeCount := rfl
@[simp] theorem State.dropStreams_pending (s : State) dev : (State.dropStreams s dev).pending = s.pending := rfl

@[simp] theorem State.heardFrom_mem (s : State) dev : (State.heardFrom s dev).mem = s.mem := rfl
@[simp] theorem State.heardFrom_queues (s : State) dev : (State.heardFrom s dev).queues = s.queues := rfl
@[simp] theorem State.heardFrom_regs (s : State) dev : (State.heardFrom s dev).regs = s.regs := rfl
@[simp] theorem State.heardFrom_dict (s : State) dev : (State.heardFrom s dev).dict = s.dict := rfl
@[simp] theorem State.heardFrom_exec (s : State) dev : (State.heardFrom s dev).exec = s.exec := rfl
@[simp] theorem State.heardFrom_remuda (s : State) dev : (State.heardFrom s dev).remuda = s.remuda := rfl
@[simp] theorem State.heardFrom_ostler (s : State) dev : (State.heardFrom s dev).ostler = s.ostler := rfl
@[simp] theorem State.heardFrom_power (s : State) dev : (State.heardFrom s dev).power = s.power := rfl
@[simp] theorem State.heardFrom_sched (s : State) dev : (State.heardFrom s dev).sched = s.sched := rfl
@[simp] theorem State.heardFrom_obs (s : State) dev : (State.heardFrom s dev).obs = s.obs := rfl
@[simp] theorem State.heardFrom_codec (s : State) dev : (State.heardFrom s dev).codec = s.codec := rfl
@[simp] theorem State.heardFrom_freeCount (s : State) dev : (State.heardFrom s dev).freeCount = s.freeCount := rfl
@[simp] theorem State.heardFrom_pending (s : State) dev : (State.heardFrom s dev).pending = s.pending := rfl

@[simp] theorem State.lineageAnswer_mem (s : State) i a1 : (State.lineageAnswer s i a1).mem = s.mem := rfl
@[simp] theorem State.lineageAnswer_queues (s : State) i a1 : (State.lineageAnswer s i a1).queues = s.queues := rfl
@[simp] theorem State.lineageAnswer_regs (s : State) i a1 : (State.lineageAnswer s i a1).regs = s.regs := rfl
@[simp] theorem State.lineageAnswer_dict (s : State) i a1 : (State.lineageAnswer s i a1).dict = s.dict := rfl
@[simp] theorem State.lineageAnswer_exec (s : State) i a1 : (State.lineageAnswer s i a1).exec = s.exec := rfl
@[simp] theorem State.lineageAnswer_remuda (s : State) i a1 : (State.lineageAnswer s i a1).remuda = s.remuda := rfl
@[simp] theorem State.lineageAnswer_ostler (s : State) i a1 : (State.lineageAnswer s i a1).ostler = s.ostler := rfl
@[simp] theorem State.lineageAnswer_power (s : State) i a1 : (State.lineageAnswer s i a1).power = s.power := rfl
@[simp] theorem State.lineageAnswer_sched (s : State) i a1 : (State.lineageAnswer s i a1).sched = s.sched := rfl
@[simp] theorem State.lineageAnswer_obs (s : State) i a1 : (State.lineageAnswer s i a1).obs = s.obs := rfl
@[simp] theorem State.lineageAnswer_codec (s : State) i a1 : (State.lineageAnswer s i a1).codec = s.codec := rfl
@[simp] theorem State.lineageAnswer_freeCount (s : State) i a1 : (State.lineageAnswer s i a1).freeCount = s.freeCount := rfl
@[simp] theorem State.lineageAnswer_pending (s : State) i a1 : (State.lineageAnswer s i a1).pending = s.pending := rfl

@[simp] theorem State.dropGrants_mem (s : State) c : (State.dropGrants s c).mem = s.mem := rfl
@[simp] theorem State.dropGrants_queues (s : State) c : (State.dropGrants s c).queues = s.queues := rfl
@[simp] theorem State.dropGrants_regs (s : State) c : (State.dropGrants s c).regs = s.regs := rfl
@[simp] theorem State.dropGrants_dict (s : State) c : (State.dropGrants s c).dict = s.dict := rfl
@[simp] theorem State.dropGrants_remuda (s : State) c : (State.dropGrants s c).remuda = s.remuda := rfl
@[simp] theorem State.dropGrants_ostler (s : State) c : (State.dropGrants s c).ostler = s.ostler := rfl
@[simp] theorem State.dropGrants_power (s : State) c : (State.dropGrants s c).power = s.power := rfl
@[simp] theorem State.dropGrants_sched (s : State) c : (State.dropGrants s c).sched = s.sched := rfl
@[simp] theorem State.dropGrants_fabric (s : State) c : (State.dropGrants s c).fabric = s.fabric := rfl
@[simp] theorem State.dropGrants_obs (s : State) c : (State.dropGrants s c).obs = s.obs := rfl
@[simp] theorem State.dropGrants_codec (s : State) c : (State.dropGrants s c).codec = s.codec := rfl
@[simp] theorem State.dropGrants_freeCount (s : State) c : (State.dropGrants s c).freeCount = s.freeCount := rfl
@[simp] theorem State.dropGrants_pending (s : State) c : (State.dropGrants s c).pending = s.pending := rfl

@[simp] theorem State.putStable_mem (s : State) p v : (State.putStable s p v).mem = s.mem := rfl
@[simp] theorem State.putStable_queues (s : State) p v : (State.putStable s p v).queues = s.queues := rfl
@[simp] theorem State.putStable_regs (s : State) p v : (State.putStable s p v).regs = s.regs := rfl
@[simp] theorem State.putStable_dict (s : State) p v : (State.putStable s p v).dict = s.dict := rfl
@[simp] theorem State.putStable_remuda (s : State) p v : (State.putStable s p v).remuda = s.remuda := rfl
@[simp] theorem State.putStable_ostler (s : State) p v : (State.putStable s p v).ostler = s.ostler := rfl
@[simp] theorem State.putStable_power (s : State) p v : (State.putStable s p v).power = s.power := rfl
@[simp] theorem State.putStable_sched (s : State) p v : (State.putStable s p v).sched = s.sched := rfl
@[simp] theorem State.putStable_fabric (s : State) p v : (State.putStable s p v).fabric = s.fabric := rfl
@[simp] theorem State.putStable_obs (s : State) p v : (State.putStable s p v).obs = s.obs := rfl
@[simp] theorem State.putStable_codec (s : State) p v : (State.putStable s p v).codec = s.codec := rfl
@[simp] theorem State.putStable_freeCount (s : State) p v : (State.putStable s p v).freeCount = s.freeCount := rfl
@[simp] theorem State.putStable_pending (s : State) p v : (State.putStable s p v).pending = s.pending := rfl

@[simp] theorem State.withPower_mem (s : State) p : (State.withPower s p).mem = s.mem := rfl
@[simp] theorem State.withPower_queues (s : State) p : (State.withPower s p).queues = s.queues := rfl
@[simp] theorem State.withPower_regs (s : State) p : (State.withPower s p).regs = s.regs := rfl
@[simp] theorem State.withPower_dict (s : State) p : (State.withPower s p).dict = s.dict := rfl
@[simp] theorem State.withPower_exec (s : State) p : (State.withPower s p).exec = s.exec := rfl
@[simp] theorem State.withPower_remuda (s : State) p : (State.withPower s p).remuda = s.remuda := rfl
@[simp] theorem State.withPower_ostler (s : State) p : (State.withPower s p).ostler = s.ostler := rfl
@[simp] theorem State.withPower_sched (s : State) p : (State.withPower s p).sched = s.sched := rfl
@[simp] theorem State.withPower_fabric (s : State) p : (State.withPower s p).fabric = s.fabric := rfl
@[simp] theorem State.withPower_obs (s : State) p : (State.withPower s p).obs = s.obs := rfl
@[simp] theorem State.withPower_codec (s : State) p : (State.withPower s p).codec = s.codec := rfl
@[simp] theorem State.withPower_freeCount (s : State) p : (State.withPower s p).freeCount = s.freeCount := rfl
@[simp] theorem State.withPower_pending (s : State) p : (State.withPower s p).pending = s.pending := rfl

@[simp] theorem State.functionRegs_mem (s : State) : (State.functionRegs s).mem = s.mem := rfl
@[simp] theorem State.functionRegs_queues (s : State) : (State.functionRegs s).queues = s.queues := rfl
@[simp] theorem State.functionRegs_dict (s : State) : (State.functionRegs s).dict = s.dict := rfl
@[simp] theorem State.functionRegs_exec (s : State) : (State.functionRegs s).exec = s.exec := rfl
@[simp] theorem State.functionRegs_remuda (s : State) : (State.functionRegs s).remuda = s.remuda := rfl
@[simp] theorem State.functionRegs_ostler (s : State) : (State.functionRegs s).ostler = s.ostler := rfl
@[simp] theorem State.functionRegs_power (s : State) : (State.functionRegs s).power = s.power := rfl
@[simp] theorem State.functionRegs_sched (s : State) : (State.functionRegs s).sched = s.sched := rfl
@[simp] theorem State.functionRegs_fabric (s : State) : (State.functionRegs s).fabric = s.fabric := rfl
@[simp] theorem State.functionRegs_obs (s : State) : (State.functionRegs s).obs = s.obs := rfl
@[simp] theorem State.functionRegs_codec (s : State) : (State.functionRegs s).codec = s.codec := rfl
@[simp] theorem State.functionRegs_freeCount (s : State) : (State.functionRegs s).freeCount = s.freeCount := rfl
@[simp] theorem State.functionRegs_pending (s : State) : (State.functionRegs s).pending = s.pending := rfl

@[simp] theorem State.unitsOff_mem (s : State) : (State.unitsOff s).mem = s.mem := rfl
@[simp] theorem State.unitsOff_queues (s : State) : (State.unitsOff s).queues = s.queues := rfl
@[simp] theorem State.unitsOff_regs (s : State) : (State.unitsOff s).regs = s.regs := rfl
@[simp] theorem State.unitsOff_dict (s : State) : (State.unitsOff s).dict = s.dict := rfl
@[simp] theorem State.unitsOff_remuda (s : State) : (State.unitsOff s).remuda = s.remuda := rfl
@[simp] theorem State.unitsOff_ostler (s : State) : (State.unitsOff s).ostler = s.ostler := rfl
@[simp] theorem State.unitsOff_power (s : State) : (State.unitsOff s).power = s.power := rfl
@[simp] theorem State.unitsOff_fabric (s : State) : (State.unitsOff s).fabric = s.fabric := rfl
@[simp] theorem State.unitsOff_obs (s : State) : (State.unitsOff s).obs = s.obs := rfl
@[simp] theorem State.unitsOff_codec (s : State) : (State.unitsOff s).codec = s.codec := rfl
@[simp] theorem State.unitsOff_freeCount (s : State) : (State.unitsOff s).freeCount = s.freeCount := rfl
@[simp] theorem State.unitsOff_pending (s : State) : (State.unitsOff s).pending = s.pending := rfl

@[simp] theorem State.noPosts_mem (s : State) : (State.noPosts s).mem = s.mem := rfl
@[simp] theorem State.noPosts_queues (s : State) : (State.noPosts s).queues = s.queues := rfl
@[simp] theorem State.noPosts_regs (s : State) : (State.noPosts s).regs = s.regs := rfl
@[simp] theorem State.noPosts_dict (s : State) : (State.noPosts s).dict = s.dict := rfl
@[simp] theorem State.noPosts_exec (s : State) : (State.noPosts s).exec = s.exec := rfl
@[simp] theorem State.noPosts_remuda (s : State) : (State.noPosts s).remuda = s.remuda := rfl
@[simp] theorem State.noPosts_ostler (s : State) : (State.noPosts s).ostler = s.ostler := rfl
@[simp] theorem State.noPosts_power (s : State) : (State.noPosts s).power = s.power := rfl
@[simp] theorem State.noPosts_sched (s : State) : (State.noPosts s).sched = s.sched := rfl
@[simp] theorem State.noPosts_obs (s : State) : (State.noPosts s).obs = s.obs := rfl
@[simp] theorem State.noPosts_codec (s : State) : (State.noPosts s).codec = s.codec := rfl
@[simp] theorem State.noPosts_freeCount (s : State) : (State.noPosts s).freeCount = s.freeCount := rfl
@[simp] theorem State.noPosts_pending (s : State) : (State.noPosts s).pending = s.pending := rfl

@[simp] theorem State.noCommands_mem (s : State) : (State.noCommands s).mem = s.mem := rfl
@[simp] theorem State.noCommands_queues (s : State) : (State.noCommands s).queues = s.queues := rfl
@[simp] theorem State.noCommands_regs (s : State) : (State.noCommands s).regs = s.regs := rfl
@[simp] theorem State.noCommands_dict (s : State) : (State.noCommands s).dict = s.dict := rfl
@[simp] theorem State.noCommands_ostler (s : State) : (State.noCommands s).ostler = s.ostler := rfl
@[simp] theorem State.noCommands_power (s : State) : (State.noCommands s).power = s.power := rfl
@[simp] theorem State.noCommands_sched (s : State) : (State.noCommands s).sched = s.sched := rfl
@[simp] theorem State.noCommands_fabric (s : State) : (State.noCommands s).fabric = s.fabric := rfl
@[simp] theorem State.noCommands_obs (s : State) : (State.noCommands s).obs = s.obs := rfl
@[simp] theorem State.noCommands_freeCount (s : State) : (State.noCommands s).freeCount = s.freeCount := rfl
@[simp] theorem State.noCommands_pending (s : State) : (State.noCommands s).pending = s.pending := rfl

@[simp] theorem State.keepObjs_mem (s : State) keep : (State.keepObjs s keep).mem = s.mem := rfl
@[simp] theorem State.keepObjs_queues (s : State) keep : (State.keepObjs s keep).queues = s.queues := rfl
@[simp] theorem State.keepObjs_regs (s : State) keep : (State.keepObjs s keep).regs = s.regs := rfl
@[simp] theorem State.keepObjs_exec (s : State) keep : (State.keepObjs s keep).exec = s.exec := rfl
@[simp] theorem State.keepObjs_remuda (s : State) keep : (State.keepObjs s keep).remuda = s.remuda := rfl
@[simp] theorem State.keepObjs_ostler (s : State) keep : (State.keepObjs s keep).ostler = s.ostler := rfl
@[simp] theorem State.keepObjs_power (s : State) keep : (State.keepObjs s keep).power = s.power := rfl
@[simp] theorem State.keepObjs_sched (s : State) keep : (State.keepObjs s keep).sched = s.sched := rfl
@[simp] theorem State.keepObjs_fabric (s : State) keep : (State.keepObjs s keep).fabric = s.fabric := rfl
@[simp] theorem State.keepObjs_obs (s : State) keep : (State.keepObjs s keep).obs = s.obs := rfl
@[simp] theorem State.keepObjs_codec (s : State) keep : (State.keepObjs s keep).codec = s.codec := rfl
@[simp] theorem State.keepObjs_freeCount (s : State) keep : (State.keepObjs s keep).freeCount = s.freeCount := rfl
@[simp] theorem State.keepObjs_pending (s : State) keep : (State.keepObjs s keep).pending = s.pending := rfl

@[simp] theorem State.dropTx_mem (s : State) m : (State.dropTx s m).mem = s.mem := rfl
@[simp] theorem State.dropTx_queues (s : State) m : (State.dropTx s m).queues = s.queues := rfl
@[simp] theorem State.dropTx_regs (s : State) m : (State.dropTx s m).regs = s.regs := rfl
@[simp] theorem State.dropTx_exec (s : State) m : (State.dropTx s m).exec = s.exec := rfl
@[simp] theorem State.dropTx_remuda (s : State) m : (State.dropTx s m).remuda = s.remuda := rfl
@[simp] theorem State.dropTx_ostler (s : State) m : (State.dropTx s m).ostler = s.ostler := rfl
@[simp] theorem State.dropTx_power (s : State) m : (State.dropTx s m).power = s.power := rfl
@[simp] theorem State.dropTx_sched (s : State) m : (State.dropTx s m).sched = s.sched := rfl
@[simp] theorem State.dropTx_fabric (s : State) m : (State.dropTx s m).fabric = s.fabric := rfl
@[simp] theorem State.dropTx_obs (s : State) m : (State.dropTx s m).obs = s.obs := rfl
@[simp] theorem State.dropTx_codec (s : State) m : (State.dropTx s m).codec = s.codec := rfl
@[simp] theorem State.dropTx_freeCount (s : State) m : (State.dropTx s m).freeCount = s.freeCount := rfl
@[simp] theorem State.dropTx_pending (s : State) m : (State.dropTx s m).pending = s.pending := rfl

@[simp] theorem State.setSession_mem (s : State) a0 : (State.setSession s a0).mem = s.mem := rfl
@[simp] theorem State.setSession_queues (s : State) a0 : (State.setSession s a0).queues = s.queues := rfl
@[simp] theorem State.setSession_regs (s : State) a0 : (State.setSession s a0).regs = s.regs := rfl
@[simp] theorem State.setSession_dict (s : State) a0 : (State.setSession s a0).dict = s.dict := rfl
@[simp] theorem State.setSession_exec (s : State) a0 : (State.setSession s a0).exec = s.exec := rfl
@[simp] theorem State.setSession_remuda (s : State) a0 : (State.setSession s a0).remuda = s.remuda := rfl
@[simp] theorem State.setSession_power (s : State) a0 : (State.setSession s a0).power = s.power := rfl
@[simp] theorem State.setSession_sched (s : State) a0 : (State.setSession s a0).sched = s.sched := rfl
@[simp] theorem State.setSession_fabric (s : State) a0 : (State.setSession s a0).fabric = s.fabric := rfl
@[simp] theorem State.setSession_obs (s : State) a0 : (State.setSession s a0).obs = s.obs := rfl
@[simp] theorem State.setSession_codec (s : State) a0 : (State.setSession s a0).codec = s.codec := rfl
@[simp] theorem State.setSession_freeCount (s : State) a0 : (State.setSession s a0).freeCount = s.freeCount := rfl
@[simp] theorem State.setSession_pending (s : State) a0 : (State.setSession s a0).pending = s.pending := rfl

@[simp] theorem State.setAdminMbx_mem (s : State) m : (State.setAdminMbx s m).mem = s.mem := rfl
@[simp] theorem State.setAdminMbx_queues (s : State) m : (State.setAdminMbx s m).queues = s.queues := rfl
@[simp] theorem State.setAdminMbx_dict (s : State) m : (State.setAdminMbx s m).dict = s.dict := rfl
@[simp] theorem State.setAdminMbx_exec (s : State) m : (State.setAdminMbx s m).exec = s.exec := rfl
@[simp] theorem State.setAdminMbx_remuda (s : State) m : (State.setAdminMbx s m).remuda = s.remuda := rfl
@[simp] theorem State.setAdminMbx_ostler (s : State) m : (State.setAdminMbx s m).ostler = s.ostler := rfl
@[simp] theorem State.setAdminMbx_power (s : State) m : (State.setAdminMbx s m).power = s.power := rfl
@[simp] theorem State.setAdminMbx_sched (s : State) m : (State.setAdminMbx s m).sched = s.sched := rfl
@[simp] theorem State.setAdminMbx_fabric (s : State) m : (State.setAdminMbx s m).fabric = s.fabric := rfl
@[simp] theorem State.setAdminMbx_obs (s : State) m : (State.setAdminMbx s m).obs = s.obs := rfl
@[simp] theorem State.setAdminMbx_codec (s : State) m : (State.setAdminMbx s m).codec = s.codec := rfl
@[simp] theorem State.setAdminMbx_freeCount (s : State) m : (State.setAdminMbx s m).freeCount = s.freeCount := rfl
@[simp] theorem State.setAdminMbx_pending (s : State) m : (State.setAdminMbx s m).pending = s.pending := rfl

@[simp] theorem State.setTenantMbx_mem (s : State) t m : (State.setTenantMbx s t m).mem = s.mem := rfl
@[simp] theorem State.setTenantMbx_queues (s : State) t m : (State.setTenantMbx s t m).queues = s.queues := rfl
@[simp] theorem State.setTenantMbx_dict (s : State) t m : (State.setTenantMbx s t m).dict = s.dict := rfl
@[simp] theorem State.setTenantMbx_exec (s : State) t m : (State.setTenantMbx s t m).exec = s.exec := rfl
@[simp] theorem State.setTenantMbx_remuda (s : State) t m : (State.setTenantMbx s t m).remuda = s.remuda := rfl
@[simp] theorem State.setTenantMbx_ostler (s : State) t m : (State.setTenantMbx s t m).ostler = s.ostler := rfl
@[simp] theorem State.setTenantMbx_power (s : State) t m : (State.setTenantMbx s t m).power = s.power := rfl
@[simp] theorem State.setTenantMbx_sched (s : State) t m : (State.setTenantMbx s t m).sched = s.sched := rfl
@[simp] theorem State.setTenantMbx_fabric (s : State) t m : (State.setTenantMbx s t m).fabric = s.fabric := rfl
@[simp] theorem State.setTenantMbx_obs (s : State) t m : (State.setTenantMbx s t m).obs = s.obs := rfl
@[simp] theorem State.setTenantMbx_codec (s : State) t m : (State.setTenantMbx s t m).codec = s.codec := rfl
@[simp] theorem State.setTenantMbx_freeCount (s : State) t m : (State.setTenantMbx s t m).freeCount = s.freeCount := rfl
@[simp] theorem State.setTenantMbx_pending (s : State) t m : (State.setTenantMbx s t m).pending = s.pending := rfl

@[simp] theorem State.dropScan_mem (s : State) id : (State.dropScan s id).mem = s.mem := rfl
@[simp] theorem State.dropScan_queues (s : State) id : (State.dropScan s id).queues = s.queues := rfl
@[simp] theorem State.dropScan_regs (s : State) id : (State.dropScan s id).regs = s.regs := rfl
@[simp] theorem State.dropScan_dict (s : State) id : (State.dropScan s id).dict = s.dict := rfl
@[simp] theorem State.dropScan_exec (s : State) id : (State.dropScan s id).exec = s.exec := rfl
@[simp] theorem State.dropScan_remuda (s : State) id : (State.dropScan s id).remuda = s.remuda := rfl
@[simp] theorem State.dropScan_ostler (s : State) id : (State.dropScan s id).ostler = s.ostler := rfl
@[simp] theorem State.dropScan_power (s : State) id : (State.dropScan s id).power = s.power := rfl
@[simp] theorem State.dropScan_sched (s : State) id : (State.dropScan s id).sched = s.sched := rfl
@[simp] theorem State.dropScan_fabric (s : State) id : (State.dropScan s id).fabric = s.fabric := rfl
@[simp] theorem State.dropScan_codec (s : State) id : (State.dropScan s id).codec = s.codec := rfl
@[simp] theorem State.dropScan_freeCount (s : State) id : (State.dropScan s id).freeCount = s.freeCount := rfl
@[simp] theorem State.dropScan_pending (s : State) id : (State.dropScan s id).pending = s.pending := rfl

@[simp] theorem State.setTx_mem (s : State) m a1 : (State.setTx s m a1).mem = s.mem := rfl
@[simp] theorem State.setTx_queues (s : State) m a1 : (State.setTx s m a1).queues = s.queues := rfl
@[simp] theorem State.setTx_regs (s : State) m a1 : (State.setTx s m a1).regs = s.regs := rfl
@[simp] theorem State.setTx_exec (s : State) m a1 : (State.setTx s m a1).exec = s.exec := rfl
@[simp] theorem State.setTx_remuda (s : State) m a1 : (State.setTx s m a1).remuda = s.remuda := rfl
@[simp] theorem State.setTx_ostler (s : State) m a1 : (State.setTx s m a1).ostler = s.ostler := rfl
@[simp] theorem State.setTx_power (s : State) m a1 : (State.setTx s m a1).power = s.power := rfl
@[simp] theorem State.setTx_sched (s : State) m a1 : (State.setTx s m a1).sched = s.sched := rfl
@[simp] theorem State.setTx_fabric (s : State) m a1 : (State.setTx s m a1).fabric = s.fabric := rfl
@[simp] theorem State.setTx_obs (s : State) m a1 : (State.setTx s m a1).obs = s.obs := rfl
@[simp] theorem State.setTx_codec (s : State) m a1 : (State.setTx s m a1).codec = s.codec := rfl
@[simp] theorem State.setTx_freeCount (s : State) m a1 : (State.setTx s m a1).freeCount = s.freeCount := rfl
@[simp] theorem State.setTx_pending (s : State) m a1 : (State.setTx s m a1).pending = s.pending := rfl

@[simp] theorem State.syncReady_mem (s : State) : (State.syncReady s).mem = s.mem := rfl
@[simp] theorem State.syncReady_queues (s : State) : (State.syncReady s).queues = s.queues := rfl
@[simp] theorem State.syncReady_dict (s : State) : (State.syncReady s).dict = s.dict := rfl
@[simp] theorem State.syncReady_exec (s : State) : (State.syncReady s).exec = s.exec := rfl
@[simp] theorem State.syncReady_remuda (s : State) : (State.syncReady s).remuda = s.remuda := rfl
@[simp] theorem State.syncReady_ostler (s : State) : (State.syncReady s).ostler = s.ostler := rfl
@[simp] theorem State.syncReady_power (s : State) : (State.syncReady s).power = s.power := rfl
@[simp] theorem State.syncReady_sched (s : State) : (State.syncReady s).sched = s.sched := rfl
@[simp] theorem State.syncReady_fabric (s : State) : (State.syncReady s).fabric = s.fabric := rfl
@[simp] theorem State.syncReady_obs (s : State) : (State.syncReady s).obs = s.obs := rfl
@[simp] theorem State.syncReady_codec (s : State) : (State.syncReady s).codec = s.codec := rfl
@[simp] theorem State.syncReady_freeCount (s : State) : (State.syncReady s).freeCount = s.freeCount := rfl
@[simp] theorem State.syncReady_pending (s : State) : (State.syncReady s).pending = s.pending := rfl

@[simp] theorem State.count_mem (s : State) (key n : Nat) : (s.count key n).mem = s.mem := rfl
@[simp] theorem State.count_queues (s : State) (key n : Nat) : (s.count key n).queues = s.queues := rfl
@[simp] theorem State.count_regs (s : State) (key n : Nat) : (s.count key n).regs = s.regs := rfl
@[simp] theorem State.count_exec (s : State) (key n : Nat) : (s.count key n).exec = s.exec := rfl
@[simp] theorem State.count_remuda (s : State) (key n : Nat) : (s.count key n).remuda = s.remuda := rfl
@[simp] theorem State.count_ostler (s : State) (key n : Nat) : (s.count key n).ostler = s.ostler := rfl
@[simp] theorem State.count_power (s : State) (key n : Nat) : (s.count key n).power = s.power := rfl
@[simp] theorem State.count_sched (s : State) (key n : Nat) : (s.count key n).sched = s.sched := rfl
@[simp] theorem State.count_fabric (s : State) (key n : Nat) : (s.count key n).fabric = s.fabric := rfl
@[simp] theorem State.count_obs (s : State) (key n : Nat) : (s.count key n).obs = s.obs := rfl
@[simp] theorem State.count_codec (s : State) (key n : Nat) : (s.count key n).codec = s.codec := rfl
@[simp] theorem State.count_freeCount (s : State) (key n : Nat) : (s.count key n).freeCount = s.freeCount := rfl
@[simp] theorem State.count_pending (s : State) (key n : Nat) : (s.count key n).pending = s.pending := rfl

@[simp] theorem State.free_mem (s : State) : s.free.2.mem = s.mem := rfl
@[simp] theorem State.free_queues (s : State) : s.free.2.queues = s.queues := rfl
@[simp] theorem State.free_regs (s : State) : s.free.2.regs = s.regs := rfl
@[simp] theorem State.free_dict (s : State) : s.free.2.dict = s.dict := rfl
@[simp] theorem State.free_exec (s : State) : s.free.2.exec = s.exec := rfl
@[simp] theorem State.free_remuda (s : State) : s.free.2.remuda = s.remuda := rfl
@[simp] theorem State.free_ostler (s : State) : s.free.2.ostler = s.ostler := rfl
@[simp] theorem State.free_power (s : State) : s.free.2.power = s.power := rfl
@[simp] theorem State.free_sched (s : State) : s.free.2.sched = s.sched := rfl
@[simp] theorem State.free_fabric (s : State) : s.free.2.fabric = s.fabric := rfl
@[simp] theorem State.free_obs (s : State) : s.free.2.obs = s.obs := rfl
@[simp] theorem State.free_codec (s : State) : s.free.2.codec = s.codec := rfl
@[simp] theorem State.free_pending (s : State) : s.free.2.pending = s.pending := rfl
@[simp] theorem State.free_freeCount (s : State) : s.free.2.freeCount = s.freeCount + 1 := rfl

/-! ## Reads after writes -/

@[simp] theorem State.withMem_mem (s : State) (m : MemGroup) : (s.withMem m).mem = m := rfl
@[simp] theorem State.withPower_power (s : State) (p : PowerGroup) : (s.withPower p).power = p := rfl

@[simp] theorem State.obj_setObj_self (s : State) (k v : Nat) : (s.setObj k v).obj k = v := Store.get_set_self _ _ k v

theorem State.obj_setObj (s : State) (k j v : Nat) : (s.setObj k v).obj j = if k = j then v else s.obj j := by
  by_cases h : k = j
  · subst h
    rw [if_pos rfl]
    exact Store.get_set_self _ _ k v
  · rw [if_neg h]
    unfold State.obj State.setObj DictGroup.val DictGroup.setVal
    dsimp only
    unfold Store.set
    split
    · rw [Store.get_erase, if_neg h]
    · rw [Store.get_put, if_neg h]

@[simp] theorem State.queue_setQueue_self (s : State) (q : Nat) (v : Queue) : (s.setQueue q v).queue q = v := Store.get_set_self _ _ q v

theorem State.queue_setQueue (s : State) (q r : Nat) (v : Queue) : (s.setQueue q v).queue r = if q = r then v else s.queue r :=
  Store.get_set _ _ q r v

end Sys2Proof.Machine
end

