-- ==== Sys2Proof/Tests/Slice0.lean ====
section
/-! SUPPORT. Tests: terms the well-formedness check refuses; for each statement, concrete states and operands that meet its hypotheses, clause by
clause; and single steps on small states with results worked out from the rules named. -/

open Sys2Proof Sys2Proof.Machine

namespace Sys2Proof.Tests

-- One proof is checked at a time, which keeps the memory of a check small.
set_option Elab.async false

/-- A module in service: Ostler booted, rails good, HBM ready, PCIe up. -/
def up : State :=
  { State.reset with
    power := { State.reset.power with ostler := 1, rails := 2, hbmReady := true, pcie := 2, perst := false }
    regs := { State.reset.regs with ready := true } }

/-- Tenant 3 enabled and running. -/
def ten : State := (up.setObj (oTenantEnable 3) 1).setObj (oTenantRunState 3) 1

/-- A queue configuration: 64 slots each way at 2^56 and 2^56 + 8000H, enabled, interrupts on, vector 5. -/
def qcfg : Nat := 2 ^ 56 + (2 ^ 56 + 0x8000) * 2 ^ 64 + 6 * 2 ^ 128 + 6 * 2 ^ 136 + 3 * 2 ^ 144 + 5 * 2 ^ 160

/-- Queue q enabled with that configuration. -/
def withQ (s : State) (q : Nat) : State := (s.setObj (queueKey q) qcfg).setQueue q { Queue.idle with state := 1 }

/-- `takesWrite` as a test that evaluates. -/
def takesB (s : State) (via : Via) (r key v : Nat) : Bool :=
  s.viaRoute via == some r && s.routeUp r && !s.mustWait [itemOf key v] && decide (v < 2 ^ (8 * (itemOf key v).vlen))
    && decide (16 + itemBytes (itemOf key v).vlen ≤ routeLimit r) && s.writeStatus r false (itemOf key v) == tkOk && s.ruleOk s r false key v

theorem takes_iff (s : State) (via : Via) (r key v : Nat) : s.takesWrite via r key v ↔ takesB s via r key v = true := by
  unfold State.takesWrite State.reaches takesB
  simp only [Bool.and_eq_true, beq_iff_eq, decide_eq_true_eq, Bool.not_eq_true']
  tauto

theorem reaches_iff (s : State) (via : Via) (r key v : Nat) : s.reaches via r key v ↔ (s.viaRoute via = some r ∧ s.routeUp r = true ∧
    s.mustWait [itemOf key v] = false ∧ v < 2 ^ (8 * (itemOf key v).vlen) ∧ 16 + itemBytes (itemOf key v).vlen ≤ routeLimit r) := Iff.rfl

/-! ## Well-formedness -/

/-- A packet header to this device, of a given type. -/
def hdr (typ : Nat) : PktHdr := ⟨typ, 0, false, 8, 0, 1, 0, false, 0, true, false⟩

theorem test_wf_refuses_values : ([.sqTailWrite 0 0 (2 ^ 32), .cqHeadWrite 0 0 (2 ^ 32), .adminMbxDoorbell (2 ^ 32), .tenantMbxDoorbell 0 0 (2 ^ 32),
    .tenantEventsClear 0 0 (2 ^ 32), .evqCtrlWrite (2 ^ 32), .evqHeadWrite (2 ^ 32), .registerWrite 0 1 0 4 0, .registerWrite 0 0 0 3 0,
    .registerWrite 0 0 (2 ^ 22) 4 0, .registerWrite 0 0 0 4 (2 ^ 32), .gaitCeilingWrite .admin (2 ^ 32), .queueEnable .admin 0 (2 ^ 512),
    .lineagePortTraining 0 3 0, .deviceFatalFault 0x0800 0 0, .thermalGaitTick [] [], .ostlerBoot 4 54000, .mrstDeassert 4 54000, .refclkRestore 4 54000,
    .enumConfirm (2 ^ 128) []] : List Instr).map Instr.wf = List.replicate 20 false := by decide +kernel

theorem test_wf_refuses_messages : ([.tackRead .admin (List.replicate 4097 0), .tackWrite .admin (List.replicate 4097 0),
    .txBegin .admin (List.replicate 4097 0), .txCommit .admin (List.replicate 4097 0) false, .txRollback .admin (List.replicate 4097 0),
    .enumOffer (List.replicate 1233 0), .enumConfirm 0 (List.replicate 1233 0), .flitReceive 0 (List.replicate 255 0) 0] : List Instr).map Instr.wf
    = List.replicate 8 false := by decide +kernel

theorem test_wf_refuses_packets : ([.discoveryReceive 0 ⟨hdr 9, 0, .lsa 0 0 0 0⟩, .packetForward 0 ⟨hdr 9, 0, .time 0 0 0⟩, .writePacketReceive ⟨hdr 8, 0, .time 0 0 0⟩,
    .readRequestReceive ⟨hdr 8, 0, .time 0 0 0⟩, .readResponseReceive ⟨hdr 8, 0, .time 0 0 0⟩, .postUpdateReceive ⟨hdr 8, 0, .time 0 0 0⟩,
    .subscriptionReceive ⟨hdr 8, 0, .time 0 0 0⟩, .collectiveAbortReceive ⟨hdr 8, 0, .time 0 0 0⟩, .collectiveDataReceive ⟨hdr 8, 0, .time 0 0 0⟩,
    .e2eAckReceive ⟨hdr 8, 0, .time 0 0 0⟩, .managementPacketReceive [] ⟨hdr 8, 0, .time 0 0 0⟩, .timePacketReceive 0 ⟨hdr 9, 0, .lsa 0 0 0 0⟩ 0,
    .linkStateAdvertisementReceive 0 ⟨hdr 8, 0, .time 0 0 0⟩, .linkParametersReceive 0 ⟨hdr 8, 0, .time 0 0 0⟩] : List Instr).map Instr.wf
    = List.replicate 14 false := by decide +kernel

theorem test_wf_refuses_headers : ([⟨{ hdr 8 with vc := 16 }, 0, .time 0 0 0⟩, ⟨{ hdr 8 with ttl := 256 }, 0, .time 0 0 0⟩, ⟨hdr 8, 257, .time 0 0 0⟩,
    ⟨{ hdr 8 with dst := 4096 }, 0, .time 0 0 0⟩, ⟨{ hdr 8 with src := 4096 }, 0, .time 0 0 0⟩, ⟨{ hdr 8 with gw := 64 }, 0, .time 0 0 0⟩,
    ⟨{ hdr 8 with seq := 2 ^ 32 }, 0, .time 0 0 0⟩] : List Packet).map packetOk = List.replicate 7 false := by decide +kernel

theorem test_wf_takes_good_terms : ([.sqTailWrite 0 8193 7, .registerWrite 0 0 0x20 4 4096, .gaitCeilingWrite .admin 3, .deviceFatalFault 0x0810 0 0,
    .timePacketReceive 0 ⟨hdr 8, 0, .time 0 0 0⟩ 0, .flitReceive 0 (List.replicate 256 0) 0, .mark (.queue 8192)] : List Instr).map Instr.wf
    = List.replicate 7 true := by decide +kernel

/-! ## Hypotheses that are met: registers and power -/

theorem test_met_DoorbellsMoveTailsAndHeads :
    ((withQ ten 24).doorbellLive 0 24 = true ∧ ((withQ ten 24).queue 24).state ≠ 0 ∧ 63 < sqSize ((withQ ten 24).queueCfg 24)) ∧
    ((withQ up 8193).doorbellLive 0 8193 = true ∧ ((withQ up 8193).queue 8193).state ≠ 0 ∧ 63 < cqSize ((withQ up 8193).queueCfg 8193) ∧
      ((withQ up 8193).queue 8193).cqHead ≤ 63 ∧ ((withQ up 8193).queue 8193).cqHead < cqSize ((withQ up 8193).queueCfg 8193)) ∧
    ((withQ ten 24).doorbellLive 0 24 = true ∧ sqSize ((withQ ten 24).queueCfg 24) ≤ 64) := by decide +kernel

theorem test_met_TenantEventsClearBits : ten.pageLive 0 3 = true := by decide +kernel

/-- The event queue enabled with 64 slots. -/
def evq : State := { up with regs := { up.regs with evqCtrl := 0x106, evqBaseLo := 0x8000 } }

theorem test_met_EventQueueRegistersTakeTheirWrites :
    (up.pcieUp = true ∧ bit up.regs.evqCtrl 8 = false ∧ bit 0x106 8 = true ∧ bits 0x106 0 5 = 6 ∧ bits 0x110 0 5 = 16 ∧ bits 0x105 0 5 < 6 ∧ 16 < bits 0x111 0 5 ∧
      bit 0x111 8 = true) ∧
    (evq.pcieUp = true ∧ bit evq.regs.evqCtrl 8 = true ∧ bit 0 8 = false ∧ 63 < 2 ^ bits evq.regs.evqCtrl 0 5 ∧ evq.regs.evqHead ≤ 63) ∧
    ((1 : Nat) ≠ 4 ∧ 0x7F8 % 4096 < 0x800) := by decide +kernel

/-- A READ of no objects on the administrator mailbox. -/
def readMsg : List Byte := [1, 0x01, 0, 0, 7, 0, 16, 0, 0, 0, 0, 0, 0, 0, 0, 0]

def mbxRead : State := { up with regs := { up.regs with adminMbx := { Mailbox.idle with request := readMsg } } }
def tenMbxRead : State := ten.setTenantMbx 3 { Mailbox.idle with request := readMsg }

theorem test_met_MailboxDoorbellsAnswerOrReject :
    (up.mailboxUp = true ∧ bits 0 0 13 = 0 ∧ 4096 < bits 4097 0 13) ∧
    (ten.mailboxUp = true ∧ ten.pageLive 0 3 = true ∧ bits 0 0 11 = 0 ∧ 1024 < bits 1025 0 11) ∧
    (mbxRead.mailboxUp = true ∧ mbxRead.mbxBusy 0 = false ∧ 1 ≤ bits 16 0 13 ∧ bits 4096 0 13 ≤ 4096 ∧ msgOp mbxRead.regs.adminMbx.request = 0x01) ∧
    (tenMbxRead.mailboxUp = true ∧ tenMbxRead.pageLive 0 3 = true ∧ tenMbxRead.mbxBusy 5 = false ∧ 1 ≤ bits 16 0 11 ∧ bits 1024 0 11 ≤ 1024 ∧
      msgOp (tenMbxRead.tenantMbx 3).request = 0x01) := by decide +kernel

theorem test_met_IrqDelaySendsTheVector : (((withQ ten 24).setQueue 24 { Queue.idle with state := 1, delayArmed := true }).queue 24).delayArmed = true ∧
    cfgIrqEn (((withQ ten 24).setQueue 24 { Queue.idle with state := 1, delayArmed := true }).queueCfg 24) = true := by decide +kernel

theorem test_met_LostEventsAreCountedAndReported : (bit up.regs.evqCtrl 8 = false ∧ up.ostler.logBuf.length < 256) ∧
    ({ evq.regs with evqOwed := 2 }.evqOwed ≠ 0 ∧ bit evq.regs.evqCtrl 8 = true ∧ evq.regs.evqCount < evqSize evq.regs) ∧
    evqSize { evq.regs with evqCount := 64 } ≤ { evq.regs with evqCount := 64 }.evqCount := by decide +kernel

theorem test_met_GaitIsSelectedAndTaken : { up.power with rein := true }.rein = true ∧ { up.power with reinHold := true }.reinHold = true ∧
    (up.power.rein = false ∧ up.power.reinHold = false) ∧ { up.power with raising := some (3, 1) }.raising = some (3, 1) := by decide +kernel

theorem test_met_PowerUpTakesItsSteps : (up.withPower { up.power with rails := 1 }).power.rails = 1 ∧ (up.power.rails = 2 ∧ up.obj oRootPllState ≠ 1) ∧
    (let s := (up.setObj oRootPllState 1).withPower { up.power with hbmReady := false, srefclk := false, pcie := 0 }
     s.power.rails = 2 ∧ s.obj oRootPllState = 1 ∧ s.power.hbmReady = false ∧ s.power.srefclk = false ∧ s.power.perst = false ∧ s.power.pcie = 0) ∧
    (up.withPower { up.power with pcie := 1 }).power.pcie = 1 := by decide +kernel

theorem test_met_PerstEndsTheHostsSide : up.ostlerUp = true ∧ State.reset.ostlerUp = false ∧ (up.withPower { up.power with retry := true }).power.retry = true ∧
    (let s := up.withPower { up.power with perst := true, pcie := 0 }
     s.power.hbmReady = true ∧ s.power.pcie = 0) ∧ State.reset.power.hbmReady = false := by decide +kernel

theorem test_met_TheOstlerStopsAndBoots : (up.power.mrst = false ∧ up.power.standby = true ∧ up.power.refclk = true) ∧ (up.setObj oRootPllState 1).obj oRootPllState = 1 ∧
    (State.reset.power.mrst = false ∧ State.reset.power.ostler = 0 ∧ State.reset.power.refclk = true) ∧
    (let s := State.reset.withPower { State.reset.power with mrst := true }
     s.power.mrst = true ∧ s.power.ostler = 0 ∧ s.power.refclk = true) ∧
    (let s := State.reset.withPower { State.reset.power with refclk := false }
     s.power.refclk = false ∧ s.power.mrst = false) ∧ (40000 ≤ 40000 ∧ 40000 ≤ 60000 ∧ 40000 ≤ 60000 ∧ 60000 ≤ 60000) := by decide +kernel

theorem test_met_LinkPortsNeedSrefclk : up.power.srefclk = true ∧
    (let s := up.withPower { up.power with srefclk := false }
     s.power.srefclk = false ∧ s.power.hbmReady = true) ∧
    (let s := up.withPower { up.power with srefclk := false, hbmReady := false }
     s.power.srefclk = false ∧ s.power.hbmReady = false) := by decide +kernel

theorem test_met_TripsAndMismatchesAreFatal : up.power.standby = true ∧ up.power.mrst = false ∧ up.power.fatals.contains (0x0708, 1, 1) = false ∧ up.power.ostler = 1 := by
  decide +kernel

/-- The core in Trot. -/
def trot : State := up.setObj oGaitCurrent 1

theorem test_met_ReinHoldsTheCoreAtWalk : (trot.power.standby = true ∧ trot.power.rein = false ∧ trot.obj oGaitCurrent ≠ 0) ∧
    (up.withPower { up.power with rein := true }).power.rein = true ∧
    (let s := up.withPower { up.power with reinHold := true }
     s.power.reinHold = true ∧ s.power.rein = false) := by decide +kernel

/-- An input power above the limit, the core at Walk. -/
def overWalk : State := ((up.setObj oGaitCurrent 0).setObj oInputPowerW 3000).setObj oPowerLimitW 1000

theorem test_met_PowerAndThermalLoopsMoveTheGait : (up.power.ostler = 1 ∧ up.obj oPowerLimitW < up.obj oPowerLimitW + 1) ∧
    (100 * (95 * overWalk.obj oPowerLimitW / 100) ≤ 95 * overWalk.obj oPowerLimitW) ∧ (up.withPower { up.power with powerGait := 2 }).power.powerGait < 3 ∧
    (overWalk.power.ostler = 1 ∧ overWalk.obj oGaitCurrent = 0 ∧ overWalk.obj oPowerLimitW < overWalk.obj oInputPowerW) ∧
    (∃ i, i < 96 ∧ 10000 ≤ (List.replicate 95 2000 ++ [10000] : List Int).getD i 0 ∧ (List.replicate 95 2000 ++ [10000] : List Int).getD i 0 < 2 ^ 31) ∧
    (let s := up.withPower { up.power with thermalGait := 1 }
     s.power.thermalGait < 2 ∧ (∀ n, n < 97 → 1 ≤ n → s.point n < 9501) ∧ ∀ k, k < 8 → s.stackTemp k < 9001) := by
  refine ⟨by decide +kernel, by decide +kernel, by decide +kernel, by decide +kernel, ⟨95, by decide +kernel⟩, by decide +kernel⟩

theorem test_met_InputAndCoolantLimitTheGait : (up.power.standby = true ∧ 46000 ≤ 46000 ∧ 47999 < 48000 ∧ up.power.inputGait ≠ 0) ∧
    ((up.withPower { up.power with inputGait := 0 }).power.inputGait = 0 ∧ 48000 ≤ 58000) ∧
    (up.power.ostler = 1 ∧ signed 32 (up.obj oCoolantInletLimitC) < signed 32 (up.obj oCoolantInletLimitC) + 1) := by decide +kernel

/-- Quarter 0 at 92 °C and quarter 1 of its partition 8 K cooler. -/
def hot : State := (up.setObj oThermalMigrationEnable 1).setObj (oThermalPoint 80) 9200

theorem test_met_QuartersFollowTheirSensors : (up.power.rails = 2 ∧ up.power.stretched.contains 7 = false) ∧
    (let s := { up with power := { up.power with railTenths := Store.set 0 [] 0 7950 } }
     s.rail 0 + 250 ≤ railMax (s.obj oGaitCurrent)) ∧
    (let s := { up with power := { up.power with railTenths := Store.set 0 [] 0 7225 } }
     s.power.raising = none ∧ railMin (s.obj oGaitCurrent) + 25 ≤ s.rail 0 ∧ s.rail 0 ≤ railMax (s.obj oGaitCurrent)) ∧
    (hot.obj oThermalMigrationEnable = 1 ∧ hot.power.rails = 2 ∧ hot.power.cooling.contains 0 = false ∧ 9200 ≤ hot.hottest 0 ∧
      1 ∈ hot.partitionQuarters (hot.quarterPartition 0) ∧ hot.hottest 1 + 800 ≤ hot.hottest 0) ∧
    (let s := up.withPower { up.power with cooling := [3] }
     s.power.cooling.contains 3 = true ∧ s.hottest 3 < 8700) := by decide +kernel

/-! ## Hypotheses that are met: the dictionary -/

theorem test_met_ObjectWritesAreCheckedAndApplied :
    (objectWrite (.gaitCeilingWrite .admin 3) = some (.admin, oGaitCeiling, 3) ∧ up.takesWrite .admin 0 oGaitCeiling 3) ∧
    (up.reaches .admin 0 oGaitCeiling 4 ∧ up.writeStatus 0 false (itemOf oGaitCeiling 4) ≠ tkOk) ∧
    ((up.setObj oRetiredStables 1).reaches .admin 0 oStableRetireRequest 0 ∧
      (up.setObj oRetiredStables 1).writeStatus 0 false (itemOf oStableRetireRequest 0) = tkOk ∧
      (up.setObj oRetiredStables 1).ruleOk (up.setObj oRetiredStables 1) 0 false oStableRetireRequest 0 = false) ∧
    (ten.takesWrite (.tenant 3) 5 (oTenantFlags 3) 15) ∧
    (((up.setObj oHalterPlcaNode 4).setObj oHalterControllerAddr 99).takesWrite (.bus 99) 1 oSpareAutoActivate 0) := by
  simp only [takes_iff, reaches_iff]; decide +kernel

theorem test_met_FlagsQuotasSpurAndTrace : up.takesWrite .admin 0 oStableFlagsClear 0 ∧ up.takesWrite .admin 0 oStableFlagsClear 128 ∧
    ten.takesWrite .admin 0 (oTenantFlags 3) 15 ∧ up.takesWrite .admin 0 oSpareAutoActivate 1 ∧
    up.takesWrite .admin 0 oSpurEnable 1 ∧ up.takesWrite .admin 0 oSpurEnable 0 ∧
    (up.takesWrite .admin 0 oSpurProductionLock 1 ∧ up.obj oSpurEnable ≤ 1) ∧ up.takesWrite .admin 0 oTraceEnable 1 := by
  simp only [takes_iff]; decide +kernel

/-- A log of one record; tenant 3 with a range of posts and one of Remuda entries. -/
def logged : State := up.setObj oLogCount 1
def ranged : State := (ten.setObj (oTenantRemudaRange 3) (16 * 2 ^ 12)).setObj (oTenantPostRange 3) (8 * 2 ^ 18)

theorem test_met_ReadRequestsAreAnswered : ranged.takesWrite (.tenant 3) 5 (oTenantRemudaReadReq 3) 15 ∧ up.takesWrite .admin 0 oRngProbeRequest 1 ∧
    ranged.takesWrite (.tenant 3) 5 (oTenantPostReadReq 3) 7 ∧ ten.takesWrite (.tenant 3) 5 (oTenantAttribReadReq 3) 0 ∧
    logged.takesWrite .admin 0 oLogReadReq 0 := by
  simp only [takes_iff]; decide +kernel

/-- Tenant 3 held, its dismount done. -/
def held : State :=
  let s := (ten.setObj (oTenantHold 3) 1).setObj (oTenantRunState 3) 3
  { s with sched := { s.sched with preempt := Store.set Preempt.none [] 3 { Preempt.none with requests := 2 } } }

theorem test_met_TenantsAreEnabledHeldAndReset : (up.takesWrite .admin 0 (oTenantEnable 1023) 1 ∧ up.obj (oTenantEnable 1023) ≠ 1) ∧
    (ten.takesWrite .admin 0 (oTenantEnable 3) 0 ∧ ten.obj (oTenantEnable 3) ≠ 0) ∧
    (ten.takesWrite .admin 0 (oTenantHold 3) 1 ∧ ten.tenantEnabled 3 = true ∧ ten.obj (oTenantRunState 3) = 1) ∧
    (held.takesWrite .admin 0 (oTenantHold 3) 0 ∧ held.tenantEnabled 3 = true ∧ held.obj (oTenantRunState 3) = 3 ∧ (held.preempt 3).requests = 2) ∧
    ten.takesWrite .admin 0 (oTenantReset 3) 1 ∧
    (∀ n, n < 1024 → ten.tenantEnabled n = true → ten.tenantFunction n ≠ 7) ∧ (3 < 1024 ∧ ten.tenantEnabled 3 = true ∧ ten.tenantFunction 3 = 0) := by
  simp only [takes_iff]; decide +kernel

/-- A queue's configuration with ENABLE clear. -/
def qoff : Nat := qcfg - 2 ^ 144

/-- Tenant 3 with a quota of 2,048 granules; an allocation of two interleaved granules at slot 0. -/
def padTen : State := ten.setObj (oTenantPaddockQuota 3) 2048
def padV (op cls count : Nat) : Nat := op + cls * 2 ^ 8 + count * 2 ^ 32
def padAlloc : Alloc := ⟨0, 2, 3, 0, [[0], [256]]⟩
def padHas : State := { padTen with mem := { padTen.mem with allocs := Store.set [] [] 3 [padAlloc] } }

theorem test_met_QueuesEnableDrainAndDisable :
    (padHas.takesWrite (.tenant 3) 5 (queueKey 24) qcfg ∧ cfgEnable qcfg = true ∧ cfgEnable (padHas.queueCfg 24) = false) ∧
    (up.takesWrite .admin 0 (queueKey 8193) qcfg ∧ cfgEnable (up.queueCfg 8193) = false) ∧
    ((withQ padHas 24).takesWrite (.tenant 3) 5 (queueKey 24) qoff ∧ cfgEnable qoff = false ∧ cfgEnable ((withQ padHas 24).queueCfg 24) = true) ∧
    ((padHas.setQueue 24 { Queue.idle with state := 2 }).queue 24).state = 2 ∧ (padHas.setQueue 24 { Queue.idle with state := 2 }).begunOf 24 = 0 := by
  simp only [takes_iff]; decide +kernel

/-- A begun command of queue q with nothing to do. -/
def cmd (id q : Nat) (tenant : Option Nat) (bytes : List Byte) : Cmd :=
  ⟨id, .queue q 0, tenant, bytes, 0, 0, none, 0, [], [], [], [], [], .none, [], [], false, 0, Began.none, 0, []⟩

theorem test_met_QueuesStillDraining : (({ up with exec := { up.exec with cmds := [cmd 0 8192 none []] } } : State)).begunOf 8192 ≠ 0 := by decide +kernel

/-! ## Hypotheses that are met: requests for memory -/

/-- A request of tenant 3 whose result is due. -/
def due (op status : Nat) (w : List Nat) (a : Option Alloc) : DelayedReq := ⟨oTenantPaddockRequest 3, padV op (if op = 2 then 0 else 3) 2, 5, status, w, a⟩
def padDue (q : DelayedReq) : State := { padHas with mem := { padHas.mem with delayed := [q] } }
def padDueRun (q : DelayedReq) : State := { padDue q with exec := { up.exec with cmds := [cmd 0 24 (some 3) []] } }

theorem test_met_PaddockRequestsAndResults :
    (padTen.takesWrite (.tenant 3) 5 (oTenantPaddockRequest 3) (padV 1 3 0) ∧ padOp (padV 1 3 0) ≠ 2 ∧
      padTen.padAllocStatus 3 (padV 1 3 0) (padTen.partitionQuarters (padTen.obj (oTenantPartition 3))) ≠ 0) ∧
    (padTen.takesWrite (.tenant 3) 5 (oTenantPaddockRequest 3) (padV 1 3 9) ∧ padOp (padV 1 3 9) ≠ 2 ∧
      padTen.padAllocStatus 3 (padV 1 3 9) (padTen.partitionQuarters (padTen.obj (oTenantPartition 3))) = 0) ∧
    ((padDue (due 1 0 [] (some padAlloc))).dueOf (oTenantPaddockRequest 3) = some (due 1 0 [] (some padAlloc)) ∧ padOp (due 1 0 [] (some padAlloc)).value ≠ 2 ∧
      (padDue (due 1 0 [] (some padAlloc))).dict.waitingMsgs = []) ∧
    ((padDue (due 1 2 [] none)).dueOf (oTenantPaddockRequest 3) = some (due 1 2 [] none) ∧ padOp (due 1 2 [] none).value ≠ 2) ∧
    (padHas.takesWrite (.tenant 3) 5 (oTenantPaddockRequest 3) (padV 2 0 2) ∧ padOp (padV 2 0 2) = 2 ∧ padFieldsOk [] (padV 2 0 2) = true ∧
      (Store.get [] padHas.mem.allocs 3).find? (fun a => a.base == padBase (padV 2 0 2) && a.count == padCount (padV 2 0 2)) = some padAlloc) ∧
    ((padDueRun (due 2 0 [0] (some padAlloc))).dueOf (oTenantPaddockRequest 3) = some (due 2 0 [0] (some padAlloc)) ∧ padOp (due 2 0 [0] (some padAlloc)).value = 2 ∧
      (due 2 0 [0] (some padAlloc)).waitFor.any (padDueRun (due 2 0 [0] (some padAlloc))).holdsResult = true) ∧
    ((padDue (due 2 4 [0] none)).dueOf (oTenantPaddockRequest 3) = some (due 2 4 [0] none) ∧
      (due 2 4 [0] none).waitFor.any (padDue (due 2 4 [0] none)).holdsResult = false) ∧
    ((padDue (due 2 0 [] (some padAlloc))).dueOf (oTenantPaddockRequest 3) = some (due 2 0 [] (some padAlloc)) ∧
      (padDue (due 2 0 [] (some padAlloc))).mem.suspectGranules = []) := by
  simp only [takes_iff]; decide +kernel

/-- Frame 0 alone, assigned to or released by tenant 3. -/
def frV (op : Nat) : Nat := op + 3 * 2 ^ 16 + 2 ^ 64
def frTen : State := ten.setObj (oPartitionHbmFrameLimit 0) 1
def frHas : State := { frTen with mem := { frTen.mem with frameOwner := Store.set ownerFree [] 0 3 } }
def frDueQ (op status : Nat) (w : List Nat) : DelayedReq := ⟨oHbmFrameRequest, frV op, 5, status, w, none⟩
def frDue (q : DelayedReq) : State := { frTen with mem := { frTen.mem with frameOwner := Store.set ownerFree [] 0 ownerLeaving, delayed := [q] } }
def tlbDue : DelayedReq := ⟨oTenantTlbInvalidate 3, 0, 5, 0, [], none⟩

theorem test_met_FrameRequestsAndResults :
    (frTen.takesWrite .admin 0 oHbmFrameRequest (frV 1) ∧ frOp (frV 1) ≠ 2 ∧ frTen.frameStatus (frV 1) = 0) ∧
    (frHas.takesWrite .admin 0 oHbmFrameRequest (frV 2) ∧ frOp (frV 2) = 2 ∧ frHas.frameStatus (frV 2) = 0) ∧
    ((frDue (frDueQ 1 0 [])).dueOf oHbmFrameRequest = some (frDueQ 1 0 []) ∧ frOp (frDueQ 1 0 []).value ≠ 2 ∧ (frDue (frDueQ 1 0 [])).dict.waitingMsgs = []) ∧
    ((frDue (frDueQ 1 1 [])).dueOf oHbmFrameRequest = some (frDueQ 1 1 []) ∧ (frDueQ 1 1 []).status ≠ 0) ∧
    (({ frDue (frDueQ 2 0 [0]) with exec := { up.exec with cmds := [cmd 0 24 (some 3) []] } } : State).dueOf oHbmFrameRequest = some (frDueQ 2 0 [0]) ∧
      (frDueQ 2 0 [0]).waitFor.any ({ frDue (frDueQ 2 0 [0]) with exec := { up.exec with cmds := [cmd 0 24 (some 3) []] } } : State).holdsResult = true) ∧
    ((frDue (frDueQ 2 0 [])).dueOf oHbmFrameRequest = some (frDueQ 2 0 []) ∧ frOp (frDueQ 2 0 []).value = 2 ∧ (frDue (frDueQ 2 0 [])).mem.suspectFrames = []) ∧
    ten.takesWrite .admin 0 (oTenantTlbInvalidate 3) 0 ∧
    ({ ten with mem := { ten.mem with delayed := [tlbDue] } } : State).dueOf (oTenantTlbInvalidate 3) = some tlbDue := by
  simp only [takes_iff]; decide +kernel

/-! ## Hypotheses that are met: the Ostler's objects -/

/-- The controller of record at bus address 99; with the main rails off. -/
def busUp : State := (up.setObj oHalterPlcaNode 4).setObj oHalterControllerAddr 99
def offRails : State := (busUp.withPower { up.power with rails := 0 }).setObj oMainRailsPolicy 0

theorem test_met_OstlerObjectsTakeEffect :
    (offRails.takesWrite (.bus 99) 1 oMainRailsCommand 1 ∧ offRails.obj oMainRailsPolicy = 0 ∧ offRails.railsAllowed = true) ∧
    (offRails.takesWrite (.bus 99) 1 oMainRailsCommand 0 ∧ offRails.power.rails = 0) ∧
    (busUp.takesWrite (.bus 99) 1 oMainRailsCommand 0 ∧ busUp.power.rails ≠ 0) ∧ up.takesWrite .admin 0 oGaitCeiling 0 ∧
    (up.takesWrite .admin 0 oStableRetireRequest 135 ∧ (up.stable 135).service ≠ 3) ∧ busUp.takesWrite (.bus 99) 1 oTopoBoroughNumber 63 ∧
    busUp.takesWrite (.bus 99) 1 oHalterRelease 1 ∧
    ((busUp.setObj (oLinkState 15) 0).takesWrite (.bus 99) 1 (oLinkEnable 15) 1 ∧ (busUp.setObj (oLinkState 15) 0).linkState 15 = 0) ∧
    (busUp.takesWrite (.bus 99) 1 (oLinkEnable 15) 0 ∧ busUp.portUp 15 = false) ∧ busUp.takesWrite (.bus 99) 1 (oLineagePortMode 1) 3 := by
  simp only [takes_iff]; decide +kernel

/-- A spare, an active stable, and a stable that has retired; a log of three records, the newest of sequence 7. -/
def retired : State := up.setObj oRetiredStables 2
def rec7 : LogRec := ⟨7, ⟨0x0700, 0, 0, 0, 0⟩, 0, 1⟩
def threeLogs : State := { up.setObj oLogCount 3 with ostler := { up.ostler with log := [⟨5, ⟨0x0700, 0, 0, 0, 0⟩, 0, 1⟩, ⟨6, ⟨0x0700, 0, 0, 0, 0⟩, 0, 1⟩] ++ rec7 :: [] } }

theorem test_met_RetireRequestsAreTaken :
    (up.takesWrite .admin 0 oStableRetireRequest 16 ∧ (up.stable 16).service = 1 ∧ up.ostler.logBuf.length < 256) ∧
    (up.takesWrite .admin 0 oStableRetireRequest 0 ∧ (up.stable 0).service ≠ 3) ∧
    (up.reaches .admin 0 oStableRetireRequest 136 ∧ up.power.ostler = 1 ∧ 135 < 136) ∧
    (retired.reaches .admin 0 oStableRetireRequest 1 ∧ retired.power.ostler = 1 ∧ bit (retired.obj oRetiredStables) 1 = true ∧ retired.dict.txs = []) := by
  simp only [takes_iff, reaches_iff]; decide +kernel

theorem test_met_TheLogIsReadNewestFirst : up.ostler.logLost = 0 ∧
    (threeLogs.takesWrite .admin 0 oLogReadReq 0 ∧ threeLogs.ostler.log = [⟨5, ⟨0x0700, 0, 0, 0, 0⟩, 0, 1⟩, ⟨6, ⟨0x0700, 0, 0, 0, 0⟩, 0, 1⟩] ++ rec7 :: [] ∧
      ([] : List LogRec).length = 0) ∧
    (threeLogs.reaches .admin 0 oLogReadReq 3 ∧ threeLogs.power.ostler = 1 ∧ threeLogs.obj oLogCount ≤ 3) := by
  simp only [takes_iff, reaches_iff]; decide +kernel

/-- A staging session of the host administrator that receives. -/
def staging : State := ({ up with ostler := { up.ostler with session := some 0, slots := [⟨true, []⟩, ⟨false, []⟩] } } : State).setObj oFwStageState 1
def staged : State := { staging with ostler := { staging.ostler with slots := [⟨true, []⟩, ⟨false, [0x50, 0x43, 0, 0, 1]⟩] } }

theorem test_met_StagingFollowsItsStates :
    (up.takesWrite .admin 0 oFwStageCommand 1 ∧ up.obj oFwActiveSlot ≤ 1 ∧ up.ostler.slots.length = 2) ∧
    (staging.takesWrite .admin 0 oFwStageChunk 7 ∧ staging.obj oFwActiveSlot ≤ 1 ∧ staging.ostler.slots.length = 2 ∧ staging.obj oFwStageState = 1 ∧
      (staging.slotAt staging.inactiveSlot).bytes = []) ∧
    ((staging.setObj oFwStageState 2).takesWrite .admin 0 oFwStageChunk 7 ∧ (staging.setObj oFwStageState 2).obj oFwStageState ≠ 1) ∧
    (staged.takesWrite .admin 0 oFwStageCommand 2 ∧ staged.obj oFwStageState = 1 ∧ le (staged.slotAt staged.inactiveSlot).bytes 4 1 ≠ 2) ∧
    up.takesWrite .admin 0 oFwStageCommand 3 ∧ up.takesWrite .admin 0 oFwStageCommand 4 ∧ staging.ostler.session.isSome = true := by
  simp only [takes_iff]; decide +kernel

/-! ## Hypotheses that are met: Tack messages -/

/-- A header: operation, length, transaction handle, items. -/
def msg (op handle count : Nat) (body : List Byte) : List Byte :=
  [1] ++ toLe 1 op ++ [0, 0] ++ toLe 2 7 ++ toLe 2 (16 + body.length) ++ toLe 4 handle ++ toLe 2 count ++ [0, 0] ++ body

/-- A READ item and a WRITE item of an object. -/
def readItem (key : Nat) : List Byte := toLe 2 (keyIndex key) ++ toLe 1 (keySub key) ++ List.replicate 13 0
def writeItem (key v : Nat) : List Byte := (writeMessage key v).drop 16

/-- A message by its route: the state it is served in and the route. -/
def srv (s : State) (via : Via) (b : List Byte) : State × Nat := (s.serving via b).getD (s, 9)

/-- A parsed request's items, empty where it is broken. -/
def itemsOf (write : Bool) (b : List Byte) : List TackItem := (parseItems write (msgCount b) (b.drop 16)).getD []

def withTx (s : State) (m : Nat) (x : Tx) : State := s.setTx m x
def tx5 (staged : List (Nat × Nat)) (committing : Bool) : Tx := ⟨5, staged, committing, 7⟩

theorem test_met_TackMessagesAreServed :
    ((up.serving .admin (readMsg.set 2 1)).isSome = true ∧ headerOk 0 (readMsg.set 2 1) = false ∧ msgOp (readMsg.set 2 1) = 0x01) ∧
    ((up.serving .admin (msg 1 0 1 (readItem oGaitCeiling))).isSome = true ∧ headerOk 0 (msg 1 0 1 (readItem oGaitCeiling)) = true ∧
      msgHandle (msg 1 0 1 (readItem oGaitCeiling)) = 0 ∧
      (parseItems false 1 (readItem oGaitCeiling)).isSome = true) ∧
    ((ten.serving (.tenant 3) (msg 2 0 1 (writeItem (oTenantFlags 3) 1))).isSome = true ∧ headerOk 5 (msg 2 0 1 (writeItem (oTenantFlags 3) 1)) = true ∧
      (parseItems true 1 (writeItem (oTenantFlags 3) 1)).isSome = true ∧
      (srv ten (.tenant 3) (msg 2 0 1 (writeItem (oTenantFlags 3) 1))).1.mustWait (itemsOf true (msg 2 0 1 (writeItem (oTenantFlags 3) 1))) = false) ∧
    (((frDue (frDueQ 1 0 [])).serving .admin (msg 2 0 1 (writeItem oHbmFrameRequest (frV 1)))).isSome = true ∧
      headerOk 0 (msg 2 0 1 (writeItem oHbmFrameRequest (frV 1))) = true ∧ (parseItems true 1 (writeItem oHbmFrameRequest (frV 1))).isSome = true ∧
      (srv (frDue (frDueQ 1 0 [])) .admin (msg 2 0 1 (writeItem oHbmFrameRequest (frV 1)))).1.mustWait (itemsOf true (msg 2 0 1 (writeItem oHbmFrameRequest (frV 1)))) = true) ∧
    (let b := msg 2 0 2 (writeItem oHbmFrameRequest (frV 1) ++ writeItem oHbmFrameRequest (frV 1))
     (frTen.serving .admin b).isSome = true ∧ headerOk 0 b = true ∧ (srv frTen .admin b).1.mustWait (itemsOf true b) = false ∧
       ((srv frTen .admin b).1.writeItems 0 (itemsOf true b)).2.2 ≠ [] ∧ ((srv frTen .admin b).1.writeItems 0 ((itemsOf true b).take 1)).2.2 = []) ∧
    (bareMessage 1 0x10 (msg 0x10 0 0 []) ∧ (busUp.serving (.bus 99) (msg 0x10 0 0 [])).isSome = true ∧ (srv busUp (.bus 99) (msg 0x10 0 0 [])).2 = 1 ∧
      (srv busUp (.bus 99) (msg 0x10 0 0 [])).1.tx? 1 = none) ∧
    (bareMessage 0 0x12 (msg 0x12 5 0 []) ∧ ((withTx up 0 (tx5 [] false)).serving .admin (msg 0x12 5 0 [])).isSome = true ∧
      (srv (withTx up 0 (tx5 [] false)) .admin (msg 0x12 5 0 [])).1.tx? 0 = some (tx5 [] false) ∧ msgHandle (msg 0x12 5 0 []) = 5) ∧
    (headerOk 0 (msg 2 5 1 (writeItem oGaitCeiling 3)) = true ∧ msgHandle (msg 2 5 1 (writeItem oGaitCeiling 3)) = 5 ∧
      ((withTx up 0 (tx5 [] false)).serving .admin (msg 2 5 1 (writeItem oGaitCeiling 3))).isSome = true ∧
      ((srv (withTx up 0 (tx5 [] false)) .admin (msg 2 5 1 (writeItem oGaitCeiling 3))).1.stageItems 0 (tx5 [] false)
        (itemsOf true (msg 2 5 1 (writeItem oGaitCeiling 3)))).isSome = true) := by
  simp only [bareMessage]; decide +kernel

/-- A partition layout that puts every quarter in partition 1, and a tile of quarter 0 in Run. -/
def newLayout : List (Nat × Nat) := [(oPartitionLayout, 0x0101010101010101)]
def tile (st : TileState) (stable : Nat) : Tile := ⟨0, 0, 1, 0, 1, 0, 1, 2, 0, stable, st, 0, 0, false, 0, 0, false, false, false⟩
def runsTile : State := { up with exec := { up.exec with cmds := [{ cmd 0 24 (some 3) [] with tiles := [tile .run 0] }] } }

theorem test_met_CommitsApplyAllOrNothing : newLayout.any (fun w => ten.resultDue w.1) = false ∧
    ([(oHbmFrameRequest, frV 1)] : List (Nat × Nat)).any (fun w => (withTx (frDue (frDueQ 1 0 [])) 0 (tx5 [(oHbmFrameRequest, frV 1)] false)).resultDue w.1) = true ∧
    (bareMessage 0 0x11 (msg 0x11 5 0 []) ∧ ((withTx ten 0 (tx5 newLayout false)).serving .admin (msg 0x11 5 0 [])).isSome = true ∧
      ((srv (withTx ten 0 (tx5 newLayout false)) .admin (msg 0x11 5 0 [])).1.commitFailure 0 newLayout).isSome = true) ∧
    ((srv (withTx up 0 (tx5 newLayout false)) .admin (msg 0x11 5 0 [])).1.commitFailure 0 newLayout = none ∧
      (srv (withTx up 0 (tx5 newLayout false)) .admin (msg 0x11 5 0 [])).1.commitQuiet newLayout = true) ∧
    ((srv (withTx runsTile 0 (tx5 newLayout false)) .admin (msg 0x11 5 0 [])).1.commitFailure 0 newLayout = none ∧
      (srv (withTx runsTile 0 (tx5 newLayout false)) .admin (msg 0x11 5 0 [])).1.commitQuiet newLayout = false) ∧
    ((withTx up 1 (tx5 newLayout true)).tx? 1 = some (tx5 newLayout true) ∧ (withTx up 1 (tx5 newLayout true)).commitQuiet newLayout = true) ∧
    ((withTx runsTile 1 (tx5 newLayout true)).tx? 1 = some (tx5 newLayout true) ∧ (withTx runsTile 1 (tx5 newLayout true)).commitQuiet newLayout = false) ∧
    (withTx up 1 (tx5 newLayout false)).tx? 1 = some (tx5 newLayout false) := by
  simp only [bareMessage]; decide +kernel

/-- The body of an offer and of its confirmation, the serial number being 77. -/
def offerBody : List Byte := [4, 9, 2, 0, 6, 0, 0, 0]
def confirmBody : List Byte := offerBody ++ toLe 8 77
def waitsOffer : State := { up with power := { up.power with leadIn := true } }
def offered : State := { waitsOffer with power := { waitsOffer.power with offer := some offerBody }, dict := { up.dict with vals := Store.set 0 [] oModuleSerial 77 } }

theorem test_met_EnumerationTakesItsSteps :
    (waitsOffer.ostlerUp = true ∧ waitsOffer.obj oHalterPlcaNode = 0 ∧ waitsOffer.power.leadIn = true ∧ waitsOffer.power.beacon = true ∧
      enumBody 0x20 8 (msg 0x20 0 0 offerBody) = some offerBody ∧ offerOk offerBody = true) ∧ (busUp.obj oHalterPlcaNode ≠ 0 ∧ up.power.leadIn = false) ∧
    (offered.ostlerUp = true ∧ offered.obj oHalterPlcaNode = 0 ∧ offered.power.offer = some offerBody ∧
      enumBody 0x22 16 (msg 0x22 0 0 confirmBody) = some confirmBody ∧ offerOk confirmBody = true ∧ le confirmBody 4 4 = le offerBody 4 4 ∧
      le confirmBody 8 8 = offered.obj oModuleSerial) ∧ up.power.standby = true := by decide +kernel

/-! ## Hypotheses that are met: tiles, stables and faults -/

/-- Tenant 3 with one command of one tile on stable 0. -/
def withTile (t : Tile) : State := { ten with exec := { ten.exec with cmds := [{ cmd 0 24 (some 3) [] with tiles := [t] }] } }
def cmdTile (t : Tile) : Cmd := { cmd 0 24 (some 3) [] with tiles := [t] }
def grantTile (bytes : Nat) : Tile := { tile .waitGrant 0 with grant := bytes }

/-- The same where the shadow registers of stable 0 hold the tile's first slice. -/
def filled : State :=
  let s := withTile (tile .fill 0)
  { s with exec := { s.exec with stables := [(0, { s.stable 0 with shadowTag := some (0, 0, 0) })] } }

theorem test_met_TilesSwapAndCommit :
    ((withTile (tile .fill 0)).tile? 0 0 = some (cmdTile (tile .fill 0), tile .fill 0) ∧ (withTile (tile .fill 0)).tilesMove (some 3) = true ∧
      (tile .fill 0).swapped < (tile .fill 0).slices ∧ (withTile (tile .fill 0)).tileHeld (cmdTile (tile .fill 0)) (tile .fill 0) = false ∧
      ((withTile (tile .fill 0)).stable 0).service = 0 ∧ (withTile (tile .fill 0)).stableRuns 0 0 0 = false ∧ (withTile (tile .fill 0)).stableCurrent 0 = true ∧
      (withTile (tile .fill 0)).holdsTiles 0 = false ∧ (withTile (tile .fill 0)).obj oSpurEnable ≠ 1 ∧
      (match ((withTile (tile .fill 0)).setTile 0 0 (tile .fill 0)).takeStable (tile .fill 0) 0 0 with
        | some g => (g.nextFill 0 0 0 0 (tile .fill 0)).isSome && (g.nextFill 0 0 0 1 (tile .fill 0)).isNone
        | none => false) = true) ∧
    (filled.stable 0).shadowTag = some (0, 0, 0) ∧ (filled.setTile 0 0 (tile .fill 0)).takeStable (tile .fill 0) 0 0 ≠ none ∧
    ((withTile { tile .run 0 with swapped := 1 }).tile? 0 0 = some (cmdTile { tile .run 0 with swapped := 1 }, { tile .run 0 with swapped := 1 }) ∧
      (withTile { tile .run 0 with swapped := 1 }).stableRuns 0 0 0 = false ∧ ({ tile .run 0 with swapped := 1 } : Tile).swapped ≠ 0) ∧
    ((withTile (tile .drain 0)).tile? 0 0 = some (cmdTile (tile .drain 0), tile .drain 0) ∧ (withTile (tile .drain 0)).tilesMove (some 3) = true ∧
      lastSegmentReady (cmdTile (tile .drain 0)) (tile .drain 0) = true ∧ (withTile (tile .drain 0)).tileHeld (cmdTile (tile .drain 0)) (tile .drain 0) = false ∧
      ((withTile (tile .drain 0)).stable 0).service = 0 ∧ ((withTile (tile .drain 0)).stable 0).logical = some 0 ∧ (withTile (tile .drain 0)).obj oSpurEnable ≠ 1 ∧
      (tile .drain 0).grant = 0 ∧ (withTile (tile .drain 0)).coll? 0 = none) := by decide +kernel

/-- A collective with one chunk that waits for its grant. -/
def chunk (bytes : Nat) : Chunk := ⟨0, 1, false, bytes, false, [⟨⟨1, 0, 0, 1⟩, 0, ⟨1, [], 0⟩⟩], false⟩
def coll (bytes : Nat) : Coll := ⟨0, ⟨1, 2, 3⟩, 3, ⟨0, 0, 1, 0, 1⟩, 0, [], 0, [], 1, 0, false, 1, [], [chunk bytes], [], [], [], [], false⟩
def collS (bytes : Nat) : State := { ten with fabric := { ten.fabric with colls := [coll bytes] } }

/-- A second command of the tenant, and a second chunk, behind the first. -/
def twoGrants : State := { ten with exec := { ten.exec with cmds := [cmdTile (grantTile 65536), { cmdTile (grantTile 65536) with id := 1 }] } }
def twoChunks : State := { ten with fabric := { ten.fabric with colls := [{ coll 0 with chunks := [chunk 65536, chunk 65536] }] } }

theorem test_met_GrantsAreGivenWithinTheirStores :
    ((withTile (grantTile (2 ^ 30))).tile? 0 0 = some (cmdTile (grantTile (2 ^ 30)), grantTile (2 ^ 30)) ∧ (withTile (grantTile (2 ^ 30))).tilesMove (some 3) = true ∧
      (withTile (grantTile (2 ^ 30))).exec.granted + (grantTile (2 ^ 30)).grant ≤ 2 ^ 30 ∧ 0 < (grantTile (2 ^ 30)).grant ∧
      ((withTile (grantTile (2 ^ 30))).grantTo arbPartialStore 65536 (tileName 0 (firstTile (cmdTile (grantTile (2 ^ 30))) (grantTile (2 ^ 30)) 0))
        (withTile (grantTile (2 ^ 30))).grantReqs).isSome = true) ∧
    (twoGrants.tile? 1 0 = some ({ cmdTile (grantTile 65536) with id := 1 }, grantTile 65536) ∧
      (twoGrants.grantTo arbPartialStore 65536 (tileName 1 (firstTile (cmdTile (grantTile 65536)) (grantTile 65536) 0)) twoGrants.grantReqs).isNone = true) ∧
    ((withTile (grantTile (2 ^ 30 + 16))).tile? 0 0 = some (cmdTile (grantTile (2 ^ 30 + 16)), grantTile (2 ^ 30 + 16)) ∧
      2 ^ 30 < (withTile (grantTile (2 ^ 30 + 16))).exec.granted + (grantTile (2 ^ 30 + 16)).grant ∧
      ((cmdTile (grantTile (2 ^ 30 + 16))).tiles.filter (sameOutput (grantTile (2 ^ 30 + 16)))).any (fun (x : Tile) => x.waited) = false) ∧
    ((collS (2 ^ 29)).coll? 0 = some (coll (2 ^ 29)) ∧ (coll (2 ^ 29)).chunks[0]? = some (chunk (2 ^ 29)) ∧ (chunk (2 ^ 29)).granted = false ∧
      (collS (2 ^ 29)).stagingUsed + (chunk (2 ^ 29)).bytes ≤ stagingBytes ∧
      ((collS (2 ^ 29)).grantTo arbStaging 65536 (0 * 2 ^ 32 + 0) (collS (2 ^ 29)).stagingReqs).isSome = true) ∧
    (twoChunks.coll? 0 = some { coll 0 with chunks := [chunk 65536, chunk 65536] } ∧
      (twoChunks.grantTo arbStaging 65536 (0 * 2 ^ 32 + 1) twoChunks.stagingReqs).isNone = true) ∧
    ((collS (2 ^ 29 + 1)).coll? 0 = some (coll (2 ^ 29 + 1)) ∧ stagingBytes < (collS (2 ^ 29 + 1)).stagingUsed + (chunk (2 ^ 29 + 1)).bytes) := by decide +kernel

theorem test_met_FailingStablesRetire :
    ((withTile (tile .run 0)).tile? 0 0 = some (cmdTile (tile .run 0), tile .run 0) ∧ (tile .run 0).masks = false ∧ ((withTile (tile .run 0)).stable 0).service = 0 ∧
      (tile .run 0).replays = 0) ∧
    ((withTile { tile .drain 134 with replays := 1 }).tile? 0 0 = some (cmdTile { tile .drain 134 with replays := 1 }, { tile .drain 134 with replays := 1 }) ∧
      ((withTile { tile .drain 134 with replays := 1 }).stable 134).service = 0 ∧ 134 < 136) ∧
    (let s := withTile (tile .run 134)
     (s.stable 134).service = 0 ∧ s.exec.cmds.any (fun c => c.tiles.any (fun t => t.stable == 134 && s.runnable c t)) = true) ∧
    (up.stable 135).service ≠ 0 ∧ ((up.stable 134).service = 0 ∧ up.exec.cmds = []) := by
  decide +kernel

/-- Quarter 0 with stable 0 retired; with five of its active stables and its spare retired. -/
def off : Stable := ⟨3, none, [], [], none, none, [], 0, []⟩
def oneRetired : State := { up.setObj oSpareAutoActivate 1 with exec := { up.exec with stables := [(0, off)], vacated := [0] } }
def fewStables : State := { up with exec := { up.exec with stables := [(0, off), (1, off), (2, off), (3, off), (4, off), (16, off)] } }
def scrubbing : State := up.withPower { up.power with scrubs := [(0, 135), (1, 7)] }

theorem test_met_SparesQuartersAndScrubs :
    (oneRetired.obj oSpareAutoActivate = 1 ∧ oneRetired.outOfService 0 = false ∧ oneRetired.power.rails = 2 ∧ oneRetired.spareOf 0 = some 16 ∧
      oneRetired.exec.vacated.find? (fun x => x / 16 == 0) = some 0) ∧ (fewStables.outOfService 0 = false ∧ fewStables.activeCount 0 < 12 ∧ (fewStables.stable 15).service ≠ 3) ∧
    12 ≤ up.activeCount 7 ∧ scrubbing.power.scrubs.contains (0, 135) = true ∧ scrubbing.power.scrubs.contains (1, 7) = true ∧
    (2047 / 256 = 7 ∧ scrubbing.granuleOwner 2047 ≠ ownerRetired) := by decide +kernel

theorem test_met_MemoryErrorsAreCountedOrContained :
    (64 * (assignableFrames * frameBytes / 64 - 1) / frameBytes < assignableFrames ∧ up.mem.poison.contains (assignableFrames * frameBytes / 64 - 1) = false) ∧
    ((up.stable 134).service = 0 ∧ 134 < 136) := by decide +kernel

/-- A frame command of tenant 3 on engine 5. -/
def job (engine : Option Nat) (enc : Bool) : CodecJob := ⟨0, 3, enc, 0, [], [], [], [], false, engine, 0, none⟩
def withJob (j : CodecJob) : State :=
  { ten with codec := { ten.codec with jobs := [j] }, exec := { ten.exec with cmds := [cmd 0 24 (some 3) []] } }

theorem test_met_EnginesAndDeviceFail :
    (up.codec.down.contains 5 = false ∧ up.codec.jobs.find? (fun j => j.engine == some 5) = none) ∧
    ((withJob (job (some 5) false)).codec.down.contains 5 = false ∧
      (withJob (job (some 5) false)).codec.jobs.find? (fun j => j.engine == some 5) = some (job (some 5) false) ∧
      (withJob (job (some 5) false)).cmd? 0 = some (cmd 0 24 (some 3) []) ∧ ((withJob (job (some 5) false)).codecPool 3).postEn = false) ∧
    up.regs.fatal = false ∧ 2 ≤ 2 ∧ 7 ≤ 7 := by decide +kernel

/-! ## Hypotheses that are met: tenants, time and observation -/

def state3 (v : Nat) : State := ten.setObj (oTenantRunState 3) v

theorem test_met_TenantsDismountResumeAndReset :
    ((state3 2).obj (oTenantRunState 3) = 2 ∧ (state3 2).regs.fatal = false ∧ ((state3 2).streamsOf 3).all (state3 2).stopped = true ∧ (state3 2).exec.cmds = []) ∧
    (state3 1).obj (oTenantRunState 3) ≠ 2 ∧
    ((state3 4).obj (oTenantRunState 3) = 4 ∧ (state3 4).regs.fatal = false ∧ ((state3 4).preempt 3).gone = [] ∧ ((state3 4).preempt 3).saves = []) ∧ ((state3 2).preempt 3).late = false ∧
    (let s := { state3 2 with sched := { up.sched with preempt := Store.set Preempt.none [] 3 { Preempt.none with late := true } } }
     s.obj (oTenantRunState 3) = 2 ∧ (s.preempt 3).late = true) ∧
    ((state3 5).obj (oTenantRunState 3) = 5 ∧ (state3 5).regs.fatal = false ∧ (state3 5).codec.jobs = [] ∧ (state3 5).obj (oTenantEnable 3) ≤ 1) ∧
    (state3 1).obj (oTenantRunState 3) ≠ 5 := by decide +kernel

/-- A packet of a body, from device 1 to this one. -/
def pkt (typ : Nat) (b : PktBody) : Packet := ⟨hdr typ, 0, b⟩
def timePkt : Packet := pkt 8 (.time 5 6 1)
def portsUp (st : Nat) : State := (List.range 16).foldl (fun (a : State) p => a.setObj (oLinkState p) st) up

theorem test_met_CarouselAndTime : ({ up with sched := { up.sched with carCount := 2 } } : State).sched.slot + 1 < 2 ∧ up.sched.carCount ≤ up.sched.slot + 1 ∧
    (portsUp 4).portUp 15 = true ∧
    (let s := (up.setObj oCarouselTimeRole 2).setObj oCarouselSyncState 3
     s.obj oCarouselTimeRole = 2 ∧ s.sched.lost = false ∧ { s.sched with lost := true }.lost = true) ∧
    (let s := ((portsUp 4).setObj oCarouselTimeRole 3).setObj oCarouselAvenuePort 3
     timePkt.body = .time 5 6 1 ∧ s.obj oCarouselTimeRole = 3 ∧ 15 = 12 + s.obj oCarouselAvenuePort ∧ s.regs.fatal = false ∧ s.portUp 15 = true ∧ timePkt.hdr.crcOk = true) ∧
    (let s := (portsUp 4).setObj oCarouselTimeRole 2
     s.obj oCarouselTimeRole = 2 ∧ 11 < 12 ∧ s.portUp 11 = true ∧ s.sched.fresh = none) := by decide +kernel

/-- A command with some of its fields; the head of administrative queue 8192, its entry in host memory. -/
def bytes128 (fields : List (Nat × Nat × Nat)) : List Byte := fields.foldl (fun (b : List Byte) f => putBytes b f.1 (toLe f.2.1 f.2.2)) (List.replicate 128 0)
def markWaits : List Byte := bytes128 [(0, 1, 0x7F), (2, 1, 1), (16, 8, 1), (48, 4, 9)]
def fetched (b : List Byte) : State :=
  let s := withQ up 8192
  ({ s with mem := s.mem.store (cellsAt (hostKey 0 0) b) } : State).setQueue 8192 { Queue.idle with state := 1, sqTail := 1 }

theorem test_met_ObservationRows : (up.power.rails = 2 ∧ { up.obs with trace := [[0]] }.trace ≠ []) ∧ up.obs.traceOwed = 0 ∧
    (let s := { up.setObj oTraceEnable 1 with obs := { up.obs with traceOwed := 7 } }
     s.obs.traceOwed ≠ 0 ∧ s.obs.trace.length < 2048 ∧ s.traceOn 8 0xFFFF = true) ∧
    (up.ostler.logLost = 0 ∧ up.ostler.log.length + up.ostler.logBuf.length ≤ 4096) ∧
    ((fetched markWaits).headOf (.queue 8192) = some (.queue 8192 0) ∧ (fetched markWaits).power.ostler = 1 ∧ (fetched markWaits).waitsOnly (.queue 8192 0) = true ∧
      (fetched markWaits).isQuiet (.queue 8192 0) = false ∧ (fetched markWaits).obs.hangs.any (fun h => h.root == .queue 8192 0) = false) ∧
    (let h : HangScan := ⟨4, .queue 0 0, [], [], [(1, 2, 3)], [], []⟩
     { up.obs with hangs := [h] }.hangs.find? (fun h => h.id == 4) = some h ∧ h.waiting ≠ []) := by decide +kernel


/-! ## Hypotheses that are met: links and packets -/

/-- Device 0 with port 15 in a link state; its Street ports' buffers as after a reset but for one port's. -/
def dev0 : State := up.setObj oTopoDeviceNumber 0
def lstate (p st : Nat) : State := dev0.setObj (oLinkState p) st
def withPort (p st : Nat) (v : Port) : State := (lstate p st).setPort p v
def oneReplay : Port := { Port.idle with replay := [⟨7, pkt 8 (.time 0 0 0), true, none⟩], txSeq := 8 }

theorem test_met_PortsTrainAndRetrain :
    ((lstate 15 2).linkState 15 = 2 ∧ ((lstate 15 2).port 15).retryArmed = false ∧ ((lstate 15 2).port 15).width = 8) ∧
    ((((withPort 15 2 { Port.idle with retryArmed := true }).port 15).retryArmed = true) ∧ (withPort 15 2 { Port.idle with retryArmed := true }).linkState 15 ≠ 1) ∧
    (((withPort 15 1 { Port.idle with retryArmed := true }).port 15).retryArmed = true ∧ (withPort 15 1 { Port.idle with retryArmed := true }).linkState 15 = 1) ∧
    (3 ≤ (lstate 17 3).linkState 17 ∧ (lstate 15 5).portUp 15 = true ∧ ((withPort 15 4 oneReplay).port 15).replay ≠ []) ∧
    (3 ≤ (withPort 15 4 { Port.idle with sinceAck := 1 }).linkState 15 ∧ ((withPort 15 4 { Port.idle with sinceAck := 1 }).port 15).sinceAck ≠ 0) ∧
    (let s := (lstate 17 2).setObj (oLineagePortMode 1) 3
     s.linkState (16 + 1) = 2 ∧ s.obj (oLineagePortMode 1) = 3) := by decide +kernel

/-- A data flit of FSEQ 0 with a good CRC, and the same with a bad one. -/
def flit : List Byte := let b : List Byte := [0, 0x10] ++ List.replicate 250 0; b ++ toLe 4 (flitCrc b)
def badFlit : List Byte := [0, 0x10] ++ List.replicate 254 0

theorem test_met_FlitsAreCheckedAndAcknowledged :
    (3 ≤ (lstate 15 3).linkState 15 ∧ flitOk badFlit = false ∧ flitType badFlit ≠ 0 ∧ ((lstate 15 3).port 15).rxGap = false) ∧
    (flitOk flit = true ∧ flitType flit = 1 ∧ bit (le flit 2 2) 12 = false ∧ bits (le flit 0 2) 0 12 = (((lstate 15 4).port 15).rxSeq + 1) % 4096) ∧
    ((withPort 15 4 oneReplay).port 15).replay.findIdx? (fun r => r.fseq == 7) = some 0 := by decide +kernel

theorem test_met_PeersAreLearned : (3 ≤ (lstate 15 3).linkState 15 ∧ 3 ≤ (lstate 15 6).linkState 15) ∧ (pkt 10 (.discovery 0 0 0 0)).hdr.crcOk = true ∧
    (11 < 12 ∧ 3 ≤ (lstate 11 3).linkState 11) ∧
    ((withPort 15 3 { Port.idle with accepted := true }).linkState 15 = 3 ∧ ((withPort 15 3 { Port.idle with accepted := true }).port 15).accepted = true) ∧
    (63 ≠ dev0.deviceNumber ∧ 63 < 64 ∧ Store.get 0 dev0.fabric.peerBoot 63 = 0 ∧ Store.get 0 dev0.fabric.mapEpochs 63 < 1) ∧
    (let s := { dev0 with fabric := { dev0.fabric with mapEpochs := Store.set 0 [] 63 2, peerBoot := Store.set 0 [] 63 9 } }
     Store.get 0 s.fabric.peerBoot 63 = 9 ∧ 2 ≤ Store.get 0 s.fabric.mapEpochs 63) := by decide +kernel

/-- A packet to this device with its place in its stream. -/
def seqd (typ n : Nat) (ok stale : Bool) (b : PktBody) : Packet := ⟨{ hdr typ with seq := n, crcOk := ok, stale := stale }, 0, b⟩

theorem test_met_SequencedPacketsAreAppliedOnce :
    (let k : Packet := ⟨{ hdr 1 with dst := 5 }, 0, .write ⟨1, 3, 0, [], 0⟩⟩
     k.hdr.dst ≠ dev0.self ∧ (lstate 15 4).portUp 15 = true ∧ linkLocal k = false) ∧
    ((hdr 1).dst = dev0.self ∧ dev0.regs.fatal = false ∧ [4].contains (seqd 4 0 true false (.subscribe 8 7 1 0)).hdr.typ = true ∧
      (seqd 4 0 true false (.subscribe 8 7 1 0)).subscribes = true ∧ (seqd 5 0 true false (.abort ⟨1, 2, 3⟩ 0 0)).aborts = true ∧
      (seqd 5 0 true false (.data (.release ⟨1, 2, 3⟩ 0))).aborts = false) ∧
    (seqd 1 0 false false (.write ⟨1, 3, 0, [], 0⟩)).hdr.crcOk = false ∧ (seqd 7 0 true true (.mgmt (.query 0 0 0 0))).hdr.stale = true ∧
    2 ^ 31 ≤ (2 ^ 32 - 1 + 2 ^ 32 - (dev0.streamIn 1 0).next) % 2 ^ 32 ∧
    (0 < (2 ^ 31 - 1 + 2 ^ 32 - (dev0.streamIn 1 0).next) % 2 ^ 32 ∧ (2 ^ 31 - 1 + 2 ^ 32 - (dev0.streamIn 1 0).next) % 2 ^ 32 < 2 ^ 31 ∧
      (dev0.streamIn 1 0).early.any (fun x => x.hdr.seq == 2 ^ 31 - 1) = false ∧ (dev0.streamIn 1 0).early.length < 256) ∧
    (0 = (dev0.streamIn 1 0).next ∧ (dev0.streamIn 1 0).early = [] ∧ (dev0.streamIn 1 0).sinceAck < 15) := by decide +kernel

/-- Tenant 3 of device 0 with job 7, posts 8 to 15 and two granules of paddock from slot 0. -/
def peer : State :=
  let s := (((padHas.setObj oTopoDeviceNumber 0).setObj (oTenantJobId 3) 7).setObj (oTenantPostRange 3) (8 + 8 * 2 ^ 18))
  { s with mem := { s.mem with granOwner := Store.set ownerFree (Store.set ownerFree [] 0 3) 256 3 } }
def putCmd : Cmd := { cmd 0 24 (some 3) (bytes128 [(0, 1, 0x21)]) with wait := .remote, packets := 1 }
def waitsPut : State := { peer with exec := { peer.exec with cmds := [putCmd] } }
def again : RemoteWait := ⟨6, .queue 24 0, 0, 1, 9, 1, 7, 4⟩

theorem test_met_PacketsHaveTheirEffect : (peer.putRights 7 3 = true ∧ (peer.cellsVa (some 3) (2 ^ 56) [1, 2, 3]).toOption.isSome = true) ∧ peer.putRights 6 3 = false ∧
    peer.remoteUseOk 15 7 = true ∧ peer.remoteUseOk 16 7 = false ∧ (peer.postValue 15 < 1 ∧ peer.fabric.subs.length < 16384) ∧ 0 ≤ peer.postValue 8 ∧
    (waitsPut.cmd? 0 = some putCmd ∧ putCmd.wait = Wait.remote ∧ opcodeOf putCmd.bytes = 0x21 ∧ putCmd.packets = 1) ∧
    (let s := { peer with fabric := { peer.fabric with waits := [again] } }
     s.fabric.waits.find? (fun x => x.waiter == again.waiter) = some again ∧ again.state = 4) ∧ (collS 0).coll? 0 = some (coll 0) := by decide +kernel

/-- A stream to device 4095 with a packet not acknowledged, and one from it with one applied and not yet acknowledged. -/
def streams : State := (dev0.setStreamOut 4095 3 { StreamOut.idle with unacked := [(tagDevice, seqd 7 0 true false (.mgmt (.query 0 0 0 0)))] }).setStreamIn 4095 3
  { StreamIn.idle with sinceAck := 1 }

theorem test_met_StreamsAcknowledgeAndResend :
    (let k : Packet := pkt 6 (.ack 0 0)
     k.hdr.dst = dev0.self ∧ dev0.regs.fatal = false ∧ k.hdr.crcOk = true ∧ (dev0.streamOut k.hdr.src 0).waiting = [] ∧ dev0.obj oSpurEnable ≠ 1) ∧
    (seqd 6 0 false false (.ack 0 0)).hdr.crcOk = false ∧ (streams.streamIn 4095 3).sinceAck ≠ 0 ∧ (dev0.streamIn 4095 3).sinceAck = 0 ∧
    (streams.streamOut 4095 3).unacked ≠ [] ∧
    (dev0.fabric.unreachable.contains 4095 = false ∧ 4095 ≠ dev0.self ∧ dev0.noRoute 4095 = true ∧ dev0.fabric.colls = []) := by decide +kernel

/-- Lineage port 1 open for tenant 3. -/
def lineage : State := (peer.setObj (oLinkState 17) 4).setObj (oLineagePortTenant 1) 3

theorem test_met_LineagePortsServeTheirTenant : ((Thrumyo.read 0 4096).known = true ∧ (Thrumyo.read 0 4097).known = false ∧ ([1, 2] : List Byte).length ≤ 4096) ∧
    ((lineage.setObj (oLineagePortTenant 1) 0xFFFF).linkState 17 = 4 ∧ (lineage.setObj (oLineagePortTenant 1) 0xFFFF).obj (oLineagePortTenant 1) = 0xFFFF) ∧
    (lstate 17 2).linkState 17 ≠ 4 ∧ (lineage.linkState 17 = 4 ∧ lineage.obj (oLineagePortTenant 1) = 3 ∧
      (lineage.cellsVa (some 3) (2 ^ 56) [1, 2]).toOption.isSome = true ∧ (lineage.readVa (some 3) (2 ^ 56) 2).toOption.isSome = true ∧
      (lineage.readVa (some 3) (2 ^ 57) 2).toOption = none ∧ lineage.postInRange 3 16 = false) ∧
    ([(1, 0, 0)] : List (Nat × Nat × Nat)).find? (fun w => w.1 == 1) = some (1, 0, 0) := by decide +kernel

/-! ## Hypotheses that are met: commands -/

/-- A MARK, and one with a reserved byte set. -/
def mark : List Byte := bytes128 [(0, 1, 0x7F)]
def badMark : List Byte := bytes128 [(0, 1, 0x7F), (3, 1, 1)]

/-- The state the head of a stream begins in. -/
def atHead (s : State) (src : Src) (b : List Byte) : State :=
  let a := (s.latch src).subscribe src b
  match (a.spurDismount (srcCtx a src) b).1.gateOpen src with | .ok g => g | .error _ => s

theorem test_met_begins : begins (.mark (.queue 8192)) = some (.queue 8192, fun b => opcodeOf b == 0x7F, planHeader 96, noLaunch) := rfl

theorem test_met_CommandsBegin_fail :
    (fetched badMark).beginsAt (.queue 8192) (fun b => opcodeOf b == 0x7F) (.queue 8192 0) badMark (atHead (fetched badMark) (.queue 8192 0) badMark) ∧
    (let g := atHead (fetched badMark) (.queue 8192 0) badMark
     (g.beginFail (.queue 8192 0) badMark (planHeader 96)).map (fun e => leavesOpen e.status) = some false) := by
  unfold State.beginsAt; decide +kernel

theorem test_met_CommandsBegin_pass :
    (fetched mark).beginsAt (.queue 8192) (fun b => opcodeOf b == 0x7F) (.queue 8192 0) mark (atHead (fetched mark) (.queue 8192 0) mark) ∧
    (let g := atHead (fetched mark) (.queue 8192 0) mark
     g.beginFail (.queue 8192 0) mark (planHeader 96) = none ∧
       (planHeader 96 g (g.planEnv (.queue 8192 0) mark).1).2.toOption.isSome = true ∧ (g.planEnv (.queue 8192 0) mark).2 = none) := by
  unfold State.beginsAt; decide +kernel

/-- A STEP of tenant 3 whose pen descriptor lies in its paddock, and a PUT to device 5 of this borough. -/
def stepBytes : List Byte := bytes128 [(0, 1, 0x10), (88, 8, 2 ^ 56)]
def putBytes1 (scope : Nat) : List Byte := bytes128 [(0, 1, 0x21), (104, 8, scope * 2 ^ 12 + 5)]
def stepping : State := { peer with exec := { peer.exec with cmds := [cmd 0 24 (some 3) stepBytes] } }
def envB (b : List Byte) : Env := ⟨some 3, b, none, 0⟩
def noPeer : State := { peer with fabric := { peer.fabric with unreachable := [5] }, exec := { peer.exec with cmds := [cmd 0 24 (some 3) (putBytes1 1)] } }

theorem test_met_CommandsLaunchTheirWork :
    ((envB stepBytes).ctx = some 3 ∧ (stepping.cmd? 0).isSome = true ∧ (stepping.readVa (some 3) ((envB stepBytes).f 88 8) 640).toOption.isSome = true) ∧
    ((noPeer.cmd? 0).isSome = true ∧ putScope ((envB (putBytes1 1)).f 104 8) = 1 ∧ putScope ((envB (putBytes1 2)).f 104 8) = 2 ∧
      noPeer.fabric.unreachable.contains (noPeer.putDevice ((envB (putBytes1 1)).f 104 8)) = true) ∧
    putScope ((envB (putBytes1 0)).f 104 8) = 0 ∧ drivesColl (bytes128 [(0, 1, 1)]) = false := by decide +kernel

/-- A begun MARK of queue 8192; one that waits for an engine. -/
def begun : Cmd := cmd 0 8192 none mark
def running : State := { fetched mark with exec := { up.exec with cmds := [begun] } }
def waiting : State := { fetched mark with exec := { up.exec with cmds := [{ begun with wait := .engine }] } }

theorem test_met_CommandsCompleteWithTheirRecord :
    (running.cmd? 0 = some begun ∧ running.mayEnd begun = true ∧ sigOp begun.bytes = 0 ∧ running.remuda.admits.find? (fun a => a.cmd == 0) = none ∧
      running.job? 0 = none ∧ begun.bufs = [] ∧ running.remuda.runs.any (fun r => r.cmd == some 0 && !r.handoff) = false ∧ (running.queue 8192).state ≠ 0 ∧ (running.queue 8192).dropRecords = false ∧
      ((running.withMem (running.mem.store begun.writes)).cellsVa (queueCtx 8192) (cfgCqBase (running.queueCfg 8192) + 32 * (running.queue 8192).cqTail)
        (recordBytes (le begun.bytes 8 4) (running.queue 8192).sqHead 8192 stSuccess (begun.flags ||| begun.endFlags) (running.queue 8192).phase 0 0)).toOption.isSome = true) ∧
    (waiting.cmd? 0 = some { begun with wait := .engine } ∧ waiting.mayEnd { begun with wait := .engine } = false) := by decide +kernel

/-- A run of tenant 3 with a descriptor; a descriptor whose bucket sets lie at an address and whose work lists lie in the paddock. -/
def run (handoff : Bool) (phase : Nat) (desc : List Byte) : Run :=
  ⟨0, 3, 0, handoff, none, phase, desc, [], 0, 0, 0, 0, 0, [], none, 0, [], false, none, [], [], [], none, [], [], false, [], [], (24, 0), none, 0⟩
def penDesc (buckets : Nat) : List Byte :=
  [(0, 1, 1), (1, 1, 1), (16, 8, buckets), (24, 8, buckets), (32, 8, 2 ^ 56), (40, 8, 2 ^ 56)].foldl
    (fun (b : List Byte) (f : Nat × Nat × Nat) => putBytes b f.1 (toLe f.2.1 f.2.2)) (List.replicate 640 0)
def withRun (r : Run) : State :=
  let m := peer.mem.store (cellsAt (paddockKey 0 4096) ([1, 1] ++ List.replicate 14 0 ++ [1] ++ List.replicate 511 0))
  { peer with mem := m, remuda := { peer.remuda with runs := [r] } }
def good : List Byte := penDesc (2 ^ 56 + 4096)
def goodSet : Buckets := parseBuckets ([1, 1] ++ List.replicate 14 0 ++ [1] ++ List.replicate 511 0)

/-- The same descriptor with its work list outside memory, a run of the one entry 16, and no active stable anywhere. -/
def badList : List Byte := putBytes good 32 (toLe 8 (2 ^ 57))
def one : Run := { run false 1 good with batch := [16] }
def noArray (r : Run) : State := { withRun r with exec := { up.exec with stables := (List.range 136).map (fun p => (p, off)) } }

/-- What a selection or a batch's start lays out, as the statement forms it. -/
def prepared (r : Run) : Except Fail State :=
  let s := withRun r
  (s.stepTake r (s.stepBatch r goodSet)).stepPrepare (s.stepRun r) goodSet (s.stepBatch r goodSet) (s.stepImages (s.stepBatch r goodSet))
    (s.stepAppends r goodSet (s.stepBatch r goodSet))

theorem test_met_StepsSelectCommitAndHandOff_select :
    ((withRun (run false 0 (penDesc (2 ^ 57)))).run? 0 = some (run false 0 (penDesc (2 ^ 57))) ∧ (withRun (run false 0 (penDesc (2 ^ 57)))).mayStart (run false 0 (penDesc (2 ^ 57))) = true ∧
      noStables ((withRun (run false 0 (penDesc (2 ^ 57)))).tenantQuarters (some 3)) = false ∧
      ((withRun (run false 0 (penDesc (2 ^ 57)))).bucketsAt (some 3) (le (penDesc (2 ^ 57)) 16 8)).toOption = none) ∧
    ((noArray (run false 0 good)).mayStart (run false 0 good) = true ∧ (noArray (run true 0 good)).mayStart (run true 0 good) = true ∧
      noStables ((noArray (run false 0 good)).tenantQuarters (some 3)) = true ∧ noStables ((noArray (run true 0 good)).tenantQuarters (some 3)) = true) ∧
    ({ withRun (run false 0 good) with regs := { up.regs with fatal := true } } : State).mayStart (run false 0 good) = false ∧
    ((withRun (run false 0 good)).mayStart (run false 0 good) = true ∧ (withRun (run false 0 good)).bucketsAt (some 3) (le good 16 8) = .ok goodSet ∧
      (prepared (run false 0 good)).toOption.isSome = true ∧ le good 1 1 ≠ 2 ∧ (run false 0 good).cmd.bind (withRun (run false 0 good)).cmd? = none) ∧
    ((withRun (run false 0 badList)).mayStart (run false 0 badList) = true ∧ (withRun (run false 0 badList)).bucketsAt (some 3) (le badList 16 8) = .ok goodSet ∧
      (prepared (run false 0 badList)).toOption.isNone = true) := by decide +kernel

theorem test_met_StepsSelectCommitAndHandOff_commit :
    ((withRun (run false 1 good)).run? 0 = some (run false 1 good) ∧ (run false 1 good).next = (run false 1 good).total ∧
      (withRun (run false 1 good)).runStands (run false 1 good) = false) ∧
    ((withRun { one with hold := true }).run? 0 = some { one with hold := true } ∧ ((withRun { one with hold := true }).holdCopies { one with hold := true } [0] []).2 = none) ∧
    ((withRun one).run? 0 = some one ∧ (withRun one).runStands one = false ∧ (withRun one).remuda.admits = [] ∧ (withRun one).remuda.retires = [] ∧
      ((withRun one).entry 16).retireBy = none ∧ imgAutoRetire (commitImage one.desc ((withRun one).entry 16).image 0 false (acxZero false) 0).1 = false) ∧
    (withRun { run false 1 good with failed := some (0, 3, 0) }).run? 0 = some { run false 1 good with failed := some (0, 3, 0) } ∧
    ({ withRun (run false 1 good) with regs := { up.regs with fatal := true } } : State).runStands (run false 1 good) = true ∧
    (gateEnabled good = false ∧ (2 ^ 32 : Nat) < 2 ^ 1024 ∧ imgStep 0 + 1 < 2 ^ 32) := by decide +kernel

theorem test_met_StepsSelectCommitAndHandOff_handoff :
    ((withRun (run true 0 (penDesc (2 ^ 57)))).mayStart (run true 0 (penDesc (2 ^ 57))) = true ∧
      ((withRun (run true 0 (penDesc (2 ^ 57)))).bucketsAt (some 3) (le (penDesc (2 ^ 57)) 24 8)).toOption = none) ∧
    ((withRun (run true 0 good)).bucketsAt (some 3) (le good 24 8) = .ok goodSet ∧
      ((withRun (run true 0 good)).layOut (run true 0 good) goodSet [] []).toOption.isSome = true) ∧
    ((withRun (run true 1 good)).run? 0 = some (run true 1 good) ∧ (run true 1 good).next = (run true 1 good).total ∧
      (withRun (run true 1 good)).runStands (run true 1 good) = false ∧ (withRun (run true 1 good)).recordBlocked (run true 1 good) = false) ∧
    ((withRun (run true 1 good)).setQueue 24 { Queue.idle with state := 1, unread := 65536 }).recordBlocked (run true 1 good) = true ∧
    ({ withRun (run true 1 good) with regs := { up.regs with fatal := true } } : State).runStands (run true 1 good) = true := by decide +kernel

/-- Tenant 3's pool of n buffers of 65,536 bytes from 2^56; its ENCODE of a JPEG stream with a size cap of 65,536 bytes and its DECODE of JPEG, as begun
commands; a frame of one row at an address outside memory, and one without rows. -/
def poolCfg (n : Nat) : Nat := 2 ^ 56 + n * 2 ^ 64 + 65536 * 2 ^ 96
def encCfg : List Byte := putBytes (putBytes (List.replicate 256 0) 24 (toLe 4 65536)) 1 [2]
def badFrame : List Byte := [(0, 8, 2 ^ 57), (36, 2, 16), (38, 2, 16)].foldl (fun (b : List Byte) (f : Nat × Nat × Nat) => putBytes b f.1 (toLe f.2.1 f.2.2)) (List.replicate 64 0)
def frameCmd (n : Nat) (fields : List (Nat × Nat × Nat)) : Cmd := { cmd 0 24 (some 3) (bytes128 fields) with began := ⟨0, 0, 7, 0, poolCfg n⟩ }
def encCmd (n : Nat) : Cmd := frameCmd n [(0, 1, 0x30), (120, 8, 2 ^ 56 + 2 ^ 20)]
def decCmd : Cmd := frameCmd 1 [(0, 1, 0x31), (88, 1, 2), (89, 1, 2), (96, 8, 2 ^ 56), (104, 8, 2 ^ 56), (120, 8, 2 ^ 56 + 2 ^ 20)]
def enc (frame : List Byte) (ready : Bool) (engine : Option Nat) : CodecJob := ⟨0, 3, true, 0, encCfg, frame, [], [0], ready, engine, 0, none⟩
def waits : CodecJob := { enc badFrame false none with bufs := [] }
def dec : CodecJob := ⟨0, 3, false, 2 ^ 56, [], [], [], [], true, some 4, 0, none⟩
def pool (n : Nat) (j : CodecJob) (c : Cmd) : State :=
  let s := peer.setObj (oTenantCodecPoolConfig 3) (poolCfg n)
  { s with codec := { s.codec with jobs := [j] }, exec := { s.exec with cmds := [c] } }
def need1 : Nat := ceilDiv (parseEnc encCfg).cap (((pool 1 waits (encCmd 1)).asBegan (encCmd 1)).codecPool 3).bytes

theorem test_met_FramesTakeBuffersAndEnd_buffers :
    ((pool 1 waits (encCmd 1)).job? 0 = some waits ∧ (pool 1 waits (encCmd 1)).cmd? 0 = some (encCmd 1) ∧ (pool 1 waits (encCmd 1)).ctxBusy waits = false ∧
      (pool 1 waits (encCmd 1)).regs.fatal = false) ∧
    (((pool 0 waits (encCmd 0)).asBegan (encCmd 0)).frameRefused waits false).isSome = true ∧
    (((pool 1 waits (encCmd 1)).asBegan (encCmd 1)).frameRefused waits (bit (le (encCmd 1).bytes 88 1) 2) = none ∧ need1 = 1 ∧
      (((pool 1 waits (encCmd 1)).asBegan (encCmd 1)).freeBufs 3 need1).length = need1) ∧
    ((({ pool 1 waits (encCmd 1) with codec := { (pool 1 waits (encCmd 1)).codec with bufs := Store.set 0 [] (bufKey 3 0) 2 } } : State).asBegan (encCmd 1)).freeBufs 3
      need1).length < need1 ∧
    (pool 1 (enc badFrame true none) (encCmd 1)).job? 0 = some (enc badFrame true none) ∧
    (let d := { dec with engine := none, ready := false }
     ({ pool 1 d decCmd with codec := { (pool 1 d decCmd).codec with jobs := [{ d with cmd := 7 }, d] } } : State).ctxBusy d = true) ∧
    (streamChange (parseEnc encCfg) false ((pool 0 waits (encCmd 0)).streamOf waits) = none ∧ ((pool 0 waits (encCmd 0)).codecPool 3).count = 0) := by decide +kernel

theorem test_met_FramesTakeBuffersAndEnd_frames :
    ((pool 1 (enc badFrame true (some 0)) (encCmd 1)).job? 0 = some (enc badFrame true (some 0)) ∧
      (((pool 1 (enc badFrame true (some 0)) (encCmd 1)).asBegan (encCmd 1)).encodeFrame (enc badFrame true (some 0)) (encCmd 1).bytes).toOption.isNone = true) ∧
    ((pool 1 (enc (List.replicate 64 0) true (some 0)) (encCmd 1)).job? 0 = some (enc (List.replicate 64 0) true (some 0)) ∧
      (((pool 1 (enc (List.replicate 64 0) true (some 0)) (encCmd 1)).asBegan (encCmd 1)).encodeFrame (enc (List.replicate 64 0) true (some 0))
        (encCmd 1).bytes).toOption.isSome = true) ∧
    ((pool 1 dec decCmd).job? 0 = some dec ∧ (((pool 1 dec decCmd).asBegan decCmd).decodeFrame dec decCmd.bytes).toOption.isSome = true) := by decide +kernel

/-! ## Hypotheses that are met: arithmetic -/

theorem test_met_RoundingKeepsRepresentableValues : 0x7FF < 2 ^ fmtBits 1 ∧ (decodeElem 1 0x3F800000).isNaN = false ∧ (decodeElem 1 0x3F800000).isInf = false ∧
    (decodeElem 11 0).isNaN = false ∧ 0 < 2 ^ fmtBits 11 := by decide +kernel

theorem test_met_ExtendedFormatKeepsSixtyFourBits : 2 ^ 63 ≤ (2 ^ 64 - 1 : Nat) ∧ (2 ^ 64 - 1 : Nat) < 2 ^ 64 ∧ acxMinExp ≤ 2047 - 63 := by decide +kernel

theorem test_met_SegmentsCombineInTheCanonicalTree : 1 ≤ 4 ∧ segmentsOk 1024 4 = true := by decide +kernel

/-! ## Single results, from the spec's own worked examples -/

/-- The MXFP4 block worked beside R71: 96, 5, 3, 0.5, −0.75 and 27 zeros. -/
theorem test_mxfp4_block :
    quantBlock 0x48 0 false (List.replicate 32 0)
      ([.fin false 3 5, .fin false 5 0, .fin false 3 0, .fin false 1 (-1), .fin true 3 (-2)] ++ List.replicate 27 (.fin false 0 0)) =
      ⟨131, [7, 1, 0, 0, 8] ++ List.replicate 27 0, flIX ||| flUF, 3⟩ := by decide +kernel

/-- The BF16 group worked beside R62: p0 to p3 sum to 2^−18 with IX. -/
theorem test_bf16_group :
    (let r := groupSum [.fin false 1 30, .fin true 1 30, .fin false 5 (-20), .fin false 1 (-40)]
     eqNum r.1 (.fin false 1 (-18)) && r.2 == flIX) = true := by decide +kernel

/-- R73's worked example: K = 2,560 with S = 5 gives L = 512, with S = 3 gives L = 1,024. -/
theorem test_segment_length : segmentLen 2560 5 = 512 ∧ segmentLen 2560 3 = 1024 ∧ segmentsOk 2560 5 = true ∧ segmentsOk 256 2 = false := by decide

/-- The worked example beside R12: device 54 stands at (2, 1, 3). -/
theorem test_torus_coordinates : coord 54 0 = 2 ∧ coord 54 1 = 1 ∧ coord 54 2 = 3 := by decide

/-- The core clock of each gait (Table 22-7). -/
theorem test_gait_clocks : gaitKhz 0 = 700000 ∧ gaitKhz 1 = 1400000 ∧ gaitKhz 2 = 1800000 ∧ gaitKhz 3 = 2100000 := by decide

/-- R124: the step of a doorbell in front of another command moves the tail and leaves the other waiting. -/
theorem test_step_moves_the_tail :
    (match step { withQ ten 24 with pending := [.sqTailWrite 0 24 13, .cqHeadWrite 0 24 1] } with
     | .next t => (t.queue 24).sqTail == 13 && t.pending == [.cqHeadWrite 0 24 1]
     | _ => false) = true := by decide +kernel

/-! ## Hypotheses that are met: the two writes whose checks look at every tenant -/

theorem test_met_FlagsQuotasSpurAndTrace_quota : up.takesWrite .admin 0 (oTenantAttribQuota 1023) 65536 := by simp only [takes_iff]; decide +kernel

theorem test_met_TenantsAreEnabledHeldAndReset_posts : up.takesWrite .admin 0 (oTenantPostRange 3) (8 * 2 ^ 18) := by
  simp only [takes_iff]; decide +kernel

end Sys2Proof.Tests
end

/-! SUPPORT. Stables, tiles and objects after an update; what a report and what dealing commands again leave as they were. -/

namespace Sys2Proof.Machine

/-! ## Stores that list what they hold -/

theorem Store.find?_put_other {α : Type} (m : Store α) {k j : Nat} (v : α) (h : k ≠ j) : Store.find? (Store.put m k v) j = Store.find? m j := by
  induction m with
  | nil => simp [Store.put, Store.find?, h]
  | cons c rest ih =>
    obtain ⟨i, w⟩ := c
    unfold Store.put
    split
    · next hik => simp [Store.find?, hik, h]
    · split <;> simp [Store.find?, ih, h]

/-- Changing every value of a store changes the value found. -/
theorem Store.find?_map {α β : Type} (f : α → β) (m : Store α) (k : Nat) :
    Store.find? (m.map (fun x => (x.1, f x.2))) k = (Store.find? m k).map f := by
  induction m with
  | nil => rfl
  | cons c rest ih =>
    rw [List.map_cons, Store.find?, Store.find?, ih]
    split <;> rfl

theorem Store.get_filter {α : Type} (d : α) (p : Nat → Bool) (m : Store α) (k : Nat) :
    Store.get d (m.filter (fun c => p c.1)) k = if p k then Store.get d m k else d := by
  induction m with
  | nil => simp [Store.get]
  | cons c rest ih =>
    obtain ⟨j, w⟩ := c
    rw [List.filter_cons]
    by_cases hjk : j = k
    · subst hjk
      cases hp : p j <;> simp [hp, Store.get, ih]
    · cases p j <;> simp [Store.get, ih, hjk]

/-! ## Objects -/

theorem State.obj_setObj_other (s : State) {k j : Nat} (v : Nat) (h : k ≠ j) : (s.setObj k v).obj j = s.obj j := by
  rw [State.obj_setObj, if_neg h]

theorem State.obj_count_other (s : State) {k j : Nat} (n : Nat) (h : k ≠ j) : (s.count k n).obj j = s.obj j :=
  State.obj_setObj_other s _ h

/-- With the Spur off no opportunity is drawn (R326). -/
theorem State.spurDraw_off {s : State} (h : s.obj oSpurEnable ≠ 1) (k : Nat) (part : Option Nat) : s.spurDraw k part = (s, false) := by
  unfold State.spurDraw
  rw [if_pos (Or.inl h)]

theorem bit_setBit_self (v i : Nat) : bit (setBit v i) i = true := by
  have h : (setBit v i).testBit i = true := by simp [setBit, Nat.testBit_or]
  simpa [bit, Nat.testBit, Nat.one_and_eq_mod_two] using h

/-! ## Stables -/

/-- A stable is read from the array alone. -/
theorem State.stable_of_exec {s u : State} (h : u.exec = s.exec) (p : Nat) : u.stable p = s.stable p := by
  unfold State.stable
  rw [h]

@[simp] theorem State.stable_setObj (s : State) (k v p : Nat) : (s.setObj k v).stable p = s.stable p := rfl
@[simp] theorem State.stable_occupy (s : State) (l p : Nat) : (s.occupy l).stable p = s.stable p := rfl

@[simp] theorem State.obj_putStable (s : State) (p : Nat) (v : Stable) (k : Nat) : (s.putStable p v).obj k = s.obj k := rfl
@[simp] theorem State.obj_occupy (s : State) (l k : Nat) : (s.occupy l).obj k = s.obj k := rfl

@[simp] theorem State.stable_putStable_self (s : State) (p : Nat) (v : Stable) : (s.putStable p v).stable p = v := by
  simp [State.stable, State.putStable]

theorem State.stable_putStable_other (s : State) {p r : Nat} (v : Stable) (h : p ≠ r) : (s.putStable p v).stable r = s.stable r := by
  simp only [State.stable, State.putStable, Store.find?_put_other _ _ h]

/-! ## Commands begun and their tiles -/

theorem State.cmd?_id {s : State} {id : Nat} {c : Cmd} (h : s.cmd? id = some c) : c.id = id := by
  simpa using List.find?_some h

/-- A command that is put back is found where it was. -/
theorem State.cmd?_setCmd {s : State} {id : Nat} {c d : Cmd} (h : s.cmd? id = some c) (hd : d.id = id) : (s.setCmd d).cmd? id = some d := by
  unfold State.cmd? at h ⊢
  unfold State.setCmd
  dsimp only
  generalize s.exec.cmds = l at h ⊢
  induction l with
  | nil => cases h
  | cons x rest ih =>
    by_cases hx : x.id = id
    · simp [hx, hd]
    · simp only [List.find?_cons, beq_eq_false_iff_ne.mpr hx] at h
      simpa [hx, hd] using ih h

theorem State.tile?_iff {s : State} {id ti : Nat} {c : Cmd} {t : Tile} : s.tile? id ti = some (c, t) ↔ s.cmd? id = some c ∧ c.tiles[ti]? = some t := by
  unfold State.tile?
  cases s.cmd? id with
  | none => simp
  | some d =>
    simp only [Option.map_eq_some_iff, Prod.mk.injEq, Option.some.injEq]
    constructor
    · rintro ⟨x, hx, rfl, rfl⟩
      exact ⟨rfl, hx⟩
    · rintro ⟨rfl, hx⟩
      exact ⟨t, hx, rfl, rfl⟩

/-- A command whose tile is replaced, with other fields of the command as may be. -/
theorem State.tile?_setCmd {s : State} {id ti : Nat} {c d : Cmd} {t t' : Tile} (h : s.tile? id ti = some (c, t)) (hid : d.id = c.id)
    (ht : d.tiles = c.tiles.set ti t') : (s.setCmd d).tile? id ti = some (d, t') := by
  obtain ⟨hc, hti⟩ := State.tile?_iff.mp h
  refine State.tile?_iff.mpr ⟨State.cmd?_setCmd hc (hid.trans (State.cmd?_id hc)), ?_⟩
  rw [ht, List.getElem?_set_self', hti]
  rfl

/-- Setting a tile is setting its command. -/
theorem State.setTile_eq {s : State} {id : Nat} {c : Cmd} (h : s.cmd? id = some c) (ti : Nat) (t : Tile) :
    s.setTile id ti t = s.setCmd { c with tiles := c.tiles.set ti t } := by
  unfold State.setTile
  rw [h]

/-! ## Reports -/

/-- State `u` is `s` but for what reporting touches (`State.quiet`): memory, registers, the bus's notifications, the log and the count of free values.
Every object reads the same in both. -/
structure State.ReportsOnly (s u : State) : Prop where
  queues : u.queues = s.queues
  exec : u.exec = s.exec
  remuda : u.remuda = s.remuda
  power : u.power = s.power
  sched : u.sched = s.sched
  fabric : u.fabric = s.fabric
  obs : u.obs = s.obs
  codec : u.codec = s.codec
  obj : ∀ key, u.obj key = s.obj key

theorem State.ReportsOnly.refl (s : State) : s.ReportsOnly s := ⟨rfl, rfl, rfl, rfl, rfl, rfl, rfl, rfl, fun _ => rfl⟩

theorem State.ReportsOnly.trans {s t u : State} (h : s.ReportsOnly t) (k : t.ReportsOnly u) : s.ReportsOnly u where
  queues := k.queues.trans h.queues
  exec := k.exec.trans h.exec
  remuda := k.remuda.trans h.remuda
  power := k.power.trans h.power
  sched := k.sched.trans h.sched
  fabric := k.fabric.trans h.fabric
  obs := k.obs.trans h.obs
  codec := k.codec.trans h.codec
  obj := fun key => (k.obj key).trans (h.obj key)

theorem State.ReportsOnly.stable {s u : State} (h : s.ReportsOnly u) (p : Nat) : u.stable p = s.stable p := State.stable_of_exec h.exec p

theorem State.ReportsOnly.tile? {s u : State} (h : s.ReportsOnly u) (id ti : Nat) : u.tile? id ti = s.tile? id ti := by
  unfold State.tile? State.cmd?
  rw [h.exec]

theorem State.reportsOnly_foldl {α : Type} {f : State → α → State} (hf : ∀ (s : State) a, s.ReportsOnly (f s a)) (l : List α) (s : State) :
    s.ReportsOnly (l.foldl f s) := by
  induction l generalizing s with
  | nil => exact .refl s
  | cons a rest ih => exact (hf s a).trans (ih (f s a))

theorem State.reportsOnly_regs (s : State) (r : RegGroup) : s.ReportsOnly { s with regs := r } :=
  ⟨rfl, rfl, rfl, rfl, rfl, rfl, rfl, rfl, fun _ => rfl⟩

theorem State.reportsOnly_tenantEvent (s : State) (t b : Nat) : s.ReportsOnly (s.tenantEvent t b) := by
  unfold State.tenantEvent
  dsimp only
  split
  · exact .refl s
  · split
    · exact (s.reportsOnly_regs _).trans (State.reportsOnly_regs _ _)
    · exact s.reportsOnly_regs _

theorem State.reportsOnly_withMem (s : State) (m : MemGroup) : s.ReportsOnly (s.withMem m) :=
  ⟨rfl, rfl, rfl, rfl, rfl, rfl, rfl, rfl, fun _ => rfl⟩

theorem State.reportsOnly_sendVector (s : State) (f v : Nat) : s.ReportsOnly (s.sendVector f v) := s.reportsOnly_regs _

theorem State.reportsOnly_putEvent (s : State) (e : EventRec) (seq : Nat) : s.ReportsOnly (s.putEvent e seq) := by
  unfold State.putEvent
  exact ((s.reportsOnly_withMem _).trans (State.reportsOnly_regs _ _)).trans (State.reportsOnly_sendVector _ _ _)

theorem State.reportsOnly_logEvent (s : State) (e : EventRec) (seq : Nat) : s.ReportsOnly (s.logEvent e seq) := by
  unfold State.logEvent
  split <;> exact ⟨rfl, rfl, rfl, rfl, rfl, rfl, rfl, rfl, fun _ => rfl⟩

theorem State.reportsOnly_notify (s : State) (rec : List Byte) : s.ReportsOnly (s.notify rec) :=
  ⟨rfl, rfl, rfl, rfl, rfl, rfl, rfl, rfl, fun _ => rfl⟩

/-- An event changes nothing but reports (R144, R438). -/
theorem State.reportsOnly_event (s : State) (e : EventRec) : s.ReportsOnly (s.event e) := by
  unfold State.event
  extract_lets seq r1 s1 s2 r2 s3
  have h2 : s.ReportsOnly s2 := (s.reportsOnly_regs _).trans (s1.reportsOnly_logEvent e seq)
  have h3 : s.ReportsOnly s3 := by
    unfold s3
    split
    · exact h2.trans (s2.reportsOnly_putEvent e seq)
    · exact h2.trans (s2.reportsOnly_regs _)
  split
  · exact h3.trans (s3.reportsOnly_notify _)
  · exact h3

theorem State.reportsOnly_capacityEvent (s : State) (q : Nat) : s.ReportsOnly (s.capacityEvent q) :=
  State.reportsOnly_foldl (fun x t => x.reportsOnly_tenantEvent t 4) _ s

/-- An event and the capacity event that follows it. -/
theorem State.reportsOnly_event_capacityEvent (s : State) (e : EventRec) (q : Nat) : s.ReportsOnly ((s.event e).capacityEvent q) :=
  (s.reportsOnly_event e).trans ((s.event e).reportsOnly_capacityEvent q)

/-! ## Dealing commands again -/

/-- A stable but for what its walker has put in its manger. -/
def Stable.bare (v : Stable) : Stable := { v with manger := [] }

@[simp] theorem Stable.bare_service (v : Stable) : v.bare.service = v.service := rfl
@[simp] theorem Stable.bare_logical (v : Stable) : v.bare.logical = v.logical := rfl

/-- State `u` has the queues of `s`, its stables but for what their mangers hold, and its objects below those of the tenants. So it is where commands
fail, are charged or are dealt to other stables. -/
structure State.KeepsUnits (s u : State) : Prop where
  queues : u.queues = s.queues
  stable : ∀ p, (u.stable p).bare = (s.stable p).bare
  obj : ∀ key, key < 0x400000 → u.obj key = s.obj key

theorem State.KeepsUnits.refl (s : State) : s.KeepsUnits s := ⟨rfl, fun _ => rfl, fun _ _ => rfl⟩

theorem State.KeepsUnits.trans {s t u : State} (h : s.KeepsUnits t) (k : t.KeepsUnits u) : s.KeepsUnits u where
  queues := k.queues.trans h.queues
  stable := fun p => (k.stable p).trans (h.stable p)
  obj := fun key hkey => (k.obj key hkey).trans (h.obj key hkey)

theorem State.KeepsUnits.service {s u : State} (h : s.KeepsUnits u) (p : Nat) : (u.stable p).service = (s.stable p).service := by
  simpa using congrArg Stable.service (h.stable p)

theorem State.KeepsUnits.logical {s u : State} (h : s.KeepsUnits u) (p : Nat) : (u.stable p).logical = (s.stable p).logical := by
  simpa using congrArg Stable.logical (h.stable p)

theorem State.ReportsOnly.keepsUnits {s u : State} (h : s.ReportsOnly u) : s.KeepsUnits u where
  queues := h.queues
  stable := fun p => by rw [h.stable p]
  obj := fun key _ => h.obj key

theorem State.keepsUnits_foldl {α : Type} {f : State → α → State} (hf : ∀ (s : State) a, s.KeepsUnits (f s a)) (l : List α) (s : State) :
    s.KeepsUnits (l.foldl f s) := by
  induction l generalizing s with
  | nil => exact .refl s
  | cons a rest ih => exact (hf s a).trans (ih (f s a))

theorem State.keepsUnits_free (s : State) : s.KeepsUnits s.free.2 := ⟨rfl, fun _ => rfl, fun _ _ => rfl⟩

theorem State.keepsUnits_setCmd (s : State) (c : Cmd) : s.KeepsUnits (s.setCmd c) := ⟨rfl, fun _ => rfl, fun _ _ => rfl⟩

theorem State.keepsUnits_setAttrib (s : State) (t : Nat) (l : List AttribEntry) : s.KeepsUnits (s.setAttrib t l) :=
  ⟨rfl, fun _ => rfl, fun _ _ => rfl⟩

/-- The objects of tenants and of telemetry stand above every other. -/
theorem State.keepsUnits_setObj (s : State) {k : Nat} (v : Nat) (hk : 0x400000 ≤ k) : s.KeepsUnits (s.setObj k v) where
  queues := rfl
  stable := fun _ => rfl
  obj := fun key hkey => s.obj_setObj_other v (by omega)

theorem State.keepsUnits_count (s : State) {k : Nat} (n : Nat) (hk : 0x400000 ≤ k) : s.KeepsUnits (s.count k n) :=
  s.keepsUnits_setObj _ hk

theorem tenantObject_ge (t sub : Nat) : 0x400000 ≤ (0x4000 + t) * 256 + sub := by omega

theorem State.keepsUnits_charge (s : State) (t key ns bytes commands : Nat) : s.KeepsUnits (s.charge t key ns bytes commands) := by
  unfold State.charge
  dsimp only
  split
  · exact s.keepsUnits_setAttrib t _
  · split
    · exact s.keepsUnits_setAttrib t _
    · exact s.keepsUnits_count ns (tenantObject_ge t 0xA3)

theorem State.keepsUnits_countUncharged (s : State) (n : Nat) : s.KeepsUnits (s.count oEngineNsUncharged n) :=
  s.keepsUnits_count n (by decide)

theorem State.keepsUnits_chargeEngine (s : State) (c : Ctx) (key ns : Nat) : s.KeepsUnits (s.chargeEngine c key ns) := by
  cases c with
  | none => exact s.keepsUnits_countUncharged ns
  | some t => exact (s.keepsUnits_count ns (tenantObject_ge t 0x90)).trans (State.keepsUnits_charge _ t key ns 0 0)

theorem State.keepsUnits_chargeDiscard (s : State) (c : Cmd) (status detail : Nat) : s.KeepsUnits (s.chargeDiscard c status detail) := by
  unfold State.chargeDiscard
  dsimp only
  split
  · exact .refl s
  · split
    · exact s.keepsUnits_free.trans (State.keepsUnits_countUncharged _ _)
    · exact s.keepsUnits_free.trans (State.keepsUnits_chargeEngine _ _ _ _)

/-- What a command's tiles held leaves the mangers. A stable as shipped has an empty one, so the stables that are not listed stay as they are. -/
theorem State.stable_dropGrants (s : State) (c : Cmd) (p : Nat) :
    (s.dropGrants c).stable p = { s.stable p with manger := (s.stable p).manger.filter (fun m => m.tag.1 != c.id) } := by
  have hmap := Store.find?_map (fun v : Stable => { v with manger := v.manger.filter (fun m => m.tag.1 != c.id) }) s.exec.stables p
  refine (congrArg (fun o => o.getD (stableShipped p)) hmap).trans ?_
  unfold State.stable
  cases Store.find? s.exec.stables p with
  | some v => rfl
  | none =>
    unfold stableShipped
    split <;> rfl

theorem State.keepsUnits_dropGrants (s : State) (c : Cmd) : s.KeepsUnits (s.dropGrants c) where
  queues := rfl
  stable := fun p => by rw [s.stable_dropGrants c p]; rfl
  obj := fun _ _ => rfl

theorem State.keepsUnits_failCmdAs (s : State) (id status detail : Nat) (f : Option AccFault) (wide : Bool) :
    s.KeepsUnits (s.failCmdAs id status detail f wide) := by
  unfold State.failCmdAs
  split
  · next c _ =>
    dsimp only
    refine (s.keepsUnits_chargeDiscard c status detail).trans (.trans ?_ (State.keepsUnits_setCmd _ _))
    cases wide with
    | true => exact (State.keepsUnits_free _).trans (State.keepsUnits_dropGrants _ c)
    | false => exact State.keepsUnits_dropGrants _ c
  · exact .refl s

theorem State.keepsUnits_dealAgain (s : State) (p : Nat) (c : Cmd) : s.KeepsUnits (s.dealAgain p c) := by
  unfold State.dealAgain
  dsimp only
  split
  · exact .refl s
  · split
    · exact s.keepsUnits_failCmdAs c.id stContained 4 none _
    · exact s.keepsUnits_setCmd _

theorem State.keepsUnits_dealAll (s : State) (p : Nat) : s.KeepsUnits (s.dealAll p) := by
  refine State.keepsUnits_foldl (fun x c => ?_) _ s
  split
  · exact x.keepsUnits_dealAgain p _
  · exact .refl x

theorem State.keepsUnits_vacate (s : State) (l : Option Nat) : s.KeepsUnits (s.vacate l) := by
  cases l <;> exact ⟨rfl, fun _ => rfl, fun _ _ => rfl⟩

theorem State.keepsUnits_loseWork (s : State) (p : Nat) : s.KeepsUnits (s.loseWork p) := by
  unfold State.loseWork
  split
  · exact .refl s
  · exact s.keepsUnits_free.trans (State.keepsUnits_countUncharged _ _)

theorem quarterObject_ge (q : Nat) : 0x400000 ≤ oQuarterActiveStables q ∧ 0x400000 ≤ oQuarterSpareState q := by
  unfold oQuarterActiveStables oQuarterSpareState
  omega

theorem State.keepsUnits_syncActive (s : State) (q : Nat) : s.KeepsUnits (s.syncActive q) :=
  s.keepsUnits_setObj _ (quarterObject_ge q).1

end Sys2Proof.Machine

/-! SUPPORT. Retirement, sparing and scrubs of stables, and the statements about them. -/

namespace Sys2Proof.Machine

/-! ## Retirement -/

/-- An active stable that retires: it goes dark and is named among the retired, and everything that follows is dealing its commands again and reports. -/
theorem State.retireStable_active {s : State} {p : Nat} (hp : p < 136) (hv : (s.stable p).service = 0) (cause : Nat) :
    ((s.putStable p ((s.stable p).off 3)).setObj oRetiredStables (setBit (s.obj oRetiredStables) p)).KeepsUnits (s.retireStable p cause) := by
  unfold State.retireStable
  dsimp only
  rw [if_neg (by omega), if_neg (by omega)]
  refine .trans ?_ (State.reportsOnly_event_capacityEvent _ _ _).keepsUnits
  exact (State.keepsUnits_vacate _ _).trans ((State.keepsUnits_dealAll _ p).trans (State.keepsUnits_syncActive _ _))

/-- A spare that retires has no commands to deal again: the rest is reports. -/
theorem State.retireStable_spare {s : State} {p : Nat} (hp : p < 136) (hv : (s.stable p).service = 1) (cause : Nat) :
    (((s.putStable p ((s.stable p).off 3)).setObj oRetiredStables (setBit (s.obj oRetiredStables) p)).setObj (oQuarterSpareState (p / 17)) 2).ReportsOnly
      (s.retireStable p cause) := by
  unfold State.retireStable
  dsimp only
  rw [if_neg (by omega), if_pos hv]
  exact State.reportsOnly_event_capacityEvent _ _ _

/-- What an active stable leaves as it retires (R43): it is retired for good, without a number, every other stable as it was. -/
theorem State.retireStable_spec {s : State} {p : Nat} (hp : p < 136) (hv : (s.stable p).service = 0) (cause : Nat) :
    ((s.retireStable p cause).stable p).service = 3 ∧ ((s.retireStable p cause).stable p).logical = none ∧
      bit ((s.retireStable p cause).obj oRetiredStables) p = true ∧
      (∀ r, r ≠ p → ((s.retireStable p cause).stable r).bare = (s.stable r).bare) ∧ (s.retireStable p cause).queues = s.queues := by
  have hk := State.retireStable_active hp hv cause
  refine ⟨?_, ?_, ?_, fun r hr => ?_, hk.queues⟩
  · rw [hk.service p, State.stable_setObj, State.stable_putStable_self]
    rfl
  · rw [hk.logical p, State.stable_setObj, State.stable_putStable_self]
    rfl
  · rw [hk.obj oRetiredStables (by decide), State.obj_setObj_self]
    exact bit_setBit_self _ p
  · rw [hk.stable r, State.stable_setObj, State.stable_putStable_other _ _ hr.symm]

/-! ## A residue mismatch and a walker's watchdog -/

theorem exec_residueMismatch (id ti ns : Nat) (s : State) : exec (.residueMismatch id ti ns) s = .next (s.residueMismatch id ti ns).staticCheck := rfl

theorem exec_walkerWatchdogExpire (p : Fin 136) (ns : Nat) (s : State) : exec (.walkerWatchdogExpire p ns) s = .next (s.watchdog p.val ns).staticCheck := rfl

section
variable {s : State} {id ti : Nat} {c : Cmd} {t : Tile}

/-- A mismatch in a tile that runs or drains, by how often the tile has been replayed. -/
theorem State.residueMismatch_eq (htile : s.tile? id ti = some (c, t)) (hrun : t.state = .run ∨ t.state = .drain) (hm : t.masks = false)
    (hv : (s.stable t.stable).service = 0) (ns : Nat) :
    s.residueMismatch id ti ns =
      if t.replays = 0 then
        ((s.count oEngineNsUncharged ns).setCmd { c with tiles := c.tiles.set ti { t.restart t.stable with replays := 1 } }).event
          ⟨0x0800, 1, 3, (s.stable t.stable).logical.getD 0xFF, 0⟩
      else (s.count oEngineNsUncharged ns).retireStable t.stable 1 := by
  unfold State.residueMismatch
  rw [htile]
  dsimp only
  rw [if_neg]
  rcases hrun with h | h <;> simp [h, hm, hv]

/-- The first mismatch of a tile sets the tile back to its start on the same stable (R42). -/
theorem State.residueMismatch_first (htile : s.tile? id ti = some (c, t)) (hrun : t.state = .run ∨ t.state = .drain) (hm : t.masks = false)
    (hv : (s.stable t.stable).service = 0) (h0 : t.replays = 0) (ns : Nat) :
    ((s.residueMismatch id ti ns).tile? id ti).map Prod.snd = some { t.restart t.stable with replays := 1 } ∧
      (s.residueMismatch id ti ns).exec.stables = s.exec.stables ∧ (s.residueMismatch id ti ns).queues = s.queues := by
  rw [State.residueMismatch_eq htile hrun hm hv ns, if_pos h0]
  set a := (s.count oEngineNsUncharged ns).setCmd { c with tiles := c.tiles.set ti { t.restart t.stable with replays := 1 } } with ha
  have hrep := a.reportsOnly_event ⟨0x0800, 1, 3, (s.stable t.stable).logical.getD 0xFF, 0⟩
  have hset : a.tile? id ti = some ({ c with tiles := c.tiles.set ti { t.restart t.stable with replays := 1 } }, { t.restart t.stable with replays := 1 }) :=
    State.tile?_setCmd (s := s.count oEngineNsUncharged ns) htile rfl rfl
  refine ⟨?_, ?_, hrep.queues⟩
  · rw [hrep.tile?, hset]
    rfl
  · rw [hrep.exec]
    rfl

end

/-- A watchdog that finds its stable idle or out of service does nothing (R42). -/
theorem State.watchdog_idle {s : State} {p : Nat}
    (h : (s.stable p).service ≠ 0 ∨ s.exec.cmds.any (fun c => c.tiles.any (fun t => t.stable == p && s.runnable c t)) = false) (ns : Nat) :
    s.watchdog p ns = s := by
  unfold State.watchdog
  exact if_pos (h.imp id (fun h => by rw [h]; rfl))

/-- A watchdog that finds tiles of its stable runnable retires the stable (R42). -/
theorem State.watchdog_runnable {s : State} {p : Nat} (hv : (s.stable p).service = 0)
    (h : s.exec.cmds.any (fun c => c.tiles.any (fun t => t.stable == p && s.runnable c t)) = true) (ns : Nat) :
    s.watchdog p ns = (s.count oEngineNsUncharged ns).retireStable p 3 := by
  unfold State.watchdog
  rw [if_neg]
  simp only [h, hv]
  simp

/-- Settles O38: a first mismatch by `residueMismatch_first`, every retirement by `retireStable_spec`. -/
theorem failingStablesRetire : Obligations.FailingStablesRetire := by
  unfold Obligations.FailingStablesRetire
  refine ⟨fun s id ti ns c t htile hrun hm hv h0 => ?_, fun s id ti ns c t htile hrun hm hv h0 hp => ?_, fun s p ns hv hany => ?_, fun s p ns h => ?_⟩
  · exact ⟨_, exec_residueMismatch id ti ns s, State.residueMismatch_first htile hrun hm hv h0 ns⟩
  · refine ⟨_, exec_residueMismatch id ti ns s, ?_⟩
    rw [State.residueMismatch_eq htile hrun hm hv ns, if_neg h0]
    obtain ⟨hserv, hlog, hbit, -, hq⟩ := State.retireStable_spec (s := s.count oEngineNsUncharged ns) hp hv 1
    exact ⟨hserv, hlog, hbit, hq⟩
  · refine ⟨_, exec_walkerWatchdogExpire p ns s, ?_⟩
    rw [State.watchdog_runnable hv hany ns]
    exact State.retireStable_spec (s := s.count oEngineNsUncharged ns) p.isLt hv 3
  · rw [exec_walkerWatchdogExpire, State.watchdog_idle h ns]

/-! ## Spares -/

theorem exec_spareActivate (q : Fin 8) (ok : Bool) (s : State) : exec (.spareActivate q ok) s = .next (s.spareActivate q.val ok).staticCheck := rfl

/-- The spare of a quarter stands in that quarter and is a spare. -/
theorem State.spareOf_spec {s : State} {q p : Nat} (h : s.spareOf q = some p) : p / 17 = q ∧ (s.stable p).service = 1 := by
  unfold State.spareOf at h
  have hmem := List.mem_of_find?_eq_some h
  have hserv := List.find?_some h
  obtain ⟨i, hi, rfl⟩ := List.mem_map.mp hmem
  rw [List.mem_range] at hi
  exact ⟨by omega, by simpa using hserv⟩

/-- SPARE_ACTIVATE where a spare and a vacant number are there (R43). -/
theorem State.spareActivate_eq {s : State} {q p l : Nat} (hauto : s.obj oSpareAutoActivate = 1) (hout : s.outOfService q = false)
    (hrails : s.power.rails = 2) (hp : s.spareOf q = some p) (hl : s.exec.vacated.find? (fun x => x / 16 == q) = some l) (ok : Bool) :
    s.spareActivate q ok = if ok then (s.setObj (oQuarterSpareState q) 1).joinQuarter p l else (s.event ⟨0x0804, 1, 2, q, p⟩).retireStable p 5 := by
  unfold State.spareActivate
  rw [if_neg (by simp [hauto, hout, hrails]), hp, hl]

/-- A stable that joins its quarter under number l: what follows its own change is reports. -/
theorem State.joinQuarter_reports (s : State) (p l : Nat) :
    ((((s.occupy l).setObj (oStableFlags l) 0).putStable p
      { (s.stable p).cleared (s.obj oDeviceEpoch) with service := 0, logical := some l }).syncActive (p / 17)).ReportsOnly (s.joinQuarter p l) :=
  State.reportsOnly_event_capacityEvent _ _ _

theorem State.joinQuarter_exec (s : State) (p l : Nat) :
    (s.joinQuarter p l).exec = ((s.occupy l).putStable p { (s.stable p).cleared (s.obj oDeviceEpoch) with service := 0, logical := some l }).exec :=
  (s.joinQuarter_reports p l).exec

theorem State.joinQuarter_stable_self (s : State) (p l : Nat) :
    (s.joinQuarter p l).stable p = { (s.stable p).cleared (s.obj oDeviceEpoch) with service := 0, logical := some l } := by
  rw [State.stable_of_exec (s.joinQuarter_exec p l), State.stable_putStable_self]

theorem State.joinQuarter_stable_other (s : State) {p r : Nat} (l : Nat) (h : r ≠ p) : (s.joinQuarter p l).stable r = s.stable r := by
  rw [State.stable_of_exec (s.joinQuarter_exec p l), State.stable_putStable_other _ _ h.symm, State.stable_occupy]

/-- A number that is taken is vacant no longer. -/
theorem State.joinQuarter_vacated (s : State) (p l : Nat) : l ∉ (s.joinQuarter p l).exec.vacated := by
  rw [s.joinQuarter_exec p l]
  simp [State.putStable, State.occupy]

/-- Joining writes two objects: the stable's flags and its quarter's count of active stables. -/
theorem State.joinQuarter_obj (s : State) (p l : Nat) {key : Nat} (h : oQuarterActiveStables (p / 17) ≠ key) :
    (s.joinQuarter p l).obj key = if oStableFlags l = key then 0 else s.obj key := by
  rw [(s.joinQuarter_reports p l).obj key, State.syncActive, State.obj_setObj_other _ _ h, State.obj_putStable, State.obj_setObj, State.obj_occupy]

theorem State.joinQuarter_queues (s : State) (p l : Nat) : (s.joinQuarter p l).queues = s.queues := (s.joinQuarter_reports p l).queues

/-- A spare that has passed its scrub serves under the vacant number, in this epoch (R43, R44). -/
theorem State.spareActivate_passed {s : State} {q p l : Nat} (hq : q < 8) (hauto : s.obj oSpareAutoActivate = 1) (hout : s.outOfService q = false)
    (hrails : s.power.rails = 2) (hp : s.spareOf q = some p) (hl : s.exec.vacated.find? (fun x => x / 16 == q) = some l) :
    ((s.spareActivate q true).stable p).service = 0 ∧ ((s.spareActivate q true).stable p).logical = some l ∧
      ((s.spareActivate q true).stable p).epoch = s.obj oDeviceEpoch ∧ (∀ r, r ≠ p → (s.spareActivate q true).stable r = s.stable r) ∧
      (s.spareActivate q true).obj (oStableFlags l) = 0 ∧ l ∉ (s.spareActivate q true).exec.vacated ∧
      (s.spareActivate q true).obj (oQuarterSpareState q) = 1 ∧ (s.spareActivate q true).queues = s.queues := by
  have hpq := (State.spareOf_spec hp).1
  have hlq : l / 16 = q := by simpa using List.find?_some hl
  rw [State.spareActivate_eq hauto hout hrails hp hl true, if_pos rfl, State.joinQuarter_stable_self]
  refine ⟨rfl, rfl, ?_, fun r hr => ?_, ?_, State.joinQuarter_vacated _ p l, ?_, State.joinQuarter_queues _ p l⟩
  · exact State.obj_setObj_other s 1 (by unfold oQuarterSpareState oDeviceEpoch; omega)
  · exact State.joinQuarter_stable_other _ l hr
  · rw [State.joinQuarter_obj _ p l (by unfold oQuarterActiveStables oStableFlags; omega), if_pos rfl]
  · rw [State.joinQuarter_obj _ p l (by unfold oQuarterActiveStables oQuarterSpareState; omega),
      if_neg (by unfold oStableFlags oQuarterSpareState; omega), State.obj_setObj_self]

/-- A spare that fails its scrub retires (R44). -/
theorem State.spareActivate_failed {s : State} {q p l : Nat} (hq : q < 8) (hauto : s.obj oSpareAutoActivate = 1) (hout : s.outOfService q = false)
    (hrails : s.power.rails = 2) (hp : s.spareOf q = some p) (hl : s.exec.vacated.find? (fun x => x / 16 == q) = some l) :
    ((s.spareActivate q false).stable p).service = 3 ∧ (∀ r, r ≠ p → (s.spareActivate q false).stable r = s.stable r) ∧
      (s.spareActivate q false).obj (oQuarterSpareState q) = 2 ∧ (s.spareActivate q false).queues = s.queues := by
  obtain ⟨rfl, hserv⟩ := State.spareOf_spec hp
  rw [State.spareActivate_eq hauto hout hrails hp hl false, if_neg Bool.false_ne_true]
  have he := s.reportsOnly_event ⟨0x0804, 1, 2, p / 17, p⟩
  have hret := State.retireStable_spare (by omega : p < 136) ((congrArg Stable.service (he.stable p)).trans hserv) 5
  refine ⟨?_, fun r hr => ?_, ?_, hret.queues.trans he.queues⟩
  · rw [hret.stable p, State.stable_setObj, State.stable_setObj, State.stable_putStable_self]
    rfl
  · rw [hret.stable r, State.stable_setObj, State.stable_setObj, State.stable_putStable_other _ _ hr.symm, he.stable r]
  · rw [hret.obj, State.obj_setObj_self]

/-! ## A quarter that leaves service -/

theorem exec_quarterOutOfService (q : Fin 8) (s : State) : exec (.quarterOutOfService q) s = .next (s.quarterOut q.val).staticCheck := rfl

/-- One stable of a quarter that leaves service: it goes dark, unless it is retired. -/
def State.takeOut (s : State) (p : Nat) : State := if (s.stable p).service = 3 then s else (s.loseWork p).putStable p ((s.stable p).off 4)

theorem State.takeOut_queues (s : State) (p : Nat) : (s.takeOut p).queues = s.queues := by
  unfold State.takeOut
  split
  · rfl
  · exact (s.keepsUnits_loseWork p).queues

theorem State.takeOut_service (s : State) (p r : Nat) :
    ((s.takeOut p).stable r).service = if r = p ∧ (s.stable r).service ≠ 3 then 4 else (s.stable r).service := by
  unfold State.takeOut
  by_cases hr : r = p
  · subst hr
    by_cases h3 : (s.stable r).service = 3
    · simp [h3]
    · rw [if_neg h3, if_pos ⟨rfl, h3⟩, State.stable_putStable_self]
      rfl
  · have hne : ¬(r = p ∧ (s.stable r).service ≠ 3) := fun h => hr h.1
    rw [if_neg hne]
    split
    · rfl
    · rw [State.stable_putStable_other _ _ (Ne.symm hr)]
      exact (s.keepsUnits_loseWork p).service r

theorem State.foldl_takeOut_queues (ps : List Nat) (s : State) : (ps.foldl State.takeOut s).queues = s.queues := by
  induction ps generalizing s with
  | nil => rfl
  | cons p rest ih => exact (ih (s.takeOut p)).trans (s.takeOut_queues p)

/-- Taking stables out of service leaves each of them out, but for the retired ones. -/
theorem State.foldl_takeOut_service (ps : List Nat) (s : State) (r : Nat) :
    ((ps.foldl State.takeOut s).stable r).service = if r ∈ ps ∧ (s.stable r).service ≠ 3 then 4 else (s.stable r).service := by
  induction ps generalizing s with
  | nil => simp
  | cons p rest ih =>
    rw [List.foldl_cons, ih, State.takeOut_service]
    by_cases hr : r = p
    · subst hr
      by_cases h3 : (s.stable r).service = 3 <;> simp [h3]
    · simp [hr]

/-- The physical stables of a quarter (R12). -/
def quarterStables (q : Nat) : List Nat := (List.range 17).map (fun i => 17 * q + i)

theorem mem_quarterStables {q i : Nat} (hi : i < 17) : 17 * q + i ∈ quarterStables q := List.mem_map_of_mem (List.mem_range.mpr hi)

/-- What a quarter of fewer than 12 active stables leaves as it goes out of service (R485): what follows its own changes is reports. -/
theorem State.quarterOut_reports {s : State} {q : Nat} (hq : q < 8) (hout : s.outOfService q = false) (hn : s.activeCount q < 12) :
    ∃ d : State, ((quarterStables q).foldl State.takeOut s).KeepsUnits d ∧
      ((d.setObj oQuartersOutOfService (setBit (s.obj oQuartersOutOfService) q)).setObj (oQuarterActiveStables q) 0).ReportsOnly (s.quarterOut q) := by
  have hps : (List.range 17).map (fun i => 17 * q + i) = quarterStables q := rfl
  unfold State.quarterOut
  rw [if_neg (by simp [hout]; omega), hps]
  generalize quarterStables q = ps
  refine ⟨_, ?_, State.reportsOnly_event_capacityEvent _ _ _⟩
  refine (State.keepsUnits_foldl State.keepsUnits_dealAll ps _).trans ?_
  exact ⟨rfl, fun _ => rfl, fun _ _ => rfl⟩

theorem State.quarterOut_spec {s : State} {q : Nat} (hq : q < 8) (hout : s.outOfService q = false) (hn : s.activeCount q < 12) :
    (s.quarterOut q).outOfService q = true ∧ (s.quarterOut q).obj (oQuarterActiveStables q) = 0 ∧
      (∀ i, i < 17 → (s.stable (17 * q + i)).service ≠ 3 → ((s.quarterOut q).stable (17 * q + i)).service = 4) ∧ (s.quarterOut q).queues = s.queues := by
  obtain ⟨d, hdeal, hrep⟩ := State.quarterOut_reports hq hout hn
  refine ⟨?_, ?_, fun i hi h3 => ?_, ?_⟩
  · unfold State.outOfService
    rw [hrep.obj, State.obj_setObj_other _ _ (by unfold oQuarterActiveStables oQuartersOutOfService; omega), State.obj_setObj_self]
    exact bit_setBit_self _ q
  · rw [hrep.obj, State.obj_setObj_self]
  · rw [hrep.stable, State.stable_setObj, State.stable_setObj, hdeal.service, State.foldl_takeOut_service, if_pos]
    exact ⟨mem_quarterStables hi, h3⟩
  · exact hrep.queues.trans (hdeal.queues.trans (State.foldl_takeOut_queues _ s))

/-- A quarter with 12 active stables stays in service (R485). -/
theorem State.quarterOut_of_enough {s : State} {q : Nat} (h : 12 ≤ s.activeCount q) : s.quarterOut q = s := by
  unfold State.quarterOut
  exact if_pos (Or.inr (Or.inr h))

/-! ## Scrubs -/

theorem exec_quarterScrubComplete (paddock ok : Bool) (p : Fin 136) (s : State) :
    exec (.quarterScrubComplete paddock p ok) s = .next (s.scrubDone (if paddock then 1 else 0) p.val ok).staticCheck := rfl

/-- What a stable's scrub leaves, where it was one of R488 and passed. -/
theorem State.scrubDone_stable {s : State} {p : Nat} (h : s.power.scrubs.contains (0, p) = true) :
    (s.scrubDone 0 p true).stable p = (s.stable p).cleared (s.obj oDeviceEpoch) ∧
      (s.scrubDone 0 p true).power = { s.power with scrubs := s.power.scrubs.erase (0, p) } ∧
      (s.scrubDone 0 p true).queues = s.queues ∧ (s.scrubDone 0 p true).mem = s.mem := by
  unfold State.scrubDone
  rw [if_pos h, if_neg Nat.zero_ne_one, if_pos rfl]
  dsimp only
  split <;> exact ⟨State.stable_putStable_self _ p _, rfl, rfl, rfl⟩

/-- Zeroing a range reads as zero there and as before elsewhere. -/
theorem MemGroup.read_zero (m : MemGroup) (lo hi k : Nat) : (m.zero lo hi).read k = if k < lo ∨ hi ≤ k then m.read k else 0 := by
  unfold MemGroup.read MemGroup.zero
  dsimp only
  rw [Store.get_filter 0 (fun j => decide (j < lo) || decide (hi ≤ j))]
  simp

/-- Zero a granule of the paddocks, unless it is retired. -/
def MemGroup.scrubGranule (s : State) (m : MemGroup) (g : Nat) : MemGroup :=
  if s.granuleOwner g = ownerRetired then m else m.zero (paddockKey g 0) (paddockKey g 0 + 2 ^ 20)

theorem MemGroup.read_scrubGranule_of_zero {s : State} {m : MemGroup} {k : Nat} (h : m.read k = 0) (g : Nat) :
    (MemGroup.scrubGranule s m g).read k = 0 := by
  unfold MemGroup.scrubGranule
  split
  · exact h
  · rw [MemGroup.read_zero, h, ite_self]

theorem MemGroup.read_scrubGranule_self {s : State} (m : MemGroup) {g off : Nat} (hg : s.granuleOwner g ≠ ownerRetired) (hoff : off < 2 ^ 20) :
    (MemGroup.scrubGranule s m g).read (paddockKey g off) = 0 := by
  unfold MemGroup.scrubGranule
  rw [if_neg hg, MemGroup.read_zero, if_neg]
  unfold paddockKey
  omega

theorem MemGroup.read_foldl_scrubGranule {s : State} {k : Nat} (l : List Nat) {m : MemGroup} (h : m.read k = 0) :
    (l.foldl (MemGroup.scrubGranule s) m).read k = 0 := by
  induction l generalizing m with
  | nil => exact h
  | cons g rest ih => exact ih (MemGroup.read_scrubGranule_of_zero h g)

theorem MemGroup.read_foldl_scrubGranule_of_mem {s : State} {l : List Nat} {g off : Nat} (hmem : g ∈ l) (hg : s.granuleOwner g ≠ ownerRetired)
    (hoff : off < 2 ^ 20) (m : MemGroup) : (l.foldl (MemGroup.scrubGranule s) m).read (paddockKey g off) = 0 := by
  induction l generalizing m with
  | nil => cases hmem
  | cons x rest ih =>
    rcases List.mem_cons.mp hmem with rfl | hrest
    · exact MemGroup.read_foldl_scrubGranule rest (MemGroup.read_scrubGranule_self m hg hoff)
    · exact ih hrest _

/-- After a paddock is zeroed, every byte of its granules that are not retired reads zero. -/
theorem State.zeroPaddock_read {s : State} {q g off : Nat} (hgq : g / 256 = q) (hoff : off < 2 ^ 20) (hg : s.granuleOwner g ≠ ownerRetired) :
    (s.zeroPaddock q).mem.read (paddockKey g off) = 0 := by
  have hmem : g ∈ (List.range 256).map (fun i => 256 * q + i) := List.mem_map.mpr ⟨g % 256, List.mem_range.mpr (by omega), by omega⟩
  unfold State.zeroPaddock
  generalize (List.range 256).map (fun i => 256 * q + i) = l at hmem ⊢
  exact MemGroup.read_foldl_scrubGranule_of_mem (s := s) hmem hg hoff s.mem

/-- What a paddock's scrub leaves, where it was one of R488 and passed. -/
theorem State.scrubDone_paddock {s : State} {q : Nat} (h : s.power.scrubs.contains (1, q) = true) :
    Store.get 0 (s.scrubDone 1 q true).exec.quarterEpochs q = s.obj oDeviceEpoch ∧
      (s.scrubDone 1 q true).power = { s.power with scrubs := s.power.scrubs.erase (1, q) } ∧
      (∀ g off, g / 256 = q → off < 2 ^ 20 → s.granuleOwner g ≠ ownerRetired → (s.scrubDone 1 q true).mem.read (paddockKey g off) = 0) ∧
      (s.scrubDone 1 q true).queues = s.queues := by
  unfold State.scrubDone
  rw [if_pos h, if_pos rfl, if_pos rfl]
  refine ⟨Store.get_set_self 0 _ q _, rfl, fun g off hgq hoff hg => ?_, rfl⟩
  have hz := State.zeroPaddock_read (s := s.withPower { s.power with scrubs := s.power.scrubs.erase (1, q) }) hgq hoff hg
  dsimp only
  exact hz

/-- Settles O39, clause by clause: the spare's scrub, the quarter's count, the two kinds of scrub. -/
theorem sparesQuartersAndScrubs : Obligations.SparesQuartersAndScrubs := by
  unfold Obligations.SparesQuartersAndScrubs
  refine ⟨fun s q p l hauto hout hrails hp hl => ⟨⟨_, exec_spareActivate q true s, ?_⟩, ⟨_, exec_spareActivate q false s, ?_⟩⟩,
    fun s q hout hn => ⟨_, exec_quarterOutOfService q s, ?_⟩, fun s q h => ?_, fun s p h => ⟨_, exec_quarterScrubComplete false true p s, ?_⟩,
    fun s p h => ⟨_, exec_quarterScrubComplete true true p s, ?_⟩⟩
  · exact State.spareActivate_passed q.isLt hauto hout hrails hp hl
  · exact State.spareActivate_failed q.isLt hauto hout hrails hp hl
  · exact State.quarterOut_spec q.isLt hout hn
  · rw [exec_quarterOutOfService, State.quarterOut_of_enough h]
  · exact State.scrubDone_stable h
  · exact State.scrubDone_paddock h

end Sys2Proof.Machine

/-! SUPPORT. The swap and the commit of a tile, and the statement about them. -/

namespace Sys2Proof.Machine

/-! ## Updates of the schedule -/

/-- State `u` is `s` but for its schedule: what an arbiter's grants and charges leave. -/
def State.SchedOnly (s u : State) : Prop := u = { s with sched := u.sched }

theorem State.schedOnly_setArb (s : State) (n : Nat) (a : Arbiter) : s.SchedOnly (s.setArb n a) := rfl

theorem State.SchedOnly.trans {s t u : State} (h : s.SchedOnly t) (k : t.SchedOnly u) : s.SchedOnly u := by
  unfold State.SchedOnly at h k ⊢
  rw [k, h]

/-- With the Spur off a grant changes arbiters only. -/
theorem State.schedOnly_arbitrate {s : State} (hspur : s.obj oSpurEnable ≠ 1) (n : Nat) (inc : Nat → Nat) (reqs : List (Nat × Nat)) :
    s.SchedOnly (s.arbitrate n inc reqs).1 := by
  unfold State.arbitrate
  split
  · rfl
  · next w _ =>
    rw [State.spurDraw_off hspur]
    exact s.schedOnly_setArb n w.2

theorem State.schedOnly_grantTo {s : State} (hspur : s.obj oSpurEnable ≠ 1) {n quantum name : Nat} {reqs : List (Nat × Nat)} {g : State × Nat}
    (hg : s.grantTo n quantum name reqs = some g) : s.SchedOnly g.1 := by
  have h := State.schedOnly_arbitrate hspur n (s.shareInc quantum) reqs
  unfold State.grantTo at hg
  split at hg
  · next s1 r hr =>
    split at hg
    · cases hg
      rwa [hr] at h
    · cases hg
  · cases hg

theorem State.schedOnly_assignStable {s g : State} (hspur : s.obj oSpurEnable ≠ 1) {p id ti : Nat} (h : s.assignStable p id ti = some g) :
    s.SchedOnly g := by
  unfold State.assignStable at h
  split at h
  · cases h
  · next r hr =>
    cases h
    exact (State.schedOnly_grantTo hspur hr).trans (State.schedOnly_setArb _ _ _)

/-- With the Spur off, taking a stable changes arbiters only (R392). -/
theorem State.schedOnly_takeStable {s g : State} (hspur : s.obj oSpurEnable ≠ 1) {t : Tile} {id ti : Nat} (h : s.takeStable t id ti = some g) :
    s.SchedOnly g := by
  unfold State.takeStable at h
  split at h
  · exact State.schedOnly_assignStable hspur h
  · cases h
    rfl

/-- Past its first swap a tile keeps its stable and asks no arbiter. -/
theorem State.takeStable_later (s : State) {t : Tile} (h : t.swapped ≠ 0) (id ti : Nat) : s.takeStable t id ti = some s := by
  unfold State.takeStable
  rw [if_neg h]

/-- With the Spur off a tile keeps the stable it is dealt to. -/
theorem State.spurPlace_off {s : State} (hspur : s.obj oSpurEnable ≠ 1) (c : Ctx) (t : Tile) : s.spurPlace c t = (s, t.stable) := by
  unfold State.spurPlace
  rw [State.spurDraw_off hspur]
  split <;> simp

/-! ## The swap -/

theorem exec_shadowSwap (id ti : Nat) (s : State) : exec (.shadowSwap id ti) s = .next (s.shadowSwap id ti) := rfl

/-- The operands of a tile's product, as the walkers read them. -/
def Cmd.operands (c : Cmd) (t : Tile) : Stationary := c.stationary.getD t.prod ⟨1, 1, 0, false, 256, [], []⟩

/-- A tile after one more swap: with its last slice it drains. -/
def Tile.next (t : Tile) : Tile := { t with swapped := t.swapped + 1, state := if t.swapped + 1 = t.slices then .drain else .run }

/-! What filling, swapping and broadcasting leave in the registers (R21, R24, R25). -/

@[simp] theorem Stable.fill_active (v : Stable) p t tag : (v.fill p t tag).active = v.active := by simp only [Stable.fill]
@[simp] theorem Stable.fill_activeTag (v : Stable) p t tag : (v.fill p t tag).activeTag = v.activeTag := by simp only [Stable.fill]
@[simp] theorem Stable.fill_shadow (v : Stable) p t tag : (v.fill p t tag).shadow = tileSlice p t tag.2.2 := by simp only [Stable.fill]
@[simp] theorem Stable.fill_shadowTag (v : Stable) p t tag : (v.fill p t tag).shadowTag = some tag := by simp only [Stable.fill]
@[simp] theorem Stable.fill_acc (v : Stable) p t tag : (v.fill p t tag).acc = v.acc := by simp only [Stable.fill]

@[simp] theorem Stable.broadcastSwap_active (v : Stable) p t k : (v.swap.broadcast p t k).active = v.shadow := by
  simp only [Stable.swap, Stable.broadcast]
@[simp] theorem Stable.broadcastSwap_activeTag (v : Stable) p t k : (v.swap.broadcast p t k).activeTag = v.shadowTag := by
  simp only [Stable.swap, Stable.broadcast]
@[simp] theorem Stable.broadcastSwap_shadow (v : Stable) p t k : (v.swap.broadcast p t k).shadow = v.active := by
  simp only [Stable.swap, Stable.broadcast]
@[simp] theorem Stable.broadcastSwap_acc (v : Stable) p t k : (v.swap.broadcast p t k).acc = tileAcc p t (k + 1) := by
  simp only [Stable.swap, Stable.broadcast]

/-- The registers of `v` are those of `w` after a slice of a tile has been swapped in and broadcast, before the walker fills the shadow again. -/
structure Stable.Swapped (w v : Stable) (p : Stationary) (t : Tile) (tag : SliceTag) : Prop where
  active : v.active = if w.shadowTag = some tag then w.shadow else tileSlice p t tag.2.2
  activeTag : v.activeTag = some tag
  shadow : v.shadow = w.active
  acc : v.acc = tileAcc p t (tag.2.2 + 1)

/-- R25, R26: the registers exchange, whether the shadow holds the slice already or is filled first. -/
theorem Stable.swapped_of_fill (v : Stable) (p : Stationary) (t : Tile) (tag : SliceTag) :
    v.Swapped ((if v.shadowTag = some tag then v else v.fill p t tag).swap.broadcast p t tag.2.2) p t tag := by
  by_cases h : v.shadowTag = some tag
  · rw [if_pos h]
    exact ⟨by simp [h], by simp [h], by simp, by simp⟩
  · rw [if_neg h]
    exact ⟨by simp [h], by simp, by simp, by simp⟩

/-- The stable as it stands before a swap: the entries of the tile that drains there are read out before another tile's first column (R30). -/
def State.beforeSwap (s : State) (t : Tile) (v : Stable) : Stable :=
  match s.draining? v with
  | some e => if t.swapped = 0 then v.readOut e else v
  | none => v

theorem State.beforeSwap_registers (s : State) (t : Tile) (v : Stable) :
    (s.beforeSwap t v).active = v.active ∧ (s.beforeSwap t v).shadow = v.shadow ∧ (s.beforeSwap t v).shadowTag = v.shadowTag := by
  unfold State.beforeSwap
  split
  · split <;> exact ⟨rfl, rfl, rfl⟩
  · exact ⟨rfl, rfl, rfl⟩

/-- The walker fills the shadow for what comes next, where something does. -/
def Stable.refill (v : Stable) : Option (Stationary × Tile × SliceTag) → Stable
  | some n => v.fill n.1 n.2.1 n.2.2
  | none => v

/-- Filling the shadow leaves the active registers and the accumulators alone (R21). -/
theorem Stable.refill_keeps (v : Stable) (o : Option (Stationary × Tile × SliceTag)) :
    (v.refill o).active = v.active ∧ (v.refill o).activeTag = v.activeTag ∧ (v.refill o).acc = v.acc := by
  cases o <;> simp [Stable.refill]

/-- The stable of a tile after the swap of its next slice: the swap, and what the walker fills behind it. -/
theorem State.swapNow_eq (g : State) (c : Cmd) (t : Tile) (id ti : Nat) (v : Stable) :
    ∃ w : Stable, v.Swapped w (c.operands t) t (id, ti, t.swapped) ∧
      g.swapNow c t id ti v = (g.putStable t.stable (w.refill (g.nextFill t.stable id ti t.swapped t))).setTile id ti t.next := by
  obtain ⟨hact, hsh, htag⟩ := g.beforeSwap_registers t v
  have hsw := (g.beforeSwap t v).swapped_of_fill (c.operands t) t (id, ti, t.swapped)
  refine ⟨_, ⟨?_, hsw.activeTag, hsw.shadow.trans hact, hsw.acc⟩, ?_⟩
  · rw [hsw.active, htag, hsh]
  · unfold State.swapNow
    cases g.nextFill t.stable id ti t.swapped t <;> rfl

/-- A swap that nothing stands in the way of, once the arbiter has given the stable to the tile. -/
theorem State.shadowSwap_eq {s g : State} {id ti : Nat} {c : Cmd} {t : Tile} (htile : s.tile? id ti = some (c, t)) (hmove : s.tilesMove c.tenant = true)
    (hstate : t.state = .fill ∨ t.state = .run) (hleft : t.swapped < t.slices) (hheld : s.tileHeld c t = false) (hserv : (s.stable t.stable).service = 0)
    (hruns : s.stableRuns t.stable id ti = false) (hcur : s.stableCurrent t.stable = true) (hhold : t.swapped ≠ 0 ∨ s.holdsTiles t.stable = false)
    (hspur : s.obj oSpurEnable ≠ 1) (hg : (s.setTile id ti t).takeStable t id ti = some g) :
    s.shadowSwap id ti = g.swapNow c t id ti (s.stable t.stable) := by
  have hst : (t.state == .fill || t.state == .run) = true := by rcases hstate with h | h <;> simp [h]
  have hnew : (t.swapped == 0 && s.holdsTiles t.stable) = false := by rcases hhold with h | h <;> simp [h]
  unfold State.shadowSwap
  rw [htile]
  dsimp only
  rw [if_neg (by simp [hmove, hst, hheld]; omega), State.spurPlace_off hspur, if_neg (by simp [hserv, hruns, hcur, hnew]), hg]

/-- Setting a tile to what it is changes nothing of its command. -/
theorem Cmd.set_tile_self {c : Cmd} {ti : Nat} {t : Tile} (h : c.tiles[ti]? = some t) : { c with tiles := c.tiles.set ti t } = c := by
  obtain ⟨hi, rfl⟩ := List.getElem?_eq_some_iff.mp h
  rw [List.set_getElem_self]

/-- The state after a swap: a stable and a command of the array are put, and the schedule is that of the arbiter's grant. -/
theorem State.shadowSwap_form {s g : State} {id ti : Nat} {c : Cmd} {t : Tile} (htile : s.tile? id ti = some (c, t)) (hspur : s.obj oSpurEnable ≠ 1)
    (hg : (s.setTile id ti t).takeStable t id ti = some g) :
    ∃ w : Stable, (s.stable t.stable).Swapped w (c.operands t) t (id, ti, t.swapped) ∧ ∃ d : SchedGroup,
      g.swapNow c t id ti (s.stable t.stable) =
        { ((s.setCmd c).putStable t.stable (w.refill (g.nextFill t.stable id ti t.swapped t))).setCmd
          { c with tiles := c.tiles.set ti t.next } with sched := d } := by
  obtain ⟨hc, hti⟩ := State.tile?_iff.mp htile
  obtain ⟨w, hw, heq⟩ := g.swapNow_eq c t id ti (s.stable t.stable)
  have hset : s.setTile id ti t = s.setCmd c := by rw [State.setTile_eq hc, Cmd.set_tile_self hti]
  rw [hset] at hg
  have hgs : (s.setCmd c).SchedOnly g := State.schedOnly_takeStable hspur hg
  have hgc : g.cmd? id = some c := by
    rw [hgs]
    exact State.cmd?_setCmd hc (State.cmd?_id hc)
  refine ⟨w, hw, g.sched, ?_⟩
  rw [heq, State.setTile_eq (s := g.putStable t.stable _) hgc]
  generalize w.refill (g.nextFill t.stable id ti t.swapped t) = v
  rw [hgs]
  rfl

/-- What a swap leaves (R25 to R27): the stable's registers and accumulators, every other stable and every group but the array and the schedule as
they were, and the tile one slice further. -/
theorem State.shadowSwap_spec {s g : State} {id ti : Nat} {c : Cmd} {t : Tile} (htile : s.tile? id ti = some (c, t)) (hspur : s.obj oSpurEnable ≠ 1)
    (hg : (s.setTile id ti t).takeStable t id ti = some g) {u : State} (hu : u = g.swapNow c t id ti (s.stable t.stable)) :
    (u.stable t.stable).active = (if (s.stable t.stable).shadowTag = some (id, ti, t.swapped) then (s.stable t.stable).shadow
        else tileSlice (c.operands t) t t.swapped) ∧
      (u.stable t.stable).activeTag = some (id, ti, t.swapped) ∧
      ((g.nextFill t.stable id ti t.swapped t).isNone = true → (u.stable t.stable).shadow = (s.stable t.stable).active) ∧
      (∀ p x tag, g.nextFill t.stable id ti t.swapped t = some (p, x, tag) → (u.stable t.stable).shadow = tileSlice p x tag.2.2 ∧
        (u.stable t.stable).shadowTag = some tag) ∧
      (u.stable t.stable).acc = tileAcc (c.operands t) t (t.swapped + 1) ∧
      (∀ p, p ≠ t.stable → u.stable p = s.stable p) ∧
      u.tile? id ti = some ({ c with tiles := c.tiles.set ti t.next }, t.next) ∧
      u = { s with exec := u.exec, sched := u.sched } := by
  obtain ⟨w, hw, d, hform⟩ := State.shadowSwap_form htile hspur hg
  have hv : u.stable t.stable = w.refill (g.nextFill t.stable id ti t.swapped t) := by
    rw [hu, hform]
    exact State.stable_putStable_self _ _ _
  obtain ⟨hact, htag, hacc⟩ := w.refill_keeps (g.nextFill t.stable id ti t.swapped t)
  rw [hv]
  refine ⟨hact.trans hw.active, htag.trans hw.activeTag, fun hn => ?_, fun p x tag hn => ?_, hacc.trans hw.acc, fun p hp => ?_, ?_, ?_⟩
  · rw [Option.isNone_iff_eq_none.mp hn]
    exact hw.shadow
  · rw [hn]
    exact ⟨Stable.fill_shadow _ _ _ _, Stable.fill_shadowTag _ _ _ _⟩
  · rw [hu, hform]
    exact State.stable_putStable_other (s.setCmd c) _ hp.symm
  · rw [hu, hform]
    have htile' : (s.setCmd c).tile? id ti = some (c, t) :=
      State.tile?_setCmd htile rfl (congrArg Cmd.tiles (Cmd.set_tile_self (State.tile?_iff.mp htile).2)).symm
    exact State.tile?_setCmd (s := (s.setCmd c).putStable t.stable _) htile' rfl rfl
  · rw [hu, hform]
    rfl

/-! ## The commit -/

theorem exec_tileCommit (id ti ns : Nat) (s : State) : exec (.tileCommit id ti ns) s = .next (s.tileCommit id ti ns) := rfl

section
variable {s : State} {id ti ns : Nat} {c : Cmd} {t : Tile}

/-- With the Spur off, a drained tile that nothing stands in the way of is done (R39). -/
theorem State.tileCommit_eq (htile : s.tile? id ti = some (c, t)) (hmove : s.tilesMove c.tenant = true) (hstate : t.state = .drain)
    (hready : lastSegmentReady c t = true) (hheld : s.tileHeld c t = false) (hserv : (s.stable t.stable).service = 0) (hspur : s.obj oSpurEnable ≠ 1) :
    s.tileCommit id ti ns =
      (s.setCmd { c with flags := c.flags ||| t.flags, tiles := c.tiles.set ti { t with state := .done } }).tileDone c t ti ns := by
  unfold State.tileCommit
  rw [htile]
  dsimp only
  rw [if_neg (by simp [hmove, hstate, hready, hheld]), State.spurPlace_off hspur, ite_self]
  dsimp only
  rw [if_neg (by simp [hserv]), State.spurDraw_off hspur, ite_self]
  rfl

end

/-- A late charge of an arbiter writes no object. -/
theorem State.obj_chargeLate (s : State) (a tag cost key : Nat) : (s.chargeLate a tag cost).obj key = s.obj key := rfl

/-- Charging a tenant's engine time leaves every object alone but two of that tenant's. -/
theorem State.obj_chargeEngine_other (s : State) {n key : Nat} (k ns : Nat) (h1 : oTenantEngineNs n ≠ key) (h2 : oTenantAttribOtherNs n ≠ key) :
    (s.chargeEngine (some n) k ns).obj key = s.obj key := by
  unfold State.chargeEngine
  dsimp only
  refine .trans ?_ (s.obj_count_other ns h1)
  unfold State.charge
  dsimp only
  split
  · rfl
  · split
    · rfl
    · exact State.obj_count_other _ ns h2

/-- Charging engine time touches objects and attribution only. -/
theorem State.chargeEngine_form (s : State) (x : Ctx) (k ns : Nat) : ∃ d o, s.chargeEngine x k ns = { s with dict := d, obs := o } := by
  cases x with
  | none => exact ⟨_, _, rfl⟩
  | some n =>
    unfold State.chargeEngine State.charge
    dsimp only
    split
    · exact ⟨_, _, rfl⟩
    · split <;> exact ⟨_, _, rfl⟩

/-- The flag sets a commit joins, where the stable has a number (R40, R79). -/
theorem State.flagSets_eq {s : State} {p l : Nat} (hl : (s.stable p).logical = some l) (n : Nat) (f : Flags) :
    s.flagSets (some n) (some p) f =
      (s.setObj (oStableFlags l) (s.obj (oStableFlags l) ||| f.toNat)).setObj (oTenantFlags n)
        ((s.setObj (oStableFlags l) (s.obj (oStableFlags l) ||| f.toNat)).obj (oTenantFlags n) ||| f.toNat) := by
  unfold State.flagSets
  rw [Option.bind_some, hl]

/-- A commit's flag sets and charges (R40, R395, R500). -/
def State.charged (s : State) (c : Cmd) (t : Tile) (ns : Nat) : State :=
  ((s.flagSets c.tenant (some t.stable) t.flags).chargeEngine c.tenant (cmdKey c.bytes) ns).chargeLate (s.stableArb t.stable) (ctxTag c.tenant) ns

theorem State.flagSets_form (s : State) (x : Ctx) (p : Option Nat) (f : Flags) : ∃ d, s.flagSets x p f = { s with dict := d } := by
  unfold State.flagSets
  dsimp only
  split <;> split <;> exact ⟨_, rfl⟩

theorem State.charged_form (s : State) (c : Cmd) (t : Tile) (ns : Nat) :
    ∃ d o h, s.charged c t ns = { s with dict := d, obs := o, sched := h } := by
  obtain ⟨d, hd⟩ := s.flagSets_form c.tenant (some t.stable) t.flags
  obtain ⟨d', o, hc⟩ := (s.flagSets c.tenant (some t.stable) t.flags).chargeEngine_form c.tenant (cmdKey c.bytes) ns
  refine ⟨d', o, (s.charged c t ns).sched, ?_⟩
  unfold State.charged
  rw [hc, hd]
  rfl

section
variable {s : State} {c : Cmd} {t : Tile} {l n : Nat}

/-- The stable's flags and the tenant's take in the tile's, and the charges write other objects. -/
theorem State.charged_flags (hc : c.tenant = some n) (hl : (s.stable t.stable).logical = some l) (hn : n < 1024) (hl128 : l < 128) (ns : Nat) :
    (s.charged c t ns).obj (oStableFlags l) = s.obj (oStableFlags l) ||| t.flags.toNat ∧
      (s.charged c t ns).obj (oTenantFlags n) = s.obj (oTenantFlags n) ||| t.flags.toNat := by
  have hne : oStableFlags l ≠ oTenantFlags n := by unfold oStableFlags oTenantFlags; omega
  have hobj : ∀ key, oTenantEngineNs n ≠ key → oTenantAttribOtherNs n ≠ key →
      (s.charged c t ns).obj key = (s.flagSets (some n) (some t.stable) t.flags).obj key := fun key h1 h2 => by
    unfold State.charged
    rw [State.obj_chargeLate, hc]
    exact State.obj_chargeEngine_other _ _ ns h1 h2
  constructor
  · rw [hobj _ (by unfold oTenantEngineNs oStableFlags; omega) (by unfold oTenantAttribOtherNs oStableFlags; omega), State.flagSets_eq hl,
      State.obj_setObj_other _ _ hne.symm, State.obj_setObj_self]
  · rw [hobj _ (by unfold oTenantEngineNs oTenantFlags; omega) (by unfold oTenantAttribOtherNs oTenantFlags; omega), State.flagSets_eq hl,
      State.obj_setObj_self, State.obj_setObj_other _ _ hne]

/-- A tile without a grant keeps nothing in the partial store (R158). -/
theorem State.storePartials_of_noGrant (s : State) (c : Cmd) (h : t.grant = 0) : s.storePartials c t = s := by
  unfold State.storePartials
  exact if_pos h

theorem State.releaseGrant_of_noGrant (s : State) (id : Nat) (h : t.grant = 0) : s.releaseGrant id t = s := by
  unfold State.releaseGrant
  split
  · rfl
  · exact if_pos (Or.inl h)

/-- A command that is no collective's sends no partials. -/
theorem State.sendPartials_of_noColl (t : Tile) (h : s.coll? c.id = none) (last : Bool) : s.sendPartials c t last = s := by
  unfold State.sendPartials
  rw [h]

/-- A tile without a grant, of a command that is no collective's: its commit is its charges and what leaves its stable's manger. -/
theorem State.tileDone_plain (hgrant : t.grant = 0) (hcoll : s.coll? c.id = none) (ti ns : Nat) :
    ∃ m, s.tileDone c t ti ns = { s.charged c t ns with exec := { s.exec with stables := m } } := by
  obtain ⟨d, o, h, hform⟩ := s.charged_form c t ns
  unfold State.tileDone
  extract_lets s1 s2 last
  have hs1 : s1 = { s with dict := d, obs := o, sched := h } := hform
  have hs2 : ∃ m, s2 = { s.charged c t ns with exec := { s.exec with stables := m } } := by
    rw [hform]
    unfold s2
    split
    · exact ⟨_, by rw [hs1]; rfl⟩
    · exact ⟨s.exec.stables, hs1⟩
  obtain ⟨m, hm⟩ := hs2
  have hcoll2 : s2.coll? c.id = none := by
    rw [hm, hform]
    exact hcoll
  refine ⟨m, ?_⟩
  rw [State.storePartials_of_noGrant s2 c hgrant, State.sendPartials_of_noColl t hcoll2, State.releaseGrant_of_noGrant s2 c.id hgrant, hm]

end

/-- What the commit of a tile leaves (R39, R40, R83): its flags have joined its command's, its stable's and its tenant's, and no destination is
written. -/
theorem State.tileCommit_spec {s : State} {id ti ns : Nat} {c : Cmd} {t : Tile} {l n : Nat} (htile : s.tile? id ti = some (c, t))
    (hmove : s.tilesMove c.tenant = true) (hstate : t.state = .drain) (hready : lastSegmentReady c t = true) (hheld : s.tileHeld c t = false)
    (hserv : (s.stable t.stable).service = 0) (hl : (s.stable t.stable).logical = some l) (hc : c.tenant = some n) (hn : n < 1024) (hl128 : l < 128)
    (hspur : s.obj oSpurEnable ≠ 1) (hgrant : t.grant = 0) (hcoll : s.coll? id = none) :
    ∃ c', (s.tileCommit id ti ns).cmd? id = some c' ∧ c'.flags = c.flags ||| t.flags ∧ c'.tiles[ti]? = some { t with state := .done } ∧
      c'.writes = c.writes ∧ (s.tileCommit id ti ns).obj (oStableFlags l) = s.obj (oStableFlags l) ||| t.flags.toNat ∧
      (s.tileCommit id ti ns).obj (oTenantFlags n) = s.obj (oTenantFlags n) ||| t.flags.toNat ∧ (s.tileCommit id ti ns).mem = s.mem ∧
      (s.tileCommit id ti ns).queues = s.queues ∧ (s.tileCommit id ti ns).regs = s.regs := by
  set c' : Cmd := { c with flags := c.flags ||| t.flags, tiles := c.tiles.set ti { t with state := .done } } with hc'
  have hid : c.id = id := State.cmd?_id (State.tile?_iff.mp htile).1
  have hcmd : (s.setCmd c').tile? id ti = some (c', { t with state := .done }) := State.tile?_setCmd htile rfl rfl
  obtain ⟨hcmd, hti⟩ := State.tile?_iff.mp hcmd
  obtain ⟨m, hm⟩ := State.tileDone_plain (s := s.setCmd c') (c := c) hgrant (by rw [hid]; exact hcoll) ti ns
  obtain ⟨d, o, h, hform⟩ := (s.setCmd c').charged_form c t ns
  obtain ⟨hsf, htf⟩ := State.charged_flags (s := s.setCmd c') (t := t) hc hl hn hl128 ns
  rw [State.tileCommit_eq htile hmove hstate hready hheld hserv hspur, ← hc', hm]
  refine ⟨c', hcmd, rfl, hti, rfl, hsf, htf, ?_, ?_, ?_⟩ <;> rw [hform] <;> rfl

/-- Settles O36: the swap by `shadowSwap_spec`, the arbiter's turn by `takeStable_later`, the commit by `tileCommit_spec`. -/
theorem tilesSwapAndCommit : Obligations.TilesSwapAndCommit := by
  unfold Obligations.TilesSwapAndCommit
  refine ⟨fun s g id ti c t htile hmove hstate hleft hheld hserv hruns hcur hhold hspur hg => ⟨_, exec_shadowSwap id ti s, ?_⟩,
    fun s id ti t h => s.takeStable_later h id ti,
    fun s id ti ns c t l n htile hmove hstate hready hheld hserv hl hc hn hl128 hspur hgrant hcoll => ?_⟩
  · exact State.shadowSwap_spec htile hspur hg (State.shadowSwap_eq htile hmove hstate hleft hheld hserv hruns hcur hhold hspur hg)
  · obtain ⟨c', hspec⟩ := State.tileCommit_spec (ns := ns) htile hmove hstate hready hheld hserv hl hc hn hl128 hspur hgrant hcoll
    exact ⟨_, c', exec_tileCommit id ti ns s, hspec⟩

end Sys2Proof.Machine

/-! SUPPORT. Little-endian fields, and the statement about the extended format. -/

namespace Sys2Proof.Machine

/-! ## Little-endian fields of byte strings -/

@[simp] theorem length_toLe (n x : Nat) : (toLe n x).length = n := by
  induction n generalizing x with
  | zero => rfl
  | succ n ih => simp [toLe, ih]

theorem ofLe_toLe (n x : Nat) : ofLe (toLe n x) = x % 256 ^ n := by
  induction n generalizing x with
  | zero => simp [toLe, ofLe, Nat.mod_one]
  | succ n ih => rw [toLe, ofLe, ih, pow_succ', Nat.mod_mul, BitVec.toNat_ofNat]

theorem drop_toLe (k n x : Nat) : (toLe n x).drop k = toLe (n - k) (x / 256 ^ k) := by
  induction k generalizing n x with
  | zero => simp
  | succ k ih =>
    cases n with
    | zero => simp [toLe]
    | succ n => rw [toLe, List.drop_succ_cons, ih, Nat.succ_sub_succ, Nat.div_div_eq_div_mul, pow_succ']

theorem take_toLe {k n : Nat} (h : k ≤ n) (x : Nat) : (toLe n x).take k = toLe k x := by
  induction k generalizing n x with
  | zero => rfl
  | succ k ih =>
    obtain ⟨n, rfl⟩ : ∃ j, n = j + 1 := ⟨n - 1, by omega⟩
    rw [toLe, List.take_succ_cons, ih (by omega), toLe]

/-- A field is read past what stands before it. -/
theorem le_append_right {a : List Byte} {off : Nat} (h : a.length ≤ off) (b : List Byte) (n : Nat) :
    le (a ++ b) off n = le b (off - a.length) n := by
  unfold le
  rw [List.drop_append, List.drop_eq_nil_of_le h, List.nil_append]

/-- A field of a number written little-endian, whatever stands after it. -/
theorem le_toLe_append {off n m : Nat} (h : off + n ≤ m) (x : Nat) (b : List Byte) :
    le (toLe m x ++ b) off n = x / 256 ^ off % 256 ^ n := by
  unfold le
  rw [List.drop_append_of_le_length (by simp; omega), List.take_append_of_le_length (by simp; omega), drop_toLe, take_toLe (by omega), ofLe_toLe]

theorem le_toLe {off n m : Nat} (h : off + n ≤ m) (x : Nat) : le (toLe m x) off n = x / 256 ^ off % 256 ^ n := by
  simpa using le_toLe_append h x []

/-! ## Lengths in bits -/

theorem bitLen_eq {m k : Nat} (hlo : 2 ^ k ≤ m) (hhi : m < 2 ^ (k + 1)) : bitLen m = k + 1 := by
  have hm : m ≠ 0 := (Nat.lt_of_lt_of_le (Nat.two_pow_pos k) hlo).ne'
  rw [bitLen, if_neg hm, (Nat.log2_eq_iff hm).mpr ⟨hlo, hhi⟩]

theorem bitLen_le {m k : Nat} (h : m < 2 ^ k) : bitLen m ≤ k := by
  unfold bitLen
  split
  · omega
  · next hm => exact (Nat.log2_lt hm).mpr h

/-! ## The extended format -/

@[simp] theorem flagIf_false (f : Flags) : flagIf false f = 0 := rfl

/-- R65: a normalised significand of 64 bits within the range needs no rounding. -/
theorem roundOdd_normal (n : Bool) {m : Nat} {e : Int} (hlo : 2 ^ 63 ≤ m) (hhi : m < 2 ^ 64) (hmin : acxMinExp ≤ e) (hmax : e ≤ 2047 - 63) :
    roundOdd (.fin n m e) = (⟨n, BitVec.ofNat 12 (e + 63 + 2047).toNat, BitVec.ofNat 64 m⟩, 0) := by
  have hlen : bitLen m = 64 := bitLen_eq hlo hhi
  have htop : ¬ 2048 < e + 64 := by omega
  have hm : m ≠ 0 := by omega
  have hsig : 9223372036854775808 ≤ m := hlo
  simp [roundOdd, hlen, hmin, htop, hm, hsig]

/-- The exponent field of a normal value lies between the subnormals' and the infinities' (R63). -/
theorem Acx.toNum_normal (n : Bool) {m : Nat} {e : Int} (hhi : m < 2 ^ 64) (hmin : acxMinExp ≤ e) (hmax : e ≤ 2047 - 63) :
    Acx.toNum ⟨n, BitVec.ofNat 12 (e + 63 + 2047).toNat, BitVec.ofNat 64 m⟩ = .fin n m e := by
  unfold acxMinExp at hmin
  have hexp : (BitVec.ofNat 12 (e + 63 + 2047).toNat).toNat = (e + 63 + 2047).toNat := by
    rw [BitVec.toNat_ofNat, Nat.mod_eq_of_lt (by omega)]
  have hinf : BitVec.ofNat 12 (e + 63 + 2047).toNat ≠ 0xFFF := fun h => by
    have := congrArg BitVec.toNat h
    rw [hexp] at this
    simp at this
    omega
  have hsub : BitVec.ofNat 12 (e + 63 + 2047).toNat ≠ 0 := fun h => by
    have := congrArg BitVec.toNat h
    rw [hexp] at this
    simp at this
    omega
  unfold Acx.toNum
  dsimp only
  rw [if_neg hinf, if_neg hsub, hexp, BitVec.toNat_ofNat, Nat.mod_eq_of_lt hhi]
  congr 1
  omega

/-- R64: the fields of an image are the fields of its value. -/
theorem acxOfImage_image (x : Acx) : acxOfImage x.image = x := by
  obtain ⟨s, exp, sig⟩ := x
  have hexp := exp.isLt
  have hsig := sig.isLt
  have hs : b2n s ≤ 1 := by cases s <;> decide
  have hread : le (Acx.image ⟨s, exp, sig⟩) 0 16 = sig.toNat + exp.toNat * 2 ^ 64 + b2n s * 2 ^ 76 := by
    rw [Acx.image, le_toLe (by omega), pow_zero, Nat.div_one]
    exact Nat.mod_eq_of_lt (by dsimp only; omega)
  have hsign : bit (sig.toNat + exp.toNat * 2 ^ 64 + b2n s * 2 ^ 76) 76 = s := by
    have : (sig.toNat + exp.toNat * 2 ^ 64 + b2n s * 2 ^ 76) / 2 ^ 76 = b2n s := by omega
    rw [bit, Nat.shiftRight_eq_div_pow, this]
    cases s <;> rfl
  have hbits : bits (sig.toNat + exp.toNat * 2 ^ 64 + b2n s * 2 ^ 76) 64 12 = exp.toNat := by
    rw [bits, Nat.shiftRight_eq_div_pow]
    omega
  have hlow : BitVec.ofNat 64 (sig.toNat + exp.toNat * 2 ^ 64 + b2n s * 2 ^ 76) = sig := by
    apply BitVec.eq_of_toNat_eq
    rw [BitVec.toNat_ofNat]
    omega
  rw [acxOfImage, hread]
  simp only [hsign, hbits, hlow, BitVec.ofNat_toNat, BitVec.setWidth_eq]

/-- Settles O59: what `roundOdd_normal` gives stands for the value it was given; the image by its fields. -/
theorem extendedFormatKeepsSixtyFourBits : Obligations.ExtendedFormatKeepsSixtyFourBits := by
  unfold Obligations.ExtendedFormatKeepsSixtyFourBits
  refine ⟨fun n m e hlo hhi hmin hmax => ?_, acxOfImage_image⟩
  rw [roundOdd_normal n hlo hhi hmin hmax]
  exact ⟨rfl, Acx.toNum_normal n hhi hmin hmax⟩

end Sys2Proof.Machine

/-! SUPPORT. Rounding a value that a format holds, and the statement about it. -/

namespace Sys2Proof.Machine

/-! ## Float codes -/

/-- A code is its sign, its exponent and its fraction. -/
theorem floatCode_parts (f : FloatFmt) {c : Nat} (hc : c < 2 ^ (f.ebits + f.mbits + 1)) :
    c = signBit f (bit c (f.ebits + f.mbits)) + (bits c f.mbits f.ebits * 2 ^ f.mbits + bits c 0 f.mbits) := by
  have hsign : signBit f (bit c (f.ebits + f.mbits)) = c / 2 ^ (f.ebits + f.mbits) * 2 ^ (f.ebits + f.mbits) := by
    have hlt : c / 2 ^ (f.ebits + f.mbits) < 2 := Nat.div_lt_of_lt_mul (by rwa [pow_succ] at hc)
    rw [signBit, bit, Nat.shiftRight_eq_div_pow, Nat.mod_eq_of_lt hlt]
    rcases Nat.le_one_iff_eq_zero_or_eq_one.mp (Nat.lt_succ_iff.mp hlt) with h | h <;> simp [h]
  have hmag : bits c f.mbits f.ebits * 2 ^ f.mbits + bits c 0 f.mbits = c % 2 ^ (f.ebits + f.mbits) := by
    rw [bits, bits, Nat.shiftRight_eq_div_pow, Nat.shiftRight_zero, Nat.add_comm f.ebits, pow_add, Nat.mod_mul, Nat.mul_comm, Nat.add_comm]
  rw [hsign, hmag, Nat.div_add_mod']

theorem bits_lt (x lo w : Nat) : bits x lo w < 2 ^ w := Nat.mod_lt _ (Nat.two_pow_pos w)

/-! ## Values on the grid -/

/-- A magnitude on the grid is kept in every mode (R66, R68). -/
theorem roundGrid_self (mode draw m : Nat) (e : Int) : roundGrid mode draw m e e = (m, false) := by
  simp [roundGrid]

/-- A finite value whose lowest bit is the lowest the format has at its magnitude, and which is no larger than the largest, is packed as it is. -/
theorem roundFloat_exact (f : FloatFmt) (mode draw : Nat) (sat n : Bool) {m : Nat} {e : Int} (hm : m ≠ 0)
    (hgrid : max (e + (bitLen m : Int) - 1) (1 - (f.bias : Int)) - f.mbits = e) (hmax : magGt m e (maxFinite f).1 (maxFinite f).2 = false) :
    roundFloat f mode sat draw (.fin n m e) = (signBit f n + packFloat f m e, 0) := by
  have hround : roundToFloat f mode draw m e = (m, e, false) := by
    unfold roundToFloat
    dsimp only
    rw [hgrid, roundGrid_self]
  simp [roundFloat, hm, hround, hmax]

theorem magGt_of_le {e₁ e₂ : Int} (h : e₁ ≤ e₂) (m₁ m₂ : Nat) : magGt m₁ e₁ m₂ e₂ = decide (m₂ * 2 ^ (e₂ - e₁).toNat < m₁) := by
  simp [magGt, min_eq_left h]

/-- The exponent field of the largest finite magnitude. -/
def topField (f : FloatFmt) : Nat := if f.special = 0 then 2 ^ f.ebits - 2 else 2 ^ f.ebits - 1

/-- The mantissa of the largest finite magnitude. -/
def topMantissa (f : FloatFmt) : Nat := if f.special = 1 then 2 ^ (f.mbits + 1) - 2 else 2 ^ (f.mbits + 1) - 1

theorem maxFinite_eq (f : FloatFmt) : maxFinite f = (topMantissa f, (topField f : Int) - f.bias - f.mbits) := by
  unfold maxFinite topMantissa topField
  split <;> rfl

theorem topField_pos {f : FloatFmt} (hE : 2 ≤ f.ebits) : 1 ≤ topField f := by
  have : 2 ^ 2 ≤ 2 ^ f.ebits := Nat.pow_le_pow_right (by omega) hE
  unfold topField
  split <;> omega

/-- The largest mantissa is at most one below the last of its binade, and reaches half of it at least. -/
theorem topMantissa_bounds {f : FloatFmt} (hM : 1 ≤ f.mbits) : 2 ^ f.mbits ≤ topMantissa f ∧ 2 ^ (f.mbits + 1) - 2 ≤ topMantissa f := by
  have h2 : 2 ^ 1 ≤ 2 ^ f.mbits := Nat.pow_le_pow_right (by omega) hM
  have hs : 2 ^ (f.mbits + 1) = 2 * 2 ^ f.mbits := by rw [pow_succ, Nat.mul_comm]
  unfold topMantissa
  split <;> omega

section
variable (f : FloatFmt) (hE : 2 ≤ f.ebits) (hM : 1 ≤ f.mbits)
include hM

/-- A magnitude with exponent field `x` and a mantissa of the format's bits lies within range: at the top field because its mantissa does, below
it because a binade is left. -/
theorem magGt_maxFinite {m x : Nat} (hx : x ≤ topField f) (hm : m < 2 ^ (f.mbits + 1)) (htop : x = topField f → m ≤ topMantissa f) :
    magGt m ((x : Int) - f.bias - f.mbits) (maxFinite f).1 (maxFinite f).2 = false := by
  rw [maxFinite_eq, magGt_of_le (by dsimp only; omega), decide_eq_false_iff_not, not_lt]
  dsimp only
  obtain ⟨k, hk⟩ : ∃ k, topField f = x + k := ⟨topField f - x, by omega⟩
  have hexp : ((topField f : Int) - f.bias - f.mbits - ((x : Int) - f.bias - f.mbits)).toNat = k := by omega
  rw [hexp]
  cases k with
  | zero => simpa using htop (by omega)
  | succ k =>
    have hb := topMantissa_bounds hM
    have h2 : 2 ^ 1 ≤ 2 ^ f.mbits := Nat.pow_le_pow_right (by omega) hM
    have hs : 2 ^ (f.mbits + 1) = 2 * 2 ^ f.mbits := by rw [pow_succ, Nat.mul_comm]
    calc m ≤ topMantissa f * 2 := by omega
      _ ≤ topMantissa f * 2 ^ (k + 1) := Nat.mul_le_mul_left _ (Nat.le_self_pow (by omega) 2)

/-! ## Subnormal and normal values -/

include hE in
/-- A subnormal value gives its fraction back, under exponent field 0. -/
theorem roundFloat_subnormal (mode draw : Nat) (sat n : Bool) {m : Nat} (hm : m < 2 ^ f.mbits) :
    roundFloat f mode sat draw (.fin n m (1 - (f.bias : Int) - f.mbits)) = (signBit f n + m, 0) := by
  by_cases h0 : m = 0
  · simp [roundFloat, h0]
  have hlen := bitLen_le hm
  have hrange : magGt m (1 - (f.bias : Int) - f.mbits) (maxFinite f).1 (maxFinite f).2 = false := by
    have hb := topMantissa_bounds hM
    have hs : 2 ^ (f.mbits + 1) = 2 * 2 ^ f.mbits := by rw [pow_succ, Nat.mul_comm]
    simpa using magGt_maxFinite f hM (x := 1) (topField_pos hE) (by omega) (fun _ => by omega)
  have hpack : packFloat f m (1 - (f.bias : Int) - f.mbits) = m := by
    unfold packFloat
    dsimp only
    rw [if_neg h0, if_pos (by omega), sub_self, Int.toNat_zero, pow_zero, mul_one]
  rw [roundFloat_exact f mode draw sat n h0 (by omega) hrange, hpack]

/-- A normal value gives its exponent field and its fraction back. -/
theorem roundFloat_normal (mode draw : Nat) (sat n : Bool) {m x : Nat} (hx : 1 ≤ x) (htop : x ≤ topField f) (hm : m < 2 ^ f.mbits)
    (hlast : x = topField f → 2 ^ f.mbits + m ≤ topMantissa f) :
    roundFloat f mode sat draw (.fin n (2 ^ f.mbits + m) ((x : Int) - f.bias - f.mbits)) = (signBit f n + (x * 2 ^ f.mbits + m), 0) := by
  have hs : 2 ^ (f.mbits + 1) = 2 * 2 ^ f.mbits := by rw [pow_succ, Nat.mul_comm]
  have h0 : 2 ^ f.mbits + m ≠ 0 := by have := Nat.two_pow_pos f.mbits; omega
  have hlen : bitLen (2 ^ f.mbits + m) = f.mbits + 1 := bitLen_eq (by omega) (by omega)
  have hp : (x : Int) - f.bias - f.mbits + ((f.mbits + 1 : Nat) : Int) - 1 = (x : Int) - f.bias := by omega
  have hpack : packFloat f (2 ^ f.mbits + m) ((x : Int) - f.bias - f.mbits) = x * 2 ^ f.mbits + m := by
    unfold packFloat
    dsimp only
    rw [if_neg h0, hlen, hp, if_neg (by omega), if_pos le_rfl, sub_self, Int.toNat_zero, pow_zero, mul_one, sub_add_cancel, Int.toNat_natCast,
      Nat.add_sub_cancel_left]
  rw [roundFloat_exact f mode draw sat n h0 (by rw [hlen]; omega) (magGt_maxFinite f hM htop (by omega) hlast), hpack]

include hE in
/-- R51, R58, R68: a float format's finite codes, by the field of their exponent. -/
theorem roundFloat_decodeFloat (mode draw : Nat) (sat : Bool) {c : Nat} (hc : c < 2 ^ (f.ebits + f.mbits + 1)) (hnan : (decodeFloat f c).isNaN = false)
    (hinf : (decodeFloat f c).isInf = false) : roundFloat f mode sat draw (decodeFloat f c) = (c, 0) := by
  have hparts := floatCode_parts f hc
  have he := bits_lt c f.mbits f.ebits
  have hm := bits_lt c 0 f.mbits
  revert hnan hinf
  unfold decodeFloat
  dsimp only
  split
  · split <;> intro hnan hinf
    · cases hinf
    · cases hnan
  next hspecial =>
  split
  · intro hnan
    cases hnan
  next hlast =>
  intro _ _
  split
  · next hsub =>
    rw [roundFloat_subnormal f hE hM mode draw sat _ hm]
    rw [hsub, zero_mul, zero_add] at hparts
    rw [← hparts]
  · next hnormal =>
    have hs : 2 ^ (f.mbits + 1) = 2 * 2 ^ f.mbits := by rw [pow_succ, Nat.mul_comm]
    have htop : bits c f.mbits f.ebits ≤ topField f := by
      unfold topField
      split <;> omega
    have hfrac : bits c f.mbits f.ebits = topField f → 2 ^ f.mbits + bits c 0 f.mbits ≤ topMantissa f := by
      unfold topField topMantissa
      split <;> split <;> omega
    rw [roundFloat_normal f hM mode draw sat _ (by omega) htop hm hfrac, ← hparts]

end

/-! ## Integer codes -/

theorem unsigned_signed {w c : Nat} (hc : c < 2 ^ w) : unsigned w (signed w c) = c := by
  unfold unsigned signed
  have hpow : ((2 ^ w : Nat) : Int) = 2 ^ w := by push_cast; rfl
  rw [Nat.mod_eq_of_lt hc, ← hpow]
  split
  · rw [Int.emod_eq_of_lt (by omega) (by omega), Int.toNat_natCast]
  · rw [Int.sub_emod_right, Int.emod_eq_of_lt (by omega) (by omega), Int.toNat_natCast]

theorem signed_bounds {w : Nat} (hw : 1 ≤ w) (c : Nat) :
    -((2 ^ (w - 1) : Nat) : Int) ≤ signed w c ∧ signed w c ≤ ((2 ^ (w - 1) - 1 : Nat) : Int) := by
  have hpow : ((2 ^ w : Nat) : Int) = 2 ^ w := by push_cast; rfl
  have hhalf : 2 ^ w = 2 * 2 ^ (w - 1) := by rw [← pow_succ', Nat.sub_add_cancel hw]
  have hlt : c % 2 ^ w < 2 ^ w := Nat.mod_lt _ (Nat.two_pow_pos w)
  unfold signed
  rw [← hpow]
  split <;> omega

/-- R54, R58: an integer within the range of the format gives its own code. -/
theorem roundInt_signed (mode draw : Nat) {w c : Nat} (hw : 1 ≤ w) (hc : c < 2 ^ w) :
    roundInt w mode draw (.fin (decide (signed w c < 0)) (signed w c).natAbs 0) = (c, 0) := by
  have hcode := unsigned_signed hc
  obtain ⟨hlo, hhi⟩ := signed_bounds hw c
  unfold roundInt
  dsimp only
  split
  · next h0 =>
    rw [Int.natAbs_eq_zero.mp h0] at hcode
    rw [← hcode]
    rfl
  · have hv : (if decide (signed w c < 0) = true then -((signed w c).natAbs : Int) else (signed w c).natAbs) = signed w c := by
      simp only [decide_eq_true_eq]
      split <;> omega
    rw [roundGrid_self, clampInt]
    dsimp only
    rw [hv, if_neg (by omega), if_neg (by omega), hcode]
    simp

/-! ## The formats that are not block-scaled -/

/-- Table 03-1 without its block-scaled codes: a float of at least two exponent bits and one of fraction, or an integer. -/
theorem fmtElem_plain {code : Nat} (h : code ∈ [1, 2, 3, 4, 5, 6, 7, 8, 9, 10, 11]) :
    (∃ f : FloatFmt, fmtElem code = .flt f ∧ fmtBits code = f.ebits + f.mbits + 1 ∧ 2 ≤ f.ebits ∧ 1 ≤ f.mbits) ∨
    (∃ w, fmtElem code = .int w 0 ∧ fmtBits code = w ∧ 1 ≤ w) := by
  simp only [List.mem_cons, List.not_mem_nil, or_false] at h
  rcases h with rfl | rfl | rfl | rfl | rfl | rfl | rfl | rfl | rfl | rfl | rfl
  iterate 8 exact .inl ⟨_, rfl, rfl, by decide, by decide⟩
  iterate 3 exact .inr ⟨_, rfl, rfl, by decide⟩

/-- Settles O58: float codes by `roundFloat_decodeFloat`, integer codes by `roundInt_signed`. -/
theorem roundingKeepsRepresentableValues : Obligations.RoundingKeepsRepresentableValues := by
  unfold Obligations.RoundingKeepsRepresentableValues
  intro code mode draw c sat hcode hc hnan hinf
  rcases fmtElem_plain hcode with ⟨f, hf, hbits, hE, hM⟩ | ⟨w, hf, hbits, hw⟩
  · have hdec : decodeElem code c = decodeFloat f c := by rw [decodeElem, hf]
    rw [hdec] at hnan hinf ⊢
    rw [hbits] at hc
    rw [roundOut, hf]
    exact roundFloat_decodeFloat f hE hM mode draw sat hc hnan hinf
  · have hdec : decodeElem code c = .fin (decide (signed w c < 0)) (signed w c).natAbs 0 := by rw [decodeElem, hf]
    rw [hbits] at hc
    rw [roundOut, hf, hdec]
    exact roundInt_signed mode draw hw hc

end Sys2Proof.Machine

/-! SUPPORT. What the write of one object does (R422 to R426): its message as the engine reads it, and its answer. -/

namespace Sys2Proof.Machine

/-! ## The dictionary -/

/-- Types are bytes and indices 16-bit words (Tables 16-1, 16-6 and 17-2). -/
theorem objTable_bounds (i : Nat) : ∀ d ∈ objTable i, d.typ < 256 ∧ d.index < 0x6100 := by
  unfold objTable
  repeat' split
  all_goals decide

theorem objDef?_bounds {i sub : Nat} {d : ObjDef} (h : objDef? i sub = some d) : d.typ < 256 ∧ i < 0x6100 := by
  have hd := objTable_bounds i d (List.mem_of_find?_eq_some h)
  have hi := List.find?_some h
  simp only [Bool.and_eq_true, beq_iff_eq, listedIndex] at hi
  refine ⟨hd.1, ?_⟩
  split at hi <;> omega

theorem key_parts (key : Nat) : keyIndex key * 256 + keySub key = key := Nat.div_add_mod' key 256

@[simp] theorem itemKey_itemOf (key v : Nat) : itemKey (itemOf key v) = key := key_parts key

theorem itemOf_typ_lt (key v : Nat) : (itemOf key v).typ < 256 := by
  unfold itemOf
  cases h : objDef? (keyIndex key) (keySub key) with
  | none => exact Nat.zero_lt_succ 255
  | some d => exact (objDef?_bounds h).1

/-- A write whose object is there names an index of 16 bits. -/
theorem State.key_lt_of_writeStatus {s : State} {r key v : Nat} (h : s.writeStatus r false (itemOf key v) = tkOk) : key < 2 ^ 24 := by
  have hserved : ∃ d, s.served (itemOf key v) = some d := by
    unfold State.writeStatus at h
    split at h
    · cases h
    · exact ⟨_, ‹_›⟩
  obtain ⟨d, hd⟩ := hserved
  have hdef : objDef? (keyIndex key) (keySub key) = some d := by
    unfold State.served at hd
    split at hd
    · cases hd
    · exact hd
  have hi := (objDef?_bounds hdef).2
  unfold keyIndex at hi
  omega

/-! ## The message -/

/-- A WRITE item as it stands in a message (Table 16-6). -/
def itemWire (i : TackItem) : List Byte :=
  toLe 2 i.index ++ (toLe 1 i.sub ++ (toLe 1 i.typ ++ (toLe 2 i.vlen ++ (toLe 2 0 ++ (toLe 8 0 ++ toLe (itemBytes i.vlen - 16) i.value)))))

/-- The header of a WRITE of one item (Table 16-4); its first four bytes are version 1, OP 2, and no flags. -/
def writeHead (len : Nat) : List Byte := toLe 4 0x201 ++ (toLe 2 0 ++ (toLe 2 len ++ (toLe 4 0 ++ (toLe 2 1 ++ toLe 2 0))))

theorem itemBytes_ge (n : Nat) : 16 + n ≤ itemBytes n := by
  unfold itemBytes ceilDiv
  rw [if_neg (by decide)]
  omega

@[simp] theorem length_itemWire (i : TackItem) : (itemWire i).length = itemBytes i.vlen := by
  have := itemBytes_ge i.vlen
  simp only [itemWire, List.length_append, length_toLe]
  omega

theorem writeMessage_eq (key v : Nat) : writeMessage key v = writeHead (16 + itemBytes (itemOf key v).vlen) ++ itemWire (itemOf key v) := by
  have hlen := length_itemWire (itemOf key v)
  have hitem : writeMessage key v = writeHead (16 + (itemWire (itemOf key v)).length) ++ itemWire (itemOf key v) := by
    simp only [writeMessage, writeHead, itemWire, List.append_assoc]
    rfl
  rw [hitem, hlen]

@[simp] theorem length_writeMessage (key v : Nat) : (writeMessage key v).length = 16 + itemBytes (itemOf key v).vlen := by
  rw [writeMessage_eq]
  simp [writeHead]
  omega

theorem drop_writeMessage (key v : Nat) : (writeMessage key v).drop 16 = itemWire (itemOf key v) := by
  rw [writeMessage_eq, List.drop_left' (by simp [writeHead])]

section
variable (key v : Nat)

/-- A field of the header, read from the message. -/
theorem le_writeMessage {off n : Nat} (h : off + n ≤ 16) :
    le (writeMessage key v) off n = le (writeHead (16 + itemBytes (itemOf key v).vlen)) off n := by
  rw [writeMessage_eq, le, le, List.drop_append_of_le_length (by simp [writeHead]; omega),
    List.take_append_of_le_length (by simp [writeHead]; omega)]

theorem msgOp_writeMessage : msgOp (writeMessage key v) = 0x02 := by
  rw [msgOp, le_writeMessage key v (by decide), writeHead, le_toLe_append (by decide)]
  rfl

theorem msgHandle_writeMessage : msgHandle (writeMessage key v) = 0 := by
  simp [msgHandle, le_writeMessage, writeHead, le_append_right, le_toLe_append]

theorem msgCount_writeMessage : msgCount (writeMessage key v) = 1 := by
  simp [msgCount, le_writeMessage, writeHead, le_append_right, le_toLe_append]

/-- The header is in order on every route the message fits (R421, R422). -/
theorem headerOk_writeMessage {r : Nat} (h : 16 + itemBytes (itemOf key v).vlen ≤ routeLimit r) : headerOk r (writeMessage key v) = true := by
  have hlimit : routeLimit r ≤ 4096 := by
    unfold routeLimit
    split <;> decide
  have hlen : (16 + itemBytes (itemOf key v).vlen) % 65536 = 16 + itemBytes (itemOf key v).vlen := Nat.mod_eq_of_lt (by omega)
  simp [headerOk, le_writeMessage, writeHead, le_append_right, le_toLe_append, le_toLe, h, hlen]

end

/-- A field of an item's value. -/
theorem le_itemWire_value (i : TackItem) {off n : Nat} (h : off + n ≤ itemBytes i.vlen - 16) :
    le (itemWire i) (16 + off) n = i.value / 256 ^ off % 256 ^ n := by
  unfold itemWire
  iterate 6 rw [le_append_right (by simp only [length_toLe]; omega)]
  simp only [length_toLe]
  rw [show 16 + off - 2 - 1 - 1 - 2 - 2 - 8 = off by omega, le_toLe h]

/-- An item is read as it was written: its padding is zero where its value is of its length (R422). -/
theorem parseItems_itemWire {i : TackItem} (hindex : i.index < 65536) (hsub : i.sub < 256) (htyp : i.typ < 256) (hlen : i.vlen < 65536)
    (hvalue : i.value < 2 ^ (8 * i.vlen)) : parseItems true 1 (itemWire i) = some [i] := by
  have hge := itemBytes_ge i.vlen
  have hpow : i.value < 256 ^ i.vlen := by rwa [show 256 = 2 ^ 8 from rfl, ← pow_mul]
  have hread : le (itemWire i) 0 2 = i.index ∧ le (itemWire i) 2 1 = i.sub ∧ le (itemWire i) 3 1 = i.typ ∧ le (itemWire i) 4 2 = i.vlen := by
    simp [itemWire, le_append_right, le_toLe_append, Nat.mod_eq_of_lt, hindex, hsub, htyp, hlen]
  have hzero : le (itemWire i) 6 1 = 0 ∧ le (itemWire i) 7 1 = 0 ∧ le (itemWire i) 8 8 = 0 := by
    simp [itemWire, le_append_right, le_toLe_append]
  have hvalue : le (itemWire i) 16 i.vlen = i.value := by
    simpa [Nat.mod_eq_of_lt hpow] using le_itemWire_value i (off := 0) (n := i.vlen) (by omega)
  have hpad : le (itemWire i) (16 + i.vlen) (itemBytes i.vlen - 16 - i.vlen) = 0 := by
    rw [le_itemWire_value i (by omega), Nat.div_eq_of_lt hpow, Nat.zero_mod]
  obtain ⟨h0, h2, h3, h4⟩ := hread
  obtain ⟨h6, h7, h8⟩ := hzero
  have hsize : ¬ itemBytes i.vlen < 16 := by omega
  have hrest : (itemWire i).drop (itemBytes i.vlen) = [] := List.drop_eq_nil_of_le (length_itemWire i).le
  simp [parseItems, h0, h2, h3, h4, h6, h7, h8, hvalue, hpad, hsize, hrest]

/-! ## The engine -/

/-- What the engine says of an item it has written (Table 16-6). -/
def State.itemReply (s : State) (i : TackItem) (st : Nat) : List Byte := itemOut i (s.itemType i) 0 st (s.itemSeq i) 0

theorem State.writeItems_single {s : State} {r : Nat} {i : TackItem} (h : s.mustWait [i] = false) :
    s.writeItems r [i] = ((s.writeItem r i).1, (s.writeItem r i).1.itemReply i (s.writeItem r i).2, []) := by
  have hdue : s.resultDue (itemKey i) = false := by simpa [State.mustWait] using h
  simp [State.writeItems, hdue, State.itemReply]

section
variable {s : State} {via : Via} {r key v : Nat}

theorem routeLimit_bounds (r : Nat) : 1024 ≤ routeLimit r ∧ routeLimit r ≤ 4096 := by
  unfold routeLimit
  split <;> decide

/-- The items of the message are the one item. -/
theorem parseItems_writeMessage (hkey : key < 2 ^ 24) (hr : s.reaches via r key v) :
    parseItems true 1 ((writeMessage key v).drop 16) = some [itemOf key v] := by
  obtain ⟨_, _, _, hvalue, hfit⟩ := hr
  have hlimit := routeLimit_bounds r
  have hge := itemBytes_ge (itemOf key v).vlen
  rw [drop_writeMessage]
  refine parseItems_itemWire ?_ (Nat.mod_lt key (by decide)) (itemOf_typ_lt key v) (by omega) hvalue
  exact Nat.div_lt_of_lt_mul hkey

/-- The engine writes the item and answers with its status (R424). -/
theorem State.engine_writeMessage (hkey : key < 2 ^ 24) (hr : s.reaches via r key v) :
    s.engine r false (writeMessage key v) = ((s.writeItem r (itemOf key v)).1,
      some (respond r (writeMessage key v) tkOk 0 1 ((s.writeItem r (itemOf key v)).1.itemReply (itemOf key v) (s.writeItem r (itemOf key v)).2))) := by
  have hparse := parseItems_writeMessage hkey hr
  obtain ⟨_, _, hwait, _, hfit⟩ := hr
  unfold State.engine State.engineFrom
  simp [headerOk_writeMessage key v hfit, msgOp_writeMessage, msgHandle_writeMessage, msgCount_writeMessage, hparse, hwait, State.writeItems_single hwait]

/-- A reply to one item: 16 bytes, its status and its write-sequence number last (Table 16-6). -/
theorem State.itemReply_eq (s : State) (i : TackItem) (st : Nat) : s.itemReply i st =
    toLe 2 i.index ++ (toLe 1 i.sub ++ (toLe 1 (s.itemType i) ++ (toLe 2 0 ++ (toLe 1 st ++ (toLe 1 0 ++ toLe 8 (s.itemSeq i)))))) := by
  rw [State.itemReply, itemOut, show itemBytes 0 - 16 = 0 from rfl, show ([0] : List Byte) = toLe 1 0 from rfl]
  simp only [toLe, List.append_nil, List.append_assoc]

/-- A response to one item: its status, the item's status and its write-sequence number, where they are read from. -/
theorem le_respond_itemReply (s : State) (r : Nat) (req : List Byte) (i : TackItem) (st : Nat) :
    le (respond r req tkOk 0 1 (s.itemReply i st)) 3 1 = 0 ∧ le (respond r req tkOk 0 1 (s.itemReply i st)) 22 1 = st % 256 ∧
      le (respond r req tkOk 0 1 (s.itemReply i st)) 24 8 = s.itemSeq i % 2 ^ 64 := by
  have hlimit := routeLimit_bounds r
  have hbody : (s.itemReply i st).take (routeLimit r - 16) = s.itemReply i st :=
    List.take_of_length_le (by simp [State.itemReply_eq]; omega)
  rw [respond, hbody, show ([1] : List Byte) = toLe 1 1 from rfl, State.itemReply_eq]
  simp [le_append_right, le_toLe_append, le_toLe, tkOk, List.append_assoc]

/-- An answer to a write goes to the list of answers (R424). -/
def State.answeredWith (s : State) (a : Nat × Nat) : State := { s with dict := { s.dict with answers := s.dict.answers ++ [a] } }

theorem State.deliver_itemReply (s : State) (r : Nat) (req : List Byte) (i : TackItem) {st : Nat} (hst : st < 256) :
    s.deliver r false (respond r req tkOk 0 1 (s.itemReply i st)) = s.answeredWith (st, s.itemSeq i % 2 ^ 64) := by
  obtain ⟨h3, h22, h24⟩ := le_respond_itemReply s r req i st
  unfold State.deliver State.answeredWith
  simp [h3, h22, h24, Nat.mod_eq_of_lt hst]

/-- A write that has a route goes to the engine. -/
theorem State.viaWrite_reaches (hr : s.reaches via r key v) : s.viaWrite via key v = s.request r false (writeMessage key v) := by
  obtain ⟨hroute, hup, _⟩ := hr
  have hrow : s.rowWrite r key v = s.request r false (writeMessage key v) := if_pos hup
  unfold State.viaRoute at hroute
  cases via with
  | admin =>
    cases hroute
    exact hrow
  | tenant t =>
    cases hroute
    exact hrow
  | bus src =>
    dsimp only at hroute
    split at hroute
    · next h =>
      cases hroute
      simpa [State.viaWrite, h] using hrow
    · cases hroute

theorem State.writeStatus_lt (s : State) (r : Nat) (staging : Bool) (i : TackItem) : s.writeStatus r staging i < 256 := by
  unfold State.writeStatus
  repeat' split
  all_goals decide

theorem State.writeItem_status_lt (s : State) (r : Nat) (i : TackItem) : (s.writeItem r i).2 < 256 := by
  unfold State.writeItem
  dsimp only
  split
  · exact s.writeStatus_lt r false i
  · split
    · exact (by decide : tkRejected < 256)
    · exact (by decide : tkOk < 256)

/-- A write that reaches the engine is carried out as its item, and answered with its status and the object's write-sequence number. -/
theorem State.viaWrite_eq (hkey : key < 2 ^ 24) (hr : s.reaches via r key v) :
    s.viaWrite via key v = (s.writeItem r (itemOf key v)).1.answeredWith
      ((s.writeItem r (itemOf key v)).2, (s.writeItem r (itemOf key v)).1.itemSeq (itemOf key v) % 2 ^ 64) := by
  rw [State.viaWrite_reaches hr, State.request, State.engine_writeMessage hkey hr]
  exact State.deliver_itemReply _ r _ _ (s.writeItem_status_lt r _)

/-- A write that passes the checks is applied (R420, R423). -/
theorem State.viaWrite_takes (h : s.takesWrite via r key v) :
    s.viaWrite via key v = (s.applyWriteTo r key v State.applyRecord).answeredWith
      (tkOk, (s.applyWriteTo r key v State.applyRecord).itemSeq (itemOf key v) % 2 ^ 64) := by
  obtain ⟨hr, hstatus, hrule⟩ := h
  have hitem : s.writeItem r (itemOf key v) = (s.applyWriteTo r key v State.applyRecord, tkOk) := by
    rw [State.writeItem, hstatus, if_neg (fun h => h rfl), itemKey_itemOf]
    exact if_neg (by rw [show s.ruleOk s (routeMaster r) false key (itemOf key v).value = true from hrule]; decide)
  rw [State.viaWrite_eq (State.key_lt_of_writeStatus hstatus) hr, hitem]

end

end Sys2Proof.Machine

/-! SUPPORT. What reports leave of memory, and the writes of flags, quotas, the spare policy, the Spur unit and the trace. -/

namespace Sys2Proof.Machine

/-! ## Host memory -/

/-- Removing or putting a number that a filter leaves out changes nothing of what it keeps. -/
theorem Store.filter_erase {α : Type} {p : Nat × α → Bool} {k : Nat} (hp : ∀ v, p (k, v) = false) (m : Store α) :
    (Store.erase m k).filter p = m.filter p := by
  induction m with
  | nil => rfl
  | cons c rest ih =>
    obtain ⟨j, w⟩ := c
    unfold Store.erase
    split
    · next h => rw [ih, h, List.filter_cons, hp w]; rfl
    · rw [List.filter_cons, List.filter_cons, ih]

theorem Store.filter_put {α : Type} {p : Nat × α → Bool} {k : Nat} (hp : ∀ v, p (k, v) = false) (v : α) (m : Store α) :
    (Store.put m k v).filter p = m.filter p := by
  induction m with
  | nil => simp [Store.put, hp]
  | cons c rest ih =>
    obtain ⟨j, w⟩ := c
    unfold Store.put
    split
    · next h => simp [h, hp]
    · split
      · simp [hp]
      · rw [List.filter_cons, List.filter_cons, ih]

theorem Store.filter_set {α : Type} [DecidableEq α] {p : Nat × α → Bool} {k : Nat} (hp : ∀ v, p (k, v) = false) (d v : α) (m : Store α) :
    (Store.set d m k v).filter p = m.filter p := by
  unfold Store.set
  split
  · exact Store.filter_erase hp m
  · exact Store.filter_put hp v m

theorem mem_cellsAt {k : Nat} {l : List Byte} {c : Nat × Byte} (h : c ∈ cellsAt k l) : k ≤ c.1 := by
  induction l generalizing k with
  | nil => cases h
  | cons b rest ih =>
    rcases List.mem_cons.mp h with rfl | h
    · exact le_rfl
    · exact Nat.le_of_succ_le (ih h)

/-- What `State.quiet` keeps of memory: the device's own bytes and lines. -/
def MemGroup.device (m : MemGroup) : MemGroup :=
  { m with bytes := m.bytes.filter (fun c => decide (c.1 < 2 ^ 64)), poison := m.poison.filter (fun l => decide (l < 2 ^ 58)) }

theorem MemGroup.writeCells_device {cells : List (Nat × Byte)} (h : ∀ c ∈ cells, 2 ^ 64 ≤ c.1) (m : MemGroup) :
    (m.writeCells cells).device = m.device := by
  induction cells generalizing m with
  | nil => rfl
  | cons c rest ih =>
    have hc : 2 ^ 64 ≤ c.1 := h c List.mem_cons_self
    have hwrite : (m.write c.1 c.2).device = m.device := by
      unfold MemGroup.device MemGroup.write
      dsimp only
      rw [Store.filter_set (fun v => decide_eq_false (by dsimp only; omega))]
    exact (ih (fun x hx => h x (List.mem_cons_of_mem c hx)) _).trans hwrite

/-- A store to host memory leaves the device's own. -/
theorem MemGroup.store_device {cells : List (Nat × Byte)} (h : ∀ c ∈ cells, 2 ^ 64 ≤ c.1) (m : MemGroup) : (m.store cells).device = m.device := by
  have hcells := MemGroup.writeCells_device h m
  have hline : ∀ l, l < 2 ^ 58 → coversLine cells l = false := by
    intro l hl
    unfold coversLine
    rw [List.all_eq_false]
    refine ⟨0, by decide, ?_⟩
    rw [Bool.not_eq_true, List.any_eq_false]
    intro c hc
    have := h c hc
    simp only [beq_iff_eq]
    omega
  have hpoison : (m.poison.filter (fun l => !coversLine cells l)).filter (fun l => decide (l < 2 ^ 58)) = m.poison.filter (fun l => decide (l < 2 ^ 58)) := by
    rw [List.filter_filter]
    refine List.filter_congr (fun l _ => ?_)
    simpa using hline l
  have hstore : (m.store cells).device =
      { (m.writeCells cells).device with
        poison := (m.poison.filter (fun l => !coversLine cells l)).filter (fun l => decide (l < 2 ^ 58)) } := rfl
  rw [hstore, hcells, hpoison]
  rfl

/-! ## Reports -/

theorem State.quiet_mem (s : State) : s.quiet.mem = s.mem.device := rfl

/-! States that `State.quiet` does not tell apart have every object and these groups in common. -/

theorem State.obj_of_quiet {s t : State} (h : t.quiet = s.quiet) (key : Nat) : t.obj key = s.obj key :=
  (congrArg (fun q => q.obj key) h :)

theorem State.exec_of_quiet {s t : State} (h : t.quiet = s.quiet) : t.exec = s.exec := (congrArg State.exec h :)
theorem State.queues_of_quiet {s t : State} (h : t.quiet = s.quiet) : t.queues = s.queues := (congrArg State.queues h :)
theorem State.obs_of_quiet {s t : State} (h : t.quiet = s.quiet) : t.obs = s.obs := (congrArg State.obs h :)

theorem State.quiet_logEvent (s : State) (e : EventRec) (seq : Nat) : (s.logEvent e seq).quiet = s.quiet := by
  unfold State.logEvent
  split <;> rfl

/-- A record of the event queue goes to host memory (R123). -/
theorem State.quiet_putEvent (s : State) (e : EventRec) (seq : Nat) : (s.putEvent e seq).quiet = s.quiet := by
  have hhost : ∀ (a : Nat) (l : List Byte), (s.mem.store (cellsAt (hostKey 0 a) l)).device = s.mem.device := by
    intro a l
    refine MemGroup.store_device (fun c hc => ?_) s.mem
    have := mem_cellsAt hc
    unfold hostKey at this
    omega
  exact congrArg (fun m => { s.quiet with mem := m }) (hhost _ _)

/-- An event is a report (R144, R438). -/
theorem State.quiet_event (s : State) (e : EventRec) : (s.event e).quiet = s.quiet := by
  unfold State.event
  extract_lets seq r1 s1 s2 r2 s3
  have h2 : s2.quiet = s.quiet := s1.quiet_logEvent e seq
  have h3 : s3.quiet = s.quiet := by
    unfold s3
    split
    · exact (s2.quiet_putEvent e seq).trans h2
    · exact h2
  split <;> exact h3

/-- R407: one partition's check records what it has reported, and reports it. -/
theorem State.quiet_staticOne (s : State) (p : Nat) : (s.staticOne p).quiet = s.quiet := by
  unfold State.staticOne
  split
  · rfl
  split
  · rfl
  dsimp only
  split <;> split
  · exact State.quiet_event _ _
  · rfl
  · rfl
  · exact State.quiet_event _ _

theorem State.quiet_staticCheck (s : State) : s.staticCheck.quiet = s.quiet := by
  unfold State.staticCheck
  generalize List.range 8 = l
  induction l generalizing s with
  | nil => rfl
  | cons p rest ih => exact (ih (s.staticOne p)).trans (s.quiet_staticOne p)

/-! ## A write that is taken -/

/-- State `t` is `u` but for reports and the answers to writes. -/
def State.AnsweredFrom (u t : State) : Prop := ∃ a, t.quiet = (u.answeredWith a).quiet

namespace State.AnsweredFrom
variable {u t : State}

theorem obj (h : u.AnsweredFrom t) (key : Nat) : t.obj key = u.obj key := h.elim fun _ ha => (State.obj_of_quiet ha key :)
theorem exec (h : u.AnsweredFrom t) : t.exec = u.exec := h.elim fun _ ha => (State.exec_of_quiet ha :)
theorem queues (h : u.AnsweredFrom t) : t.queues = u.queues := h.elim fun _ ha => (State.queues_of_quiet ha :)
theorem obs (h : u.AnsweredFrom t) : t.obs = u.obs := h.elim fun _ ha => (State.obs_of_quiet ha :)
theorem mem (h : u.AnsweredFrom t) : t.quiet.mem = u.quiet.mem := h.elim fun _ ha => (congrArg State.mem ha :)
theorem attribOf (h : u.AnsweredFrom t) (n : Nat) : t.attribOf n = u.attribOf n := by
  unfold State.attribOf
  rw [h.obs]

end State.AnsweredFrom

theorem State.quiet_answeredWith (s : State) (a : Nat × Nat) : (s.answeredWith a).quiet = s.quiet.answeredWith a := rfl

/-- The write of an object is counted (R420). -/
def State.counted (s : State) (key : Nat) : State := { s with dict := s.dict.bump key }

@[simp] theorem State.obj_counted (s : State) (key k : Nat) : (s.counted key).obj k = s.obj k := rfl

/-- A write that passes the checks is counted and has its effect; the rest is its answer and reports (R420, R424). -/
theorem State.viaWrite_effect {s : State} {via : Via} {r key v : Nat} (h : s.takesWrite via r key v) :
    ((s.counted key).applyEffect r key v ((s.counted key).dict.seq key) State.applyRecord).AnsweredFrom (s.viaWrite via key v) := by
  obtain ⟨n, hn⟩ : ∃ n, s.viaWrite via key v = (s.applyWriteTo r key v State.applyRecord).answeredWith (tkOk, n) := ⟨_, State.viaWrite_takes h⟩
  refine ⟨(tkOk, n), ?_⟩
  rw [hn, State.quiet_answeredWith, State.quiet_answeredWith]
  exact congrArg (fun q => State.answeredWith q _) (State.quiet_staticCheck _)

/-- The effect of writing an object of a tenant. -/
theorem State.applyEffect_tenant (s : State) (r v seq : Nat) (n : Fin 1024) {sub : Nat} (hsub : sub < 256) (f : State → List Byte → State) :
    s.applyEffect r ((0x4000 + n.val) * 256 + sub) v seq f = s.applyTenant n.val sub ((0x4000 + n.val) * 256 + sub) v seq := by
  have hi : keyIndex ((0x4000 + n.val) * 256 + sub) = 0x4000 + n.val := by unfold keyIndex; omega
  have hs : keySub ((0x4000 + n.val) * 256 + sub) = sub := by unfold keySub; omega
  have ht : isTenantIndex (0x4000 + n.val) = true := by simp [isTenantIndex]; omega
  unfold State.applyEffect
  dsimp only
  rw [hi, hs, if_pos ht, Nat.add_sub_cancel_left]

/-! ## Flags and quotas -/

/-- The flags of a run of stables cleared. -/
theorem State.obj_foldl_clearFlags (l : List Nat) (s : State) (key : Nat) :
    (l.foldl (fun acc i => acc.setObj (oStableFlags i) 0) s).obj key = if key ∈ l.map oStableFlags then 0 else s.obj key := by
  induction l generalizing s with
  | nil => rfl
  | cons i rest ih =>
    rw [List.foldl_cons, ih, State.obj_setObj]
    by_cases hrest : key ∈ rest.map oStableFlags
    · simp [hrest]
    · by_cases hi : key = oStableFlags i <;> simp [hrest, hi, eq_comm]

/-- R83: 0 clears the flags of every stable and changes no other object. -/
theorem State.obj_stableFlagsClear_all (s : State) (key : Nat) :
    (s.stableFlagsClear 0).obj key = if key ∈ (List.range 128).map oStableFlags then 0 else s.obj key := by
  rw [State.stableFlagsClear, if_pos rfl, State.obj_foldl_clearFlags]

/-- R83: n + 1 clears those of logical stable n. -/
theorem State.stableFlagsClear_succ (s : State) (n : Nat) : s.stableFlagsClear (n + 1) = s.setObj (oStableFlags n) 0 := if_neg n.succ_ne_zero

theorem State.mem_stableFlagsClear (s : State) (v : Nat) : (s.stableFlagsClear v).mem = s.mem := by
  unfold State.stableFlagsClear
  split
  · generalize List.range 128 = l
    induction l generalizing s with
    | nil => rfl
    | cons i rest ih => exact ih _
  · rfl

theorem State.applyEffect_stableFlagsClear (s : State) (r v seq : Nat) (f : State → List Byte → State) :
    s.applyEffect r oStableFlagsClear v seq f = s.stableFlagsClear v := rfl

theorem State.viaWrite_stableFlagsClear {s : State} {via : Via} {r v : Nat} (h : s.takesWrite via r oStableFlagsClear v) :
    ((s.counted oStableFlagsClear).stableFlagsClear v).AnsweredFrom (s.viaWrite via oStableFlagsClear v) ∧
      (s.viaWrite via oStableFlagsClear v).quiet.mem = s.quiet.mem := by
  have ht := State.viaWrite_effect h
  rw [State.applyEffect_stableFlagsClear] at ht
  exact ⟨ht, by rw [ht.mem, State.quiet_mem, State.mem_stableFlagsClear]; rfl⟩

/-- R84: the bits written as 1 leave TENANT_FLAGS. -/
theorem State.applyEffect_tenantFlags (s : State) (r : Nat) (n : Fin 1024) (v seq : Nat) (f : State → List Byte → State) :
    s.applyEffect r (oTenantFlags n.val) v seq f =
      s.setObj (oTenantFlags n.val) (s.obj (oTenantFlags n.val) - (s.obj (oTenantFlags n.val) &&& v)) :=
  s.applyEffect_tenant r v seq n (by decide) f

theorem State.applyEffect_tenantAttribQuota (s : State) (r : Nat) (n : Fin 1024) (v seq : Nat) (f : State → List Byte → State) :
    s.applyEffect r (oTenantAttribQuota n.val) v seq f = s.attribQuota n.val v :=
  s.applyEffect_tenant r v seq n (by decide) f

theorem State.attribOf_setAttrib (s : State) (n u : Nat) (l : List AttribEntry) :
    (s.setAttrib n l).attribOf u = if n = u then l else s.attribOf u := Store.get_set [] s.obs.attrib n u l

/-- R499: a quota written removes the tenant's entries and its OTHER count. -/
theorem State.attribQuota_spec (s : State) (n v : Nat) :
    (s.attribQuota n v).obj (oTenantAttribQuota n) = v ∧ (s.attribQuota n v).obj (oTenantAttribOtherNs n) = 0 ∧
      (s.attribQuota n v).attribOf n = [] ∧ (∀ u, u ≠ n → (s.attribQuota n v).attribOf u = s.attribOf u) ∧ (s.attribQuota n v).exec = s.exec := by
  have hne : oTenantAttribOtherNs n ≠ oTenantAttribQuota n := by unfold oTenantAttribOtherNs oTenantAttribQuota; omega
  have hobj : ∀ key, (s.attribQuota n v).obj key = ((s.setObj (oTenantAttribQuota n) v).setObj (oTenantAttribOtherNs n) 0).obj key := fun _ => rfl
  have hattrib : ∀ u, (s.attribQuota n v).attribOf u = if n = u then [] else s.attribOf u := fun u => State.attribOf_setAttrib _ n u []
  refine ⟨?_, ?_, by rw [hattrib, if_pos rfl], fun u hu => by rw [hattrib, if_neg hu.symm], rfl⟩
  · rw [hobj, State.obj_setObj_other _ _ hne, State.obj_setObj_self]
  · rw [hobj, State.obj_setObj_self]

theorem State.applyEffect_spareAutoActivate (s : State) (r v seq : Nat) (f : State → List Byte → State) :
    s.applyEffect r oSpareAutoActivate v seq f = s.setObj oSpareAutoActivate v := rfl

/-! ## The Spur unit and the trace -/

theorem State.applyEffect_spurEnable (s : State) (r v seq : Nat) (f : State → List Byte → State) :
    s.applyEffect r oSpurEnable v seq f = s.spurEnable v := rfl

theorem State.applyEffect_spurLock (s : State) (r v seq : Nat) (f : State → List Byte → State) :
    s.applyEffect r oSpurProductionLock v seq f = s.spurLock v := rfl

theorem State.applyEffect_traceEnable (s : State) (r v seq : Nat) (f : State → List Byte → State) :
    s.applyEffect r oTraceEnable v seq f = s.traceEnable v := rfl

/-- R329: SPUR_ENABLE and SPUR_STATE follow the write, whether or not it is an event. -/
theorem State.reportsOnly_spurEnable (s : State) (v : Nat) : ((s.setObj oSpurEnable v).syncSpur).ReportsOnly (s.spurEnable v) := by
  unfold State.spurEnable
  dsimp only
  split
  · exact .refl _
  · split <;> exact State.reportsOnly_event _ _

theorem State.obj_syncSpur_state (s : State) :
    s.syncSpur.obj oSpurState = if s.obj oSpurProductionLock = 1 then 2 else s.obj oSpurEnable := State.obj_setObj_self _ _ _

theorem State.obj_syncSpur_other (s : State) {key : Nat} (h : oSpurState ≠ key) : s.syncSpur.obj key = s.obj key := State.obj_setObj_other s _ h

theorem State.spurEnable_spec (s : State) (v : Nat) :
    (s.spurEnable v).obj oSpurEnable = v ∧ (s.spurEnable v).obj oSpurState = (if s.obj oSpurProductionLock = 1 then 2 else v) ∧
      (s.spurEnable v).exec = s.exec ∧ (s.spurEnable v).queues = s.queues := by
  have h := s.reportsOnly_spurEnable v
  refine ⟨?_, ?_, h.exec, h.queues⟩
  · rw [h.obj, State.obj_syncSpur_other _ (by decide), State.obj_setObj_self]
  · rw [h.obj, State.obj_syncSpur_state, State.obj_setObj_self, State.obj_setObj_other _ _ (by decide)]

/-- R330: the lock first stops the Spur, with an event where it runs. -/
theorem State.reportsOnly_spurLock (s : State) : ∃ u, (u = s ∧ s.obj oSpurEnable ≠ 1 ∨ (s.setObj oSpurEnable 0).ReportsOnly u) ∧
    ((u.setObj oSpurProductionLock 1).syncSpur).ReportsOnly (s.spurLock 1) := by
  unfold State.spurLock
  rw [if_neg Nat.one_ne_zero]
  extract_lets s1 s2
  refine ⟨s1, ?_, ?_⟩
  · unfold s1
    split
    · exact .inr (State.reportsOnly_event _ _)
    · exact .inl ⟨rfl, ‹_›⟩
  · split
    · exact .refl _
    · exact State.reportsOnly_event _ _

theorem State.spurLock_spec {s : State} (hle : s.obj oSpurEnable ≤ 1) :
    (s.spurLock 1).obj oSpurProductionLock = 1 ∧ (s.spurLock 1).obj oSpurEnable = 0 ∧ (s.spurLock 1).obj oSpurState = 2 ∧ (s.spurLock 1).exec = s.exec := by
  obtain ⟨u, hu, h⟩ := s.reportsOnly_spurLock
  have hstop : u.obj oSpurEnable = 0 ∧ u.exec = s.exec := by
    rcases hu with ⟨rfl, hne⟩ | hu
    · exact ⟨by omega, rfl⟩
    · exact ⟨by rw [hu.obj, State.obj_setObj_self], hu.exec⟩
  refine ⟨?_, ?_, ?_, h.exec.trans hstop.2⟩
  · rw [h.obj, State.obj_syncSpur_other _ (by decide), State.obj_setObj_self]
  · rw [h.obj, State.obj_syncSpur_other _ (by decide), State.obj_setObj_other _ _ (by decide), hstop.1]
  · rw [h.obj, State.obj_syncSpur_state, State.obj_setObj_self, if_pos rfl]

/-- R508: a trace enabled from 0 numbers its frames from 0. -/
theorem State.traceEnable_spec (s : State) (v : Nat) :
    (s.traceEnable v).obj oTraceEnable = v ∧
      (s.traceEnable v).obs = (if v = 1 ∧ s.obj oTraceEnable = 0 then { s.obs with frameSeq := 0 } else s.obs) ∧
      (s.traceEnable v).exec = s.exec ∧ (s.traceEnable v).queues = s.queues := by
  unfold State.traceEnable
  dsimp only
  split <;> exact ⟨State.obj_setObj_self s _ _, rfl, rfl, rfl⟩

/-! ## The rows -/

theorem exec_stableFlagsClear (via : Via) (v : Nat) (s : State) : exec (.stableFlagsClear via v) s = .next (s.viaWrite via oStableFlagsClear v) := rfl

theorem exec_tenantFlagsClear (via : Via) (n : Fin 1024) (v : Nat) (s : State) :
    exec (.tenantFlagsClear via n v) s = .next (s.viaWrite via (oTenantFlags n.val) v) := rfl

theorem exec_tenantAttribQuota (via : Via) (n : Fin 1024) (v : Nat) (s : State) :
    exec (.tenantAttribQuota via n v) s = .next (s.viaWrite via (oTenantAttribQuota n.val) v) := rfl

theorem exec_spareAutoActivateWrite (via : Via) (v : Nat) (s : State) :
    exec (.spareAutoActivateWrite via v) s = .next (s.viaWrite via oSpareAutoActivate v) := rfl

theorem exec_spurEnable (via : Via) (v : Nat) (s : State) : exec (.spurEnable via v) s = .next (s.viaWrite via oSpurEnable v) := rfl

theorem exec_spurProductionLock (via : Via) (v : Nat) (s : State) :
    exec (.spurProductionLock via v) s = .next (s.viaWrite via oSpurProductionLock v) := rfl

theorem exec_traceEnable (via : Via) (v : Nat) (s : State) : exec (.traceEnable via v) s = .next (s.viaWrite via oTraceEnable v) := rfl

/-- Settles O24, clause by clause: what is left of a write that is taken by `viaWrite_effect`, its effect by the lemma of its object. -/
theorem flagsQuotasSpurAndTrace : Obligations.FlagsQuotasSpurAndTrace := by
  unfold Obligations.FlagsQuotasSpurAndTrace
  refine ⟨fun s via r h => ⟨_, exec_stableFlagsClear via 0 s, ?_⟩, fun s via r n h => ⟨_, exec_stableFlagsClear via (n + 1) s, ?_⟩,
    fun s via r n v h => ⟨_, exec_tenantFlagsClear via n v s, ?_⟩, fun s via r n v h => ⟨_, exec_tenantAttribQuota via n v s, ?_⟩,
    fun s via r v h => ⟨_, exec_spareAutoActivateWrite via v s, ?_⟩, fun s via r h => ⟨_, exec_spurEnable via 1 s, ?_⟩,
    fun s via r h => ⟨_, exec_spurEnable via 0 s, ?_⟩, fun s via r h hle => ⟨_, exec_spurProductionLock via 1 s, ?_⟩,
    fun s via r v h => ⟨_, exec_traceEnable via v s, ?_⟩⟩
  · obtain ⟨ht, hmem⟩ := State.viaWrite_stableFlagsClear h
    refine ⟨fun i hi => ?_, fun key hkey => ?_, hmem⟩
    · rw [ht.obj, State.obj_stableFlagsClear_all, if_pos (List.mem_map_of_mem (List.mem_range.mpr hi))]
    · rw [ht.obj, State.obj_stableFlagsClear_all, if_neg, State.obj_counted]
      intro hlisted
      obtain ⟨i, hi, rfl⟩ := List.mem_map.mp hlisted
      exact hkey i (List.mem_range.mp hi) rfl
  · obtain ⟨ht, hmem⟩ := State.viaWrite_stableFlagsClear h
    rw [State.stableFlagsClear_succ] at ht
    refine ⟨?_, fun key hkey => ?_, hmem⟩
    · rw [ht.obj, State.obj_setObj_self]
    · rw [ht.obj, State.obj_setObj_other _ _ hkey.symm, State.obj_counted]
  · have ht := State.viaWrite_effect h
    rw [State.applyEffect_tenantFlags] at ht
    refine ⟨?_, fun key hkey => ?_, ht.mem, ht.exec⟩
    · rw [ht.obj, State.obj_setObj_self, State.obj_counted]
    · rw [ht.obj, State.obj_setObj_other _ _ hkey.symm, State.obj_counted]
  · have ht := State.viaWrite_effect h
    rw [State.applyEffect_tenantAttribQuota] at ht
    obtain ⟨hquota, hother, hnone, hkeep, hexec⟩ := (s.counted (oTenantAttribQuota n.val)).attribQuota_spec n.val v
    refine ⟨(ht.obj _).trans hquota, (ht.obj _).trans hother, ?_, fun u hu => ?_, ht.exec.trans hexec⟩
    · rw [ht.attribOf, hnone]
    · rw [ht.attribOf, hkeep u hu]
      rfl
  · have ht := State.viaWrite_effect h
    rw [State.applyEffect_spareAutoActivate] at ht
    refine ⟨?_, fun key hkey => ?_, ht.exec⟩
    · rw [ht.obj, State.obj_setObj_self]
    · rw [ht.obj, State.obj_setObj_other _ _ hkey.symm, State.obj_counted]
  · have ht := State.viaWrite_effect h
    rw [State.applyEffect_spurEnable] at ht
    obtain ⟨henable, hstate, hexec, hqueues⟩ := (s.counted oSpurEnable).spurEnable_spec 1
    exact ⟨(ht.obj _).trans henable, (ht.obj _).trans hstate, ht.exec.trans hexec, ht.queues.trans hqueues⟩
  · have ht := State.viaWrite_effect h
    rw [State.applyEffect_spurEnable] at ht
    obtain ⟨henable, _, hexec, hqueues⟩ := (s.counted oSpurEnable).spurEnable_spec 0
    exact ⟨(ht.obj _).trans henable, ht.exec.trans hexec, ht.queues.trans hqueues⟩
  · have ht := State.viaWrite_effect h
    rw [State.applyEffect_spurLock] at ht
    obtain ⟨hlock, henable, hstate, hexec⟩ := State.spurLock_spec (s := s.counted oSpurProductionLock) hle
    exact ⟨(ht.obj _).trans hlock, (ht.obj _).trans henable, (ht.obj _).trans hstate, ht.exec.trans hexec⟩
  · have ht := State.viaWrite_effect h
    rw [State.applyEffect_traceEnable] at ht
    obtain ⟨htrace, hobs, hexec, hqueues⟩ := (s.counted oTraceEnable).traceEnable_spec v
    exact ⟨(ht.obj _).trans htrace, ht.obs.trans hobs, ht.exec.trans hexec, ht.queues.trans hqueues⟩

end Sys2Proof.Machine

/-! SUPPORT. Every row keeps memory's canonical form and the commands that wait, and the statements about canonical memory. -/

namespace Sys2Proof.Machine

/-- Every row keeps the canonical form of memory and the commands that wait, each by the lemma of its own meaning. -/
theorem good_exec {p : List Instr} {s t : State} {i : Instr} (h : Good p s) (ht : exec i s = .next t) : Good p t := by
  cases i with
  | matmul => exact good_execMatmul h ht
  | matmulList => exact good_execMatmulList h ht
  | conv => exact good_execConv h ht
  | pool => exact good_execPool h ht
  | resample => exact good_execResample h ht
  | attend => exact good_execAttend h ht
  | norm => exact good_execNorm h ht
  | chain => exact good_execChain h ht
  | gather => exact good_execGather h ht
  | scatterOrdered => exact good_execScatterOrdered h ht
  | distance => exact good_execDistance h ht
  | step => exact good_execStep h ht
  | stepSelect => exact good_execStepSelect h ht
  | stepCommit => exact good_execStepCommit h ht
  | admitEntries => exact good_execAdmitEntries h ht
  | retire => exact good_execRetire h ht
  | handoffBatchStart => exact good_execHandoffBatchStart h ht
  | handoffBatchComplete => exact good_execHandoffBatchComplete h ht
  | tokenSample => exact good_execTokenSample h ht
  | noise => exact good_execNoise h ht
  | collective => exact good_execCollective h ht
  | put => exact good_execPut h ht
  | encodeFrame => exact good_execEncodeFrame h ht
  | encodeBufferRequest => exact good_execEncodeBufferRequest h ht
  | codecFrameComplete => exact good_execCodecFrameComplete h ht
  | encodeRelease => exact good_execEncodeRelease h ht
  | decode => exact good_execDecode h ht
  | copy => exact good_execCopy h ht
  | fill => exact good_execFill h ht
  | postWait => exact good_execPostWait h ht
  | postSignal => exact good_execPostSignal h ht
  | mark => exact good_execMark h ht
  | commandComplete => exact good_execCommandComplete h ht
  | shadowSwap => exact good_execShadowSwap h ht
  | tileCommit => exact good_execTileCommit h ht
  | partialStoreGrant => exact good_execPartialStoreGrant h ht
  | collectiveStagingGrant => exact good_execCollectiveStagingGrant h ht
  | residueMismatch => exact good_execResidueMismatch h ht
  | walkerWatchdogExpire => exact good_execWalkerWatchdogExpire h ht
  | spareActivate => exact good_execSpareActivate h ht
  | quarterOutOfService => exact good_execQuarterOutOfService h ht
  | quarterScrubComplete => exact good_execQuarterScrubComplete h ht
  | eccCorrected => exact good_execEccCorrected h ht
  | eccUncorrectable => exact good_execEccUncorrectable h ht
  | patrolScrubTick => exact good_execPatrolScrubTick h ht
  | codecSelfCheckFail => exact good_execCodecSelfCheckFail h ht
  | deviceFatalFault => exact good_execDeviceFatalFault h ht
  | sqTailWrite => exact good_execSqTailWrite h ht
  | cqHeadWrite => exact good_execCqHeadWrite h ht
  | adminMbxDoorbell => exact good_execAdminMbxDoorbell h ht
  | tenantMbxDoorbell => exact good_execTenantMbxDoorbell h ht
  | tenantEventsClear => exact good_execTenantEventsClear h ht
  | evqCtrlWrite => exact good_execEvqCtrlWrite h ht
  | evqHeadWrite => exact good_execEvqHeadWrite h ht
  | registerWrite => exact good_execRegisterWrite h ht
  | irqDelayExpire => exact good_execIrqDelayExpire h ht
  | eventOverflowRecord => exact good_execEventOverflowRecord h ht
  | functionLevelReset => exact good_execFunctionLevelReset h ht
  | tackRead => exact good_execTackRead h ht
  | tackWrite => exact good_execTackWrite h ht
  | txBegin => exact good_execTxBegin h ht
  | txCommit => exact good_execTxCommit h ht
  | txCommitApply => exact good_execTxCommitApply h ht
  | txQuiescenceTimeout => exact good_execTxQuiescenceTimeout h ht
  | txRollback => exact good_execTxRollback h ht
  | txExpire => exact good_execTxExpire h ht
  | enumOffer => exact good_execEnumOffer h ht
  | enumConfirm => exact good_execEnumConfirm h ht
  | enumConfirmTimeout => exact good_execEnumConfirmTimeout h ht
  | leadInHigh => exact good_execLeadInHigh h ht
  | halterBeaconLoss => exact good_execHalterBeaconLoss h ht
  | halterRelease => exact good_execHalterRelease h ht
  | paddockAllocate => exact good_execPaddockAllocate h ht
  | paddockAllocateResult => exact good_execPaddockAllocateResult h ht
  | paddockFree => exact good_execPaddockFree h ht
  | paddockFreeResult => exact good_execPaddockFreeResult h ht
  | hbmFrameAssign => exact good_execHbmFrameAssign h ht
  | hbmFrameAssignResult => exact good_execHbmFrameAssignResult h ht
  | hbmFrameRelease => exact good_execHbmFrameRelease h ht
  | hbmFrameReleaseResult => exact good_execHbmFrameReleaseResult h ht
  | tenantTlbInvalidate => exact good_execTenantTlbInvalidate h ht
  | queueEnable => exact good_execQueueEnable h ht
  | queueDisable => exact good_execQueueDisable h ht
  | queueDrainComplete => exact good_execQueueDrainComplete h ht
  | stableFlagsClear => exact good_execStableFlagsClear h ht
  | tenantFlagsClear => exact good_execTenantFlagsClear h ht
  | spareAutoActivateWrite => exact good_execSpareAutoActivateWrite h ht
  | tenantRemudaReadReq => exact good_execTenantRemudaReadReq h ht
  | rngProbeRequest => exact good_execRngProbeRequest h ht
  | tenantPostReadReq => exact good_execTenantPostReadReq h ht
  | tenantAttribReadReq => exact good_execTenantAttribReadReq h ht
  | tenantAttribQuota => exact good_execTenantAttribQuota h ht
  | logReadReq => exact good_execLogReadReq h ht
  | tenantEnable => exact good_execTenantEnable h ht
  | tenantPostRange => exact good_execTenantPostRange h ht
  | tenantReset => exact good_execTenantReset h ht
  | tenantHold => exact good_execTenantHold h ht
  | tenantDismounted => exact good_execTenantDismounted h ht
  | tenantResume => exact good_execTenantResume h ht
  | preemptOverrun => exact good_execPreemptOverrun h ht
  | carouselSlotBoundary => exact good_execCarouselSlotBoundary h ht
  | timeMasterTick => exact good_execTimeMasterTick h ht
  | linkDelayMeasure => exact good_execLinkDelayMeasure h ht
  | timeSourceLoss => exact good_execTimeSourceLoss h ht
  | spurEnable => exact good_execSpurEnable h ht
  | spurProductionLock => exact good_execSpurProductionLock h ht
  | traceEnable => exact good_execTraceEnable h ht
  | traceFrameSend => exact good_execTraceFrameSend h ht
  | utilisationWindow => exact good_execUtilisationWindow h ht
  | hangStallDetect => exact good_execHangStallDetect h ht
  | hangReplyTimeout => exact good_execHangReplyTimeout h ht
  | fwStageBegin => exact good_execFwStageBegin h ht
  | fwStageChunk => exact good_execFwStageChunk h ht
  | fwStageVerify => exact good_execFwStageVerify h ht
  | fwStageActivate => exact good_execFwStageActivate h ht
  | fwStageAbandon => exact good_execFwStageAbandon h ht
  | fwStageTimeout => exact good_execFwStageTimeout h ht
  | stableRetireRequest => exact good_execStableRetireRequest h ht
  | mainRailsCommand => exact good_execMainRailsCommand h ht
  | gaitCeilingWrite => exact good_execGaitCeilingWrite h ht
  | linkEnableWrite => exact good_execLinkEnableWrite h ht
  | lineagePortModeWrite => exact good_execLineagePortModeWrite h ht
  | topoBoroughNumberWrite => exact good_execTopoBoroughNumberWrite h ht
  | ostlerBoot => exact good_execOstlerBoot h ht
  | mainRailsGood => exact good_execMainRailsGood h ht
  | rootPllLock => exact good_execRootPllLock h ht
  | hbmTrainingComplete => exact good_execHbmTrainingComplete h ht
  | pcieLinkUp => exact good_execPcieLinkUp h ht
  | perstAssert => exact good_execPerstAssert h ht
  | perstScrubComplete => exact good_execPerstScrubComplete h ht
  | perstDeassert => exact good_execPerstDeassert h ht
  | mrstAssert => exact good_execMrstAssert h ht
  | mrstDeassert => exact good_execMrstDeassert h ht
  | reinAssert => exact good_execReinAssert h ht
  | reinDeassert => exact good_execReinDeassert h ht
  | reinHoldExpire => exact good_execReinHoldExpire h ht
  | inputVoltageExcursion => exact good_execInputVoltageExcursion h ht
  | inputVoltageRecover => exact good_execInputVoltageRecover h ht
  | standbyPowerLoss => exact good_execStandbyPowerLoss h ht
  | trip => exact good_execTrip h ht
  | lockstepMismatch => exact good_execLockstepMismatch h ht
  | refclkLoss => exact good_execRefclkLoss h ht
  | rootPllLockLoss => exact good_execRootPllLockLoss h ht
  | refclkRestore => exact good_execRefclkRestore h ht
  | srefclkLoss => exact good_execSrefclkLoss h ht
  | srefclkRestore => exact good_execSrefclkRestore h ht
  | powerGaitTick => exact good_execPowerGaitTick h ht
  | powerGaitRaise => exact good_execPowerGaitRaise h ht
  | powerWalkStall => exact good_execPowerWalkStall h ht
  | thermalGaitTick => exact good_execThermalGaitTick h ht
  | thermalGaitRaise => exact good_execThermalGaitRaise h ht
  | gaitUpComplete => exact good_execGaitUpComplete h ht
  | coolantSample => exact good_execCoolantSample h ht
  | droopDetect => exact good_execDroopDetect h ht
  | droopStretchEnd => exact good_execDroopStretchEnd h ht
  | canaryLowMargin => exact good_execCanaryLowMargin h ht
  | voltageStepDownTick => exact good_execVoltageStepDownTick h ht
  | quarterCoolingEnter => exact good_execQuarterCoolingEnter h ht
  | quarterCoolingLeave => exact good_execQuarterCoolingLeave h ht
  | logFlush => exact good_execLogFlush h ht
  | linkTraining => exact good_execLinkTraining h ht
  | linkTrainRetryTimer => exact good_execLinkTrainRetryTimer h ht
  | discoveryReceive => exact good_execDiscoveryReceive h ht
  | portSignalLoss => exact good_execPortSignalLoss h ht
  | portFlitTimeout => exact good_execPortFlitTimeout h ht
  | flitReceive => exact good_execFlitReceive h ht
  | linkAckTimer => exact good_execLinkAckTimer h ht
  | linkReplayTimeout => exact good_execLinkReplayTimeout h ht
  | symbolErrorRatioExceed => exact good_execSymbolErrorRatioExceed h ht
  | packetForward => exact good_execPacketForward h ht
  | writePacketReceive => exact good_execWritePacketReceive h ht
  | readRequestReceive => exact good_execReadRequestReceive h ht
  | readResponseReceive => exact good_execReadResponseReceive h ht
  | postUpdateReceive => exact good_execPostUpdateReceive h ht
  | subscriptionReceive => exact good_execSubscriptionReceive h ht
  | subscriptionRetry => exact good_execSubscriptionRetry h ht
  | collectiveRequestRetry => exact good_execCollectiveRequestRetry h ht
  | collectiveAbortReceive => exact good_execCollectiveAbortReceive h ht
  | e2eAckReceive => exact good_execE2eAckReceive h ht
  | e2eAckTimer => exact good_execE2eAckTimer h ht
  | e2eRetxTimer => exact good_execE2eRetxTimer h ht
  | e2eUnreachableTimer => exact good_execE2eUnreachableTimer h ht
  | managementPacketReceive => exact good_execManagementPacketReceive h ht
  | timePacketReceive => exact good_execTimePacketReceive h ht
  | linkStateAdvertisementReceive => exact good_execLinkStateAdvertisementReceive h ht
  | linkParametersReceive => exact good_execLinkParametersReceive h ht
  | lineageTransactionReceive => exact good_execLineageTransactionReceive h ht
  | tlbInvalidateComplete => exact good_execTlbInvalidateComplete h ht
  | tenantResetComplete => exact good_execTenantResetComplete h ht
  | collectiveDataReceive => exact good_execCollectiveDataReceive h ht
  | lineagePortTraining => exact good_execLineagePortTraining h ht
  | lineageResponseReceive => exact good_execLineageResponseReceive h ht
  | halterBeaconResume => exact good_execHalterBeaconResume h ht

/-- A step that idles changes nothing; one that takes a command runs it on the same memory. -/
theorem mem_wf_step {s t : State} (h : s.mem.wf = true) (ht : step s = .next t) : t.mem.wf = true := by
  unfold step at ht
  split at ht
  · rwa [← Host.Outcome.next.inj ht]
  · next c rest _ =>
    have hfront : Good rest { s with pending := rest } := ⟨h, rfl⟩
    exact (good_exec hfront ht).mem

@[simp] theorem State.reset_mem : State.reset.mem = MemGroup.reset := rfl
@[simp] theorem State.reset_pending : State.reset.pending = [] := rfl

/-- Settles O3: memory is empty after reset. -/
theorem memoryCanonicalAtReset : Obligations.MemoryCanonicalAtReset := by
  refine ⟨?_, State.reset_pending⟩
  rw [MemOk, State.reset_mem]
  rfl

/-- Settles O4: the row at the front of the queue keeps the canonical form, whichever it is. -/
theorem stepKeepsMemoryCanonical : Obligations.StepKeepsMemoryCanonical := fun _ _ h ht => mem_wf_step h ht

end Sys2Proof.Machine

/-! SUPPORT. What reports leave of the device's own memory, and memory errors that are counted, poisoned or contained. -/

namespace Sys2Proof.Machine

/-! ## The device's own memory -/

/-- An address of the device reads from the device's own bytes. -/
theorem MemGroup.read_device (m : MemGroup) {k : Nat} (hk : k < 2 ^ 64) : m.device.read k = m.read k := by
  have hget := Store.get_filter 0 (fun j => decide (j < 2 ^ 64)) m.bytes k
  rwa [if_pos (decide_eq_true hk)] at hget

theorem State.read_of_quiet {s t : State} (h : t.quiet = s.quiet) {k : Nat} (hk : k < 2 ^ 64) : t.mem.read k = s.mem.read k := by
  have hmem : t.mem.device = s.mem.device := congrArg State.mem h
  rw [← MemGroup.read_device t.mem hk, hmem, MemGroup.read_device s.mem hk]

theorem MemGroup.mem_poison_device (m : MemGroup) {line : Nat} (hline : line < 2 ^ 58) : line ∈ m.device.poison ↔ line ∈ m.poison := by
  unfold MemGroup.device
  rw [List.mem_filter]
  exact and_iff_left (decide_eq_true hline)

/-- A line of the device is poisoned in both states or in neither. -/
theorem State.poison_of_quiet {s t : State} (h : t.quiet = s.quiet) {line : Nat} (hline : line < 2 ^ 58) :
    line ∈ t.mem.poison ↔ line ∈ s.mem.poison := by
  have hmem : t.mem.device = s.mem.device := congrArg State.mem h
  rw [← MemGroup.mem_poison_device t.mem hline, hmem, MemGroup.mem_poison_device s.mem hline]

theorem State.suspectFrames_of_quiet {s t : State} (h : t.quiet = s.quiet) : t.mem.suspectFrames = s.mem.suspectFrames :=
  (congrArg (fun q => q.mem.suspectFrames) h :)

/-! ## Corrected errors -/

/-- Until a source's last event is a second old, an error is only added to the count of those to report (R483). -/
theorem State.correctedEvent_notDue (s : State) (kind source : Nat) :
    ∃ c, s.correctedEvent kind source false = s.withPower { s.power with ceSince := c } := ⟨_, rfl⟩

/-- The event of a corrected error is a report: beside it, only the count of errors to report moves. -/
theorem State.quiet_correctedEvent (s : State) (kind source : Nat) (due : Bool) :
    ∃ c, (s.correctedEvent kind source due).quiet = (s.withPower { s.power with ceSince := c }).quiet := by
  cases due with
  | false => exact ⟨_, rfl⟩
  | true => exact ⟨_, State.quiet_event _ _⟩

theorem exec_eccCorrected (site : EccSite) (due : Bool) (s : State) : exec (.eccCorrected site due) s = .next (s.eccCorrected site due) := rfl

/-- A corrected error of HBM is counted at its stack. -/
theorem State.eccCorrected_hbm_notDue (s : State) (line : Nat) :
    ∃ c, s.eccCorrected (.hbm line) false = (s.count (oHbmCeCount (stackOf (64 * line))) 1).withPower { s.power with ceSince := c } :=
  State.correctedEvent_notDue _ _ _

/-- One of a stable is counted at the stable. -/
theorem State.quiet_eccCorrected_stable (s : State) (l : Nat) (due : Bool) :
    ∃ c, (s.eccCorrected (.stable l) due).quiet = ((s.count (oMangerCeCount l) 1).withPower { s.power with ceSince := c }).quiet :=
  State.quiet_correctedEvent _ _ _ _

/-! ## Uncorrectable errors -/

theorem exec_eccUncorrectable (site : BadSite) (due : Bool) (s : State) :
    exec (.eccUncorrectable site due) s = .next (s.eccBad site due).staticCheck := rfl

theorem exec_patrolScrubTick (find : Option (EccSite × Bool)) (due : Bool) (s : State) :
    exec (.patrolScrubTick find due) s = .next (s.patrol find due) := rfl

/-- A line of HBM poisoned: its frame is suspect and the error counted at its stack (R110, R112). -/
def State.poisonedHbm (s : State) (line : Nat) : State :=
  (s.withMem { s.mem with poison := line :: s.mem.poison, suspectFrames := 64 * line / frameBytes :: s.mem.suspectFrames }).count
    (oHbmUeCount (stackOf (64 * line))) 1

theorem line_lt_of_assignable {line : Nat} (h : 64 * line / frameBytes < assignableFrames) : 64 * line < 2 ^ 60 := by
  unfold frameBytes assignableFrames at h
  omega

/-- An uncorrectable line of an assignable frame is poisoned at its first detection; the rest is a report (R110). -/
theorem State.quiet_hbmBad {s : State} {line : Nat} (hframe : 64 * line / frameBytes < assignableFrames) (hnew : s.mem.poison.contains line = false)
    (due : Bool) : (s.hbmBad line due).quiet = (s.poisonedHbm line).quiet := by
  have hk := line_lt_of_assignable hframe
  unfold State.hbmBad State.poisonLine
  rw [if_pos hframe, if_neg (by rw [hnew]; decide)]
  dsimp only
  rw [if_pos hk]
  exact State.quiet_event _ _

/-- What a poisoned line leaves: its bytes as they were, the line poisoned, its frame suspect. -/
theorem State.hbmBad_spec {s : State} {line : Nat} (hframe : 64 * line / frameBytes < assignableFrames) (hnew : s.mem.poison.contains line = false)
    (due : Bool) :
    (s.hbmBad line due).mem.poison.contains line = true ∧ (s.hbmBad line due).mem.suspectFrames.contains (64 * line / frameBytes) = true ∧
      (∀ k, k < 2 ^ 64 → (s.hbmBad line due).mem.read k = s.mem.read k) ∧ (s.hbmBad line due).exec = s.exec ∧ (s.hbmBad line due).queues = s.queues := by
  have hq := State.quiet_hbmBad hframe hnew due
  have hk := line_lt_of_assignable hframe
  refine ⟨?_, ?_, fun k hk => State.read_of_quiet hq hk, (State.exec_of_quiet hq :), (State.queues_of_quiet hq :)⟩
  · rw [List.contains_iff_mem, State.poison_of_quiet hq (by omega)]
    exact List.mem_cons_self
  · rw [List.contains_iff_mem, State.suspectFrames_of_quiet hq]
    exact List.mem_cons_self

/-- An uncorrectable error in the SRAM of an active stable retires it (R484). -/
theorem State.eccBad_sram {s : State} {p : Nat} (hp : p < 136) (hv : (s.stable p).service = 0) (due : Bool) :
    ((s.eccBad (.sram p) due).stable p).service = 3 ∧ bit ((s.eccBad (.sram p) due).obj oRetiredStables) p = true ∧
      (s.eccBad (.sram p) due).queues = s.queues := by
  have hlose := s.keepsUnits_loseWork p
  obtain ⟨hservice, _, hretired, _, hqueues⟩ := State.retireStable_spec hp ((hlose.service p).trans hv) 2
  have hbad : s.eccBad (.sram p) due = (s.loseWork p).retireStable p 2 := if_pos hv
  rw [hbad]
  exact ⟨hservice, hretired, hqueues.trans hlose.queues⟩

/-- Settles O40, clause by clause: the counts of corrected errors, the poisoned line, the stable that retires, and patrol by the same meanings. -/
theorem memoryErrorsAreCountedOrContained : Obligations.MemoryErrorsAreCountedOrContained := by
  unfold Obligations.MemoryErrorsAreCountedOrContained
  refine ⟨fun s line => ⟨_, exec_eccCorrected (.hbm line) false s, ?_⟩, fun s l due => ⟨_, exec_eccCorrected (.stable l) due s, ?_⟩,
    fun s line due hframe hnew => ⟨_, exec_eccUncorrectable (.hbm line) due s, State.hbmBad_spec hframe hnew due⟩,
    fun s p due hv hp => ⟨_, exec_eccUncorrectable (.sram p) due s, State.eccBad_sram hp hv due⟩, fun s line due => rfl,
    fun s line due hframe hnew => ⟨_, exec_patrolScrubTick (some (.hbm line, true)) due s, ?_⟩, fun s due => exec_patrolScrubTick none due s⟩
  · obtain ⟨c, hc⟩ := s.eccCorrected_hbm_notDue line
    rw [hc]
    exact ⟨State.obj_setObj_self s _ _, rfl, rfl, rfl, rfl⟩
  · obtain ⟨c, hc⟩ := s.quiet_eccCorrected_stable l due
    exact ⟨(State.obj_of_quiet hc _).trans (State.obj_setObj_self s _ _), (State.exec_of_quiet hc :), (State.queues_of_quiet hc :),
      (congrArg State.mem hc :)⟩
  · obtain ⟨hpoison, _, _, hexec, hqueues⟩ := State.hbmBad_spec hframe hnew due
    exact ⟨hpoison, hexec, hqueues⟩

end Sys2Proof.Machine

/-! SUPPORT. Requests for memory: what taking owners, counting what is held, and giving a result leave as they were. -/

namespace Sys2Proof.Machine

/-! ## Owners -/

/-- One value put at every key of a list. -/
theorem Store.get_foldl_set {α : Type} [DecidableEq α] (d v : α) (l : List Nat) (m : Store α) (k : Nat) :
    Store.get d (l.foldl (fun m j => Store.set d m j v) m) k = if k ∈ l then v else Store.get d m k := by
  induction l generalizing m with
  | nil => simp
  | cons j rest ih =>
    rw [List.foldl_cons, ih, Store.get_set]
    by_cases hrest : k ∈ rest
    · simp [hrest]
    · simp [hrest, eq_comm]

/-- Granules given to an owner, and nothing else. -/
def State.ownGranules (s : State) (l : List Nat) (o : Nat) : State :=
  s.withMem { s.mem with granOwner := l.foldl (fun m g => Store.set ownerFree m g o) s.mem.granOwner }

theorem State.foldl_setGranule (l : List Nat) (o : Nat) (s : State) : l.foldl (fun (acc : State) g => acc.setGranule g o) s = s.ownGranules l o := by
  induction l generalizing s with
  | nil => rfl
  | cons g rest ih => exact ih (s.setGranule g o)

@[simp] theorem State.ownGranules_exec (s : State) (l : List Nat) (o : Nat) : (s.ownGranules l o).exec = s.exec := rfl
@[simp] theorem State.ownGranules_allocs (s : State) (l : List Nat) (o : Nat) : (s.ownGranules l o).mem.allocs = s.mem.allocs := rfl
@[simp] theorem State.ownGranules_delayed (s : State) (l : List Nat) (o : Nat) : (s.ownGranules l o).mem.delayed = s.mem.delayed := rfl
@[simp] theorem State.ownGranules_waitingMsgs (s : State) (l : List Nat) (o : Nat) :
    (s.ownGranules l o).dict.waitingMsgs = s.dict.waitingMsgs := rfl

theorem State.granuleOwner_ownGranules (s : State) (l : List Nat) (o g : Nat) :
    (s.ownGranules l o).granuleOwner g = if g ∈ l then o else s.granuleOwner g := Store.get_foldl_set ownerFree o l s.mem.granOwner g

/-- Frames given to an owner, and nothing else. -/
def State.ownFrames (s : State) (l : List Nat) (o : Nat) : State :=
  s.withMem { s.mem with frameOwner := l.foldl (fun m f => Store.set ownerFree m f o) s.mem.frameOwner }

theorem State.foldl_setFrame (l : List Nat) (o : Nat) (s : State) : l.foldl (fun (acc : State) f => acc.setFrame f o) s = s.ownFrames l o := by
  induction l generalizing s with
  | nil => rfl
  | cons f rest ih => exact ih (s.setFrame f o)

@[simp] theorem State.ownFrames_exec (s : State) (l : List Nat) (o : Nat) : (s.ownFrames l o).exec = s.exec := rfl
@[simp] theorem State.ownFrames_delayed (s : State) (l : List Nat) (o : Nat) : (s.ownFrames l o).mem.delayed = s.mem.delayed := rfl
@[simp] theorem State.ownFrames_waitingMsgs (s : State) (l : List Nat) (o : Nat) :
    (s.ownFrames l o).dict.waitingMsgs = s.dict.waitingMsgs := rfl
@[simp] theorem State.ownFrames_read (s : State) (l : List Nat) (o k : Nat) : (s.ownFrames l o).mem.read k = s.mem.read k := rfl

theorem State.frameOwner_ownFrames (s : State) (l : List Nat) (o f : Nat) :
    Store.get ownerFree (s.ownFrames l o).mem.frameOwner f = if f ∈ l then o else Store.get ownerFree s.mem.frameOwner f :=
  Store.get_foldl_set ownerFree o l s.mem.frameOwner f

/-! ## The objects that report what is held -/

/-- State `u` is `s` but for the values of objects that `p` lists. -/
structure State.ObjectsOnly (p : Nat → Prop) (s u : State) : Prop where
  eq : ∃ vals, u = { s with dict := { s.dict with vals := vals } }
  obj : ∀ key, ¬ p key → u.obj key = s.obj key

namespace State.ObjectsOnly
variable {p : Nat → Prop} {s t u : State}

theorem refl (p : Nat → Prop) (s : State) : s.ObjectsOnly p s := ⟨⟨s.dict.vals, rfl⟩, fun _ _ => rfl⟩

theorem trans (h : s.ObjectsOnly p t) (k : t.ObjectsOnly p u) : s.ObjectsOnly p u where
  eq := by
    obtain ⟨v, rfl⟩ := h.eq
    obtain ⟨w, rfl⟩ := k.eq
    exact ⟨w, rfl⟩
  obj := fun key hkey => (k.obj key hkey).trans (h.obj key hkey)

theorem mem (h : s.ObjectsOnly p u) : u.mem = s.mem := h.eq.elim fun _ hu => (congrArg State.mem hu :)
theorem exec (h : s.ObjectsOnly p u) : u.exec = s.exec := h.eq.elim fun _ hu => (congrArg State.exec hu :)
theorem seq (h : s.ObjectsOnly p u) (key : Nat) : u.dict.seq key = s.dict.seq key :=
  h.eq.elim fun _ hu => (congrArg (fun x => x.dict.seq key) hu :)
theorem waitingMsgs (h : s.ObjectsOnly p u) : u.dict.waitingMsgs = s.dict.waitingMsgs :=
  h.eq.elim fun _ hu => (congrArg (fun x => x.dict.waitingMsgs) hu :)
theorem granuleOwner (h : s.ObjectsOnly p u) (g : Nat) : u.granuleOwner g = s.granuleOwner g := by
  unfold State.granuleOwner
  rw [h.mem]
theorem framesHeld (h : s.ObjectsOnly p u) (o : Nat) : u.framesHeld o = s.framesHeld o := by
  unfold State.framesHeld
  rw [h.mem]

end State.ObjectsOnly

theorem State.objectsOnly_setObj {p : Nat → Prop} (s : State) {k : Nat} (v : Nat) (hk : p k) : s.ObjectsOnly p (s.setObj k v) :=
  ⟨⟨_, rfl⟩, fun _ hkey => s.obj_setObj_other v (fun h => hkey (h ▸ hk))⟩

theorem State.objectsOnly_foldl {p : Nat → Prop} {α : Type} {f : State → α → State} {l : List α} (hf : ∀ a ∈ l, ∀ s : State, s.ObjectsOnly p (f s a))
    (s : State) : s.ObjectsOnly p (l.foldl f s) := by
  induction l generalizing s with
  | nil => exact .refl p s
  | cons a rest ih =>
    exact (hf a List.mem_cons_self s).trans (ih (fun b hb => hf b (List.mem_cons_of_mem a hb)) (f s a))

/-- The objects of R114 and R115. -/
def reportsMemory (key : Nat) : Prop :=
  (∃ q < 8, key = oPaddockGranulesFree q) ∨ key = oHbmFramesFree ∨ key = oHbmFramesAssignable ∨
    ∃ t < 1024, key = oTenantPaddockHeld t ∨ key = oTenantHbmFramesHeld t

theorem State.objectsOnly_syncMemory (s : State) (t : Nat) : s.ObjectsOnly reportsMemory (s.syncMemory t) := by
  unfold State.syncMemory
  extract_lets s1 s2
  have hfree : s.ObjectsOnly reportsMemory s1 :=
    State.objectsOnly_foldl (fun q hq x => x.objectsOnly_setObj _ (.inl ⟨q, List.mem_range.mp hq, rfl⟩)) s
  have hframes : s.ObjectsOnly reportsMemory s2 :=
    (hfree.trans (s1.objectsOnly_setObj _ (.inr (.inl rfl)))).trans (State.objectsOnly_setObj _ _ (.inr (.inr (.inl rfl))))
  split
  · next ht =>
    exact (hframes.trans (s2.objectsOnly_setObj _ (.inr (.inr (.inr ⟨t, ht, .inl rfl⟩))))).trans
      (State.objectsOnly_setObj _ _ (.inr (.inr (.inr ⟨t, ht, .inr rfl⟩))))
  · exact hframes

/-- A tenant's PADDOCK_RESULT is none of them. -/
theorem not_reportsMemory_paddockResult (t : Nat) : ¬ reportsMemory (oTenantPaddockResult t) := by
  unfold reportsMemory oTenantPaddockResult oPaddockGranulesFree oHbmFramesFree oHbmFramesAssignable oTenantPaddockHeld oTenantHbmFramesHeld
  omega

theorem not_reportsMemory_frameResult : ¬ reportsMemory oHbmFrameResult := by
  unfold reportsMemory oHbmFrameResult oPaddockGranulesFree oHbmFramesFree oHbmFramesAssignable oTenantPaddockHeld oTenantHbmFramesHeld
  omega

/-! ## Requests and results -/

/-- What pre-empted commands find gone is kept with their tenants (R98). -/
theorem State.goneFor_eq (s : State) (t : Option Nat) : ∃ sc, s.goneFor t = { s with sched := sc } := by
  unfold State.goneFor
  generalize (s.concerned t).filter s.preempted = l
  induction l generalizing s with
  | nil => exact ⟨s.sched, rfl⟩
  | cons c rest ih =>
    obtain ⟨sc, hsc⟩ := ih (s.noteGone c)
    refine ⟨sc, hsc.trans ?_⟩
    unfold State.noteGone
    cases c.tenant <;> rfl

theorem State.goneFor_mem (s : State) (t : Option Nat) : (s.goneFor t).mem = s.mem := (s.goneFor_eq t).elim fun _ h => (congrArg State.mem h :)
theorem State.goneFor_exec (s : State) (t : Option Nat) : (s.goneFor t).exec = s.exec := (s.goneFor_eq t).elim fun _ h => (congrArg State.exec h :)

@[simp] theorem State.addDelayed_exec (s : State) (q : DelayedReq) : (s.addDelayed q).exec = s.exec := rfl
@[simp] theorem State.addDelayed_queues (s : State) (q : DelayedReq) : (s.addDelayed q).queues = s.queues := rfl
@[simp] theorem State.addDelayed_delayed (s : State) (q : DelayedReq) : (s.addDelayed q).mem.delayed = s.mem.delayed ++ [q] := rfl
@[simp] theorem State.addDelayed_allocs (s : State) (q : DelayedReq) : (s.addDelayed q).mem.allocs = s.mem.allocs := rfl
@[simp] theorem State.addDelayed_granOwner (s : State) (q : DelayedReq) : (s.addDelayed q).mem.granOwner = s.mem.granOwner := rfl
@[simp] theorem State.addDelayed_frameOwner (s : State) (q : DelayedReq) : (s.addDelayed q).mem.frameOwner = s.mem.frameOwner := rfl
@[simp] theorem State.addDelayed_granuleOwner (s : State) (q : DelayedReq) (g : Nat) : (s.addDelayed q).granuleOwner g = s.granuleOwner g := rfl

/-- With no message waiting, a result wakes none (R425). -/
theorem State.wakeMsgs_of_none {s : State} (h : s.dict.waitingMsgs = []) : s.wakeMsgs = s := by
  unfold State.wakeMsgs
  rw [h]
  rfl

@[simp] theorem State.giveResult_mem (s : State) (res v : Nat) (q : DelayedReq) :
    (s.giveResult res v q).mem = { s.mem with delayed := s.mem.delayed.erase q } := rfl
@[simp] theorem State.giveResult_exec (s : State) (res v : Nat) (q : DelayedReq) : (s.giveResult res v q).exec = s.exec := rfl
@[simp] theorem State.giveResult_granuleOwner (s : State) (res v : Nat) (q : DelayedReq) (g : Nat) :
    (s.giveResult res v q).granuleOwner g = s.granuleOwner g := rfl
@[simp] theorem State.giveResult_framesHeld (s : State) (res v : Nat) (q : DelayedReq) (o : Nat) :
    (s.giveResult res v q).framesHeld o = s.framesHeld o := rfl
@[simp] theorem State.giveResult_waitingMsgs (s : State) (res v : Nat) (q : DelayedReq) :
    (s.giveResult res v q).dict.waitingMsgs = s.dict.waitingMsgs := rfl
@[simp] theorem State.giveResult_obj (s : State) (res v : Nat) (q : DelayedReq) : (s.giveResult res v q).obj res = v := Store.get_set_self _ _ res v
@[simp] theorem State.giveResult_seq (s : State) (res v : Nat) (q : DelayedReq) : (s.giveResult res v q).dict.seq res = q.seq :=
  Store.get_set_self 0 _ res q.seq

/-! ## What an applied request leaves, seen through its answer -/

namespace State.AnsweredFrom
variable {u t : State}

theorem granOwner (h : u.AnsweredFrom t) : t.mem.granOwner = u.mem.granOwner := (congrArg MemGroup.granOwner h.mem :)
theorem granuleOwner (h : u.AnsweredFrom t) (g : Nat) : t.granuleOwner g = u.granuleOwner g := congrArg (fun m => Store.get ownerFree m g) h.granOwner
theorem frameOwner (h : u.AnsweredFrom t) : t.mem.frameOwner = u.mem.frameOwner := (congrArg MemGroup.frameOwner h.mem :)
theorem allocs (h : u.AnsweredFrom t) : t.mem.allocs = u.mem.allocs := (congrArg MemGroup.allocs h.mem :)
theorem delayed (h : u.AnsweredFrom t) : t.mem.delayed = u.mem.delayed := (congrArg MemGroup.delayed h.mem :)

end State.AnsweredFrom

@[simp] theorem State.counted_mem (s : State) (key : Nat) : (s.counted key).mem = s.mem := rfl
@[simp] theorem State.counted_exec (s : State) (key : Nat) : (s.counted key).exec = s.exec := rfl
@[simp] theorem State.counted_queues (s : State) (key : Nat) : (s.counted key).queues = s.queues := rfl
@[simp] theorem State.granuleOwner_counted (s : State) (key g : Nat) : (s.counted key).granuleOwner g = s.granuleOwner g := rfl
@[simp] theorem State.begunIds_counted (s : State) (key : Nat) (t : Option Nat) : (s.counted key).begunIds t = s.begunIds t := rfl

end Sys2Proof.Machine

/-! SUPPORT. Paddock allocations and frees, and the statement about them. -/

namespace Sys2Proof.Machine

/-! ## The rows -/

theorem exec_paddockAllocate (via : Via) (n : Fin 1024) {v : Nat} (h : padOp v ≠ 2) (s : State) :
    exec (.paddockAllocate via n v) s = .next (s.viaWrite via (oTenantPaddockRequest n.val) v) := congrArg _ (if_neg h)

theorem exec_paddockFree (via : Via) (n : Fin 1024) {v : Nat} (h : padOp v = 2) (s : State) :
    exec (.paddockFree via n v) s = .next (s.viaWrite via (oTenantPaddockRequest n.val) v) := congrArg _ (if_pos h)

theorem exec_paddockAllocateResult (n : Fin 1024) (s : State) : exec (.paddockAllocateResult n) s = .next (s.paddockAllocated n.val).wakeMsgs := rfl
theorem exec_paddockFreeResult (n : Fin 1024) (s : State) : exec (.paddockFreeResult n) s = .next (s.paddockFreed n.val).wakeMsgs := rfl

/-! ## Allocation (R96, R97, R99) -/

theorem State.applyEffect_paddockRequest (s : State) (r : Nat) (n : Fin 1024) (v seq : Nat) (f : State → List Byte → State) :
    s.applyEffect r (oTenantPaddockRequest n.val) v seq f = if padOp v = 2 then s.paddockFree n.val v seq else s.paddockAllocate n.val v seq :=
  s.applyEffect_tenant r v seq n (by decide) f

/-- The quarters a tenant's allocation may take granules of, its status, and the granules it takes, slot by slot. -/
def State.allocQuarters (s : State) (t : Nat) : List Nat := s.partitionQuarters (s.obj (oTenantPartition t))
def State.allocStatus (s : State) (t v : Nat) : Nat := s.padAllocStatus t v (s.allocQuarters t)
def State.allocMap (s : State) (t v : Nat) : List (List Nat) := s.padMap v (s.allocQuarters t)

/-- What an allocation that passes asks for, and one that fails. -/
def State.allocRequest (s : State) (t v seq : Nat) : DelayedReq :=
  ⟨oTenantPaddockRequest t, v, seq, 0, [], some ⟨padBase v, padCount v, padClass v, padQuarter v, s.allocMap t v⟩⟩
def State.failedRequest (s : State) (t v seq : Nat) : DelayedReq := ⟨oTenantPaddockRequest t, v, seq, s.allocStatus t v, [], none⟩

@[simp] theorem State.allocStatus_counted (s : State) (key t v : Nat) : (s.counted key).allocStatus t v = s.allocStatus t v := rfl
@[simp] theorem State.allocMap_counted (s : State) (key t v : Nat) : (s.counted key).allocMap t v = s.allocMap t v := rfl
@[simp] theorem State.allocRequest_counted (s : State) (key t v seq : Nat) : (s.counted key).allocRequest t v seq = s.allocRequest t v seq := rfl
@[simp] theorem State.failedRequest_counted (s : State) (key t v seq : Nat) : (s.counted key).failedRequest t v seq = s.failedRequest t v seq := rfl

theorem State.paddockAllocate_failed {s : State} {t v : Nat} (h : s.allocStatus t v ≠ 0) (seq : Nat) :
    s.paddockAllocate t v seq = s.addDelayed (s.failedRequest t v seq) := if_pos h

/-- An allocation that passes takes the granules of its map; the rest is what reports of memory say. -/
theorem State.paddockAllocate_passed {s : State} {t v : Nat} (h : s.allocStatus t v = 0) (seq : Nat) :
    ((s.ownGranules (s.allocMap t v).flatten t).addDelayed (s.allocRequest t v seq)).ObjectsOnly reportsMemory (s.paddockAllocate t v seq) := by
  have hpass : s.paddockAllocate t v seq = (((s.allocMap t v).flatten.foldl (fun (acc : State) g => acc.setGranule g t) s).addDelayed
      { s.allocRequest t v seq with status := s.allocStatus t v }).syncMemory t := if_neg (not_not_intro h)
  rw [hpass, h, State.foldl_setGranule]
  exact State.objectsOnly_syncMemory _ t

section
variable {s : State} {via : Via} {r v : Nat} {n : Fin 1024}

/-- A request that fails only waits for its result. -/
theorem State.viaWrite_paddockAllocate_failed (h : s.takesWrite via r (oTenantPaddockRequest n.val) v) (hop : padOp v ≠ 2)
    (hst : s.allocStatus n.val v ≠ 0) : ∃ seq,
      ((s.counted (oTenantPaddockRequest n.val)).addDelayed (s.failedRequest n.val v seq)).AnsweredFrom
        (s.viaWrite via (oTenantPaddockRequest n.val) v) := by
  have ht := State.viaWrite_effect h
  rw [State.applyEffect_paddockRequest, if_neg hop, State.paddockAllocate_failed (by rwa [State.allocStatus_counted]),
    State.failedRequest_counted] at ht
  exact ⟨_, ht⟩

/-- What one that passes leaves of owners, allocations and requests. -/
theorem State.viaWrite_paddockAllocate_passed (h : s.takesWrite via r (oTenantPaddockRequest n.val) v) (hop : padOp v ≠ 2)
    (hst : s.allocStatus n.val v = 0) :
    (s.viaWrite via (oTenantPaddockRequest n.val) v).mem.allocs = s.mem.allocs ∧
      (∀ g, (s.viaWrite via (oTenantPaddockRequest n.val) v).granuleOwner g =
        if g ∈ (s.allocMap n.val v).flatten then n.val else s.granuleOwner g) ∧
      ∃ seq, (s.viaWrite via (oTenantPaddockRequest n.val) v).mem.delayed = s.mem.delayed ++ [s.allocRequest n.val v seq] := by
  have ht := State.viaWrite_effect h
  rw [State.applyEffect_paddockRequest, if_neg hop] at ht
  generalize (s.counted (oTenantPaddockRequest n.val)).dict.seq (oTenantPaddockRequest n.val) = seq at ht
  have hpass := State.paddockAllocate_passed (s := s.counted (oTenantPaddockRequest n.val)) (by rwa [State.allocStatus_counted]) seq
  rw [State.allocMap_counted, State.allocRequest_counted] at hpass
  refine ⟨?_, fun g => ?_, seq, ?_⟩
  · rw [ht.allocs, hpass.mem, State.addDelayed_allocs, State.ownGranules_allocs, State.counted_mem]
  · rw [ht.granuleOwner, hpass.granuleOwner, State.addDelayed_granuleOwner, State.granuleOwner_ownGranules, State.granuleOwner_counted]
  · rw [ht.delayed, hpass.mem, State.addDelayed_delayed, State.ownGranules_delayed, State.counted_mem]

end

/-- A granule zeroed. -/
def MemGroup.zeroGranule (m : MemGroup) (g : Nat) : MemGroup := m.zero (paddockKey g 0) (paddockKey g 0 + 2 ^ 20)

/-- Whether a byte is one of a granule. -/
def granuleHolds (g k : Nat) : Bool := decide ¬ (k < paddockKey g 0 ∨ paddockKey g 0 + 2 ^ 20 ≤ k)

theorem granuleHolds_iff {g k : Nat} : granuleHolds g k = true ↔ ∃ off < 2 ^ 20, k = paddockKey g off := by
  rw [granuleHolds, decide_eq_true_eq]
  unfold paddockKey
  exact ⟨fun h => ⟨k - (2 ^ 60 + g * 2 ^ 20), by omega, by omega⟩, fun ⟨off, hoff, hk⟩ => by omega⟩

theorem MemGroup.read_zeroGranule (m : MemGroup) (g k : Nat) : (m.zeroGranule g).read k = if granuleHolds g k then 0 else m.read k := by
  simp only [MemGroup.zeroGranule, MemGroup.read_zero, granuleHolds, decide_eq_true_eq, ite_not]

/-- Zeroing granules reads as zero in each of them and as before elsewhere. -/
theorem MemGroup.read_foldl_zeroGranule (l : List Nat) (m : MemGroup) (k : Nat) :
    (l.foldl MemGroup.zeroGranule m).read k = if l.any (granuleHolds · k) then 0 else m.read k := by
  induction l generalizing m with
  | nil => rfl
  | cons g rest ih =>
    rw [List.foldl_cons, ih, MemGroup.read_zeroGranule, List.any_cons]
    cases granuleHolds g k <;> simp

/-- It changes neither the owners nor the allocations. -/
theorem MemGroup.foldl_zeroGranule_owners (l : List Nat) (m : MemGroup) :
    (l.foldl MemGroup.zeroGranule m).granOwner = m.granOwner ∧ (l.foldl MemGroup.zeroGranule m).allocs = m.allocs := by
  induction l generalizing m with
  | nil => exact ⟨rfl, rfl⟩
  | cons g rest ih => exact ih (m.zeroGranule g)

section
variable {s : State} {t : Nat} {q : DelayedReq}

/-- An allocation whose granules are zeroed and whose slots are mapped (R99). -/
def State.mapped (s : State) (t : Nat) (a : Alloc) : State :=
  s.withMem { a.map.flatten.foldl MemGroup.zeroGranule s.mem with
    allocs := Store.set [] (a.map.flatten.foldl MemGroup.zeroGranule s.mem).allocs t
      (Store.get [] (a.map.flatten.foldl MemGroup.zeroGranule s.mem).allocs t ++ [a]) }

theorem State.granulesHeld_mapped (s : State) (t : Nat) (a : Alloc) (u : Nat) : (s.mapped t a).granulesHeld u = s.granulesHeld u :=
  congrArg (fun m => owned m (fun _ o => o == u)) (MemGroup.foldl_zeroGranule_owners a.map.flatten s.mem).1

/-- The state an allocation's result is given in: with a map, its slots are mapped. -/
def State.withMap (s : State) (t : Nat) (a : Option Alloc) : State := a.elim s (s.mapped t)

theorem State.granulesHeld_withMap (s : State) (t : Nat) (a : Option Alloc) (u : Nat) : (s.withMap t a).granulesHeld u = s.granulesHeld u := by
  cases a with
  | none => rfl
  | some a => exact s.granulesHeld_mapped t a u

theorem State.paddockAllocated_eq (hdue : s.dueOf (oTenantPaddockRequest t) = some q) (hop : padOp q.value ≠ 2) :
    s.paddockAllocated t = (s.withMap t q.alloc).giveResult (oTenantPaddockResult t) (padResult q.status (s.granulesHeld t) q.seq) q := by
  unfold State.paddockAllocated
  rw [hdue]
  dsimp -zeta only
  rw [if_neg hop]
  extract_lets s1
  have hs1 : s1 = s.withMap t q.alloc := by
    unfold s1
    cases q.alloc <;> rfl
  rw [hs1, State.granulesHeld_withMap]

theorem State.waitingMsgs_withMap (s : State) (t : Nat) (a : Option Alloc) : (s.withMap t a).dict.waitingMsgs = s.dict.waitingMsgs := by
  cases a <;> rfl

/-- The row, where the result is due and no message waits for it. -/
theorem exec_paddockAllocateResult_due {n : Fin 1024} (hdue : s.dueOf (oTenantPaddockRequest n.val) = some q) (hop : padOp q.value ≠ 2)
    (hwait : s.dict.waitingMsgs = []) : exec (.paddockAllocateResult n) s =
      .next ((s.withMap n.val q.alloc).giveResult (oTenantPaddockResult n.val) (padResult q.status (s.granulesHeld n.val) q.seq) q) := by
  rw [exec_paddockAllocateResult, State.paddockAllocated_eq hdue hop, State.wakeMsgs_of_none]
  rw [State.giveResult_waitingMsgs, State.waitingMsgs_withMap, hwait]

/-- A tenant's allocations with one more mapped. -/
theorem State.allocs_mapped (s : State) (t : Nat) (a : Alloc) : Store.get [] (s.mapped t a).mem.allocs t = Store.get [] s.mem.allocs t ++ [a] := by
  rw [← (MemGroup.foldl_zeroGranule_owners a.map.flatten s.mem).2]
  exact Store.get_set_self [] _ t _

theorem State.read_mapped (s : State) (t : Nat) (a : Alloc) (k : Nat) :
    (s.mapped t a).mem.read k = if a.map.flatten.any (granuleHolds · k) then 0 else s.mem.read k :=
  MemGroup.read_foldl_zeroGranule a.map.flatten s.mem k

theorem State.read_mapped_in (t : Nat) {a : Alloc} {g off : Nat} (hg : g ∈ a.map.flatten) (hoff : off < 2 ^ 20) :
    (s.mapped t a).mem.read (paddockKey g off) = 0 := by
  rw [State.read_mapped, if_pos]
  exact List.any_eq_true.mpr ⟨g, hg, granuleHolds_iff.mpr ⟨off, hoff, rfl⟩⟩

theorem State.read_mapped_out (t : Nat) {a : Alloc} {k : Nat} (hk : ∀ g off, g ∈ a.map.flatten → off < 2 ^ 20 → k ≠ paddockKey g off) :
    (s.mapped t a).mem.read k = s.mem.read k := by
  rw [State.read_mapped, if_neg]
  intro hany
  obtain ⟨g, hg, hin⟩ := List.any_eq_true.mp hany
  obtain ⟨off, hoff, rfl⟩ := granuleHolds_iff.mp hin
  exact hk g off hg hoff rfl

end

/-! ## Frees (R98) -/

section
variable {s : State} {t v : Nat} {a : Alloc} {q : DelayedReq}

/-- A free of an allocation that is there: its slots are gone, and its result waits for the commands that have begun. -/
theorem State.paddockFree_eq (hfields : padFieldsOk [] v = true)
    (hfind : (Store.get [] s.mem.allocs t).find? (fun a => a.base == padBase v && a.count == padCount v) = some a) (seq : Nat) :
    s.paddockFree t v seq =
      ((s.withMem { s.mem with allocs := Store.set [] s.mem.allocs t ((Store.get [] s.mem.allocs t).erase a) }).addDelayed
        ⟨oTenantPaddockRequest t, v, seq, 0, s.begunIds (some t), some a⟩).goneFor (some t) := by
  unfold State.paddockFree
  dsimp only
  rw [if_neg (by simp [hfields]), hfind]

/-- A granule that has lost no line goes back to the pool. -/
theorem State.foldl_releaseGranule (hsound : s.mem.suspectGranules = []) (l : List Nat) :
    l.foldl State.releaseGranule s = s.ownGranules l ownerFree := by
  rw [← State.foldl_setGranule]
  induction l generalizing s with
  | nil => rfl
  | cons g rest ih =>
    have hone : s.releaseGranule g = s.setGranule g ownerFree := if_neg (by simp [hsound])
    rw [List.foldl_cons, List.foldl_cons, hone]
    exact ih hsound

/-- The state a free's result is given in: with an allocation, its granules are free. -/
def State.withoutMap (s : State) (a : Option Alloc) : State := a.elim s (fun a => a.map.flatten.foldl State.releaseGranule s)

theorem State.withoutMap_none (s : State) : s.withoutMap none = s := rfl

/-- Freeing what is sound changes the owners of granules alone. -/
theorem State.withoutMap_sound (hsound : s.mem.suspectGranules = []) (a : Alloc) :
    s.withoutMap (some a) = s.ownGranules a.map.flatten ownerFree := State.foldl_releaseGranule hsound _

/-- The result record of a free that is done. -/
def State.freeResult (s : State) (t : Nat) (q : DelayedReq) : Nat := padResult q.status ((s.withoutMap q.alloc).granulesHeld t) q.seq

/-- A free's result that waits for no command: what follows it is what reports of memory say. -/
theorem State.paddockFreed_done (hdue : s.dueOf (oTenantPaddockRequest t) = some q) (hop : padOp q.value = 2)
    (hdone : q.waitFor.any s.holdsResult = false) :
    ((s.withoutMap q.alloc).giveResult (oTenantPaddockResult t) (s.freeResult t q) q).ObjectsOnly reportsMemory (s.paddockFreed t) := by
  unfold State.paddockFreed
  rw [hdue]
  dsimp -zeta only
  rw [if_neg (by simp [hop, hdone])]
  extract_lets s1
  have hs1 : s1 = s.withoutMap q.alloc := by
    unfold s1
    cases q.alloc <;> rfl
  rw [hs1]
  exact State.objectsOnly_syncMemory _ t

theorem State.paddockFreed_waiting (hdue : s.dueOf (oTenantPaddockRequest t) = some q) (hheld : q.waitFor.any s.holdsResult = true) :
    s.paddockFreed t = s := by
  unfold State.paddockFreed
  rw [hdue]
  exact if_pos (.inr hheld)

/-- The row, where the result is due, no command holds it back and no message waits for it. -/
theorem exec_paddockFreeResult_due {n : Fin 1024} (hdue : s.dueOf (oTenantPaddockRequest n.val) = some q) (hop : padOp q.value = 2)
    (hdone : q.waitFor.any s.holdsResult = false) (hwait : (s.withoutMap q.alloc).dict.waitingMsgs = []) :
    exec (.paddockFreeResult n) s = .next (s.paddockFreed n.val) := by
  have hr := State.paddockFreed_done hdue hop hdone
  rw [exec_paddockFreeResult, State.wakeMsgs_of_none]
  rw [hr.waitingMsgs, State.giveResult_waitingMsgs, hwait]

/-- A free that is done and whose request failed: nothing but the result. -/
theorem State.paddockFreed_none (hdue : s.dueOf (oTenantPaddockRequest t) = some q) (hop : padOp q.value = 2)
    (hdone : q.waitFor.any s.holdsResult = false) (ha : q.alloc = none) :
    (s.paddockFreed t).obj (oTenantPaddockResult t) = padResult q.status (s.granulesHeld t) q.seq ∧
      (s.paddockFreed t).mem.delayed = s.mem.delayed.erase q ∧ (s.paddockFreed t).exec = s.exec := by
  have hr := State.paddockFreed_done hdue hop hdone
  rw [State.freeResult, ha, State.withoutMap_none] at hr
  refine ⟨?_, ?_, ?_⟩
  · rw [hr.obj _ (not_reportsMemory_paddockResult t), State.giveResult_obj]
  · rw [hr.mem, State.giveResult_mem]
  · rw [hr.exec, State.giveResult_exec]

/-- One whose granules have lost no line: they are free. -/
theorem State.paddockFreed_some (hdue : s.dueOf (oTenantPaddockRequest t) = some q) (hop : padOp q.value = 2)
    (hdone : q.waitFor.any s.holdsResult = false) (ha : q.alloc = some a) (hsound : s.mem.suspectGranules = []) :
    (∀ g, (s.paddockFreed t).granuleOwner g = if g ∈ a.map.flatten then ownerFree else s.granuleOwner g) ∧ (s.paddockFreed t).exec = s.exec := by
  have hr := State.paddockFreed_done hdue hop hdone
  rw [ha, State.withoutMap_sound hsound] at hr
  refine ⟨fun g => ?_, ?_⟩
  · rw [hr.granuleOwner, State.giveResult_granuleOwner, State.granuleOwner_ownGranules]
  · rw [hr.exec, State.giveResult_exec, State.ownGranules_exec]

end

section
variable {s : State} {via : Via} {r v : Nat} {n : Fin 1024} {a : Alloc}

/-- What a free that is taken leaves of allocations, owners and requests. -/
theorem State.viaWrite_paddockFree (h : s.takesWrite via r (oTenantPaddockRequest n.val) v) (hop : padOp v = 2) (hfields : padFieldsOk [] v = true)
    (hfind : (Store.get [] s.mem.allocs n.val).find? (fun a => a.base == padBase v && a.count == padCount v) = some a) :
    Store.get [] (s.viaWrite via (oTenantPaddockRequest n.val) v).mem.allocs n.val = (Store.get [] s.mem.allocs n.val).erase a ∧
      (s.viaWrite via (oTenantPaddockRequest n.val) v).mem.granOwner = s.mem.granOwner ∧
      ∃ seq, (s.viaWrite via (oTenantPaddockRequest n.val) v).mem.delayed =
        s.mem.delayed ++ [⟨oTenantPaddockRequest n.val, v, seq, 0, s.begunIds (some n.val), some a⟩] := by
  have ht := State.viaWrite_effect h
  rw [State.applyEffect_paddockRequest, if_pos hop, State.paddockFree_eq hfields (by rwa [State.counted_mem]), State.counted_mem,
    State.begunIds_counted] at ht
  generalize (s.counted (oTenantPaddockRequest n.val)).dict.seq (oTenantPaddockRequest n.val) = seq at ht
  refine ⟨?_, ?_, seq, ?_⟩
  · rw [ht.allocs, State.goneFor_mem, State.addDelayed_allocs, State.withMem_mem, Store.get_set_self]
  · rw [ht.granOwner, State.goneFor_mem, State.addDelayed_granOwner, State.withMem_mem]
  · rw [ht.delayed, State.goneFor_mem, State.addDelayed_delayed, State.withMem_mem]

end

/-- Settles O28, clause by clause: a request by what its write leaves, a result by its row's own lemma. -/
theorem paddockRequestsAndResults : Obligations.PaddockRequestsAndResults := by
  unfold Obligations.PaddockRequestsAndResults
  refine ⟨fun s via r n v h hop hst => ⟨_, exec_paddockAllocate via n hop s, ?_⟩, fun s via r n v h hop hst => ⟨_, exec_paddockAllocate via n hop s, ?_⟩,
    fun s n q a hdue hop ha hwait => ⟨_, exec_paddockAllocateResult_due hdue hop hwait, ?_⟩,
    fun s n q hdue hop ha hwait => ⟨_, exec_paddockAllocateResult_due hdue hop hwait, ?_⟩,
    fun s via r n v a h hop hfields hfind => ⟨_, exec_paddockFree via n hop s, ?_⟩, fun s n q hdue hop hheld hwait => ?_,
    fun s n q hdue hop hdone ha hwait => ⟨_, exec_paddockFreeResult_due hdue hop hdone (by rwa [ha]), State.paddockFreed_none hdue hop hdone ha⟩,
    fun s n q a hdue hop hnone ha hsound hwait => ?_⟩
  · obtain ⟨seq, ht⟩ := State.viaWrite_paddockAllocate_failed h hop hst
    exact ⟨ht.granOwner, ht.allocs, _, ht.delayed, rfl, rfl, rfl⟩
  · obtain ⟨hallocs, howner, seq, hdelayed⟩ := State.viaWrite_paddockAllocate_passed h hop hst
    exact ⟨hallocs, fun g hg => (howner g).trans (if_pos hg), fun g hg => (howner g).trans (if_neg hg), _, hdelayed, rfl, rfl, rfl⟩
  · rw [ha]
    exact ⟨s.allocs_mapped n.val a, fun g off hg hoff => State.read_mapped_in n.val hg hoff, fun k hk => State.read_mapped_out n.val hk,
      State.giveResult_obj _ _ _ _, State.giveResult_seq _ _ _ _, rfl⟩
  · rw [ha]
    exact ⟨rfl, State.giveResult_obj _ _ _ _, rfl⟩
  · obtain ⟨hallocs, howner, seq, hdelayed⟩ := State.viaWrite_paddockFree h hop hfields hfind
    exact ⟨hallocs, howner, _, hdelayed, rfl, rfl⟩
  · rw [exec_paddockFreeResult, State.paddockFreed_waiting hdue hheld, State.wakeMsgs_of_none hwait]
  · have hdone : q.waitFor.any s.holdsResult = false := by rw [hnone, List.any_nil]
    obtain ⟨howner, hexec⟩ := State.paddockFreed_some hdue hop hdone ha hsound
    refine ⟨_, exec_paddockFreeResult_due hdue hop hdone ?_, fun g hg => (howner g).trans (if_pos hg), fun g hg => (howner g).trans (if_neg hg), hexec⟩
    rw [ha, State.withoutMap_sound hsound, State.ownGranules_waitingMsgs, hwait]

end Sys2Proof.Machine

/-! SUPPORT. HBM frame requests and translation invalidation, and the statement about them. -/

namespace Sys2Proof.Machine

/-! ## The rows -/

theorem exec_hbmFrameAssign (via : Via) {v : Nat} (h : frOp v ≠ 2) (s : State) :
    exec (.hbmFrameAssign via v) s = .next (s.viaWrite via oHbmFrameRequest v) := congrArg _ (if_neg h)

theorem exec_hbmFrameRelease (via : Via) {v : Nat} (h : frOp v = 2) (s : State) :
    exec (.hbmFrameRelease via v) s = .next (s.viaWrite via oHbmFrameRequest v) := congrArg _ (if_pos h)

theorem exec_hbmFrameAssignResult (s : State) : exec .hbmFrameAssignResult s = .next s.framesAssigned.wakeMsgs := rfl
theorem exec_hbmFrameReleaseResult (s : State) : exec .hbmFrameReleaseResult s = .next s.framesReleased.wakeMsgs := rfl

theorem exec_tenantTlbInvalidate (via : Via) (n : Fin 1024) (v : Nat) (s : State) :
    exec (.tenantTlbInvalidate via n v) s = .next (s.viaWrite via (oTenantTlbInvalidate n.val) v) := rfl

theorem exec_tlbInvalidateComplete (n : Fin 1024) (s : State) : exec (.tlbInvalidateComplete n) s = .next (s.tlbInvalidated n.val) := rfl

/-! ## Requests (R101) -/

theorem mem_frRange {v f : Nat} : f ∈ frRange v ↔ frFirst v ≤ f ∧ f < frFirst v + frCount v := by
  rw [frRange, List.mem_map]
  constructor
  · rintro ⟨i, hi, rfl⟩
    rw [List.mem_range] at hi
    omega
  · intro h
    exact ⟨f - frFirst v, List.mem_range.mpr (by omega), by omega⟩

/-- The owner of each frame once a request's range has another. -/
theorem State.frameOwner_ownRange (s : State) (v o f : Nat) :
    Store.get ownerFree (s.ownFrames (frRange v) o).mem.frameOwner f =
      if frFirst v ≤ f ∧ f < frFirst v + frCount v then o else Store.get ownerFree s.mem.frameOwner f := by
  simp only [State.frameOwner_ownFrames, mem_frRange]

theorem State.applyEffect_frameRequest (s : State) (r v seq : Nat) (f : State → List Byte → State) :
    s.applyEffect r oHbmFrameRequest v seq f = s.frameRequest v seq := rfl

@[simp] theorem State.frameStatus_counted (s : State) (key v : Nat) : (s.counted key).frameStatus v = s.frameStatus v := rfl

/-- A release leaves what it takes away from pre-empted commands with their tenants; an assignment takes nothing away. -/
theorem State.beforeRequest_eq (s : State) (v : Nat) (t : Option Nat) :
    (if s.frameStatus v = 0 ∧ frOp v = 2 then s.goneFor t else s).mem = s.mem ∧
      (if s.frameStatus v = 0 ∧ frOp v = 2 then s.goneFor t else s).exec = s.exec := by
  split
  · exact ⟨s.goneFor_mem t, s.goneFor_exec t⟩
  · exact ⟨rfl, rfl⟩

/-- A request that passes its checks: its frames are nobody's, and its result is due (R101, R106). -/
theorem State.frameRequest_passed {s : State} {v : Nat} (h : s.frameStatus v = 0) (seq : Nat) :
    (∀ f, Store.get ownerFree (s.frameRequest v seq).mem.frameOwner f =
      if frFirst v ≤ f ∧ f < frFirst v + frCount v then ownerLeaving else Store.get ownerFree s.mem.frameOwner f) ∧
      (∃ q : DelayedReq, (s.frameRequest v seq).mem.delayed = s.mem.delayed ++ [q] ∧ q.obj = oHbmFrameRequest ∧ q.status = 0) ∧
      (s.frameRequest v seq).exec = s.exec := by
  unfold State.frameRequest
  extract_lets st o who wait s0 s1
  obtain ⟨hmem, hexec⟩ : s0.mem = s.mem ∧ s0.exec = s.exec := s.beforeRequest_eq v who
  have hs1 : s1 = s0.ownFrames (frRange v) ownerLeaving := (if_neg (not_not_intro h)).trans (State.foldl_setFrame _ _ _)
  have hsync := State.objectsOnly_syncMemory (s1.addDelayed ⟨oHbmFrameRequest, v, seq, st, wait, none⟩) o
  rw [hsync.mem, hsync.exec, hs1]
  refine ⟨fun f => ?_, ⟨⟨oHbmFrameRequest, v, seq, st, wait, none⟩, ?_, rfl, h⟩, ?_⟩
  · rw [State.addDelayed_frameOwner, State.frameOwner_ownRange, hmem]
  · rw [State.addDelayed_delayed, State.ownFrames_delayed, hmem]
  · rw [State.addDelayed_exec, State.ownFrames_exec, hexec]

/-- The same of the write that asks for it. -/
theorem State.viaWrite_frameRequest {s : State} {via : Via} {r v : Nat} (h : s.takesWrite via r oHbmFrameRequest v) (hst : s.frameStatus v = 0) :
    (∀ f, Store.get ownerFree (s.viaWrite via oHbmFrameRequest v).mem.frameOwner f =
      if frFirst v ≤ f ∧ f < frFirst v + frCount v then ownerLeaving else Store.get ownerFree s.mem.frameOwner f) ∧
      (∃ q : DelayedReq, (s.viaWrite via oHbmFrameRequest v).mem.delayed = s.mem.delayed ++ [q] ∧ q.obj = oHbmFrameRequest ∧ q.status = 0) ∧
      (s.viaWrite via oHbmFrameRequest v).exec = s.exec := by
  have ht := State.viaWrite_effect h
  rw [State.applyEffect_frameRequest] at ht
  rw [ht.frameOwner, ht.delayed, ht.exec]
  exact State.frameRequest_passed (s := s.counted oHbmFrameRequest) (by rwa [State.frameStatus_counted]) _

/-! ## Results (R101, R106) -/

@[simp] theorem State.giveResult_read (s : State) (res v : Nat) (q : DelayedReq) (k : Nat) :
    (s.giveResult res v q).mem.read k = s.mem.read k := rfl
@[simp] theorem State.giveResult_frameOwner (s : State) (res v : Nat) (q : DelayedReq) :
    (s.giveResult res v q).mem.frameOwner = s.mem.frameOwner := rfl

section
variable {s : State} {q : DelayedReq}

/-- Frames zeroed and their owner's. -/
def State.assignedFrames (s : State) (v : Nat) : State :=
  (s.withMem (s.mem.zero (frFirst v * frameBytes) (frFirst v * frameBytes + frCount v * frameBytes))).ownFrames (frRange v) (frOwner v)

/-- The state an assignment's result is given in: the frames are their owner's, where it passed. -/
def State.withFrames (s : State) (q : DelayedReq) : State := if q.status = 0 then s.assignedFrames q.value else s

theorem State.waitingMsgs_withFrames (s : State) (q : DelayedReq) : (s.withFrames q).dict.waitingMsgs = s.dict.waitingMsgs := by
  unfold State.withFrames
  split <;> rfl

/-- The result record of an assignment. -/
def State.assignResult (s : State) (q : DelayedReq) : Nat := frResult q.status ((s.withFrames q).framesHeld (frOwner q.value)) q.seq

/-- An assignment's result: what follows it is what reports of memory say. -/
theorem State.framesAssigned_due (hdue : s.dueOf oHbmFrameRequest = some q) (hop : frOp q.value ≠ 2) :
    ((s.withFrames q).giveResult oHbmFrameResult (s.assignResult q) q).ObjectsOnly reportsMemory s.framesAssigned := by
  unfold State.framesAssigned
  rw [hdue]
  dsimp -zeta only
  rw [if_neg hop]
  extract_lets lo o s1
  have hs1 : s1 = s.withFrames q := by
    unfold s1 State.withFrames State.assignedFrames
    rw [State.foldl_setFrame]
  rw [hs1]
  exact State.objectsOnly_syncMemory _ o

/-- The row, where the result is due and no message waits for it. -/
theorem exec_hbmFrameAssignResult_due (hdue : s.dueOf oHbmFrameRequest = some q) (hop : frOp q.value ≠ 2) (hwait : s.dict.waitingMsgs = []) :
    exec .hbmFrameAssignResult s = .next s.framesAssigned := by
  have hr := State.framesAssigned_due hdue hop
  rw [exec_hbmFrameAssignResult, State.wakeMsgs_of_none]
  rw [hr.waitingMsgs, State.giveResult_waitingMsgs, State.waitingMsgs_withFrames, hwait]

/-- An assignment that failed: nothing but the result. -/
theorem State.framesAssigned_failed (hdue : s.dueOf oHbmFrameRequest = some q) (hop : frOp q.value ≠ 2) (hst : q.status ≠ 0) :
    s.framesAssigned.mem = { s.mem with delayed := s.mem.delayed.erase q } ∧
      s.framesAssigned.obj oHbmFrameResult = frResult q.status (s.framesHeld (frOwner q.value)) q.seq ∧ s.framesAssigned.exec = s.exec := by
  have hr := State.framesAssigned_due hdue hop
  rw [State.assignResult, State.withFrames, if_neg hst] at hr
  refine ⟨?_, ?_, ?_⟩
  · rw [hr.mem, State.giveResult_mem]
  · rw [hr.obj _ not_reportsMemory_frameResult, State.giveResult_obj]
  · rw [hr.exec, State.giveResult_exec]

theorem State.read_assignedFrames (s : State) (v k : Nat) :
    (s.assignedFrames v).mem.read k = if frFirst v * frameBytes ≤ k ∧ k < (frFirst v + frCount v) * frameBytes then 0 else s.mem.read k := by
  have hrange : ¬ (k < frFirst v * frameBytes ∨ frFirst v * frameBytes + frCount v * frameBytes ≤ k) ↔
      frFirst v * frameBytes ≤ k ∧ k < (frFirst v + frCount v) * frameBytes := by
    rw [Nat.add_mul]
    omega
  rw [State.assignedFrames, State.ownFrames_read, State.withMem_mem, MemGroup.read_zero, ← ite_not]
  exact if_congr hrange rfl rfl

/-- One that passed: the frames read zero and are their owner's. -/
theorem State.framesAssigned_passed (hdue : s.dueOf oHbmFrameRequest = some q) (hop : frOp q.value ≠ 2) (hst : q.status = 0) :
    (∀ k, s.framesAssigned.mem.read k =
      if frFirst q.value * frameBytes ≤ k ∧ k < (frFirst q.value + frCount q.value) * frameBytes then 0 else s.mem.read k) ∧
      (∀ f, Store.get ownerFree s.framesAssigned.mem.frameOwner f =
        if frFirst q.value ≤ f ∧ f < frFirst q.value + frCount q.value then frOwner q.value else Store.get ownerFree s.mem.frameOwner f) ∧
      s.framesAssigned.obj oHbmFrameResult = frResult 0 (s.framesAssigned.framesHeld (frOwner q.value)) q.seq ∧
      s.framesAssigned.dict.seq oHbmFrameResult = q.seq ∧ s.framesAssigned.exec = s.exec := by
  have hr := State.framesAssigned_due hdue hop
  rw [State.assignResult, State.withFrames, if_pos hst, hst] at hr
  refine ⟨fun k => ?_, fun f => ?_, ?_, ?_, ?_⟩
  · rw [hr.mem, State.giveResult_read, State.read_assignedFrames]
  · rw [hr.mem, State.giveResult_frameOwner, State.assignedFrames, State.frameOwner_ownRange, State.withMem_mem]
    rfl
  · rw [hr.obj _ not_reportsMemory_frameResult, State.giveResult_obj, hr.framesHeld, State.giveResult_framesHeld]
  · rw [hr.seq, State.giveResult_seq]
  · rw [hr.exec, State.giveResult_exec, State.assignedFrames, State.ownFrames_exec, State.withMem_exec]

/-- A frame that has lost no line is free again (R112). -/
theorem State.foldl_releaseFrame (hsound : s.mem.suspectFrames = []) (l : List Nat) : l.foldl State.releaseFrame s = s.ownFrames l ownerFree := by
  rw [← State.foldl_setFrame]
  induction l generalizing s with
  | nil => rfl
  | cons f rest ih =>
    have hone : s.releaseFrame f = s.setFrame f ownerFree := if_neg (by simp [hsound])
    rw [List.foldl_cons, List.foldl_cons, hone]
    exact ih hsound

theorem State.framesReleased_waiting (hdue : s.dueOf oHbmFrameRequest = some q) (hheld : q.waitFor.any s.holdsResult = true) :
    s.framesReleased = s := by
  unfold State.framesReleased
  rw [hdue]
  exact if_pos (.inr hheld)

/-- A release of sound frames that waits for no command: they are free; the rest is its result and what reports of memory say. -/
theorem State.framesReleased_done (hdue : s.dueOf oHbmFrameRequest = some q) (hop : frOp q.value = 2) (hst : q.status = 0)
    (hdone : q.waitFor.any s.holdsResult = false) (hsound : s.mem.suspectFrames = []) :
    ∃ res, ((s.ownFrames (frRange q.value) ownerFree).giveResult oHbmFrameResult res q).ObjectsOnly reportsMemory s.framesReleased := by
  unfold State.framesReleased
  rw [hdue]
  dsimp -zeta only
  rw [if_neg (by simp [hop, hdone])]
  extract_lets s1
  have hs1 : s1 = s.ownFrames (frRange q.value) ownerFree := (if_pos hst).trans (State.foldl_releaseFrame hsound _)
  rw [hs1]
  exact ⟨_, State.objectsOnly_syncMemory _ _⟩

end

/-! ## Translations (R105) -/

theorem State.applyEffect_tlbInvalidate (s : State) (r : Nat) (n : Fin 1024) (v seq : Nat) (f : State → List Byte → State) :
    s.applyEffect r (oTenantTlbInvalidate n.val) v seq f = s.tlbInvalidate n.val v seq :=
  s.applyEffect_tenant r v seq n (by decide) f

theorem State.tlbInvalidated_eq {s : State} {t : Nat} {q : DelayedReq} (hdue : s.dueOf (oTenantTlbInvalidate t) = some q) :
    s.tlbInvalidated t =
      if q.waitFor.any s.holdsResult = true then s else s.withMem { s.mem with delayed := s.mem.delayed.erase q } := by
  unfold State.tlbInvalidated
  rw [hdue]

/-- Settles O29, clause by clause: a request by what its write leaves, a result by its row's own lemma. -/
theorem frameRequestsAndResults : Obligations.FrameRequestsAndResults := by
  unfold Obligations.FrameRequestsAndResults
  refine ⟨fun s via r v h hop hst => ⟨_, exec_hbmFrameAssign via hop s, State.viaWrite_frameRequest h hst⟩,
    fun s via r v h hop hst => ⟨_, exec_hbmFrameRelease via hop s, State.viaWrite_frameRequest h hst⟩,
    fun s q hdue hop hst hwait => ⟨_, exec_hbmFrameAssignResult_due hdue hop hwait, State.framesAssigned_passed hdue hop hst⟩,
    fun s q hdue hop hst hwait => ⟨_, exec_hbmFrameAssignResult_due hdue hop hwait, State.framesAssigned_failed hdue hop hst⟩,
    fun s q hdue hop hheld hwait => ?_, fun s q hdue hop hst hnone hsound hwait => ⟨_, exec_hbmFrameReleaseResult s, ?_⟩,
    fun s via r n v h => ⟨_, exec_tenantTlbInvalidate via n v s, ?_⟩, fun s n q hdue => ?_⟩
  · rw [exec_hbmFrameReleaseResult, State.framesReleased_waiting hdue hheld, State.wakeMsgs_of_none hwait]
  · obtain ⟨res, hr⟩ := State.framesReleased_done hdue hop hst (by rw [hnone, List.any_nil]) hsound
    rw [State.wakeMsgs_of_none (by rw [hr.waitingMsgs, State.giveResult_waitingMsgs, State.ownFrames_waitingMsgs, hwait])]
    refine ⟨fun f => ?_, ?_⟩
    · rw [hr.mem, State.giveResult_frameOwner, State.frameOwner_ownRange]
    · rw [hr.exec, State.giveResult_exec, State.ownFrames_exec]
  · have ht := State.viaWrite_effect h
    rw [State.applyEffect_tlbInvalidate, State.tlbInvalidate, State.begunIds_counted] at ht
    refine ⟨⟨_, ht.delayed, rfl⟩, ?_, ?_⟩
    · rw [ht.exec, State.addDelayed_exec, State.counted_exec]
    · rw [ht.queues, State.addDelayed_queues, State.counted_queues]
  · rw [exec_tlbInvalidateComplete, State.tlbInvalidated_eq hdue]

end Sys2Proof.Machine

/-! SUPPORT. The doorbells, the event queue's registers and the interrupt delay, and the statements about them. -/

namespace Sys2Proof.Machine

/-! ## Bits -/

theorem bit_eq_testBit (x i : Nat) : bit x i = x.testBit i := by
  simp [bit, Nat.testBit, Nat.one_and_eq_mod_two]

/-- Halving a number less the bits of a mask halves both. -/
theorem sub_and_div_two (n v : Nat) : (n - (n &&& v)) / 2 = n / 2 - (n / 2 &&& v / 2) := by
  have hhalf : (n &&& v) / 2 = n / 2 &&& v / 2 := Nat.and_div_two
  have hlow : (n &&& v) % 2 = 1 → n % 2 = 1 := fun h => (Nat.and_mod_two_eq_one.mp h).1
  omega

/-- Subtracting the bits two numbers share clears them (R146). -/
theorem testBit_sub_and (n v i : Nat) : (n - (n &&& v)).testBit i = (n.testBit i && !v.testBit i) := by
  induction i generalizing n v with
  | zero =>
    have hle : n &&& v ≤ n := Nat.and_le_left
    have hlow : (n &&& v) % 2 = 1 ↔ n % 2 = 1 ∧ v % 2 = 1 := Nat.and_mod_two_eq_one
    rw [Nat.testBit_zero, Nat.testBit_zero, Nat.testBit_zero, ← decide_not, ← Bool.decide_and, decide_eq_decide]
    omega
  | succ i ih => rw [Nat.testBit_succ, Nat.testBit_succ, Nat.testBit_succ, sub_and_div_two, ih]

theorem bit_sub_and (n v i : Nat) : bit (n - (n &&& v)) i = (bit n i && !bit v i) := by
  simp only [bit_eq_testBit, testBit_sub_and]

theorem bit_and (x m i : Nat) : bit (x &&& m) i = (bit x i && bit m i) := by
  simp only [bit_eq_testBit, Nat.testBit_and]

theorem bits_and (x m lo w : Nat) : bits (x &&& m) lo w = bits x lo w &&& bits m lo w := by
  rw [bits, bits, bits, Nat.shiftRight_and_distrib, Nat.and_mod_two_pow]

/-! ## TENANT_EVENTS and the interrupt delay -/

theorem exec_tenantEventsClear (f : Fin 256) (n : Fin 1024) (v : Nat) (s : State) :
    exec (.tenantEventsClear f n v) s = .next (s.tenantEventsClear f.val n.val v) := rfl

/-- Settles O7: the bits written as 1 are subtracted where they are set. -/
theorem tenantEventsClearBits : Obligations.TenantEventsClearBits := by
  unfold Obligations.TenantEventsClearBits
  intro s f n v h
  refine ⟨_, exec_tenantEventsClear f n v s, ?_⟩
  rw [State.tenantEventsClear, h]
  refine ⟨fun b => ?_, fun u hu => Store.get_set_other 0 _ _ hu.symm, rfl⟩
  exact (congrArg (bit · b) (Store.get_set_self 0 _ n.val _)).trans (bit_sub_and _ v b)

theorem exec_irqDelayExpire (q : Fin 8194) (s : State) : exec (.irqDelayExpire q) s = .next (s.irqDelayExpire q.val) := rfl

/-- Settles O10: what IRQ_DELAY_EXPIRE does where the delay runs and interrupts are enabled. -/
theorem irqDelaySendsTheVector : Obligations.IrqDelaySendsTheVector := by
  unfold Obligations.IrqDelaySendsTheVector
  intro s q harmed hirq
  have hexpire : s.irqDelayExpire q.val =
      (s.setQueue q.val { s.queue q.val with sinceIrq := 0, delayArmed := false }).sendQueueVector q.val := by
    rw [State.irqDelayExpire, if_pos (by rw [harmed, hirq]; rfl)]
  have hqueue : (s.irqDelayExpire q.val).queue q.val = { s.queue q.val with sinceIrq := 0, delayArmed := false } := by
    rw [hexpire]
    exact s.queue_setQueue_self q.val _
  refine ⟨_, exec_irqDelayExpire q s, ?_, ?_, ?_, ?_⟩
  · rw [hexpire]; rfl
  · rw [hqueue]
  · rw [hqueue]
  · rw [hexpire]; rfl

/-! ## Doorbells (R122, R124) -/

theorem exec_sqTailWrite (f : Fin 256) (q : Fin 8194) (v : Nat) (s : State) :
    exec (.sqTailWrite f q v) s = .next (s.sqTailWrite f.val q.val v) := rfl

theorem exec_cqHeadWrite (f : Fin 256) (q : Fin 8194) (v : Nat) (s : State) :
    exec (.cqHeadWrite f q v) s = .next (s.cqHeadWrite f.val q.val v) := rfl

theorem State.queue_setQueue_other (s : State) {q r : Nat} (v : Queue) (h : r ≠ q) : (s.setQueue q v).queue r = s.queue r := by
  rw [State.queue_setQueue, if_neg h.symm]

/-- Moving the head of a ring forwards without wrapping consumes what lies between. -/
theorem consumed_of_le {n old new : Nat} (hle : old ≤ new) (hnew : new < n) : consumed n old new = new - old := by
  unfold consumed
  rw [show new + n - old = new - old + n by omega, Nat.add_mod_right, Nat.mod_eq_of_lt (by omega)]

section
variable {s : State} {f q v : Nat} (hlive : s.doorbellLive f q = true) (hstate : (s.queue q).state ≠ 0) (hv : v < 2 ^ 16)
include hlive hstate hv

theorem State.sqTailWrite_inRange (h : v < sqSize (s.queueCfg q)) :
    s.sqTailWrite f q v = (s.setQueue q { s.queue q with tailReg := v }).setQueue q { s.queue q with tailReg := v, sqTail := v } := by
  unfold State.sqTailWrite
  simp only [hlive, Bool.not_true, Bool.false_eq_true, if_false, Nat.mod_eq_of_lt hv, if_neg hstate, if_neg (Nat.not_le.mpr h)]

theorem State.sqTailWrite_outOfRange (h : sqSize (s.queueCfg q) ≤ v) :
    s.sqTailWrite f q v = (s.setQueue q { s.queue q with tailReg := v }).doorbellRange q v := by
  unfold State.sqTailWrite
  simp only [hlive, Bool.not_true, Bool.false_eq_true, if_false, Nat.mod_eq_of_lt hv, if_neg hstate, if_pos h]

theorem State.cqHeadWrite_inRange (h : v < cqSize (s.queueCfg q)) :
    s.cqHeadWrite f q v = (s.setQueue q { s.queue q with headReg := v }).setQueue q
      { s.queue q with headReg := v, cqHead := v, unread := (s.queue q).unread - consumed (cqSize (s.queueCfg q)) (s.queue q).cqHead v } := by
  unfold State.cqHeadWrite
  simp only [hlive, Bool.not_true, Bool.false_eq_true, if_false, Nat.mod_eq_of_lt hv, if_neg hstate, if_neg (Nat.not_le.mpr h)]

end

/-! ## Events (R144, R146) -/

theorem State.logEvent_mem (s : State) (e : EventRec) (seq : Nat) : (s.logEvent e seq).mem = s.mem := by
  unfold State.logEvent
  split <;> rfl

theorem State.logEvent_regs (s : State) (e : EventRec) (seq : Nat) : (s.logEvent e seq).regs = s.regs := by
  unfold State.logEvent
  split <;> rfl

/-- With room in the log's buffer the record joins it (R464). -/
theorem State.logEvent_room {s : State} (h : s.ostler.logBuf.length < 256) (e : EventRec) (seq : Nat) :
    ∃ r : LogRec, (s.logEvent e seq).ostler.logBuf = s.ostler.logBuf ++ [r] ∧ r.seq = seq ∧ r.ev = e := by
  refine ⟨⟨seq, e, s.free.1 % 2 ^ 64, s.obj oBootEpoch⟩, ?_, rfl, rfl⟩
  rw [State.logEvent, if_neg (Nat.not_le.mpr h)]

/-- An event with its SEQ taken and its record in the log. -/
def State.eventLogged (s : State) (e : EventRec) : State :=
  ({ s with regs := { s.regs with eventSeq := (s.regs.eventSeq + 1) % 2 ^ 32 } }).logEvent e s.regs.eventSeq

/-- And counted lost: the event queue is full or disabled. -/
def State.eventLost (s : State) (e : EventRec) : State :=
  { s.eventLogged e with regs := { (s.eventLogged e).regs with
      evqLost := satAdd 32 (s.eventLogged e).regs.evqLost 1, evqOwed := satAdd 32 (s.eventLogged e).regs.evqOwed 1 } }

/-- The event queue takes a record. -/
def RegGroup.evqRoom (r : RegGroup) : Prop := bit r.evqCtrl 8 = true ∧ r.evqCount < evqSize r

theorem State.eventLogged_mem (s : State) (e : EventRec) : (s.eventLogged e).mem = s.mem := State.logEvent_mem _ e _

theorem State.eventLogged_regs (s : State) (e : EventRec) :
    (s.eventLogged e).regs = { s.regs with eventSeq := (s.regs.eventSeq + 1) % 2 ^ 32 } := State.logEvent_regs _ e _

theorem State.eventLogged_room {s : State} (h : s.ostler.logBuf.length < 256) (e : EventRec) :
    ∃ r : LogRec, (s.eventLogged e).ostler.logBuf = s.ostler.logBuf ++ [r] ∧ r.seq = s.regs.eventSeq ∧ r.ev = e :=
  State.logEvent_room (s := { s with regs := { s.regs with eventSeq := (s.regs.eventSeq + 1) % 2 ^ 32 } }) h e s.regs.eventSeq

/-- Every event is logged, then written to the event queue or counted lost; a notification on the bus may follow, which is kept in the dictionary. -/
theorem State.event_cases (s : State) (e : EventRec) :
    ∃ u, (s.regs.evqRoom ∧ u = (s.eventLogged e).putEvent e s.regs.eventSeq ∨ ¬ s.regs.evqRoom ∧ u = s.eventLost e) ∧
      (s.event e = u ∨ ∃ b, s.event e = u.notify b) := by
  have hroom : (evqEnabled (s.eventLogged e).regs && decide ((s.eventLogged e).regs.evqCount < evqSize (s.eventLogged e).regs)) = true ↔ s.regs.evqRoom := by
    rw [State.eventLogged_regs, Bool.and_eq_true, decide_eq_true_eq]
    rfl
  refine ⟨if evqEnabled (s.eventLogged e).regs && decide ((s.eventLogged e).regs.evqCount < evqSize (s.eventLogged e).regs)
    then (s.eventLogged e).putEvent e s.regs.eventSeq else s.eventLost e, ?_, ?_⟩
  · split
    · next h => exact .inl ⟨hroom.mp h, rfl⟩
    · next h => exact .inr ⟨fun hr => h (hroom.mpr hr), rfl⟩
  · unfold State.event
    extract_lets seq r1 s1 s2 r2 s3
    split
    · exact .inr ⟨_, rfl⟩
    · exact .inl rfl

/-- What an event leaves of memory, the registers and the log, whether it is notified or not. -/
theorem State.event_fields (s : State) (e : EventRec) :
    ∃ u, (s.regs.evqRoom ∧ u = (s.eventLogged e).putEvent e s.regs.eventSeq ∨ ¬ s.regs.evqRoom ∧ u = s.eventLost e) ∧
      (s.event e).mem = u.mem ∧ (s.event e).regs = u.regs ∧ (s.event e).ostler = u.ostler := by
  obtain ⟨u, hu, h⟩ := s.event_cases e
  refine ⟨u, hu, ?_⟩
  rcases h with h | ⟨b, h⟩ <;> rw [h] <;> exact ⟨rfl, rfl, rfl⟩

/-- An event takes the next SEQ (R144). -/
theorem State.event_eventSeq (s : State) (e : EventRec) : (s.event e).regs.eventSeq = (s.regs.eventSeq + 1) % 2 ^ 32 := by
  have hlogged := congrArg RegGroup.eventSeq (s.eventLogged_regs e)
  obtain ⟨u, hu, _, hregs, _⟩ := s.event_fields e
  rw [hregs]
  rcases hu with ⟨_, rfl⟩ | ⟨_, rfl⟩ <;> exact hlogged

/-- A bit that is 0 is set by adding its weight. -/
theorem bit_add_two_pow {x b : Nat} (h : bit x b = false) : bit (x + 2 ^ b) b = true := by
  rw [bit_eq_testBit] at h ⊢
  rw [Nat.add_comm, Nat.testBit_two_pow_add_eq, h]
  rfl

/-- A tenant event latches its bit (R146). -/
theorem State.bit_tenantEvent (s : State) (t b : Nat) : bit (Store.get 0 (s.tenantEvent t b).regs.tenantEvents t) b = true := by
  unfold State.tenantEvent
  extract_lets old r u
  split
  · next h => exact h
  · next h =>
    have hset : bit (Store.get 0 u.regs.tenantEvents t) b = true :=
      (congrArg (bit · b) (Store.get_set_self 0 _ t _)).trans (bit_add_two_pow (Bool.eq_false_iff.mpr h))
    split <;> exact hset

/-- And changes no more than the latches and the interrupts sent. -/
theorem State.tenantEvent_eq (s : State) (t b : Nat) :
    ∃ latches sent, s.tenantEvent t b = { s with regs := { s.regs with tenantEvents := latches, msix := sent } } := by
  unfold State.tenantEvent
  extract_lets old r u
  split
  · exact ⟨s.regs.tenantEvents, s.regs.msix, rfl⟩
  · split <;> exact ⟨_, _, rfl⟩

theorem State.tenantEvent_mem (s : State) (t b : Nat) : (s.tenantEvent t b).mem = s.mem := by
  obtain ⟨latches, sent, h⟩ := s.tenantEvent_eq t b
  rw [h]

theorem State.tenantEvent_eventSeq (s : State) (t b : Nat) : (s.tenantEvent t b).regs.eventSeq = s.regs.eventSeq := by
  obtain ⟨latches, sent, h⟩ := s.tenantEvent_eq t b
  rw [h]

/-- A doorbell value out of range through a tenant's queue is reported, and that is all (R124). -/
theorem State.doorbellRange_spec (s : State) {q : Nat} (hq : q < 8192) (v : Nat) :
    s.ReportsOnly (s.doorbellRange q v) ∧ (s.doorbellRange q v).regs.eventSeq = (s.regs.eventSeq + 1) % 2 ^ 32 ∧
      bit (Store.get 0 (s.doorbellRange q v).regs.tenantEvents (q / 8)) 1 = true := by
  have heq : s.doorbellRange q v = (s.event ⟨0x0010, 0, 6, q, v⟩).tenantEvent (q / 8) 1 := if_pos hq
  rw [heq]
  refine ⟨(s.reportsOnly_event _).trans (State.reportsOnly_tenantEvent _ _ 1), ?_, State.bit_tenantEvent _ _ 1⟩
  rw [State.tenantEvent_eventSeq, State.event_eventSeq]

theorem State.ReportsOnly.queue {s u : State} (h : s.ReportsOnly u) (q : Nat) : u.queue q = s.queue q := by
  unfold State.queue
  rw [h.queues]

/-- Settles O6, clause by clause: a value in range moves the queue, one out of range is reported (R124). -/
theorem doorbellsMoveTailsAndHeads : Obligations.DoorbellsMoveTailsAndHeads := by
  unfold Obligations.DoorbellsMoveTailsAndHeads
  refine ⟨fun s f q v hlive hstate hv hsize => ⟨_, exec_sqTailWrite f q v s, ?_⟩, fun s f q v hlive hstate hv hsize hle hhead => ⟨_, exec_cqHeadWrite f q v s, ?_⟩,
    fun s f q v hq hlive hstate hv hsize => ⟨_, exec_sqTailWrite f q v s, ?_⟩⟩
  · rw [State.sqTailWrite_inRange hlive hstate hv hsize]
    refine ⟨State.queue_setQueue_self _ _ _, fun r hr => ?_, rfl⟩
    rw [State.queue_setQueue_other _ _ hr, State.queue_setQueue_other _ _ hr]
  · rw [State.cqHeadWrite_inRange hlive hstate hv hsize, consumed_of_le hle hsize]
    refine ⟨State.queue_setQueue_self _ _ _, fun r hr => ?_, rfl⟩
    rw [State.queue_setQueue_other _ _ hr, State.queue_setQueue_other _ _ hr]
  · rw [State.sqTailWrite_outOfRange hlive hstate hv hsize]
    obtain ⟨hkeep, hseq, hbit⟩ := (s.setQueue q.val { s.queue q.val with tailReg := v }).doorbellRange_spec hq v
    have hself := (hkeep.queue q.val).trans (State.queue_setQueue_self _ _ _)
    refine ⟨(congrArg Queue.sqTail hself :), (congrArg Queue.tailReg hself :), fun r hr => ?_, hseq, hbit, hkeep.exec, hkeep.remuda, hkeep.fabric⟩
    rw [hkeep.queue, State.queue_setQueue_other _ _ hr]

/-! ## Events lost (R144) -/

theorem exec_eventOverflowRecord (s : State) : exec .eventOverflowRecord s = .next s.overflowRecord := rfl

/-- An event the queue takes no record of is counted lost, and logged where the log's buffer has room. -/
theorem State.event_lost {s : State} (h : ¬ s.regs.evqRoom) (hlog : s.ostler.logBuf.length < 256) (e : EventRec) :
    (s.event e).mem = s.mem ∧ (s.event e).regs.evqLost = min (s.regs.evqLost + 1) (2 ^ 32 - 1) ∧
      ∃ r : LogRec, (s.event e).ostler.logBuf = s.ostler.logBuf ++ [r] ∧ r.seq = s.regs.eventSeq ∧ r.ev = e := by
  have hlost := congrArg (fun r => satAdd 32 r.evqLost 1) (s.eventLogged_regs e)
  obtain ⟨u, hu, hmem, hregs, hostler⟩ := s.event_fields e
  obtain ⟨hroom, _⟩ | ⟨_, rfl⟩ := hu
  · exact absurd hroom h
  · rw [hmem, hregs, hostler]
    exact ⟨s.eventLogged_mem e, hlost, State.eventLogged_room hlog e⟩

/-- An event the queue takes is written to its next slot. -/
theorem State.event_put {s : State} (h : s.regs.evqRoom) (e : EventRec) :
    (s.event e).mem = s.mem.store (cellsAt (hostKey 0 (s.regs.evqBaseHi * 2 ^ 32 + s.regs.evqBaseLo + 16 * s.regs.evqSlot))
        (e.bytes s.regs.evqPhase s.regs.eventSeq)) ∧
      (s.event e).regs.evqCount = s.regs.evqCount + 1 ∧ (s.event e).regs.evqOwed = s.regs.evqOwed := by
  obtain ⟨u, hu, hmem, hregs, _⟩ := s.event_fields e
  obtain ⟨_, rfl⟩ | ⟨hfull, _⟩ := hu
  · rw [hmem, hregs]
    unfold State.putEvent
    rw [State.eventLogged_mem, State.eventLogged_regs]
    exact ⟨rfl, rfl, rfl⟩
  · exact absurd h hfull

/-- Settles O11: a lost event by `event_lost`, the report of the number lost as any event that is written. -/
theorem lostEventsAreCountedAndReported : Obligations.LostEventsAreCountedAndReported := by
  unfold Obligations.LostEventsAreCountedAndReported
  refine ⟨fun s e hfull hlog => ?_, fun s howed hon hspace => ⟨_, exec_eventOverflowRecord s, ?_⟩⟩
  · have hroom : ¬ s.regs.evqRoom := by
      rintro ⟨hon, hspace⟩
      rcases hfull with hoff | hfull
      · rw [hon] at hoff
        cases hoff
      · omega
    obtain ⟨hmem, hlost, hrec⟩ := State.event_lost hroom hlog e
    exact ⟨hlost, hmem, hrec, (s.reportsOnly_event e).queues, (s.reportsOnly_event e).exec⟩
  · rw [State.overflowRecord, if_pos ⟨howed, hon, hspace⟩]
    obtain ⟨hmem, hcount, howes⟩ :=
      State.event_put (s := { s with regs := { s.regs with evqOwed := 0 } }) ⟨hon, hspace⟩ ⟨0x0012, 0, 0, 0, s.regs.evqOwed⟩
    have hkeep := State.reportsOnly_event { s with regs := { s.regs with evqOwed := 0 } } ⟨0x0012, 0, 0, 0, s.regs.evqOwed⟩
    exact ⟨howes, hcount, hmem, hkeep.queues, hkeep.exec, hkeep.power, hkeep.fabric, hkeep.remuda⟩

/-! ## The event queue's registers (R122, R123) -/

theorem exec_evqCtrlWrite (v : Nat) (s : State) : exec (.evqCtrlWrite v) s = .next (s.evqCtrlWrite v) := rfl
theorem exec_evqHeadWrite (v : Nat) (s : State) : exec (.evqHeadWrite v) s = .next (s.evqHeadWrite v) := rfl
theorem exec_registerWrite (f : Fin 256) (bar off size v : Nat) (s : State) :
    exec (.registerWrite f bar off size v) s = .next (s.registerWrite f.val bar off size v) := rfl

theorem exec_registerWrite_evqBaseLo (v : Nat) (s : State) : exec (.registerWrite 0 0 0x20 4 v) s = .next (s.evqBaseLoWrite v) := rfl
theorem exec_registerWrite_evqBaseHi (v : Nat) (s : State) : exec (.registerWrite 0 0 0x24 4 v) s = .next (s.evqBaseHiWrite v) := rfl

/-- The mask of EVQ_CTRL keeps its enable bit and its LOG2. -/
theorem bit_evqCtrlMask (v : Nat) : bit (v &&& evqCtrlMask) 8 = bit v 8 := by
  rw [bit_and, show bit evqCtrlMask 8 = true from rfl, Bool.and_true]

theorem bits_evqCtrlMask (v : Nat) : bits (v &&& evqCtrlMask) 0 5 = bits v 0 5 := by
  rw [bits_and, show bits evqCtrlMask 0 5 = 2 ^ 5 - 1 from rfl, Nat.and_two_pow_sub_one_eq_mod, bits, Nat.mod_mod]

/-- EVQ_CTRL while the queue is enabled: only clearing bit 8 does anything (R123). -/
theorem State.evqCtrlWrite_enabled {s : State} (hup : s.pcieUp = true) (hon : bit s.regs.evqCtrl 8 = true) (v : Nat) :
    s.evqCtrlWrite v = if bit v 8 = true then s else { s with regs := { s.regs with evqCtrl := s.regs.evqCtrl - 256 } } := by
  simp only [State.evqCtrlWrite, evqEnabled, hup, hon, bit_evqCtrlMask, Bool.not_true, Bool.false_eq_true, if_false, if_true]

/-- A write that enables the queue takes effect where LOG2 is in 6 to 16 (R123). -/
theorem State.evqCtrlWrite_enables {s : State} (hup : s.pcieUp = true) (hoff : bit s.regs.evqCtrl 8 = false) {v : Nat} (hv : bit v 8 = true) :
    s.evqCtrlWrite v = if bits v 0 5 < 6 ∨ 16 < bits v 0 5 then s
      else { s with regs := { s.regs with evqCtrl := v &&& evqCtrlMask, evqHead := 0, evqSlot := 0, evqCount := 0, evqPhase := true } } := by
  simp only [State.evqCtrlWrite, evqEnabled, hup, hoff, hv, bit_evqCtrlMask, bits_evqCtrlMask, Bool.not_true, Bool.false_eq_true, if_false, if_true]

/-- EVQ_CTRL is a register: a write of it changes registers alone. -/
theorem State.evqCtrlWrite_regs (s : State) (v : Nat) : s.evqCtrlWrite v = { s with regs := (s.evqCtrlWrite v).regs } := by
  unfold State.evqCtrlWrite
  extract_lets r x
  repeat' split
  all_goals rfl

/-- EVQ_HEAD within the ring, not behind the head it replaces (R123). -/
theorem State.evqHeadWrite_forward {s : State} (hup : s.pcieUp = true) (hon : bit s.regs.evqCtrl 8 = true) {v : Nat} (hsize : v < evqSize s.regs)
    (hv : v < 2 ^ 16) (hle : s.regs.evqHead ≤ v) :
    s.evqHeadWrite v = { s with regs := { s.regs with evqHead := v, evqCount := s.regs.evqCount - (v - s.regs.evqHead) } } := by
  simp only [State.evqHeadWrite, evqEnabled, hup, hon, Nat.mod_eq_of_lt hv, Nat.mod_eq_of_lt hsize, Nat.mod_eq_of_lt (hle.trans_lt hsize),
    consumed_of_le hle hsize, Bool.not_true, Bool.false_eq_true, if_false, if_true]

/-- A register of a tenant's page is written 4 bytes at a time (R122). -/
theorem State.registerWrite_page_size (s : State) (f : Nat) {off size : Nat} (hsize : size ≠ 4) (hoff : off % 4096 < 0x800) (v : Nat) :
    s.registerWrite f 2 off size v = s := by
  have hpage : s.registerWrite f 2 off size v = s.pageWrite f (off / 4096) (off % 4096) size v := rfl
  rw [hpage, State.pageWrite, if_neg (by omega : ¬ (0x800 ≤ off % 4096 ∧ off % 4096 < 0xC00)), if_pos hsize, ite_self]

/-- Settles O8, clause by clause. -/
theorem eventQueueRegistersTakeTheirWrites : Obligations.EventQueueRegistersTakeTheirWrites := by
  unfold Obligations.EventQueueRegistersTakeTheirWrites
  refine ⟨fun s v hup => ⟨_, exec_evqCtrlWrite v s, s.evqCtrlWrite_regs v, fun hoff hv hlo hhi => ?_, fun hoff hv hlog => ?_, fun hon hv => ?_, fun hon hv => ?_⟩,
    fun s v hup hon hsize hv hle => ⟨_, exec_evqHeadWrite v s, ?_, ?_⟩, fun s v hup => ⟨fun hoff => ?_, fun hoff => ?_, fun hon => ⟨?_, ?_⟩⟩,
    fun s f off size v hsize hoff => ?_⟩
  · rw [State.evqCtrlWrite_enables hup hoff hv, if_neg (by omega)]
    rfl
  · rw [State.evqCtrlWrite_enables hup hoff hv, if_pos hlog]
  · rw [State.evqCtrlWrite_enabled hup hon, if_neg (by rw [hv]; decide)]
  · rw [State.evqCtrlWrite_enabled hup hon, if_pos hv]
  · rw [State.evqHeadWrite_forward hup hon hsize hv hle]
  · rw [State.evqHeadWrite_forward hup hon hsize hv hle]
  · rw [exec_registerWrite_evqBaseLo, State.evqBaseLoWrite, if_pos (by rw [hup, evqEnabled, hoff]; rfl)]
  · rw [exec_registerWrite_evqBaseHi, State.evqBaseHiWrite, if_pos (by rw [hup, evqEnabled, hoff]; rfl)]
  · rw [exec_registerWrite_evqBaseLo, State.evqBaseLoWrite, if_neg (by rw [hup, evqEnabled, hon]; decide)]
  · rw [exec_registerWrite_evqBaseHi, State.evqBaseHiWrite, if_neg (by rw [hup, evqEnabled, hon]; decide)]
  · rw [exec_registerWrite, State.registerWrite_page_size s f.val hsize hoff v]


end Sys2Proof.Machine

/-! SUPPORT. Enabling, draining and disabling a queue pair, and the statement about them. -/

namespace Sys2Proof.Machine

/-! ## The rows -/

theorem exec_queueEnable (via : Via) (q : Fin 8194) {v : Nat} (h : cfgEnable v = true) (s : State) :
    exec (.queueEnable via q v) s = .next (s.viaWrite via (queueKey q.val) v) := congrArg Host.Outcome.next (if_pos h)

theorem exec_queueDisable (via : Via) (q : Fin 8194) {v : Nat} (h : cfgEnable v = false) (s : State) :
    exec (.queueDisable via q v) s = .next (s.viaWrite via (queueKey q.val) v) := congrArg Host.Outcome.next (if_neg (Bool.eq_false_iff.mp h))

theorem exec_queueDrainComplete (q : Fin 8194) (s : State) : exec (.queueDrainComplete q) s = .next (s.queueDrained q.val) := rfl

/-! ## The configuration (R119, R120) -/

/-- The object of a tenant's queue pair is written as its configuration. -/
theorem State.applyEffect_tenantQueue (s : State) (r v seq q : Nat) (hq : q < 8192) (f : State → List Byte → State) :
    s.applyEffect r (queueKey q) v seq f = s.queueCfgWrite q v := by
  have hkey : queueKey q = (0x4000 + q / 8) * 256 + (0x30 + q % 8) := by
    rw [queueKey, if_pos hq, oTenantQueueConfig, Nat.add_assoc]
  have hsub : within 0x30 0x37 (0x30 + q % 8) = true := by
    rw [within, Bool.and_eq_true, decide_eq_true_eq, decide_eq_true_eq]
    omega
  rw [hkey, s.applyEffect_tenant r v seq ⟨q / 8, by omega⟩ (by omega)]
  unfold State.applyTenant
  rw [if_pos hsub]
  exact congrArg (fun n => s.queueCfgWrite n v) (by dsimp only; omega)

/-- So is that of an administrative one. -/
theorem State.applyEffect_adminQueue (s : State) (r v seq : Nat) (f : State → List Byte → State) :
    s.applyEffect r (queueKey 8192) v seq f = s.queueCfgWrite 8192 v ∧ s.applyEffect r (queueKey 8193) v seq f = s.queueCfgWrite 8193 v := ⟨rfl, rfl⟩

theorem State.applyEffect_queue (s : State) (r v seq : Nat) (q : Fin 8194) (f : State → List Byte → State) :
    s.applyEffect r (queueKey q.val) v seq f = s.queueCfgWrite q.val v := by
  obtain ⟨hadmin, hsecond⟩ := s.applyEffect_adminQueue r v seq f
  by_cases hq : q.val < 8192
  · exact s.applyEffect_tenantQueue r v seq q.val hq f
  · obtain h | h : q.val = 8192 ∨ q.val = 8193 := by omega
    · rw [h, hadmin]
    · rw [h, hsecond]

/-- A write that is taken leaves what the configuration's own write leaves. -/
theorem State.viaWrite_queue {s : State} {via : Via} {r v : Nat} {q : Fin 8194} (h : s.takesWrite via r (queueKey q.val) v) :
    ((s.counted (queueKey q.val)).queueCfgWrite q.val v).AnsweredFrom (s.viaWrite via (queueKey q.val) v) := by
  rw [← State.applyEffect_queue]
  exact State.viaWrite_effect h

theorem State.AnsweredFrom.queue {u t : State} (h : u.AnsweredFrom t) (q : Nat) : t.queue q = u.queue q := by
  unfold State.queue
  rw [h.queues]

theorem State.queueCfgWrite_enables {s : State} {q c : Nat} (hold : cfgEnable (s.queueCfg q) = false) (hc : cfgEnable c = true) :
    s.queueCfgWrite q c = (s.setObj (queueKey q) c).setQueue q { Queue.idle with state := 1, heldRoom := (s.queue q).heldRoom } := by
  simp only [State.queueCfgWrite, hold, hc, Bool.not_false, Bool.and_self, if_true]

theorem State.queueCfgWrite_drains {s : State} {q c : Nat} (hold : cfgEnable (s.queueCfg q) = true) (hc : cfgEnable c = false) :
    ∃ p, s.queueCfgWrite q c = ((s.setObj (queueKey q) c).setQueue q { s.queue q with state := 2, waitsMet := [] }).dropWaits p := by
  simp only [State.queueCfgWrite, hold, hc, Bool.not_true, Bool.not_false, Bool.and_self, Bool.false_eq_true, if_false, if_true]
  exact ⟨_, rfl⟩

theorem State.queue_dropWaits (s : State) (p : Src → Bool) (q : Nat) : (s.dropWaits p).queue q = s.queue q := rfl

/-! ## The end of draining (R120) -/

theorem State.queue_of_quiet {s t : State} (h : t.quiet = s.quiet) (q : Nat) : t.queue q = s.queue q := by
  unfold State.queue
  rw [State.queues_of_quiet h]

theorem State.quiet_tenantEvent (s : State) (t b : Nat) : (s.tenantEvent t b).quiet = s.quiet := by
  obtain ⟨latches, sent, h⟩ := s.tenantEvent_eq t b
  rw [h]
  rfl

/-- The last command of a draining queue has ended: the queue is disabled, which is reported. -/
theorem State.queueDrained_spec {s : State} {q : Nat} (hstate : (s.queue q).state = 2) (hnone : s.begunOf q = 0) :
    (s.queueDrained q).quiet = (s.setQueue q { s.queue q with state := 0, delayArmed := false }).quiet ∧
      (q < 8192 → bit (Store.get 0 (s.queueDrained q).regs.tenantEvents (q / 8)) 2 = true) := by
  rw [State.queueDrained, if_pos ⟨hstate, hnone⟩]
  dsimp only
  split
  · exact ⟨(State.quiet_tenantEvent _ _ _).trans (State.quiet_event _ _), fun _ => State.bit_tenantEvent _ _ 2⟩
  · next hq => exact ⟨State.quiet_event _ _, fun h => absurd h hq⟩

/-- Settles O27: the writes by what a configuration's write leaves, the end of draining by `queueDrained_spec`. -/
theorem queuesEnableDrainAndDisable : Obligations.QueuesEnableDrainAndDisable := by
  unfold Obligations.QueuesEnableDrainAndDisable
  refine ⟨fun s via r q v h hv hold => ⟨_, exec_queueEnable via q hv s, ?_⟩, fun s via r q v h hv hold => ⟨_, exec_queueDisable via q hv s, ?_⟩,
    fun s q hstate hnone => ⟨_, exec_queueDrainComplete q s, ?_⟩, fun s q hsome => ?_⟩
  · have ht := State.viaWrite_queue h
    rw [State.queueCfgWrite_enables (s := s.counted _) hold hv] at ht
    refine ⟨(ht.obj _).trans (State.obj_setObj_self _ _ v), (ht.queue _).trans (State.queue_setQueue_self _ _ _), fun n hn => ?_, ht.exec⟩
    rw [ht.queue, State.queue_setQueue_other _ _ hn]
    rfl
  · have ht := State.viaWrite_queue h
    obtain ⟨p, hp⟩ := State.queueCfgWrite_drains (s := s.counted (queueKey q.val)) hold hv
    rw [hp] at ht
    refine ⟨(ht.obj _).trans (State.obj_setObj_self _ _ v), ?_, fun n hn => ?_, ht.exec⟩
    · rw [ht.queue, State.queue_dropWaits, State.queue_setQueue_self]
      rfl
    · rw [ht.queue, State.queue_dropWaits, State.queue_setQueue_other _ _ hn]
      rfl
  · obtain ⟨hquiet, hbit⟩ := State.queueDrained_spec hstate hnone
    refine ⟨(State.queue_of_quiet hquiet _).trans (State.queue_setQueue_self _ _ _), fun n hn => ?_, hquiet, hbit⟩
    rw [State.queue_of_quiet hquiet, State.queue_setQueue_other _ _ hn]
  · rw [exec_queueDrainComplete, State.queueDrained, if_neg (fun h => hsome h.2)]

end Sys2Proof.Machine

/-! SUPPORT. The doorbells of the mailboxes, and the statement about them. -/

namespace Sys2Proof.Machine

/-! ## The engine's answer to a READ (R424) -/

/-- Reading an object uses up free values at most. -/
theorem State.readObj_state (s : State) (key : Nat) : ∃ k, (s.readObj key).2 = { s with freeCount := k } := by
  unfold State.readObj State.txState
  dsimp only
  split
  · split
    · exact ⟨s.freeCount + 1, rfl⟩
    · exact ⟨s.freeCount, rfl⟩
  · split
    · exact ⟨s.freeCount, rfl⟩
    · split <;> exact ⟨s.freeCount, rfl⟩

theorem State.readItems_state (route : Nat) (items : List TackItem) (s : State) : ∃ k, (s.readItems route items).1 = { s with freeCount := k } := by
  induction items generalizing s with
  | nil => exact ⟨s.freeCount, rfl⟩
  | cons i rest ih =>
    unfold State.readItems
    extract_lets st v len r t
    obtain ⟨k, hk⟩ : ∃ k, r.1 = { s with freeCount := k } := by
      unfold r
      split
      · exact s.readObj_state _
      · exact ⟨s.freeCount, rfl⟩
    obtain ⟨m, hm⟩ := ih r.1
    refine ⟨m, hm.trans ?_⟩
    rw [hk]

/-- A READ is answered at once, whatever it asks for, and so is a message whose header is not in order. -/
theorem State.engine_read (s : State) (route : Nat) (mbx : Bool) {b : List Byte} (h : headerOk route b = true → msgOp b = 0x01) :
    ∃ k st hd n tail, s.engine route mbx b = ({ s with freeCount := k }, some (respond route b st hd n tail)) := by
  have hstatus : ∀ st, ∃ k st' hd n tail, (s, some (respondStatus route b st)) = (({ s with freeCount := k } : State), some (respond route b st' hd n tail)) :=
    fun st => ⟨s.freeCount, st, _, _, _, rfl⟩
  have hread : ∀ items hd n, ∃ k st' hd' n' tail, ((s.readItems route items).1, some (respond route b tkOk hd n (s.readItems route items).2)) =
      (({ s with freeCount := k } : State), some (respond route b st' hd' n' tail)) := by
    intro items hd n
    obtain ⟨k, hk⟩ := s.readItems_state route items
    exact ⟨k, tkOk, hd, n, _, by rw [hk]⟩
  unfold State.engine State.engineFrom
  dsimp only
  by_cases hok : headerOk route b = true
  · rw [if_neg (by rw [hok]; decide), if_pos (.inl (h hok))]
    split
    · exact hstatus _
    · split
      · split
        · split
          · exact hstatus _
          · rw [if_neg (by rw [h hok]; decide)]
            exact hread _ _ _
        · exact hstatus _
      · rw [if_pos (h hok)]
        exact hread _ _ _
  · rw [if_pos (by simpa using hok)]
    exact hstatus _

theorem length_respond_le (route : Nat) (req : List Byte) (st hd n : Nat) (tail : List Byte) :
    (respond route req st hd n tail).length ≤ routeLimit route := by
  have hlimit := (routeLimit_bounds route).1
  simp only [respond, List.length_append, length_toLe, List.length_take, List.length_cons, List.length_nil]
  omega

/-! ## What a doorbell hands to the engine (R143) -/

/-- The first `len` bytes of the request buffer, zeros where nothing was written. -/
def Mailbox.message (m : Mailbox) (len : Nat) : List Byte := m.request.take len ++ List.replicate (len - m.request.length) 0

/-- The operation of the message is that in the buffer, unless the message is too short to have one. -/
theorem Mailbox.msgOp_message {m : Mailbox} {op : Nat} (hop : op ≠ 0) (h : msgOp m.request = op) (route len : Nat)
    (hok : headerOk route (m.message len) = true) : msgOp (m.message len) = op := by
  have hlen : 16 ≤ (m.message len).length := by
    simp only [headerOk, Bool.and_eq_true, decide_eq_true_eq] at hok
    tauto
  unfold Mailbox.message at hlen ⊢
  generalize m.request = l at h hlen ⊢
  match l, len with
  | [], _ => exact absurd h.symm hop
  | [_], _ => exact absurd h.symm hop
  | _ :: _ :: _, 0 => simp at hlen
  | _ :: _ :: _, 1 => simp at hlen
  | _ :: _ :: _, _ + 2 => exact h

theorem State.ring_admin_rejected {s : State} {len : Nat} (h : s.mbxBusy 0 = true ∨ len = 0 ∨ 4096 < len) :
    s.ring 0 len = s.setAdminMbx { s.regs.adminMbx with status := 3 } := if_pos h

theorem State.ring_admin {s : State} {len : Nat} (hfree : s.mbxBusy 0 = false) (hlo : 1 ≤ len) (hhi : len ≤ 4096) :
    s.ring 0 len = (s.setAdminMbx { s.regs.adminMbx with status := 1 }).request 0 true (s.regs.adminMbx.message len) := by
  refine if_neg ?_
  rw [hfree]
  simp [routeLimit]
  omega

theorem routeLimit_tenant (n : Nat) : routeLimit (2 + n) = 1024 := by rw [Nat.add_comm]; rfl

theorem State.ring_tenant_eq (s : State) (n len : Nat) :
    s.ring (2 + n) len = if s.mbxBusy (2 + n) = true ∨ len = 0 ∨ 1024 < len then s.setTenantMbx n { s.tenantMbx n with status := 3 }
      else (s.setTenantMbx n { s.tenantMbx n with status := 1 }).request (2 + n) true ((s.tenantMbx n).message len) := by
  unfold State.ring State.ringWith
  simp only [routeLimit_tenant, if_neg (show ¬ 2 + n = 0 by omega), Nat.add_sub_cancel_left]
  rfl

/-! ## The answer -/

theorem State.tenantMbx_tenantEvent (s : State) (t b n : Nat) : (s.tenantEvent t b).tenantMbx n = s.tenantMbx n := by
  obtain ⟨latches, sent, h⟩ := s.tenantEvent_eq t b
  rw [h]
  rfl

theorem State.deliver_tenant (s : State) (n : Nat) (resp : List Byte) : s.deliver (2 + n) true resp =
    (s.setTenantMbx n { s.tenantMbx n with response := resp, status := 2, respLen := resp.length }).tenantEvent n 3 := by
  rw [Nat.add_comm]
  rfl

@[simp] theorem State.tenantMbx_setTenantMbx_self (s : State) (n : Nat) (m : Mailbox) : (s.setTenantMbx n m).tenantMbx n = m :=
  Store.get_set_self _ _ n m

/-- A READ through a mailbox is served with the response delivered there; nothing else changes but the count of free values. -/
theorem State.request_read (s : State) (route : Nat) {m : Mailbox} (len : Nat) (h : msgOp m.request = 0x01) :
    ∃ k resp, s.request route true (m.message len) = ({ s with freeCount := k } : State).deliver route true resp ∧ resp.length ≤ routeLimit route := by
  obtain ⟨k, st, hd, n, tail, heq⟩ := s.engine_read route true (m.msgOp_message (by decide) h route len)
  refine ⟨k, _, ?_, length_respond_le route (m.message len) st hd n tail⟩
  rw [State.request, heq]
  rfl

/-! ## The rows -/

theorem exec_adminMbxDoorbell {s : State} (hup : s.mailboxUp = true) (v : Nat) : exec (.adminMbxDoorbell v) s = .next (s.ring 0 (bits v 0 13)) :=
  congrArg Host.Outcome.next (if_pos hup)

theorem exec_tenantMbxDoorbell {s : State} (hup : s.mailboxUp = true) {f : Fin 256} {n : Fin 1024} (hlive : s.pageLive f.val n.val = true) (v : Nat) :
    exec (.tenantMbxDoorbell f n v) s = .next (s.ring (2 + n.val) (bits v 0 11)) :=
  congrArg Host.Outcome.next (if_pos (by rw [hup, hlive]; rfl))

/-- Settles O9, clause by clause: a rejection by the doorbell's own checks, an answer by `request_read`. -/
theorem mailboxDoorbellsAnswerOrReject : Obligations.MailboxDoorbellsAnswerOrReject := by
  unfold Obligations.MailboxDoorbellsAnswerOrReject
  refine ⟨fun s v hup hbad => ?_, fun s f n v hup hlive hbad => ?_, fun s v hup hfree hlo hhi hop => ⟨_, exec_adminMbxDoorbell hup v, ?_⟩,
    fun s f n v hup hlive hfree hlo hhi hop => ⟨_, exec_tenantMbxDoorbell hup hlive v, ?_⟩⟩
  · have hreject : s.mbxBusy 0 = true ∨ bits v 0 13 = 0 ∨ 4096 < bits v 0 13 := by
      refine hbad.imp_left fun hbusy => ?_
      simp [State.mbxBusy, hbusy]
    rw [exec_adminMbxDoorbell hup, State.ring_admin_rejected hreject]
    rfl
  · have hreject : s.mbxBusy (2 + n.val) = true ∨ bits v 0 11 = 0 ∨ 1024 < bits v 0 11 := by
      refine hbad.imp_left fun hbusy => ?_
      simp [State.mbxBusy, hbusy]
    rw [exec_tenantMbxDoorbell hup hlive, State.ring_tenant_eq, if_pos hreject]
  · rw [State.ring_admin hfree hlo hhi]
    obtain ⟨k, resp, heq, hlen⟩ := (s.setAdminMbx { s.regs.adminMbx with status := 1 }).request_read 0 (bits v 0 13) hop
    rw [heq]
    exact ⟨rfl, rfl, hlen, rfl, rfl, rfl, rfl⟩
  · rw [State.ring_tenant_eq, if_neg (by rw [hfree]; simp; omega)]
    obtain ⟨k, resp, heq, hlen⟩ := (s.setTenantMbx n.val { s.tenantMbx n.val with status := 1 }).request_read (2 + n.val) (bits v 0 11) hop
    rw [heq, State.deliver_tenant, State.tenantMbx_tenantEvent, State.tenantMbx_setTenantMbx_self]
    rw [routeLimit_tenant] at hlen
    exact ⟨rfl, rfl, hlen, State.bit_tenantEvent _ _ 3, State.tenantEvent_mem _ _ 3, (State.reportsOnly_tenantEvent _ _ 3).queues,
      (State.reportsOnly_tenantEvent _ _ 3).exec⟩

end Sys2Proof.Machine

/-! SUPPORT. How a command begins, and the statement about it. -/

namespace Sys2Proof.Machine

/-! ## Trace records -/

/-- State `u` is `s` but for what tracing and accounting touch: the trace and the attribution, the values of objects, and the free values taken. -/
def State.TalliesOnly (s u : State) : Prop := ∃ vals obs k, u = { s with dict := { s.dict with vals := vals }, obs := obs, freeCount := k }

namespace State.TalliesOnly
variable {s t u : State}

theorem refl (s : State) : s.TalliesOnly s := ⟨s.dict.vals, s.obs, s.freeCount, rfl⟩

theorem trans (h : s.TalliesOnly t) (k : t.TalliesOnly u) : s.TalliesOnly u := by
  obtain ⟨_, _, _, rfl⟩ := h
  obtain ⟨v, o, n, rfl⟩ := k
  exact ⟨v, o, n, rfl⟩

theorem mem (h : s.TalliesOnly u) : u.mem = s.mem := by
  obtain ⟨_, _, _, rfl⟩ := h
  rfl

theorem exec (h : s.TalliesOnly u) : u.exec = s.exec := by
  obtain ⟨_, _, _, rfl⟩ := h
  rfl

theorem queues (h : s.TalliesOnly u) : u.queues = s.queues := by
  obtain ⟨_, _, _, rfl⟩ := h
  rfl

theorem fabric (h : s.TalliesOnly u) : u.fabric = s.fabric := by
  obtain ⟨_, _, _, rfl⟩ := h
  rfl

end State.TalliesOnly

theorem State.talliesOnly_reportDrops (s : State) : s.TalliesOnly s.reportDrops := by
  unfold State.reportDrops
  split
  · exact .refl s
  · exact ⟨s.dict.vals, _, _, rfl⟩

/-- A record is generated, dropped and counted, or not asked for (R508 to R510). -/
theorem State.talliesOnly_trace (s : State) (typ sub tenant : Nat) (tail : List Byte) : s.TalliesOnly (s.trace typ sub tenant tail) := by
  unfold State.trace
  dsimp only
  split
  · exact .refl s
  · split <;> exact s.talliesOnly_reportDrops.trans ⟨_, _, _, rfl⟩

theorem State.talliesOnly_traceCommand (s : State) (typ : Nat) (src : Src) (c : Ctx) (b : List Byte) (status flags : Nat) :
    s.TalliesOnly (s.traceCommand typ src c b status flags) := by
  unfold State.traceCommand
  dsimp only
  split
  · exact .refl s
  · exact s.talliesOnly_trace _ _ _ _

/-! ## The stream moves past its head (R129) -/

theorem State.advance_program_eq (s : State) (run i : Nat) : ∃ fb rm, s.advance (.program run i) = { s with fabric := fb, remuda := rm } := by
  unfold State.advance
  dsimp only
  split <;> exact ⟨_, _, rfl⟩

theorem State.advance_exec (s : State) (src : Src) : (s.advance src).exec = s.exec := by
  cases src with
  | queue q idx => rfl
  | program run i =>
    obtain ⟨_, _, h⟩ := s.advance_program_eq run i
    rw [h]

theorem State.advance_mem (s : State) (src : Src) : (s.advance src).mem = s.mem := by
  cases src with
  | queue q idx => rfl
  | program run i =>
    obtain ⟨_, _, h⟩ := s.advance_program_eq run i
    rw [h]

/-- The next entry of the queue is its head, and no other queue moves. -/
theorem State.advance_queue (s : State) (q idx : Nat) :
    ((s.advance (.queue q idx)).queue q).sqHead = (idx + 1) % sqSize (s.queueCfg q) ∧ ∀ n, n ≠ q → (s.advance (.queue q idx)).queue n = s.queue n :=
  ⟨congrArg Queue.sqHead (State.queue_setQueue_self _ q _), fun _ hn => State.queue_setQueue_other _ _ hn⟩

/-! ## The begun command -/

/-- A command joins those begun. -/
def State.addCmd (s : State) (c : Cmd) : State :=
  { s with exec := { s.exec with cmds := s.exec.cmds ++ [c], nextCmd := s.exec.nextCmd + 1 } }

/-- A command whose destinations stay closed joins those begun as its result stands, its stream moved past it (R129, R131). -/
theorem State.startCmd_closed (s : State) (src : Src) (b : List Byte) {r : Except Fail Work} (dig : List (Nat × Byte))
    (hclosed : ∀ e, r = .error e → leavesOpen e.status = false) :
    s.startCmd src b r dig = ((s.advance src).addCmd
      (newCmd (s.advance src).exec.nextCmd src (srcCtx s src) b r dig (s.beganNow (srcCtx s src)))).traceCommand 1 src (srcCtx s src) b 0 0 := by
  cases r with
  | ok w => rfl
  | error e =>
    simp only [State.startCmd, hclosed e rfl]
    rfl

theorem State.startCmd_spec (s : State) (src : Src) (b : List Byte) {r : Except Fail Work} (dig : List (Nat × Byte))
    (hclosed : ∀ e, r = .error e → leavesOpen e.status = false) :
    (s.startCmd src b r dig).exec.cmds = s.exec.cmds ++ [newCmd s.exec.nextCmd src (srcCtx s src) b r dig (s.beganNow (srcCtx s src))] ∧
      (s.startCmd src b r dig).exec.nextCmd = s.exec.nextCmd + 1 ∧ (s.startCmd src b r dig).mem = s.mem ∧
      (s.startCmd src b r dig).queues = (s.advance src).queues := by
  have htrace := State.talliesOnly_traceCommand ((s.advance src).addCmd
    (newCmd (s.advance src).exec.nextCmd src (srcCtx s src) b r dig (s.beganNow (srcCtx s src)))) 1 src (srcCtx s src) b 0 0
  rw [State.startCmd_closed s src b dig hclosed, htrace.exec, htrace.mem, htrace.queues, State.addCmd, State.advance_exec]
  exact ⟨rfl, rfl, s.advance_mem src, rfl⟩

/-! ## The row of an opcode -/

theorem exec_begins {i : Instr} {f : From} {mine : List Byte → Bool} {plan : State → Env → Plan} {launch : State → Env → Nat → State}
    (h : begins i = some (f, mine, plan, launch)) (s : State) : exec i s = .next (s.beginRow f mine plan launch).staticCheck := by
  unfold begins at h
  split at h
  case h_27 => cases h
  all_goals
    simp only [Option.some.injEq, Prod.mk.injEq] at h
    obtain ⟨rfl, rfl, rfl, rfl⟩ := h
    rfl

/-- Where R129 holds of the head, its row begins it. -/
theorem State.beginRow_beginsAt {s g : State} {f : From} {mine : List Byte → Bool} {src : Src} {b : List Byte} (h : s.beginsAt f mine src b g)
    (plan : State → Env → Plan) (launch : State → Env → Nat → State) : s.beginRow f mine plan launch = g.beginNow src b plan launch := by
  obtain ⟨hhead, hfatal, hbytes, hmine, hwaits, hmay, hroom, hspur, hgate⟩ := h
  unfold State.beginRow
  simp only [hhead, hfatal, hbytes, hmine, hwaits, hmay, hroom, hspur, State.beginGated, hgate, Bool.not_true, Bool.false_and, Bool.and_self,
    Bool.false_eq_true, if_false, if_true]

/-- A command that fails a check begins with the failure (R130, R140). -/
theorem State.beginNow_fails {s : State} {src : Src} {b : List Byte} {plan : State → Env → Plan} {e : Fail} (h : s.beginFail src b plan = some e)
    (launch : State → Env → Nat → State) : s.beginNow src b plan launch = s.startCmd src b (.error e) [] := by
  simp only [State.beginNow, h]

/-- The digest records a command's result holds, where its header asks for them (R505). -/
def State.digestOf (s : State) (src : Src) (b : List Byte) (w : Work) : List (Nat × Byte) :=
  if (s.envOf src b).wantsDigest = true then s.workDigest (s.envOf src b) w (le b 80 8) else []

/-- A command that passes begins with its result, and what its opcode launches begins with it. -/
theorem State.beginNow_passes {s : State} {src : Src} {b : List Byte} {plan : State → Env → Plan} {w : Work}
    (hnone : s.beginFail src b plan = none) (hplan : (plan s (s.planEnv src b).1).2 = .ok w) (hstep : (s.planEnv src b).2 = none)
    (launch : State → Env → Nat → State) :
    s.beginNow src b plan launch = launch (s.startCmd src b (.ok w) (s.digestOf src b w)) (s.envOf src b) s.exec.nextCmd := by
  have hnext : (s.startCmd src b (.ok w) (s.digestOf src b w)).exec.nextCmd - 1 = s.exec.nextCmd := by
    obtain ⟨_, hnext, _⟩ := s.startCmd_spec src b (r := .ok w) (s.digestOf src b w) (fun _ h => by cases h)
    rw [hnext, Nat.add_sub_cancel]
  simp only [State.beginNow, hnone, hplan, hstep, State.addStepDigest]
  exact congrArg (launch _ _) hnext

/-- Settles O53: the row begins the head, with the failure found or with its result held. -/
theorem commandsBeginAndHoldTheirResults : Obligations.CommandsBeginAndHoldTheirResults := by
  unfold Obligations.CommandsBeginAndHoldTheirResults
  intro i f mine plan launch s g src b hrow hat
  have hexec : exec i s = .next (g.beginNow src b plan launch).staticCheck := by
    rw [exec_begins hrow, State.beginRow_beginsAt hat]
  refine ⟨fun e hfail hclosed => ?_, fun w hnone hplan hstep hlaunch => ?_, fun w hnone hplan hstep => ?_⟩
  · obtain ⟨hcmds, _, hmem, _⟩ := g.startCmd_spec src b (r := .error e) [] (fun x hx => by cases hx; exact hclosed)
    refine ⟨g.startCmd src b (.error e) [], _, ?_, hcmds, rfl, rfl, rfl, rfl, rfl, rfl, hmem⟩
    rw [hexec, State.beginNow_fails hfail]
  · obtain ⟨hcmds, _, hmem, hqueues⟩ := g.startCmd_spec src b (r := .ok w) (g.digestOf src b w) (fun x hx => by cases hx)
    have hqueue : ∀ n, (g.startCmd src b (.ok w) (g.digestOf src b w)).queue n = (g.advance src).queue n := by
      intro n
      unfold State.queue
      rw [hqueues]
    refine ⟨g.startCmd src b (.ok w) (g.digestOf src b w), _, ?_, hcmds, rfl, rfl, rfl, rfl, rfl, rfl, rfl, rfl, rfl, rfl, hmem, ?_⟩
    · rw [hexec, State.beginNow_passes hnone hplan hstep, hlaunch]
      rfl
    · rintro q idx rfl
      obtain ⟨hhead, hother⟩ := g.advance_queue q idx
      exact ⟨(congrArg Queue.sqHead (hqueue q)).trans hhead, fun n hn => (hqueue n).trans (hother n hn)⟩
  · rw [hexec, State.beginNow_passes hnone hplan hstep]
    rfl

end Sys2Proof.Machine

/-! SUPPORT. Signals to posts of this device, and what packets that leave it keep of its posts. -/

namespace Sys2Proof.Machine

/-- State `u` has the posts, the memory and the begun commands of `s`: it is where packets leave, waits are latched and records are traced. -/
structure State.PostsKept (s u : State) : Prop where
  mem : u.mem = s.mem
  exec : u.exec = s.exec
  posts : u.fabric.posts = s.fabric.posts

namespace State.PostsKept
variable {s t u : State}

theorem refl (s : State) : s.PostsKept s := ⟨rfl, rfl, rfl⟩

theorem trans (h : s.PostsKept t) (k : t.PostsKept u) : s.PostsKept u :=
  ⟨k.mem.trans h.mem, k.exec.trans h.exec, k.posts.trans h.posts⟩

theorem postValue (h : s.PostsKept u) (p : Nat) : u.postValue p = s.postValue p := congrArg (fun m => Store.get 0 m p) h.posts

end State.PostsKept

theorem State.TalliesOnly.postsKept {s u : State} (h : s.TalliesOnly u) : s.PostsKept u := ⟨h.mem, h.exec, by rw [h.fabric]⟩

theorem State.postsKept_foldl {α : Type} {f : State → α → State} (hf : ∀ (s : State) a, s.PostsKept (f s a)) (l : List α) (s : State) :
    s.PostsKept (l.foldl f s) := by
  induction l generalizing s with
  | nil => exact .refl s
  | cons a rest ih => exact (hf s a).trans (ih (f s a))

theorem State.postsKept_count (s : State) (key n : Nat) : s.PostsKept (s.count key n) := ⟨rfl, rfl, rfl⟩

theorem State.postsKept_spurDraw (s : State) (k : Nat) (part : Option Nat) : s.PostsKept (s.spurDraw k part).1 := by
  unfold State.spurDraw
  extract_lets c parts here f
  split
  · exact .refl s
  · split <;> exact ⟨rfl, rfl, rfl⟩

/-! ## Packets that leave (R351 to R357) -/

theorem State.postsKept_setArb (s : State) (n : Nat) (a : Arbiter) : s.PostsKept (s.setArb n a) := ⟨rfl, rfl, rfl⟩
theorem State.postsKept_setPort (s : State) (p : Nat) (v : Port) : s.PostsKept (s.setPort p v) := ⟨rfl, rfl, rfl⟩

theorem State.postsKept_arbitrate (s : State) (n : Nat) (inc : Nat → Nat) (reqs : List (Nat × Nat)) : s.PostsKept (s.arbitrate n inc reqs).1 := by
  unfold State.arbitrate
  split
  · exact .refl s
  · next w _ =>
    have hdraw := s.postsKept_spurDraw 0 (s.tagPartition w.1)
    dsimp only
    split
    · exact hdraw.trans ⟨rfl, rfl, rfl⟩
    · exact hdraw.trans (State.postsKept_setArb _ _ _)

theorem State.postsKept_pickOut (s : State) (p : Nat) : s.PostsKept (s.pickOut p).1 := by
  unfold State.pickOut
  dsimp only
  split
  · exact .refl s
  · split
    · exact (s.postsKept_setArb _ _).trans (State.postsKept_arbitrate _ _ _ _)
    · split
      · exact s.postsKept_setArb _ _
      · exact (s.postsKept_setArb _ _).trans (State.postsKept_setArb _ _ _)

theorem State.postsKept_chargeOut (s : State) (p : Nat) (left : List (Option Nat × Packet)) (tag : Option Nat) (k : Packet) :
    s.PostsKept (s.chargeOut p left tag k) := by
  cases tag <;> exact ⟨rfl, rfl, rfl⟩

theorem State.postsKept_outPacket (s : State) (p : Nat) (k : Packet) : s.PostsKept (s.outPacket p k) := by
  unfold State.outPacket
  dsimp only
  split
  · exact (s.postsKept_spurDraw 3 none).trans ⟨rfl, rfl, rfl⟩
  · exact ⟨rfl, rfl, rfl⟩

theorem State.postsKept_pumpFuel (fuel : Nat) (s : State) (p : Nat) : s.PostsKept (s.pumpFuel p fuel) := by
  induction fuel generalizing s with
  | zero => exact .refl s
  | succ n ih =>
    have hpick := s.postsKept_pickOut p
    unfold State.pumpFuel
    split
    · exact .refl s
    · rcases hq : s.pickOut p with ⟨t, _ | i⟩
      · exact .refl s
      · rw [hq] at hpick
        dsimp only
        split
        · exact .refl s
        · exact (((hpick.trans (t.postsKept_chargeOut _ _ _ _)).trans (State.postsKept_setPort _ _ _)).trans (State.postsKept_outPacket _ _ _)).trans (ih _)

theorem State.postsKept_sendOn (s : State) (p : Nat) (tag : Option Nat) (k : Packet) : s.PostsKept (s.sendOn p tag k) :=
  (s.postsKept_setPort p _).trans (State.postsKept_pumpFuel _ _ p)

theorem State.postsKept_forwardTo (s : State) (k : Packet) (dst : Nat) (inp tag : Option Nat) : s.PostsKept (s.forwardTo k dst inp tag) := by
  unfold State.forwardTo
  split
  · exact s.postsKept_sendOn _ _ _
  · exact s.postsKept_count _ _
  · exact s.postsKept_count _ _

theorem State.postsKept_forward (s : State) (k : Packet) (inp tag : Option Nat) : s.PostsKept (s.forward k inp tag) := by
  unfold State.forward
  extract_lets u b chosen
  refine State.PostsKept.trans (t := u) (s.postsKept_spurDraw 1 none) ?_
  split
  · exact u.postsKept_outPacket _ _
  · split
    · exact u.postsKept_forwardTo _ _ _ _
    · split
      · exact u.postsKept_count _ _
      · clear_value chosen
        cases chosen with
        | none => exact u.postsKept_count _ _
        | some g =>
          dsimp only
          split
          · split
            · exact u.postsKept_count _ _
            · exact u.postsKept_sendOn _ _ _
          · exact u.postsKept_forwardTo _ _ _ _

theorem State.postsKept_setStreamOut (s : State) (dst cls : Nat) (v : StreamOut) : s.PostsKept (s.setStreamOut dst cls v) := ⟨rfl, rfl, rfl⟩

theorem State.postsKept_drainStream (fuel : Nat) (s : State) (dst cls : Nat) : s.PostsKept (s.drainStream dst cls fuel) := by
  induction fuel generalizing s with
  | zero => exact .refl s
  | succ n ih =>
    unfold State.drainStream
    dsimp only
    split
    · exact .refl s
    · split
      · exact .refl s
      · exact ((s.postsKept_setStreamOut _ _ _).trans (State.postsKept_forward _ _ _ _)).trans (ih _)

/-- A packet this device originates changes no post of it (R371). -/
theorem State.postsKept_originate (s : State) (tag dst typ : Nat) (body : PktBody) : s.PostsKept (s.originate tag dst typ body) := by
  unfold State.originate
  split
  · exact .refl s
  · extract_lets k u v w
    have hu : s.PostsKept u := by
      unfold u
      split
      · exact s.postsKept_count _ _
      · exact .refl s
    split
    · exact hu.trans ((u.postsKept_setStreamOut _ _ _).trans (State.postsKept_drainStream _ w _ _))
    · exact hu.trans (u.postsKept_forward _ _ _)

/-! ## Latched waits and replies (R129, R367) -/

theorem State.postsKept_setWaitsMet (s : State) (src : Src) (l : List Nat) : s.PostsKept (s.setWaitsMet src l) := by
  unfold State.setWaitsMet
  split
  · exact ⟨rfl, rfl, rfl⟩
  · split
    · exact ⟨rfl, rfl, rfl⟩
    · exact .refl s

theorem State.postsKept_latch (s : State) (src : Src) : s.PostsKept (s.latch src) := by
  unfold State.latch
  split
  · exact .refl s
  · dsimp only
    split
    · exact .refl s
    · exact (s.postsKept_setWaitsMet _ _).trans (State.postsKept_foldl (fun x _ => (x.talliesOnly_trace _ _ _ _).postsKept) _ _)

theorem State.postsKept_latchAll (s : State) : s.PostsKept s.latchAll := State.postsKept_foldl State.postsKept_latch _ s

theorem State.postsKept_replySubs (s : State) (p : Nat) : s.PostsKept (s.replySubs p) := by
  unfold State.replySubs
  extract_lets v hit fabric t u
  exact State.PostsKept.trans (t := u) ⟨rfl, rfl, rfl⟩ (State.postsKept_foldl (fun x _ => x.postsKept_originate _ _ _ _) _ u)

theorem State.postsKept_arrivals (s : State) : s.PostsKept s.arrivals := ⟨rfl, rfl, rfl⟩

/-! ## Signals (R365) -/

/-- A post set without more. -/
def State.putPost (s : State) (p v : Nat) : State := { s with fabric := { s.fabric with posts := Store.set 0 s.fabric.posts p v } }

theorem State.postValue_putPost (s : State) (p v r : Nat) : (s.putPost p v).postValue r = if p = r then v else s.postValue r :=
  Store.get_set 0 s.fabric.posts p r v

/-- A signal sets its post; what follows from it (latched waits, replies to subscriptions, arrivals) sets no other. -/
theorem State.signalPost_keeps (s : State) (p op v : Nat) :
    (s.putPost p (if op = 1 then (s.postValue p + v) % 2 ^ 64 else v)).PostsKept (s.signalPost p op v) := by
  have hlatch := s.postsKept_latchAll
  unfold State.signalPost
  extract_lets t new fabric u
  have hput : (s.putPost p (if op = 1 then (s.postValue p + v) % 2 ^ 64 else v)).PostsKept u := by
    refine ⟨hlatch.mem, hlatch.exec, ?_⟩
    rw [← hlatch.postValue p]
    exact congrArg (fun m => Store.set 0 m p new) hlatch.posts
  exact (((hput.trans (u.postsKept_spurDraw 4 none)).trans (State.postsKept_latchAll _)).trans (State.postsKept_replySubs _ p)).trans
    (State.postsKept_arrivals _)

theorem State.signalPost_postValue (s : State) (p op v r : Nat) :
    (s.signalPost p op v).postValue r = if p = r then (if op = 1 then (s.postValue p + v) % 2 ^ 64 else v) else s.postValue r := by
  rw [(s.signalPost_keeps p op v).postValue, State.postValue_putPost]

theorem State.signalPost_mem (s : State) (p op v : Nat) : (s.signalPost p op v).mem = s.mem := (s.signalPost_keeps p op v).mem

end Sys2Proof.Machine

/-! SUPPORT. The end of a command that succeeded and has no signal, its record, and the statement about them. -/

namespace Sys2Proof.Machine

/-! ## Storing nothing -/

@[simp] theorem MemGroup.store_nil (m : MemGroup) : m.store [] = m := by
  have hpoison : m.poison.filter (fun l => !coversLine [] l) = m.poison := List.filter_eq_self.mpr (fun l _ => rfl)
  unfold MemGroup.store
  dsimp only [MemGroup.writeCells]
  rw [hpoison]

/-! ## Translation looks at memory and at two objects of the tenant -/

/-- Addresses translate in `u` as in `s` (R102, R103). -/
structure State.TranslatesLike (s u : State) : Prop where
  mem : u.mem = s.mem
  pasid : ∀ t, u.obj (oTenantPasid t) = s.obj (oTenantPasid t)
  root : ∀ t, u.obj (oTenantPtRoot t) = s.obj (oTenantPtRoot t)

theorem State.TranslatesLike.resolve {s u : State} (h : s.TranslatesLike u) (c : Ctx) (write : Bool) (va : Nat) : u.resolve c write va = s.resolve c write va := by
  unfold State.resolve
  simp only [h.mem, h.pasid, h.root]

theorem State.TranslatesLike.cellsFuel {s u : State} (h : s.TranslatesLike u) (c : Ctx) (fuel va : Nat) (bs : List Byte) :
    u.cellsFuel c fuel va bs = s.cellsFuel c fuel va bs := by
  induction fuel generalizing va bs with
  | zero => rfl
  | succ n ih =>
    cases bs with
    | nil => rfl
    | cons b rest =>
      unfold State.cellsFuel
      simp only [h.resolve, h.mem, ih]

theorem State.TranslatesLike.cellsVa {s u : State} (h : s.TranslatesLike u) (c : Ctx) (va : Nat) (bs : List Byte) : u.cellsVa c va bs = s.cellsVa c va bs :=
  h.cellsFuel c _ va bs

/-! ## The flags a command ends with (R79) -/

/-- Bytes above a number's own are those of the other number. -/
theorem leN_or_low {f off : Nat} (hf : f < 2 ^ (8 * off)) (x n : Nat) : leN (x ||| f) off n = leN x off n := by
  rw [leN, leN, bits, bits, Nat.shiftRight_or_distrib, Nat.shiftRight_eq_zero f _ hf, Nat.or_zero]

/-- The tenant's flags are all that changes, and only their low byte. -/
theorem State.obj_flagSets (s : State) (c : Ctx) (f : Flags) (key : Nat) :
    (s.flagSets c none f).obj key = s.obj key ∨ (∃ t, key = oTenantFlags t) ∧ (s.flagSets c none f).obj key = s.obj key ||| f.toNat := by
  cases c with
  | none => exact .inl rfl
  | some t =>
    have hset : s.flagSets (some t) none f = s.setObj (oTenantFlags t) (s.obj (oTenantFlags t) ||| f.toNat) := rfl
    rw [hset, State.obj_setObj]
    split
    · next h => exact .inr ⟨⟨t, h.symm⟩, by rw [h]⟩
    · exact .inl rfl

theorem State.leN_flagSets (s : State) (c : Ctx) (f : Flags) (key n : Nat) {off : Nat} (hoff : 1 ≤ off) :
    leN ((s.flagSets c none f).obj key) off n = leN (s.obj key) off n := by
  have hf : f.toNat < 2 ^ (8 * off) := f.isLt.trans (Nat.pow_lt_pow_right (by decide) (by omega))
  rcases s.obj_flagSets c f key with h | ⟨_, h⟩
  · rw [h]
  · rw [h, leN_or_low hf]

/-- Joining flags changes no translation. -/
theorem State.translatesLike_flagSets (s : State) (c : Ctx) (f : Flags) : s.TranslatesLike (s.flagSets c none f) where
  mem := by cases c <;> rfl
  pasid := fun n => by
    rcases s.obj_flagSets c f (oTenantPasid n) with h | ⟨⟨t, ht⟩, _⟩
    · exact h
    · unfold oTenantPasid oTenantFlags at ht
      omega
  root := fun n => by
    rcases s.obj_flagSets c f (oTenantPtRoot n) with h | ⟨⟨t, ht⟩, _⟩
    · exact h
    · unfold oTenantPtRoot oTenantFlags at ht
      omega

/-! ## The record (R139, R142) -/

/-- Queue `v` once a record has been written in its next slot: `n` is the size of its CQ. -/
def Queue.recorded (v : Queue) (n : Nat) : Queue :=
  { v with cqTail := if v.cqTail + 1 = n then 0 else v.cqTail + 1, phase := if v.cqTail + 1 = n then !v.phase else v.phase, unread := v.unread + 1 }

/-- Interrupts are coalesced in the queue's counter and delay, and sent from the registers. -/
theorem State.irq_spec (s : State) (q : Nat) (now : Bool) :
    (∃ queues regs, s.irq q now = { s with queues := queues, regs := regs }) ∧
      (∃ since armed, (s.irq q now).queue q = { s.queue q with sinceIrq := since, delayArmed := armed }) ∧ ∀ n, n ≠ q → (s.irq q now).queue n = s.queue n := by
  unfold State.irq
  dsimp only
  split
  · exact ⟨⟨s.queues, s.regs, rfl⟩, ⟨(s.queue q).sinceIrq, (s.queue q).delayArmed, rfl⟩, fun _ _ => rfl⟩
  · split
    · exact ⟨⟨_, _, rfl⟩, ⟨0, false, s.queue_setQueue_self q _⟩, fun n hn => s.queue_setQueue_other _ hn⟩
    · exact ⟨⟨_, s.regs, rfl⟩, ⟨_, _, s.queue_setQueue_self q _⟩, fun n hn => s.queue_setQueue_other _ hn⟩

theorem State.putRecord_ok {s : State} {q tag status detail dig : Nat} {fl : Flags} {w : List (Nat × Byte)} (hstate : (s.queue q).state ≠ 0)
    (hdrop : (s.queue q).dropRecords = false)
    (hw : s.cellsVa (queueCtx q) (cfgCqBase (s.queueCfg q) + 32 * (s.queue q).cqTail)
      (recordBytes tag (s.queue q).sqHead q status fl (s.queue q).phase detail dig) = .ok w) (now : Bool) :
    s.putRecord q tag status fl detail dig now =
      ((s.withMem (s.mem.store w)).setQueue q ((s.queue q).recorded (cqSize (s.queueCfg q)))).irq q now := by
  unfold State.putRecord
  simp only [hstate, hdrop, hw, Bool.false_eq_true, or_self, if_false, beq_iff_eq]
  rw [Queue.recorded, hdrop]

/-! ## What the end of a command leaves -/

theorem State.talliesOnly_count (s : State) (key n : Nat) : s.TalliesOnly (s.count key n) := ⟨_, s.obs, s.freeCount, rfl⟩

theorem State.talliesOnly_spurDraws (s : State) (k n : Nat) (part : Option Nat) : s.TalliesOnly (s.spurDraws k n part) := by
  unfold State.spurDraws
  extract_lets config parts here f
  split
  · exact .refl s
  · exact ⟨_, s.obs, _, rfl⟩

theorem State.talliesOnly_charge (s : State) (t key ns bytes commands : Nat) : s.TalliesOnly (s.charge t key ns bytes commands) := by
  unfold State.charge
  dsimp only
  split
  · exact ⟨s.dict.vals, _, s.freeCount, rfl⟩
  · split
    · exact ⟨s.dict.vals, _, s.freeCount, rfl⟩
    · exact s.talliesOnly_count _ _

/-- The charges of a completed command (R395, R396, R500). -/
theorem State.talliesOnly_chargeEnd (s : State) (c : Cmd) (paddock hbm : Nat) : s.TalliesOnly (s.chargeEnd c paddock hbm) := by
  unfold State.chargeEnd State.chargeBytes
  cases c.tenant with
  | none => exact .refl s
  | some t =>
    exact ((((s.talliesOnly_count _ _).trans (State.talliesOnly_count _ _ _)).trans (State.talliesOnly_charge _ _ _ _ _ _)).trans
      (State.talliesOnly_charge _ _ _ _ _ _)).trans (State.talliesOnly_count _ _ _)

theorem State.talliesOnly_traceEnd (s : State) (c : Cmd) : s.TalliesOnly (s.traceEnd c) := by
  unfold State.traceEnd
  split
  · exact s.talliesOnly_trace _ _ _ _
  · exact s.talliesOnly_traceCommand _ _ _ _ _ _

theorem State.cmd?_dropCmd_self (s : State) (id : Nat) : (s.dropCmd id).cmd? id = none := by
  refine List.find?_eq_none.mpr (fun x hx => ?_)
  simpa using (List.mem_filter.mp hx).2

/-- Command `c` at index `idx` of queue `q` has succeeded, has no signal to perform, and has nothing to end or to release but itself. -/
structure State.EndsPlain (s : State) (c : Cmd) (q idx : Nat) : Prop where
  found : s.cmd? c.id = some c
  src : c.src = .queue q idx
  signalled : c.signalled = false
  wait : c.wait = Wait.none
  status : c.status = stSuccess
  detail : c.detail = 0
  sig : sigOp c.bytes = 0
  stats : c.stats = []
  digest : c.digest = []
  fault : c.fault = none
  pinned : c.pinned = []
  bufs : c.bufs = []
  admits : s.remuda.admits.find? (fun a => a.cmd == c.id) = none
  job : s.job? c.id = none
  runs : s.remuda.runs.any (fun r => r.cmd == some c.id && !r.handoff) = false

/-- The command once its bytes are in memory, and once its signal has been seen to. -/
def Cmd.written (c : Cmd) : Cmd := { c with writes := [] }
def Cmd.signalSeen (c : Cmd) : Cmd := { c.written with signalled := true }

/-! ## The steps of R131, where a step has nothing to do -/

section
variable {s : State} {c : Cmd}

theorem State.signalDue_none (h : sigOp c.bytes = 0) : s.signalDue c = false := by
  simp [State.signalDue, h]

theorem State.signalStep_none (hsig : sigOp c.bytes = 0) : s.signalStep c = s.setCmd { c with signalled := true } := by
  unfold State.signalStep
  rw [State.signalDue_none hsig]
  rfl

theorem State.showDigest_nil (h : c.digest = []) : s.showDigest c = s := by
  unfold State.showDigest
  rw [h, MemGroup.store_nil]
  exact ite_self s

theorem State.admitDone_none {id : Nat} (h : s.remuda.admits.find? (fun a => a.cmd == id) = none) : s.admitDone id = s := by
  unfold State.admitDone
  rw [h]

theorem State.closeGate_queue {q idx : Nat} (h : c.src = .queue q idx) : s.closeGate c = s := by
  unfold State.closeGate State.runOf
  rw [h]

theorem State.faultStep_none (hfault : c.fault = none) (hstatus : c.status = stSuccess) : s.faultStep c = s := by
  have hcontained : ¬ (c.status = stContained ∨ c.status = stPoisoned) := by rw [hstatus]; decide
  unfold State.faultStep
  rw [hfault]
  cases c.tenant with
  | none => rfl
  | some t => exact if_neg hcontained

/-- A command that has no frame, no pins and no running step only gives up its place and its grants. -/
theorem State.leave_plain (hstatus : c.status = stSuccess) (hjob : s.job? c.id = none) (hbufs : c.bufs = []) (hpinned : c.pinned = [])
    (hruns : s.remuda.runs.any (fun r => r.cmd == some c.id && !r.handoff) = false) : s.leave c = (s.dropGrants c).dropCmd c.id := by
  have hcodec : (s.codecCommit c).releaseDone c = s := by
    rw [State.codecCommit, hjob, State.releaseDone, hbufs]
    cases c.tenant <;> rfl
  have hown : s.remuda.runs.filter (fun r => r.cmd == some c.id && !r.handoff) = [] := by
    rw [List.filter_eq_nil_iff]
    exact List.any_eq_false.mp hruns
  have hothers : s.remuda.runs.filter (fun r => !(r.cmd == some c.id && !r.handoff)) = s.remuda.runs := by
    rw [List.filter_eq_self]
    exact fun r hr => by rw [Bool.eq_false_iff.mpr (List.any_eq_false.mp hruns r hr)]; rfl
  unfold State.leave
  simp only [hstatus, if_true, hcodec, State.dropGrants_remuda, hown, List.foldl_nil, State.dropCmd_remuda, hothers, hpinned, List.isEmpty_nil]
  cases c.tenant <;> rfl

end

/-! ## The end of a command -/

/-- The state once the bytes are in memory and the signal has been seen to. -/
def State.signalSeen (s : State) (c : Cmd) : State := ((s.withMem (s.mem.store c.writes)).setCmd c.written).setCmd c.signalSeen

/-- And once the flags have joined the tenant's. -/
def State.flagsJoined (s : State) (c : Cmd) : State := (s.signalSeen c).flagSets c.tenant none c.endFlags

theorem State.flagsJoined_fields (s : State) (c : Cmd) :
    (s.flagsJoined c).mem = s.mem.store c.writes ∧ (s.flagsJoined c).queues = s.queues ∧ (s.flagsJoined c).remuda = s.remuda ∧
      (s.flagsJoined c).codec = s.codec := by
  unfold State.flagsJoined
  cases c.tenant <;> exact ⟨rfl, rfl, rfl, rfl⟩

theorem State.queue_flagsJoined (s : State) (c : Cmd) (n : Nat) : (s.flagsJoined c).queue n = s.queue n := by
  obtain ⟨_, hqueues, _⟩ := s.flagsJoined_fields c
  unfold State.queue
  rw [hqueues]

/-- The record goes where it would with the bytes in memory and no more. -/
theorem State.cellsVa_flagsJoined (s : State) (c : Cmd) (x : Ctx) (va : Nat) (bs : List Byte) :
    (s.flagsJoined c).cellsVa x va bs = (s.withMem (s.mem.store c.writes)).cellsVa x va bs := by
  have hseen : (s.withMem (s.mem.store c.writes)).TranslatesLike (s.signalSeen c) := ⟨rfl, fun _ => rfl, fun _ => rfl⟩
  exact ((State.translatesLike_flagSets _ _ _).cellsVa x va bs).trans (hseen.cellsVa x va bs)

/-- The flags leave the queue's CQ_BASE and size as they are. -/
theorem State.queueCfg_flagsJoined (s : State) (c : Cmd) (q : Nat) :
    cfgCqBase ((s.flagsJoined c).queueCfg q) = cfgCqBase (s.queueCfg q) ∧ cqSize ((s.flagsJoined c).queueCfg q) = cqSize (s.queueCfg q) :=
  ⟨State.leN_flagSets _ _ _ (queueKey q) 8 (by decide), congrArg (2 ^ ·) (State.leN_flagSets _ _ _ (queueKey q) 1 (by decide))⟩

section
variable {s : State} {c : Cmd} {q idx : Nat} (h : s.EndsPlain c q idx)
include h

/-- Step 1 of R131: its bytes are in memory. -/
theorem State.EndsPlain.showWrites : s.showWrites c = (s.withMem (s.mem.store c.writes)).setCmd c.written := by
  have hok : (c.status == stSuccess) = true := beq_iff_eq.mpr h.status
  unfold State.showWrites
  extract_lets ok u0 u1 u2 u3
  have h0 : u0 = s.withMem (s.mem.store c.writes) := by
    unfold u0
    rw [State.showDigest_nil h.digest, ite_self]
  have h2 : u2 = (s.withMem (s.mem.store c.writes)).setCmd c.written := by
    rw [show u2 = c.stats.foldl (fun acc x => acc.count x.1 x.2) u1 from if_pos hok, h.stats, List.foldl_nil, show u1 = u0.setCmd c.written from rfl, h0]
  have h3 : u3 = u2 := (if_pos hok).trans (State.admitDone_none (by rw [h2]; exact h.admits))
  have hfound : u3.cmd? c.id = some c.written := by
    rw [h3, h2]
    exact State.cmd?_setCmd (s := s.withMem (s.mem.store c.writes)) h.found rfl
  rw [if_pos hok, hfound]
  dsimp only
  rw [State.closeGate_queue (c := c.written) h.src, h3, h2]

/-- It ends at once, with its record; the rest is charges and traces. -/
theorem State.EndsPlain.endCmd (paddock hbm : Nat) :
    (((s.flagsJoined c).recordStep c.signalSeen).leave c.signalSeen).TalliesOnly (s.endCmd c paddock hbm false) := by
  have hwritten : (s.showWrites c).cmd? c.id = some c.written := by
    rw [h.showWrites]
    exact State.cmd?_setCmd (s := s.withMem (s.mem.store c.writes)) h.found rfl
  have hstep : (s.showWrites c).signalStep c.written = s.signalSeen c := by
    rw [State.signalStep_none (c := c.written) h.sig, h.showWrites]
    rfl
  have hseen : (s.signalSeen c).cmd? c.id = some c.signalSeen := by
    rw [← hstep, State.signalStep_none (c := c.written) h.sig]
    exact State.cmd?_setCmd hwritten rfl
  unfold State.endCmd
  simp only [h.signalled, Bool.false_eq_true, if_false, hwritten, hstep, hseen]
  rw [if_neg (by simp [Cmd.signalSeen, Cmd.written, h.wait]), State.showDigest_nil (c := c.signalSeen) h.digest,
    State.faultStep_none (c := c.signalSeen) h.fault h.status, if_pos (show c.signalSeen.status = stSuccess from h.status)]
  exact ((State.talliesOnly_spurDraws _ _ _ _).trans (State.talliesOnly_chargeEnd _ _ _ _)).trans (State.talliesOnly_traceEnd _ _)

/-- Step 4: its record is in the next slot of the queue's CQ. -/
theorem State.EndsPlain.recordStep {w : List (Nat × Byte)} (hstate : (s.queue q).state ≠ 0) (hdrop : (s.queue q).dropRecords = false)
    (hw : (s.withMem (s.mem.store c.writes)).cellsVa (queueCtx q) (cfgCqBase (s.queueCfg q) + 32 * (s.queue q).cqTail)
      (recordBytes (le c.bytes 8 4) (s.queue q).sqHead q stSuccess (c.flags ||| c.endFlags) (s.queue q).phase 0 0) = .ok w) :
    (s.flagsJoined c).recordStep c.signalSeen = ((((s.flagsJoined c).withMem ((s.mem.store c.writes).store w)).setQueue q
      ((s.queue q).recorded (cqSize (s.queueCfg q)))).irq q (bit (le c.bytes 1 1) 3)) := by
  have hput : (s.flagsJoined c).recordStep c.signalSeen =
      (s.flagsJoined c).putRecord q (le c.bytes 8 4) stSuccess (c.flags ||| c.endFlags) 0 0 (bit (le c.bytes 1 1) 3) := by
    unfold State.recordStep
    simp [Cmd.signalSeen, Cmd.written, Cmd.summary, h.src, h.digest, h.status, h.detail]
  obtain ⟨hbase, hsize⟩ := s.queueCfg_flagsJoined c q
  obtain ⟨hmem, _⟩ := s.flagsJoined_fields c
  have hqueue := s.queue_flagsJoined c q
  rw [hput, State.putRecord_ok (by rw [hqueue]; exact hstate) (by rw [hqueue]; exact hdrop) (by rw [hqueue, hbase, s.cellsVa_flagsJoined]; exact hw),
    hqueue, hsize, hmem]

/-- The end of the command: its bytes and its record are in memory, its queue has moved, and it is gone. -/
theorem State.EndsPlain.ends {w : List (Nat × Byte)} (hstate : (s.queue q).state ≠ 0) (hdrop : (s.queue q).dropRecords = false)
    (hw : (s.withMem (s.mem.store c.writes)).cellsVa (queueCtx q) (cfgCqBase (s.queueCfg q) + 32 * (s.queue q).cqTail)
      (recordBytes (le c.bytes 8 4) (s.queue q).sqHead q stSuccess (c.flags ||| c.endFlags) (s.queue q).phase 0 0) = .ok w) (paddock hbm : Nat) :
    (s.endCmd c paddock hbm false).mem = (s.mem.store c.writes).store w ∧ (s.endCmd c paddock hbm false).cmd? c.id = none ∧
      (∃ since armed, (s.endCmd c paddock hbm false).queue q =
        { (s.queue q).recorded (cqSize (s.queueCfg q)) with sinceIrq := since, delayArmed := armed }) ∧
      ∀ n, n ≠ q → (s.endCmd c paddock hbm false).queue n = s.queue n := by
  obtain ⟨⟨queues, regs, hirq⟩, ⟨since, armed, hself⟩, hother⟩ := State.irq_spec (((s.flagsJoined c).withMem ((s.mem.store c.writes).store w)).setQueue q
    ((s.queue q).recorded (cqSize (s.queueCfg q)))) q (bit (le c.bytes 1 1) 3)
  obtain ⟨_, _, hremuda, hcodec⟩ := s.flagsJoined_fields c
  rw [← h.recordStep hstate hdrop hw] at hirq hself hother
  have hleave : ((s.flagsJoined c).recordStep c.signalSeen).leave c.signalSeen =
      (((s.flagsJoined c).recordStep c.signalSeen).dropGrants c.signalSeen).dropCmd c.id := by
    refine State.leave_plain (c := c.signalSeen) h.status ?_ h.bufs h.pinned ?_
    · unfold State.job?
      rw [hirq, State.setQueue_codec, State.withMem_codec, hcodec]
      exact h.job
    · rw [hirq, State.setQueue_remuda, State.withMem_remuda, hremuda]
      exact h.runs
  have hend := h.endCmd paddock hbm
  rw [hleave] at hend
  have hqueue : ∀ n, (s.endCmd c paddock hbm false).queue n = ((s.flagsJoined c).recordStep c.signalSeen).queue n := by
    intro n
    unfold State.queue
    rw [hend.queues]
    rfl
  refine ⟨?_, ?_, ⟨since, armed, ?_⟩, fun n hn => ?_⟩
  · rw [hend.mem, State.dropCmd_mem, State.dropGrants_mem, hirq]
    rfl
  · unfold State.cmd?
    rw [hend.exec]
    exact State.cmd?_dropCmd_self _ _
  · rw [hqueue, hself, State.queue_setQueue_self]
  · rw [hqueue, hother n hn, State.queue_setQueue_other _ _ hn]
    exact s.queue_flagsJoined c n

end

/-! ## The row -/

theorem exec_commandComplete (id paddock hbm : Nat) (s : State) :
    exec (.commandComplete id paddock hbm) s = .next (s.complete id paddock hbm).staticCheck := rfl

/-- A command may end once nothing it waits for is left (R131). -/
theorem State.wait_of_mayEnd {s : State} {c : Cmd} (h : s.mayEnd c = true) : c.wait = Wait.none := by
  simp only [State.mayEnd, Bool.and_eq_true, beq_iff_eq] at h
  tauto

/-- Settles O55: the end of a command by `EndsPlain.ends`, its signal by `signalPost_postValue`. -/
theorem commandsCompleteWithTheirRecord : Obligations.CommandsCompleteWithTheirRecord := by
  unfold Obligations.CommandsCompleteWithTheirRecord
  refine ⟨?_, fun s id pb hb c hfound hmay => ?_, fun s p v => ⟨?_, ?_, fun op r hr => ?_, fun op => s.signalPost_mem p op v⟩⟩
  · intro s id q idx pb hb c w hfound hmay hsignalled hstatus hdetail hsrc hsig hstats hdig hfault hpinned hadm hjob hbufs hruns hstate hdrop hw
    obtain rfl := State.cmd?_id hfound
    have hplain : s.EndsPlain c q idx := ⟨hfound, hsrc, hsignalled, State.wait_of_mayEnd hmay, hstatus, hdetail, hsig, hstats, hdig, hfault, hpinned, hbufs,
      hadm, hjob, hruns⟩
    obtain ⟨hmem, hgone, ⟨since, armed, hself⟩, hother⟩ := hplain.ends hstate hdrop hw pb hb
    refine ⟨s.endCmd c pb hb false, ?_, hmem, hgone, ?_, ?_, ?_, hother⟩
    · rw [exec_commandComplete, State.complete, hfound]
      exact congrArg (fun u => Host.Outcome.next (State.staticCheck u)) (if_pos hmay)
    · rw [hself]; rfl
    · rw [hself]; rfl
    · rw [hself]; rfl
  · rw [exec_commandComplete, State.complete, hfound]
    exact congrArg (fun u => Host.Outcome.next (State.staticCheck u)) (if_neg (Bool.eq_false_iff.mp hmay))
  · rw [State.signalPost_postValue, if_pos rfl, if_pos rfl]
  · rw [State.signalPost_postValue, if_pos rfl, if_neg (by decide)]
  · rw [State.signalPost_postValue, if_neg hr.symm]

end Sys2Proof.Machine

/-! SUPPORT. What an arbiter's grant leaves where the Spur may draw, and the statement about the partial store and staging. -/

namespace Sys2Proof.Machine

/-! ## Grants of an arbiter -/

/-- State `u` is `s` but for what an arbiter's grant and its charge touch: the schedule, and a draw of Spur kind 0 with its count of injections
(R392, Table 12-6). -/
structure State.GrantOnly (s u : State) : Prop where
  form : ∃ d h n, u = { s with dict := d, sched := h, freeCount := n }
  obj : ∀ key, oSpurInjected 0 ≠ key → u.obj key = s.obj key

theorem State.GrantOnly.refl (s : State) : s.GrantOnly s := ⟨⟨s.dict, s.sched, s.freeCount, rfl⟩, fun _ _ => rfl⟩

theorem State.GrantOnly.trans {s t u : State} (h : s.GrantOnly t) (k : t.GrantOnly u) : s.GrantOnly u := by
  refine ⟨?_, fun key hkey => (k.obj key hkey).trans (h.obj key hkey)⟩
  obtain ⟨_, _, _, rfl⟩ := h.form
  obtain ⟨d, h, n, rfl⟩ := k.form
  exact ⟨d, h, n, rfl⟩

theorem State.grantOnly_setArb (s : State) (n : Nat) (a : Arbiter) : s.GrantOnly (s.setArb n a) := ⟨⟨s.dict, _, s.freeCount, rfl⟩, fun _ _ => rfl⟩

theorem State.grantOnly_free (s : State) : s.GrantOnly s.free.2 := ⟨⟨s.dict, s.sched, _, rfl⟩, fun _ _ => rfl⟩

/-- A draw of kind 0 takes a free value at most, and counts what it injects (R326). -/
theorem State.grantOnly_spurDraw (s : State) (part : Option Nat) : s.GrantOnly (s.spurDraw 0 part).1 := by
  have hcount : s.free.2.GrantOnly (s.free.2.count (oSpurInjected 0) 1) :=
    ⟨⟨_, s.sched, s.free.2.freeCount, rfl⟩, fun _ hkey => s.free.2.obj_count_other 1 hkey⟩
  unfold State.spurDraw
  extract_lets config parts here f
  split
  · exact .refl s
  · split
    · exact s.grantOnly_free.trans hcount
    · exact s.grantOnly_free

theorem State.grantOnly_arbitrate (s : State) (n : Nat) (inc : Nat → Nat) (reqs : List (Nat × Nat)) : s.GrantOnly (s.arbitrate n inc reqs).1 := by
  unfold State.arbitrate
  split
  · exact .refl s
  · next w _ =>
    have hdraw := s.grantOnly_spurDraw (s.tagPartition w.1)
    dsimp only
    split
    · exact hdraw.trans (State.grantOnly_free _)
    · exact hdraw.trans (State.grantOnly_setArb _ _ _)

theorem State.grantOnly_grantTo {s : State} {n quantum name : Nat} {reqs : List (Nat × Nat)} {g : State × Nat}
    (hg : s.grantTo n quantum name reqs = some g) : s.GrantOnly g.1 := by
  have h := s.grantOnly_arbitrate n (s.shareInc quantum) reqs
  unfold State.grantTo at hg
  split at hg
  · next s1 r hr =>
    split at hg
    · cases hg
      rwa [hr] at h
    · cases hg
  · cases hg

/-! ## The partial store (R158, R182) -/

theorem exec_partialStoreGrant (id ti : Nat) (s : State) : exec (.partialStoreGrant id ti) s = .next (s.partialGrant id ti) := rfl

/-- Tile `x`, the `i`th of its command, once the output tile of `t` has its grant: all its segments fill, and the first holds the bytes. -/
def Tile.given (t : Tile) (first i : Nat) (x : Tile) : Tile :=
  if sameOutput t x then { x with state := if x.slices = 0 then .drain else .fill, granted := if i = first then t.grant else 0 } else x

/-- A tile with a grant to take is of its own output tile. -/
theorem Tile.given_self {t : Tile} (h : 0 < t.grant) (first i : Nat) :
    t.given first i t = { t with state := if t.slices = 0 then .drain else .fill, granted := if i = first then t.grant else 0 } :=
  if_pos (by simp [sameOutput, h])

/-- The command of tile `ti` once that tile's output tile has its grant. -/
def Cmd.given (c : Cmd) (t : Tile) (ti : Nat) : Cmd := { c with tiles := c.tiles.mapIdx (t.given (firstTile c t ti)) }

/-- The elements of a list taken by their indices, each mapped with its index. -/
theorem filterMap_range_getElem? {α β : Type} (l : List α) (f : Nat → α → β) :
    (List.range l.length).filterMap (fun i => (l[i]?).map (f i)) = l.mapIdx f := by
  induction l generalizing f with
  | nil => rfl
  | cons x rest ih =>
    rw [List.length_cons, List.range_succ_eq_map, List.filterMap_cons, List.filterMap_map, List.mapIdx_cons]
    exact congrArg (f 0 x :: ·) (ih fun i => f (i + 1))

/-- The state in which the output tile of tile `ti` has its grant, before the peak is noted and the grant charged. -/
def State.giveTile (s : State) (c : Cmd) (t : Tile) (ti : Nat) : State :=
  ({ s with exec := { s.exec with granted := s.exec.granted + t.grant } } : State).setCmd (c.given t ti)

/-- And with the peak noted and the grant charged to `tag`. -/
def State.chargeTile (s : State) (tag : Nat) (c : Cmd) (t : Tile) (ti : Nat) : State :=
  ((s.giveTile c t ti).setObj oPartialStorePeak
    (max ((s.giveTile c t ti).obj oPartialStorePeak) (ceilDiv (s.giveTile c t ti).exec.granted (2 ^ 20)))).chargeArb arbPartialStore tag t.grant
      ((s.giveTile c t ti).grantReqs.any (fun r => r.1 == tag))

/-- The peak never falls. -/
theorem State.peak_le_chargeTile (s : State) (tag : Nat) (c : Cmd) (t : Tile) (ti : Nat) :
    s.obj oPartialStorePeak ≤ (s.chargeTile tag c t ti).obj oPartialStorePeak :=
  (le_max_left (s.obj oPartialStorePeak) _).trans_eq (State.obj_setObj_self (s.giveTile c t ti) _ _).symm

/-- The command whose tile is given its grant is found with all segments of that tile given theirs. -/
theorem State.tile?_chargeTile {s : State} {id ti : Nat} {c : Cmd} {t : Tile} (h : s.tile? id ti = some (c, t)) (tag : Nat) :
    (s.chargeTile tag c t ti).tile? id ti = some (c.given t ti, t.given (firstTile c t ti) ti t) := by
  obtain ⟨hc, hti⟩ := State.tile?_iff.mp h
  have hid : (c.given t ti).id = id := State.cmd?_id (c := c) hc
  refine State.tile?_iff.mpr ⟨?_, ?_⟩
  · exact State.cmd?_setCmd (s := { s with exec := { s.exec with granted := s.exec.granted + t.grant } }) hc hid
  · rw [Cmd.given, List.getElem?_mapIdx, hti, Option.map_some]

section
variable {s : State} {id ti : Nat} {c : Cmd} {t : Tile} (htile : s.tile? id ti = some (c, t)) (hmove : s.tilesMove c.tenant = true)
  (hwait : t.state = .waitGrant)
include htile hmove hwait

/-- What a grant that fits comes to: the arbiter's answer decides. -/
theorem State.partialGrant_fits (hroom : s.exec.granted + t.grant ≤ 2 ^ 30) :
    s.partialGrant id ti = (s.grantTo arbPartialStore 65536 (tileName id (firstTile c t ti)) s.grantReqs).elim s
      (fun g => g.1.chargeTile g.2 c t ti) := by
  unfold State.partialGrant
  rw [htile]
  dsimp only
  rw [if_neg (by simp [hmove, hwait]), if_neg (by omega)]
  cases hg : s.grantTo arbPartialStore 65536 (tileName id (firstTile c t ti)) s.grantReqs with
  | none => rfl
  | some g =>
    have hexec : g.1.exec = s.exec := by
      obtain ⟨_, _, _, h⟩ := (State.grantOnly_grantTo hg).form
      rw [h]
    have htiles := filterMap_range_getElem? c.tiles (t.given (firstTile c t ti))
    unfold Tile.given at htiles
    dsimp only
    rw [htiles, ← hexec]
    rfl

/-- R158: the arbiter's next output tile gets its grant, and its tiles fill. -/
theorem State.partialGrant_given (hroom : s.exec.granted + t.grant ≤ 2 ^ 30) {g : State × Nat}
    (hg : s.grantTo arbPartialStore 65536 (tileName id (firstTile c t ti)) s.grantReqs = some g) :
    (s.partialGrant id ti).exec.granted = s.exec.granted + t.grant ∧
      (s.partialGrant id ti).tile? id ti = some (c.given t ti, t.given (firstTile c t ti) ti t) ∧
      s.obj oPartialStorePeak ≤ (s.partialGrant id ti).obj oPartialStorePeak ∧ (s.partialGrant id ti).mem = s.mem ∧
      (s.partialGrant id ti).queues = s.queues := by
  have hpeak : g.1.obj oPartialStorePeak = s.obj oPartialStorePeak := (State.grantOnly_grantTo hg).obj _ (by decide)
  have heq : s.partialGrant id ti = g.1.chargeTile g.2 c t ti := by rw [State.partialGrant_fits htile hmove hwait hroom, hg, Option.elim_some]
  obtain ⟨d, h, n, hform⟩ := (State.grantOnly_grantTo hg).form
  have htile' : g.1.tile? id ti = some (c, t) := by rw [hform]; exact htile
  rw [heq]
  refine ⟨?_, State.tile?_chargeTile htile' g.2, hpeak.symm.trans_le (g.1.peak_le_chargeTile g.2 c t ti), ?_, ?_⟩ <;> rw [hform] <;> rfl

/-- R182: a request that does not fit is counted the first time it waits. -/
theorem State.partialGrant_counted (hroom : 2 ^ 30 < s.exec.granted + t.grant)
    (hfirst : (c.tiles.filter (sameOutput t)).any (fun (x : Tile) => x.waited) = false) :
    s.partialGrant id ti = (s.setCmd { c with tiles := c.tiles.set ti { t with waited := true } }).count oPartialStoreWaits 1 := by
  unfold State.partialGrant
  rw [htile]
  dsimp only
  rw [if_neg (by simp [hmove, hwait]), if_pos hroom, if_neg (by simp [hfirst]), State.setTile_eq (State.tile?_iff.mp htile).1]

end

/-! ## Staging (R379) -/

theorem exec_collectiveStagingGrant (id k : Nat) (s : State) : exec (.collectiveStagingGrant id k) s = .next (s.stagingGrant id k) := rfl

/-- A collective whose chunk `k` has its staging. -/
def Coll.grantChunk (c : Coll) (k : Nat) (ch : Chunk) : Coll := { c with chunks := c.chunks.set k { ch with granted := true } }

section
variable {s : State} {id k : Nat} {c : Coll} {ch : Chunk} (hcoll : s.coll? id = some c) (hchunk : c.chunks[k]? = some ch)
include hcoll hchunk

/-- A chunk that staging has no room for waits. -/
theorem State.stagingGrant_full (hroom : stagingBytes < s.stagingUsed + ch.bytes) : s.stagingGrant id k = s := by
  unfold State.stagingGrant
  rw [hcoll]
  dsimp only
  rw [hchunk]
  exact if_pos (by simp [hroom])

/-- A chunk whose turn it is not at the arbiter waits. -/
theorem State.stagingGrant_refused (hg : s.grantTo arbStaging 65536 (id * 2 ^ 32 + k) s.stagingReqs = none) : s.stagingGrant id k = s := by
  unfold State.stagingGrant
  rw [hcoll]
  dsimp only
  rw [hchunk]
  dsimp only
  rw [hg, ite_self]

/-- The arbiter's next chunk gets its staging, and its read requests go out. -/
theorem State.stagingGrant_given (hwait : ch.granted = false) (hroom : s.stagingUsed + ch.bytes ≤ stagingBytes) {g : State × Nat}
    (hg : s.grantTo arbStaging 65536 (id * 2 ^ 32 + k) s.stagingReqs = some g) :
    s.stagingGrant id k =
      ((g.1.setColl (c.grantChunk k ch)).chargeArb arbStaging g.2 ch.bytes
        ((g.1.setColl (c.grantChunk k ch)).stagingReqs.any (fun r => r.1 == g.2))).sendPulls (c.grantChunk k ch) false := by
  unfold State.stagingGrant
  rw [hcoll]
  dsimp only
  rw [hchunk]
  dsimp only
  rw [if_neg (by simp [hwait]; omega), hg]
  rfl

end

/-- What a state holds once a collective has been put and the arbiter charged: the collective, and the grant's own marks. -/
theorem State.GrantOnly.setColl_chargeArb {s u : State} (hu : s.GrantOnly u) (c : Coll) (n tag cost : Nat) (more : Bool) :
    ((u.setColl c).chargeArb n tag cost more).fabric = (s.setColl c).fabric ∧
      (u.setColl c).chargeArb n tag cost more = { s with
        fabric := ((u.setColl c).chargeArb n tag cost more).fabric, sched := ((u.setColl c).chargeArb n tag cost more).sched,
        dict := ((u.setColl c).chargeArb n tag cost more).dict, freeCount := ((u.setColl c).chargeArb n tag cost more).freeCount } := by
  obtain ⟨_, _, _, rfl⟩ := hu.form
  exact ⟨rfl, rfl⟩

/-- Settles O37: the partial store by `partialGrant_given`, `partialGrant_fits` and `partialGrant_counted`, staging by the three `stagingGrant_` lemmas. -/
theorem grantsAreGivenWithinTheirStores : Obligations.GrantsAreGivenWithinTheirStores := by
  unfold Obligations.GrantsAreGivenWithinTheirStores
  refine ⟨fun s id ti c t g htile hmove hwait hroom hgrant hg => ?_, fun s id ti c t htile hmove hwait hroom hg => ?_,
    fun s id ti c t htile hmove hwait hroom hfirst => ⟨_, exec_partialStoreGrant id ti s, ?_⟩,
    fun s id k c ch g hcoll hchunk hwait hroom hg => ?_, fun s id k c ch hcoll hchunk _ hg => ?_, fun s id k c ch hcoll hchunk hroom => ?_⟩
  · obtain ⟨hgranted, htile', hpeak, hmem, hqueues⟩ := State.partialGrant_given htile hmove hwait hroom hg
    refine ⟨_, t.given (firstTile c t ti) ti t, exec_partialStoreGrant id ti s, hgranted, congrArg (Option.map Prod.snd) htile', ?_, hpeak, hmem, hqueues⟩
    rw [Tile.given_self hgrant]
  · rw [exec_partialStoreGrant, State.partialGrant_fits htile hmove hwait hroom, hg, Option.elim_none]
  · rw [State.partialGrant_counted htile hmove hwait hroom hfirst]
    exact ⟨rfl, State.obj_setObj_self _ _ _, rfl, rfl⟩
  · exact ⟨_, (exec_collectiveStagingGrant id k s).trans (congrArg Host.Outcome.next (State.stagingGrant_given hcoll hchunk hwait hroom hg)),
      (State.grantOnly_grantTo hg).setColl_chargeArb (c.grantChunk k ch) _ _ _ _⟩
  · rw [exec_collectiveStagingGrant, State.stagingGrant_refused hcoll hchunk hg]
  · rw [exec_collectiveStagingGrant, State.stagingGrant_full hcoll hchunk hroom]

end Sys2Proof.Machine

/-! SUPPORT. Read requests and their result objects, and the statement about them. -/

namespace Sys2Proof.Machine

/-! ## What a write leaves, seen through its answer -/

namespace State.AnsweredFrom
variable {u t : State}

theorem seq (h : u.AnsweredFrom t) (key : Nat) : t.dict.seq key = u.dict.seq key :=
  h.elim fun _ ha => (congrArg (fun q => q.dict.seq key) ha :)
theorem remuda (h : u.AnsweredFrom t) : t.remuda = u.remuda := h.elim fun _ ha => (congrArg State.remuda ha :)
theorem fabric (h : u.AnsweredFrom t) : t.fabric = u.fabric := h.elim fun _ ha => (congrArg State.fabric ha :)
theorem log (h : u.AnsweredFrom t) : t.ostler.log = u.ostler.log := h.elim fun _ ha => (congrArg (fun q => q.ostler.log) ha :)

end State.AnsweredFrom

/-! ## Results (R451) -/

theorem State.obj_answerObj_self (s : State) (res v seq : Nat) : (s.answerObj res v seq).obj res = v := Store.get_set_self _ _ res v

theorem State.seq_answerObj_self (s : State) (res v seq : Nat) : (s.answerObj res v seq).dict.seq res = seq := Store.get_set_self 0 _ res seq

theorem State.seq_answerObj_other (s : State) {res key : Nat} (v seq : Nat) (h : res ≠ key) :
    (s.answerObj res v seq).dict.seq key = s.dict.seq key := Store.get_set_other 0 _ seq h

/-- State `t` is `s` once the write of read request `key` is counted and answered in object `res` with `v`, but for reports. -/
structure State.ReadAnswered (s : State) (key res v : Nat) (t : State) : Prop where
  answered : ((s.counted key).answerObj res v ((s.counted key).dict.seq key)).AnsweredFrom t
  result_ne : res ≠ key

namespace State.ReadAnswered
variable {s t : State} {key res v : Nat}

theorem obj (h : s.ReadAnswered key res v t) : t.obj res = v := (h.answered.obj res).trans (State.obj_answerObj_self _ res v _)

theorem seq_request (h : s.ReadAnswered key res v t) : t.dict.seq key = (s.counted key).dict.seq key :=
  (h.answered.seq key).trans (State.seq_answerObj_other _ v _ h.result_ne)

/-- R451: the result has the write-sequence number of its request. -/
theorem seq (h : s.ReadAnswered key res v t) : t.dict.seq res = t.dict.seq key := by
  rw [h.seq_request, h.answered.seq, State.seq_answerObj_self]

theorem exec (h : s.ReadAnswered key res v t) : t.exec = s.exec := h.answered.exec
theorem remuda (h : s.ReadAnswered key res v t) : t.remuda = s.remuda := h.answered.remuda
theorem fabric (h : s.ReadAnswered key res v t) : t.fabric = s.fabric := h.answered.fabric
theorem obs (h : s.ReadAnswered key res v t) : t.obs = s.obs := h.answered.obs
theorem log (h : s.ReadAnswered key res v t) : t.ostler.log = s.ostler.log := h.answered.log

end State.ReadAnswered

/-! ## The requests

What the values answered are read from is not what counting the write changes, so each is stated of the state before. -/

section
variable {s : State} {via : Via} {r v : Nat} {n : Fin 1024}

/-- R261: the image of an entry. -/
theorem State.viaWrite_remudaReadReq (h : s.takesWrite via r (oTenantRemudaReadReq n.val) v) :
    s.ReadAnswered (oTenantRemudaReadReq n.val) (oTenantRemudaRead n.val) (s.imageOf v) (s.viaWrite via (oTenantRemudaReadReq n.val) v) := by
  refine ⟨?_, by unfold oTenantRemudaRead oTenantRemudaReadReq; omega⟩
  have ht := State.viaWrite_effect h
  rw [oTenantRemudaReadReq, State.applyEffect_tenant _ r v _ n (by decide)] at ht
  exact ht

/-- R282: a draw of the generators; the probe's word has the request's number in it. -/
theorem State.viaWrite_rngProbeRequest (h : s.takesWrite via r oRngProbeRequest v) :
    s.ReadAnswered oRngProbeRequest oRngProbeResult (s.rngProbe v ((s.counted oRngProbeRequest).dict.seq oRngProbeRequest))
      (s.viaWrite via oRngProbeRequest v) :=
  ⟨State.viaWrite_effect h, by decide⟩

/-- R385: a post's value, with the request's number above it. -/
theorem State.viaWrite_postReadReq (h : s.takesWrite via r (oTenantPostReadReq n.val) v) :
    s.ReadAnswered (oTenantPostReadReq n.val) (oTenantPostRead n.val)
      (s.postValue v + (s.counted (oTenantPostReadReq n.val)).dict.seq (oTenantPostReadReq n.val) * 2 ^ 64)
      (s.viaWrite via (oTenantPostReadReq n.val) v) := by
  refine ⟨?_, by unfold oTenantPostRead oTenantPostReadReq; omega⟩
  have ht := State.viaWrite_effect h
  rw [oTenantPostReadReq, State.applyEffect_tenant _ r v _ n (by decide)] at ht
  exact ht

/-- R501: the tenant's entry of the key asked for. -/
theorem State.viaWrite_attribReadReq (h : s.takesWrite via r (oTenantAttribReadReq n.val) v) :
    s.ReadAnswered (oTenantAttribReadReq n.val) (oTenantAttribRead n.val) (s.attribResult n.val v)
      (s.viaWrite via (oTenantAttribReadReq n.val) v) := by
  refine ⟨?_, by unfold oTenantAttribRead oTenantAttribReadReq; omega⟩
  have ht := State.viaWrite_effect h
  rw [oTenantAttribReadReq, State.applyEffect_tenant _ r v _ n (by decide)] at ht
  exact ht

/-- R463: a record of the log. -/
theorem State.viaWrite_logReadReq (h : s.takesWrite via r oLogReadReq v) :
    s.ReadAnswered oLogReadReq oLogRead (s.logRecord v) (s.viaWrite via oLogReadReq v) :=
  ⟨State.viaWrite_effect h, by decide⟩

end

/-! ## The rows -/

theorem exec_tenantRemudaReadReq (via : Via) (n : Fin 1024) (v : Nat) (s : State) :
    exec (.tenantRemudaReadReq via n v) s = .next (s.viaWrite via (oTenantRemudaReadReq n.val) v) := rfl

theorem exec_rngProbeRequest (via : Via) (v : Nat) (s : State) : exec (.rngProbeRequest via v) s = .next (s.viaWrite via oRngProbeRequest v) := rfl

theorem exec_tenantPostReadReq (via : Via) (n : Fin 1024) (v : Nat) (s : State) :
    exec (.tenantPostReadReq via n v) s = .next (s.viaWrite via (oTenantPostReadReq n.val) v) := rfl

theorem exec_tenantAttribReadReq (via : Via) (n : Fin 1024) (v : Nat) (s : State) :
    exec (.tenantAttribReadReq via n v) s = .next (s.viaWrite via (oTenantAttribReadReq n.val) v) := rfl

theorem exec_logReadReq (via : Via) (v : Nat) (s : State) : exec (.logReadReq via v) s = .next (s.viaWrite via oLogReadReq v) := rfl

/-- Settles O25: each request's write is answered in its result object; the rest of the write is counting and reports. -/
theorem readRequestsAreAnswered : Obligations.ReadRequestsAreAnswered := by
  unfold Obligations.ReadRequestsAreAnswered
  refine ⟨fun s via r n v h => ⟨_, exec_tenantRemudaReadReq via n v s, ?_⟩, fun s via r v h => ⟨_, exec_rngProbeRequest via v s, ?_⟩,
    fun s via r n v h => ⟨_, exec_tenantPostReadReq via n v s, ?_⟩, fun s via r n v h => ⟨_, exec_tenantAttribReadReq via n v s, ?_⟩,
    fun s via r v h => ⟨_, exec_logReadReq via v s, ?_⟩⟩
  · have ht := State.viaWrite_remudaReadReq h
    exact ⟨ht.obj, ht.seq, ht.remuda, ht.exec⟩
  · have ht := State.viaWrite_rngProbeRequest h
    rw [ht.seq_request]
    exact ⟨ht.obj, ht.exec⟩
  · have ht := State.viaWrite_postReadReq h
    rw [ht.seq_request]
    exact ⟨ht.obj, ht.fabric, ht.exec⟩
  · have ht := State.viaWrite_attribReadReq h
    exact ⟨ht.obj, ht.obs, ht.exec⟩
  · have ht := State.viaWrite_logReadReq h
    exact ⟨ht.obj, ht.seq, ht.log, ht.exec⟩

end Sys2Proof.Machine

/-! SUPPORT. What a STEP, a PUT and a command that is not fused launch, and the statement about them. -/

namespace Sys2Proof.Machine

/-! ## STEP (R236, R238, R255) -/

/-- The run number `n` a STEP waits as, of the pen descriptor `d` (R236, R255). -/
def waitingRun (e : Env) (id t : Nat) (c : Cmd) (d : List Byte) (n : Nat) : Run :=
  newRun n t (e.f 96 1) false (some id) d (le d 24 8 != 0) (match c.src with | .queue q i => (q, i) | .program _ _ => (0, 0)) none []

@[simp] theorem State.addRun_runs (s : State) (f : Nat → Run) : (s.addRun f).remuda.runs = s.remuda.runs ++ [f s.remuda.nextRun] := rfl
@[simp] theorem State.addRun_cmd? (s : State) (f : Nat → Run) (i : Nat) : (s.addRun f).cmd? i = s.cmd? i := rfl
@[simp] theorem State.holdRoom_mem (s : State) (q : Nat) (n : Int) : (s.holdRoom q n).mem = s.mem := rfl
@[simp] theorem State.holdRoom_remuda (s : State) (q : Nat) (n : Int) : (s.holdRoom q n).remuda = s.remuda := rfl
@[simp] theorem State.holdRoom_cmd? (s : State) (q : Nat) (n : Int) (i : Nat) : (s.holdRoom q n).cmd? i = s.cmd? i := rfl

/-- The state a STEP's run has joined, with room held where its descriptor asks for a hand-off record (R255). -/
def State.addStepRun (s : State) (e : Env) (id t : Nat) (c : Cmd) (d : List Byte) : State :=
  if (waitingRun e id t c d s.remuda.nextRun).holdsRoom = true then (s.addRun (waitingRun e id t c d)).holdRoom (handoffQueue t d) 1
  else s.addRun (waitingRun e id t c d)

theorem State.addStepRun_spec (s : State) (e : Env) (id t : Nat) (c : Cmd) (d : List Byte) :
    (s.addStepRun e id t c d).remuda.runs = s.remuda.runs ++ [waitingRun e id t c d s.remuda.nextRun] ∧
      (∀ i, (s.addStepRun e id t c d).cmd? i = s.cmd? i) ∧ (s.addStepRun e id t c d).mem = s.mem := by
  unfold State.addStepRun
  split <;> simp

section
variable {s : State} {e : Env} {id t : Nat} {c : Cmd} {d : List Byte}

/-- A STEP's run joins the runs, and the command waits for it. -/
theorem launchStep_eq (hctx : e.ctx = some t) (hcmd : s.cmd? id = some c) (hdesc : s.readVa e.ctx (e.f 88 8) 640 = .ok d) :
    launchStep s e id = (s.addStepRun e id t c d).setCmd { c with wait := Wait.step s.remuda.nextRun } := by
  unfold launchStep
  rw [hcmd, hdesc, hctx]
  rfl

theorem launchStep_spec (hctx : e.ctx = some t) (hcmd : s.cmd? id = some c) (hdesc : s.readVa e.ctx (e.f 88 8) 640 = .ok d) :
    (launchStep s e id).remuda.runs = s.remuda.runs ++ [waitingRun e id t c d s.remuda.nextRun] ∧
      (launchStep s e id).cmd? id = some { c with wait := Wait.step s.remuda.nextRun } ∧ (launchStep s e id).mem = s.mem := by
  obtain ⟨hruns, hcmds, hmem⟩ := s.addStepRun_spec e id t c d
  have hid : c.id = id := State.cmd?_id hcmd
  rw [launchStep_eq hctx hcmd hdesc]
  exact ⟨hruns, State.cmd?_setCmd ((hcmds id).trans hcmd) hid, hmem⟩

end

/-! ## PUT (R370) -/

/-- A PUT to this device sends no packet. -/
theorem launchPut_here {s : State} {e : Env} {id : Nat} (h : putScope (e.f 104 8) = 0) : launchPut s e id = s := by
  unfold launchPut
  cases s.cmd? id with
  | none => rfl
  | some c => exact if_pos h

/-- A PUT to a device declared unreachable fails. -/
theorem launchPut_unreachable {s : State} {e : Env} {id : Nat} {c : Cmd} (hcmd : s.cmd? id = some c)
    (hscope : putScope (e.f 104 8) = 1 ∨ putScope (e.f 104 8) = 2) (hdev : s.fabric.unreachable.contains (s.putDevice (e.f 104 8)) = true) :
    launchPut s e id = s.failCmd id stPeer 0 none := by
  have hhere : putScope (e.f 104 8) ≠ 0 := by omega
  have hlineage : putScope (e.f 104 8) ≠ 3 := by omega
  unfold launchPut
  rw [hcmd]
  dsimp only
  rw [if_neg hhere, if_neg hlineage, if_pos hdev]

/-! ## Fused commands (R174, R374) -/

/-- A fused MATMUL or ATTEND drives a collective, so a command that drives none is not fused. -/
theorem fuseMode_of_drivesColl_false {b : List Byte} (h : drivesColl b = false) : fuseMode b ≠ 1 ∧ fuseMode b ≠ 2 := by
  unfold drivesColl at h
  unfold fuseMode
  split at h
  · cases h
  · next hop => simpa [hop] using h
  · next hop => simpa [hop] using h
  · next hmatmul hattend =>
    split
    · exact absurd ‹_› hmatmul
    · exact absurd ‹_› hattend
    · decide

theorem launchFused_of_drivesColl_false {s : State} {e : Env} {id : Nat} (h : drivesColl e.cmd = false) : launchFused s e id = s := by
  unfold launchFused
  exact if_pos (fuseMode_of_drivesColl_false h)

/-- Settles O54: the run of a STEP, the PUTs that send no packet, and the commands that drive no collective. -/
theorem commandsLaunchTheirWork : Obligations.CommandsLaunchTheirWork := by
  unfold Obligations.CommandsLaunchTheirWork
  refine ⟨fun s e id t c d hctx hcmd hdesc => ?_, fun s e id c hcmd hscope hdev => launchPut_unreachable hcmd hscope hdev,
    fun s e id h => launchPut_here h, fun s e id h => launchFused_of_drivesColl_false h⟩
  obtain ⟨hruns, hwait, hmem⟩ := launchStep_spec hctx hcmd hdesc
  exact ⟨waitingRun e id t c d s.remuda.nextRun, hruns, rfl, rfl, rfl, rfl, rfl, rfl, rfl, rfl, hwait, hmem⟩

end Sys2Proof.Machine

/-! SUPPORT. Frame jobs and their buffers after an update, what the grant of engines leaves, and the statement about frames. -/

namespace Sys2Proof.Machine

/-! ## Jobs -/

theorem State.job?_cmd {s : State} {id : Nat} {j : CodecJob} (h : s.job? id = some j) : j.cmd = id := by
  simpa using List.find?_some h

/-- A job that is put back is found under its command; every other command has the job it had. -/
theorem State.job?_setJob (s : State) (d : CodecJob) (id : Nat) :
    (s.setJob d).job? id = (s.job? id).map (fun x => if x.cmd = d.cmd then d else x) := by
  have hkey : ((fun x : CodecJob => x.cmd == id) ∘ fun x => if x.cmd = d.cmd then d else x) = fun x => x.cmd == id := by
    funext x
    simp only [Function.comp_apply]
    split
    · next h => rw [h]
    · rfl
  unfold State.job? State.setJob
  rw [List.find?_map, hkey]

theorem State.job?_setJob_self {s : State} {id : Nat} {j d : CodecJob} (h : s.job? id = some j) (hd : d.cmd = id) : (s.setJob d).job? id = some d := by
  rw [State.job?_setJob, h, Option.map_some, if_pos ((State.job?_cmd h).trans hd.symm)]

/-! ## Engines (R283, R392) -/

/-- State `u` is `s` but for what giving engines to frames that wait touches: the grants' own marks, and the engine each job has. -/
structure State.EnginesGiven (s u : State) : Prop where
  form : ∃ d h n l, u = { s with dict := d, sched := h, freeCount := n, codec := { s.codec with jobs := l } }
  job : ∀ id j, s.job? id = some j → ∃ e, u.job? id = some { j with engine := e }

namespace State.EnginesGiven
variable {s t u : State}

theorem refl (s : State) : s.EnginesGiven s := ⟨⟨s.dict, s.sched, s.freeCount, s.codec.jobs, rfl⟩, fun _ j hj => ⟨j.engine, hj⟩⟩

theorem trans (h : s.EnginesGiven t) (k : t.EnginesGiven u) : s.EnginesGiven u where
  form := by
    obtain ⟨_, _, _, _, rfl⟩ := h.form
    obtain ⟨d, h, n, l, rfl⟩ := k.form
    exact ⟨d, h, n, l, rfl⟩
  job := fun id j hj => by
    obtain ⟨_, ht⟩ := h.job id j hj
    obtain ⟨e, hu⟩ := k.job id _ ht
    exact ⟨e, hu⟩

theorem mem (h : s.EnginesGiven u) : u.mem = s.mem := by
  obtain ⟨_, _, _, _, rfl⟩ := h.form
  rfl

theorem queues (h : s.EnginesGiven u) : u.queues = s.queues := by
  obtain ⟨_, _, _, _, rfl⟩ := h.form
  rfl

theorem exec (h : s.EnginesGiven u) : u.exec = s.exec := by
  obtain ⟨_, _, _, _, rfl⟩ := h.form
  rfl

theorem codec (h : s.EnginesGiven u) : u.codec = { s.codec with jobs := u.codec.jobs } := by
  obtain ⟨_, _, _, _, rfl⟩ := h.form
  rfl

theorem cmd? (h : s.EnginesGiven u) (id : Nat) : u.cmd? id = s.cmd? id := by
  unfold State.cmd?
  rw [h.exec]

theorem buf (h : s.EnginesGiven u) (t b : Nat) : u.buf t b = s.buf t b := by
  unfold State.buf
  rw [h.codec]

end State.EnginesGiven

theorem State.GrantOnly.enginesGiven {s u : State} (h : s.GrantOnly u) : s.EnginesGiven u := by
  obtain ⟨d, sched, n, rfl⟩ := h.form
  exact ⟨⟨d, sched, n, s.codec.jobs, rfl⟩, fun _ j hj => ⟨j.engine, hj⟩⟩

theorem State.enginesGiven_setJob {s : State} {i : Nat} {j : CodecJob} (hj : s.job? i = some j) (e : Option Nat) :
    s.EnginesGiven (s.setJob { j with engine := e }) := by
  refine ⟨⟨s.dict, s.sched, s.freeCount, _, rfl⟩, fun id x hx => ?_⟩
  rw [State.job?_setJob, hx, Option.map_some]
  by_cases hid : x.cmd = j.cmd
  · obtain rfl : id = i := (State.job?_cmd hx).symm.trans (hid.trans (State.job?_cmd hj))
    obtain rfl : x = j := Option.some.inj (hx.symm.trans hj)
    exact ⟨e, by rw [if_pos rfl]⟩
  · exact ⟨x.engine, by rw [if_neg hid]⟩

theorem State.enginesGiven_foldl {α : Type} {f : State → α → State} (hf : ∀ (s : State) a, s.EnginesGiven (f s a)) (l : List α) (s : State) :
    s.EnginesGiven (l.foldl f s) := by
  induction l generalizing s with
  | nil => exact .refl s
  | cons a rest ih => exact (hf s a).trans (ih (f s a))

theorem State.enginesGiven_assignOne (s : State) (enc : Bool) : s.EnginesGiven (s.assignOne enc) := by
  have hgrant := (s.grantOnly_arbitrate (codecArb enc) (s.shareInc 1) (s.engineReqs enc)).enginesGiven
  unfold State.assignOne
  split
  · exact .refl s
  · split
    · next s1 r hr =>
      rw [hr] at hgrant
      split
      · next j hj => exact (hgrant.trans (State.enginesGiven_setJob hj _)).trans (State.grantOnly_setArb _ _ _).enginesGiven
      · exact hgrant
    · next s1 hr => rwa [hr] at hgrant

theorem State.enginesGiven_assignEngines (s : State) : s.EnginesGiven s.assignEngines :=
  (State.enginesGiven_foldl (fun x _ => x.enginesGiven_assignOne true) _ s).trans (State.enginesGiven_foldl (fun x _ => x.enginesGiven_assignOne false) _ _)

/-- A job and its command put back around the grant of engines: the job may have gained an engine, the command is as it was put. -/
theorem State.EnginesGiven.found_setCmd {s u : State} {id : Nat} {j d : CodecJob} {c c' : Cmd} (hu : (s.setJob d).EnginesGiven u)
    (hj : s.job? id = some j) (hd : d.cmd = id) (hc : s.cmd? id = some c) (hc' : c'.id = c.id) :
    (∃ e, (u.setCmd c').job? id = some { d with engine := e }) ∧ (u.setCmd c').cmd? id = some c' :=
  ⟨hu.job id d (State.job?_setJob_self hj hd), State.cmd?_setCmd ((hu.cmd? id).trans hc) (hc'.trans (State.cmd?_id hc))⟩

/-! ## Buffers (R303) -/

/-- Buffers `l` of tenant `t` reserved. -/
def State.reserveBufs (s : State) (t : Nat) (l : List Nat) : State := (l.foldl (fun (acc : State) b => acc.setBuf t b 1) s).syncBufs t

theorem State.foldl_setBuf_form (t v : Nat) (l : List Nat) (s : State) :
    ∃ m, l.foldl (fun (acc : State) b => acc.setBuf t b v) s = { s with codec := { s.codec with bufs := m } } := by
  induction l generalizing s with
  | nil => exact ⟨s.codec.bufs, rfl⟩
  | cons a rest ih =>
    obtain ⟨m, hm⟩ := ih (s.setBuf t a v)
    exact ⟨m, hm⟩

theorem State.buf_setBuf (s : State) (t b v r : Nat) : (s.setBuf t b v).buf t r = if bufKey t b = bufKey t r then v else s.buf t r :=
  Store.get_set 0 s.codec.bufs _ _ v

theorem State.buf_foldl_setBuf_of_eq {t v r : Nat} (l : List Nat) (s : State) (h : s.buf t r = v) :
    (l.foldl (fun (acc : State) b => acc.setBuf t b v) s).buf t r = v := by
  induction l generalizing s with
  | nil => exact h
  | cons a rest ih => exact ih _ (by rw [State.buf_setBuf, h, ite_self])

theorem State.buf_foldl_setBuf {t v r : Nat} {l : List Nat} (hr : r ∈ l) (s : State) :
    (l.foldl (fun (acc : State) b => acc.setBuf t b v) s).buf t r = v := by
  induction l generalizing s with
  | nil => cases hr
  | cons a rest ih =>
    cases hr with
    | head => exact State.buf_foldl_setBuf_of_eq rest _ (by rw [State.buf_setBuf, if_pos rfl])
    | tail _ hr => exact ih hr _

theorem State.buf_reserveBufs {t r : Nat} {l : List Nat} (hr : r ∈ l) (s : State) : (s.reserveBufs t l).buf t r = 1 := State.buf_foldl_setBuf hr s

/-- Reserving touches the pool's buffers and its telemetry alone. -/
theorem State.reserveBufs_form (s : State) (t : Nat) (l : List Nat) :
    ∃ d m, s.reserveBufs t l = { s with dict := d, codec := { s.codec with bufs := m } } := by
  obtain ⟨m, hm⟩ := State.foldl_setBuf_form t 1 l s
  exact ⟨_, m, by unfold State.reserveBufs; rw [hm]; rfl⟩

/-! ## The request for buffers (R292, R294, R302, R303) -/

theorem exec_encodeBufferRequest (id : Nat) (s : State) : exec (.encodeBufferRequest id) s = .next (s.bufferRequest id) := rfl

section
variable {s : State} {id : Nat} {j : CodecJob}

/-- A job that needs no buffers, has them or waits for its context asks for none. -/
theorem State.bufferRequest_idle (hj : s.job? id = some j) (h : (!j.enc || j.ready || s.ctxBusy j || s.regs.fatal) = true) : s.bufferRequest id = s := by
  unfold State.bufferRequest
  rw [hj]
  exact if_pos h

theorem State.bufferRequest_asks {c : Cmd} (hj : s.job? id = some j) (hc : s.cmd? id = some c) (henc : j.enc = true) (hready : j.ready = false)
    (hbusy : s.ctxBusy j = false) (hfatal : s.regs.fatal = false) :
    s.bufferRequest id = s.takeBuffers j (s.asBegan c) (bit (le c.bytes 88 1) 2) := by
  unfold State.bufferRequest
  rw [hj]
  dsimp only
  rw [if_neg (by simp [henc, hready, hbusy, hfatal]), hc]

end

section
variable {s g : State} {j : CodecJob} {init : Bool}

/-- The buffers the size cap of a frame needs, in view `g` of its pool (R303). -/
def CodecJob.need (j : CodecJob) (g : State) : Nat := ceilDiv (parseEnc j.cfg).cap (g.codecPool j.tenant).bytes

theorem State.takeBuffers_refused {f : Fail} (h : g.frameRefused j init = some f) : s.takeBuffers j g init = s.jobFails j f.status f.detail f.fault := by
  unfold State.takeBuffers
  rw [h]

theorem State.takeBuffers_exhausted (h : g.frameRefused j init = none) (hfew : (g.freeBufs j.tenant (j.need g)).length < j.need g) :
    s.takeBuffers j g init = (s.count (oTenantCodecExhausted j.tenant) 1).jobFails j stExhausted (j.need g % 2 ^ 21) none := by
  unfold State.takeBuffers
  rw [h]
  exact if_pos hfew

/-- The job reserves the lowest-numbered free buffers and its command waits for an engine. -/
theorem State.takeBuffers_holds {c : Cmd} (h : g.frameRefused j init = none) (hroom : j.need g ≤ (g.freeBufs j.tenant (j.need g)).length)
    (hc : s.cmd? j.cmd = some c) :
    s.takeBuffers j g init = ((s.reserveBufs j.tenant (g.freeBufs j.tenant (j.need g))).setJob
      { j with bufs := g.freeBufs j.tenant (j.need g), ready := true }).assignEngines.setCmd { c with wait := Wait.engine } := by
  have hcmd : ((s.reserveBufs j.tenant (g.freeBufs j.tenant (j.need g))).setJob
      { j with bufs := g.freeBufs j.tenant (j.need g), ready := true }).assignEngines.cmd? j.cmd = some c := by
    obtain ⟨d, m, hform⟩ := s.reserveBufs_form j.tenant (g.freeBufs j.tenant (j.need g))
    rw [(State.enginesGiven_assignEngines _).cmd?, hform]
    exact hc
  unfold State.takeBuffers
  rw [h]
  refine (if_neg (Nat.not_lt.mpr hroom)).trans ?_
  unfold State.reserveBufs CodecJob.need at hcmd ⊢
  dsimp only
  rw [hcmd]

/-- A frame that found its buffers. -/
theorem State.takeBuffers_spec {c : Cmd} (h : g.frameRefused j init = none) (hroom : j.need g ≤ (g.freeBufs j.tenant (j.need g)).length)
    (hj : s.job? j.cmd = some j) (hc : s.cmd? j.cmd = some c) :
    (∃ e, (s.takeBuffers j g init).job? j.cmd = some { j with bufs := g.freeBufs j.tenant (j.need g), ready := true, engine := e }) ∧
      (∀ b ∈ g.freeBufs j.tenant (j.need g), (s.takeBuffers j g init).buf j.tenant b = 1) ∧
      (s.takeBuffers j g init).cmd? j.cmd = some { c with wait := Wait.engine } ∧ (s.takeBuffers j g init).mem = s.mem ∧
      (s.takeBuffers j g init).queues = s.queues := by
  rw [State.takeBuffers_holds h hroom hc]
  generalize g.freeBufs j.tenant (j.need g) = l
  have hgiven := State.enginesGiven_assignEngines ((s.reserveBufs j.tenant l).setJob { j with bufs := l, ready := true })
  generalize ((s.reserveBufs j.tenant l).setJob { j with bufs := l, ready := true }).assignEngines = u at hgiven ⊢
  have hbufs : ∀ b ∈ l, (s.reserveBufs j.tenant l).buf j.tenant b = 1 := fun b hb => State.buf_reserveBufs hb s
  obtain ⟨d, m, hform⟩ := s.reserveBufs_form j.tenant l
  rw [hform] at hgiven hbufs
  obtain ⟨hjob, hcmd⟩ := hgiven.found_setCmd (c' := { c with wait := Wait.engine }) hj rfl hc rfl
  exact ⟨hjob, fun b hb => (hgiven.buf j.tenant b).trans (hbufs b hb), hcmd, hgiven.mem, hgiven.queues⟩

end

theorem State.frameRefused_no_pool {s : State} {j : CodecJob} {init : Bool} (hsame : streamChange (parseEnc j.cfg) init (s.streamOf j) = none)
    (hpool : (s.codecPool j.tenant).count = 0) : s.frameRefused j init = some ⟨stObjectState, 2 * 4096, none⟩ := by
  unfold State.frameRefused
  dsimp only
  rw [hsame]
  exact if_pos hpool

/-! ## The end of a frame (R295, R306) -/

theorem exec_codecFrameComplete (id : Nat) (s : State) : exec (.codecFrameComplete id) s = .next (s.frameComplete id) := rfl

theorem State.frameComplete_no_engine {s : State} {id : Nat} {j : CodecJob} (hj : s.job? id = some j) (heng : j.engine = none) :
    s.frameComplete id = s := by
  unfold State.frameComplete
  rw [hj]
  cases s.cmd? id with
  | none => rfl
  | some c =>
    dsimp only
    rw [heng]

/-- Job `j` of state `s` done in `u`: `done` waits in the job, its command holds `writes` and waits no longer, and contexts and queues are as they were. -/
structure State.FrameHeld (s : State) (j : CodecJob) (c : Cmd) (done : CodecDone) (writes : List (Nat × Byte)) (u : State) : Prop where
  job : ∃ e, u.job? j.cmd = some { j with engine := e, done := some done }
  cmd : u.cmd? j.cmd = some { c with wait := Wait.none, writes := writes }
  streams : u.codec.streams = s.codec.streams
  decs : u.codec.decs = s.codec.decs
  queues : u.queues = s.queues

/-- What is done to a frame that ends: reports `a` and counts, the job off its engine, that engine given again, the command past its wait. -/
theorem State.frameHeld_of_reports {s a u : State} {j : CodecJob} {c : Cmd} {done : CodecDone} (hj : s.job? j.cmd = some j) (hc : s.cmd? j.cmd = some c)
    (ha : s.ReportsOnly a) (key n : Nat) (hu : ((a.count key n).setJob { j with engine := none, done := some done }).EnginesGiven u)
    (writes : List (Nat × Byte)) : s.FrameHeld j c done writes (u.setCmd { c with wait := Wait.none, writes := writes }) := by
  have hja : (a.count key n).job? j.cmd = some j := by
    unfold State.job?
    rw [State.count_codec, ha.codec]
    exact hj
  have hca : (a.count key n).cmd? j.cmd = some c := by
    unfold State.cmd?
    rw [State.count_exec, ha.exec]
    exact hc
  obtain ⟨⟨e, hjob⟩, hcmd⟩ := hu.found_setCmd (c' := { c with wait := Wait.none, writes := writes }) hja rfl hca rfl
  refine ⟨⟨e, hjob⟩, hcmd, ?_, ?_, hu.queues.trans ha.queues⟩
  · rw [State.setCmd_codec, hu.codec, ← ha.codec]
    rfl
  · rw [State.setCmd_codec, hu.codec, ← ha.codec]
    rfl

section
variable {s : State} {id eng : Nat} {j : CodecJob} {c : Cmd}
  (hj : s.job? id = some j) (hc : s.cmd? id = some c) (heng : j.engine = some eng) (hfatal : s.regs.fatal = false)
include hj hc heng hfatal

theorem State.frameComplete_encode_fails {f : AccFault} (henc : j.enc = true) (hf : (s.asBegan c).encodeFrame j c.bytes = .error f) :
    s.frameComplete id = s.jobFails j f.fail.status f.fail.detail (some f) := by
  unfold State.frameComplete
  rw [hj, hc]
  dsimp only
  rw [heng]
  dsimp only
  rw [if_neg (Bool.eq_false_iff.mp hfatal), if_pos henc, hf]

theorem State.frameComplete_encoded {d : FrameDone} (henc : j.enc = true) (hd : (s.asBegan c).encodeFrame j c.bytes = .ok d) :
    s.FrameHeld j c ⟨some d.ctx, none, d.keep⟩ d.writes (s.frameComplete id) := by
  have ha : s.ReportsOnly (match d.floorAt with | some y => s.event ⟨0x0304, 0, 1, j.tenant, y⟩ | none => s) := by
    split
    · exact s.reportsOnly_event _
    · exact .refl s
  unfold State.frameComplete
  rw [hj, hc]
  dsimp only
  rw [heng]
  dsimp only
  rw [if_neg (Bool.eq_false_iff.mp hfatal), if_pos henc, hd]
  obtain rfl := State.job?_cmd hj
  exact State.frameHeld_of_reports hj hc ha _ _ (State.enginesGiven_assignEngines _) d.writes

theorem State.frameComplete_decoded {d : DecodeDone} (henc : j.enc = false) (hd : (s.asBegan c).decodeFrame j c.bytes = .ok d) :
    s.FrameHeld j c ⟨none, some d.ctx, []⟩ d.writes (s.frameComplete id) := by
  have ha : s.ReportsOnly (d.events.foldl (fun (acc : State) ev => acc.event ev) s) := State.reportsOnly_foldl State.reportsOnly_event d.events s
  unfold State.frameComplete
  rw [hj, hc]
  dsimp only
  rw [heng]
  dsimp only
  rw [if_neg (Bool.eq_false_iff.mp hfatal), if_neg (Bool.eq_false_iff.mp henc), hd]
  obtain rfl := State.job?_cmd hj
  exact State.frameHeld_of_reports hj hc ha _ _ ((State.grantOnly_setArb _ _ _).enginesGiven.trans (State.enginesGiven_assignEngines _)) d.writes

end

/-- Settles O57: the request by the three `takeBuffers_` lemmas, the end of a frame by the `frameComplete_` lemmas. -/
theorem framesTakeBuffersAndEnd : Obligations.FramesTakeBuffersAndEnd := by
  unfold Obligations.FramesTakeBuffersAndEnd
  refine ⟨fun s id j c hj hc henc hready hbusy hfatal => ?_, fun s id j hj henc hready => ?_, fun s id j hj hbusy => ?_,
    fun s j init hsame hpool => State.frameRefused_no_pool hsame hpool, fun s id eng j c f hj hc heng hfatal henc hf => ?_,
    fun s id eng j c d hj hc heng hfatal henc hd => ?_, fun s id eng j c d hj hc heng hfatal henc hd => ?_, fun s id j hj heng => ?_⟩
  · rw [exec_encodeBufferRequest, State.bufferRequest_asks hj hc henc hready hbusy hfatal]
    refine ⟨fun f hf => congrArg Host.Outcome.next (State.takeBuffers_refused hf),
      fun hok hfew => congrArg Host.Outcome.next (State.takeBuffers_exhausted hok hfew), fun hok hroom => ?_⟩
    obtain rfl := State.job?_cmd hj
    obtain ⟨⟨e, hjob⟩, hbufs, hcmd, hmem, hqueues⟩ := State.takeBuffers_spec hok hroom hj hc
    exact ⟨_, _, _, rfl, hjob, rfl, rfl, hbufs, hcmd, rfl, hmem, hqueues⟩
  · rw [exec_encodeBufferRequest, State.bufferRequest_idle hj (by simp [hready])]
  · rw [exec_encodeBufferRequest, State.bufferRequest_idle hj (by simp [hbusy])]
  · rw [exec_codecFrameComplete, State.frameComplete_encode_fails hj hc heng hfatal henc hf]
  · obtain ⟨⟨e, hjob⟩, hcmd, hstreams, hdecs, hqueues⟩ := State.frameComplete_encoded hj hc heng hfatal henc hd
    rw [State.job?_cmd hj] at hjob hcmd
    exact ⟨_, _, _, exec_codecFrameComplete id s, hjob, rfl, hcmd, rfl, hstreams, hdecs, hqueues⟩
  · obtain ⟨⟨e, hjob⟩, hcmd, hstreams, hdecs, hqueues⟩ := State.frameComplete_decoded hj hc heng hfatal henc hd
    rw [State.job?_cmd hj] at hjob hcmd
    exact ⟨_, _, _, exec_codecFrameComplete id s, hjob, rfl, hcmd, rfl, hstreams, hdecs, hqueues⟩
  · rw [exec_codecFrameComplete, State.frameComplete_no_engine hj heng]

end Sys2Proof.Machine

/-! SUPPORT. What packets that leave touch: ports, objects that count, the schedule and the trace. -/

namespace Sys2Proof.Machine

/-! ## Ports -/

@[simp] theorem State.port_setPort_self (s : State) (p : Nat) (v : Port) : (s.setPort p v).port p = v := Store.get_set_self _ _ p v

theorem State.port_setPort (s : State) (p r : Nat) (v : Port) : (s.setPort p v).port r = if p = r then v else s.port r := Store.get_set _ _ p r v

theorem State.port_of_fabric {s u : State} (h : u.fabric.ports = s.fabric.ports) (p : Nat) : u.port p = s.port p :=
  congrArg (fun m => Store.get Port.idle m p) h

@[simp] theorem State.linkState_setPort (s : State) (p : Nat) (v : Port) (r : Nat) : (s.setPort p v).linkState r = s.linkState r := rfl

@[simp] theorem State.obj_setPort (s : State) (p : Nat) (v : Port) (key : Nat) : (s.setPort p v).obj key = s.obj key := rfl
@[simp] theorem State.setPort_acksSent (s : State) (p : Nat) (v : Port) : (s.setPort p v).fabric.acksSent = s.fabric.acksSent := rfl

/-- A port but for what it has to send, the credits it sends by, and whether it has accepted its peer. -/
def Port.rest (v : Port) : Port := { v with txSeq := 0, replay := [], credits := [], txq := [], accepted := false }

theorem Port.rest_send (v : Port) (left : List (Option Nat × Packet)) (tag : Option Nat) (k : Packet) :
    ({ v with txq := left }.send tag k).rest = v.rest := rfl

theorem State.rest_setPort {s : State} {p : Nat} {v : Port} (h : v.rest = (s.port p).rest) (r : Nat) :
    ((s.setPort p v).port r).rest = (s.port r).rest := by
  rw [State.port_setPort]
  split
  · next hr => rw [h, hr]
  · rfl

/-! ## Objects below those of tenants and of telemetry -/

theorem State.obj_count_telemetry (s : State) {k key : Nat} (n : Nat) (hk : 0x400000 ≤ k) (hkey : key < 0x400000) : (s.count k n).obj key = s.obj key :=
  s.obj_count_other n (by omega)

theorem oSpurInjected_ge (k : Nat) : 0x400000 ≤ oSpurInjected k := by
  unfold oSpurInjected
  omega

/-! ## Packets that leave -/

/-- State `u` is `s` but for what packets that leave touch: ports, the packets sent, the schedule, the trace, free values, and objects that count. Of a
port, only what it has to send (R345 to R357). -/
structure State.SendsOnly (s u : State) : Prop where
  form : ∃ d o h f b n, u = { s with dict := d, obs := o, sched := h, fabric := { s.fabric with ports := f, outbox := b }, freeCount := n }
  obj : ∀ key, key < 0x400000 → u.obj key = s.obj key
  port : ∀ p, (u.port p).rest = (s.port p).rest

namespace State.SendsOnly
variable {s t u : State}

theorem refl (s : State) : s.SendsOnly s := ⟨⟨_, _, _, _, _, _, rfl⟩, fun _ _ => rfl, fun _ => rfl⟩

theorem trans (h : s.SendsOnly t) (k : t.SendsOnly u) : s.SendsOnly u := by
  refine ⟨?_, fun key hkey => (k.obj key hkey).trans (h.obj key hkey), fun p => (k.port p).trans (h.port p)⟩
  obtain ⟨_, _, _, _, _, _, rfl⟩ := h.form
  obtain ⟨d, o, h, f, b, n, rfl⟩ := k.form
  exact ⟨d, o, h, f, b, n, rfl⟩

theorem mem (h : s.SendsOnly u) : u.mem = s.mem := by
  obtain ⟨_, _, _, _, _, _, rfl⟩ := h.form
  rfl

theorem queues (h : s.SendsOnly u) : u.queues = s.queues := by
  obtain ⟨_, _, _, _, _, _, rfl⟩ := h.form
  rfl

theorem exec (h : s.SendsOnly u) : u.exec = s.exec := by
  obtain ⟨_, _, _, _, _, _, rfl⟩ := h.form
  rfl

theorem mapEpochs (h : s.SendsOnly u) : u.fabric.mapEpochs = s.fabric.mapEpochs := by
  obtain ⟨_, _, _, _, _, _, rfl⟩ := h.form
  rfl

theorem rxSeq (h : s.SendsOnly u) (p : Nat) : (u.port p).rxSeq = (s.port p).rxSeq := (congrArg Port.rxSeq (h.port p) :)
theorem rxGap (h : s.SendsOnly u) (p : Nat) : (u.port p).rxGap = (s.port p).rxGap := (congrArg Port.rxGap (h.port p) :)

end State.SendsOnly

theorem State.sendsOnly_foldl {α : Type} {f : State → α → State} (hf : ∀ (s : State) a, s.SendsOnly (f s a)) (l : List α) (s : State) :
    s.SendsOnly (l.foldl f s) := by
  induction l generalizing s with
  | nil => exact .refl s
  | cons a rest ih => exact (hf s a).trans (ih (f s a))

theorem State.GrantOnly.sendsOnly {s u : State} (h : s.GrantOnly u) : s.SendsOnly u := by
  have hobj : ∀ key, key < 0x400000 → u.obj key = s.obj key := fun key hkey => h.obj key (by have := oSpurInjected_ge 0; omega)
  obtain ⟨_, _, _, rfl⟩ := h.form
  exact ⟨⟨_, _, _, _, _, _, rfl⟩, hobj, fun _ => rfl⟩

theorem State.sendsOnly_count (s : State) {k : Nat} (n : Nat) (hk : 0x400000 ≤ k) : s.SendsOnly (s.count k n) :=
  ⟨⟨_, _, _, _, _, _, rfl⟩, fun _ hkey => s.obj_count_telemetry n hk hkey, fun _ => rfl⟩

theorem State.sendsOnly_free (s : State) : s.SendsOnly s.free.2 := ⟨⟨_, _, _, _, _, _, rfl⟩, fun _ _ => rfl, fun _ => rfl⟩

/-- A draw of the Spur takes a free value at most, and counts what it injects (R326). -/
theorem State.sendsOnly_spurDraw (s : State) (k : Nat) (part : Option Nat) : s.SendsOnly (s.spurDraw k part).1 := by
  unfold State.spurDraw
  extract_lets c parts here f
  split
  · exact .refl s
  · split
    · exact s.sendsOnly_free.trans (State.sendsOnly_count _ 1 (oSpurInjected_ge k))
    · exact s.sendsOnly_free

theorem State.spurDraw_fabric (s : State) (k : Nat) (part : Option Nat) : (s.spurDraw k part).1.fabric = s.fabric := by
  unfold State.spurDraw
  extract_lets c parts here f
  split
  · rfl
  · split <;> rfl

theorem State.sendsOnly_setPort {s : State} {p : Nat} {v : Port} (h : v.rest = (s.port p).rest) : s.SendsOnly (s.setPort p v) :=
  ⟨⟨_, _, _, _, _, _, rfl⟩, fun _ _ => rfl, State.rest_setPort h⟩

theorem State.outPacket_fabric (s : State) (p : Nat) (k : Packet) :
    (s.outPacket p k).fabric = { s.fabric with outbox := s.fabric.outbox ++ [(p, k)] } := by
  unfold State.outPacket
  dsimp only
  split
  · rw [State.spurDraw_fabric]
  · rfl

theorem State.sendsOnly_outPacket (s : State) (p : Nat) (k : Packet) : s.SendsOnly (s.outPacket p k) := by
  unfold State.outPacket
  dsimp only
  split
  · exact (s.sendsOnly_spurDraw 3 none).trans ⟨⟨_, _, _, _, _, _, rfl⟩, fun _ _ => rfl, fun _ => rfl⟩
  · exact ⟨⟨_, _, _, _, _, _, rfl⟩, fun _ _ => rfl, fun _ => rfl⟩

theorem State.grantOnly_pickOut (s : State) (p : Nat) : s.GrantOnly (s.pickOut p).1 := by
  unfold State.pickOut
  dsimp only
  split
  · exact .refl s
  · split
    · exact (s.grantOnly_setArb _ _).trans (State.grantOnly_arbitrate _ _ _ _)
    · split
      · exact s.grantOnly_setArb _ _
      · exact (s.grantOnly_setArb _ _).trans (State.grantOnly_setArb _ _ _)

theorem State.grantOnly_chargeOut (s : State) (p : Nat) (left : List (Option Nat × Packet)) (tag : Option Nat) (k : Packet) :
    s.GrantOnly (s.chargeOut p left tag k) := by
  cases tag <;> exact (s.grantOnly_setArb _ _).trans (State.grantOnly_setArb _ _ _)

theorem State.sendsOnly_pumpFuel (fuel : Nat) (s : State) (p : Nat) : s.SendsOnly (s.pumpFuel p fuel) := by
  induction fuel generalizing s with
  | zero => exact .refl s
  | succ n ih =>
    have hpick := (s.grantOnly_pickOut p).sendsOnly
    unfold State.pumpFuel
    split
    · exact .refl s
    · rcases hq : s.pickOut p with ⟨t, _ | i⟩
      · exact .refl s
      · rw [hq] at hpick
        dsimp only
        split
        · exact .refl s
        · next x _ =>
          have hcharge := (t.grantOnly_chargeOut p ((t.port p).txq.eraseIdx i) x.1 x.2).sendsOnly
          have hsent := (Port.rest_send (t.port p) ((t.port p).txq.eraseIdx i) x.1 x.2).trans (hcharge.port p).symm
          exact (((hpick.trans hcharge).trans (State.sendsOnly_setPort hsent)).trans (State.sendsOnly_outPacket _ _ _)).trans (ih _)

theorem State.sendsOnly_pump (s : State) (p : Nat) : s.SendsOnly (s.pump p) := State.sendsOnly_pumpFuel _ s p

theorem State.sendsOnly_sendOn (s : State) (p : Nat) (tag : Option Nat) (k : Packet) : s.SendsOnly (s.sendOn p tag k) :=
  (State.sendsOnly_setPort (v := { s.port p with txq := (s.port p).txq ++ [(tag, k)] }) rfl).trans (State.sendsOnly_pump _ p)

theorem State.sendsOnly_forwardTo (s : State) (k : Packet) (dst : Nat) (inp tag : Option Nat) : s.SendsOnly (s.forwardTo k dst inp tag) := by
  unfold State.forwardTo
  split
  · exact s.sendsOnly_sendOn _ _ _
  · exact s.sendsOnly_count 1 (by decide)
  · exact s.sendsOnly_count 1 (by decide)

theorem State.sendsOnly_detourDrop (s : State) : s.SendsOnly (s.count oLinkDetourDrops 1) := s.sendsOnly_count 1 (by decide)

/-- A packet is routed: it leaves by a port, waits there, or is counted dropped (R353, R357). -/
theorem State.sendsOnly_forward (s : State) (k : Packet) (inp tag : Option Nat) : s.SendsOnly (s.forward k inp tag) := by
  unfold State.forward
  extract_lets u b chosen
  refine State.SendsOnly.trans (t := u) (s.sendsOnly_spurDraw 1 none) ?_
  split
  · exact u.sendsOnly_outPacket _ _
  · split
    · exact u.sendsOnly_forwardTo _ _ _ _
    · split
      · exact u.sendsOnly_detourDrop
      · clear_value chosen
        cases chosen with
        | none => exact u.sendsOnly_detourDrop
        | some g =>
          dsimp only
          split
          · split
            · exact u.sendsOnly_detourDrop
            · exact u.sendsOnly_sendOn _ _ _
          · exact u.sendsOnly_forwardTo _ _ _ _

theorem State.sendsOnly_floodLsa (s : State) (d : Nat) (but : Option Nat) : s.SendsOnly (s.floodLsa d but) :=
  State.sendsOnly_foldl (fun x p => x.sendsOnly_sendOn p _ _) _ s

/-! ## The state of a port (R338) -/

theorem State.obj_reportDrops (s : State) (key : Nat) : s.reportDrops.obj key = s.obj key := by
  unfold State.reportDrops
  split <;> rfl

theorem State.obj_trace (s : State) (typ sub tenant : Nat) (tail : List Byte) {key : Nat} (hkey : key < 0x400000) :
    (s.trace typ sub tenant tail).obj key = s.obj key := by
  have hdrops : oTraceRecordsDropped ≠ key := by
    unfold oTraceRecordsDropped
    omega
  unfold State.trace
  dsimp only
  split
  · rfl
  · split
    · rw [State.obj_count_other _ 1 hdrops]
      exact s.obj_reportDrops key
    · exact s.obj_reportDrops key

theorem State.sendsOnly_traceLink (s : State) (p st width : Nat) : s.SendsOnly (s.traceLink p st width) := by
  have hobj : ∀ key, key < 0x400000 → (s.traceLink p st width).obj key = s.obj key := fun _ hkey => s.obj_trace _ _ _ _ hkey
  obtain ⟨_, _, _, h⟩ := s.talliesOnly_trace 5 0 0xFFFF _
  have hform : ∃ d o n, s.traceLink p st width = { s with dict := d, obs := o, freeCount := n } := ⟨_, _, _, h⟩
  obtain ⟨d, o, n, hu⟩ := hform
  rw [hu] at hobj ⊢
  exact ⟨⟨_, _, _, _, _, _, rfl⟩, hobj, fun _ => rfl⟩

theorem State.setLink_fabric (s : State) (p st : Nat) : (s.setLink p st).fabric = s.fabric := (State.talliesOnly_trace _ 5 0 0xFFFF _).fabric

theorem State.setLink_mem (s : State) (p st : Nat) : (s.setLink p st).mem = s.mem := (State.talliesOnly_trace _ 5 0 0xFFFF _).mem
theorem State.setLink_exec (s : State) (p st : Nat) : (s.setLink p st).exec = s.exec := (State.talliesOnly_trace _ 5 0 0xFFFF _).exec
theorem State.setLink_queues (s : State) (p st : Nat) : (s.setLink p st).queues = s.queues := (State.talliesOnly_trace _ 5 0 0xFFFF _).queues

theorem State.port_setLink (s : State) (p st r : Nat) : (s.setLink p st).port r = s.port r := State.port_of_fabric (by rw [State.setLink_fabric]) r

theorem oLinkState_lt {p : Nat} (hp : p < 18) : oLinkState p < 0x400000 := by
  unfold oLinkState
  omega

theorem State.linkState_setLink_self (s : State) {p : Nat} (st : Nat) (hp : p < 18) : (s.setLink p st).linkState p = st := by
  unfold State.setLink State.traceLink State.linkState
  rw [State.obj_trace _ _ _ _ _ (oLinkState_lt hp), State.obj_setObj_self]

end Sys2Proof.Machine

/-! SUPPORT. Training, retraining and the announcement of a port, and the statement about them. -/

namespace Sys2Proof.Machine

/-! ## What links announce (R341, R344, R355) -/

/-- The objects of the link map. -/
def mapObject (key : Nat) : Prop := key = oLinkMap ∨ key = oRoutingEpoch

theorem not_mapObject_linkState (p : Nat) : ¬ mapObject (oLinkState p) := by
  unfold mapObject oLinkState oLinkMap oRoutingEpoch
  omega

/-- State `u` has the queues, the begun commands and the device's own memory of `s`, its objects below those of tenants but for those `q` lists, and its
ports but for what they have to send and whether they have accepted their peers. -/
structure State.LinksOnly (q : Nat → Prop) (s u : State) : Prop where
  queues : u.queues = s.queues
  exec : u.exec = s.exec
  device : u.mem.device = s.mem.device
  obj : ∀ key, key < 0x400000 → ¬ q key → u.obj key = s.obj key
  port : ∀ p, (u.port p).rest = (s.port p).rest

namespace State.LinksOnly
variable {q r : Nat → Prop} {s t u : State}

theorem refl (q : Nat → Prop) (s : State) : s.LinksOnly q s := ⟨rfl, rfl, rfl, fun _ _ _ => rfl, fun _ => rfl⟩

theorem trans (h : s.LinksOnly q t) (k : t.LinksOnly q u) : s.LinksOnly q u :=
  ⟨k.queues.trans h.queues, k.exec.trans h.exec, k.device.trans h.device, fun key hkey hq => (k.obj key hkey hq).trans (h.obj key hkey hq),
    fun p => (k.port p).trans (h.port p)⟩

theorem mono (h : s.LinksOnly q u) (hqr : ∀ key, q key → r key) : s.LinksOnly r u :=
  ⟨h.queues, h.exec, h.device, fun key hkey hr => h.obj key hkey (fun hq => hr (hqr key hq)), h.port⟩

theorem linkState (h : s.LinksOnly mapObject u) {p : Nat} (hp : p < 18) : u.linkState p = s.linkState p :=
  h.obj _ (oLinkState_lt hp) (not_mapObject_linkState p)

theorem params (h : s.LinksOnly q u) (p : Nat) : (u.port p).params = (s.port p).params := (congrArg Port.params (h.port p) :)

end State.LinksOnly

theorem State.SendsOnly.linksOnly {s u : State} (h : s.SendsOnly u) (q : Nat → Prop) : s.LinksOnly q u :=
  ⟨h.queues, h.exec, by rw [h.mem], fun key hkey _ => h.obj key hkey, h.port⟩

theorem State.port_event (s : State) (e : EventRec) (p : Nat) : (s.event e).port p = s.port p :=
  State.port_of_fabric (by rw [(s.reportsOnly_event e).fabric]) p

theorem State.linksOnly_event (q : Nat → Prop) (s : State) (e : EventRec) : s.LinksOnly q (s.event e) := by
  have h := s.reportsOnly_event e
  exact ⟨h.queues, h.exec, congrArg State.mem (s.quiet_event e), fun key _ _ => h.obj key, fun p => congrArg Port.rest (s.port_event e p)⟩

theorem State.linksOnly_setObj {q : Nat → Prop} (s : State) {k : Nat} (v : Nat) (hk : q k) : s.LinksOnly q (s.setObj k v) :=
  ⟨rfl, rfl, rfl, fun _ _ hkey => s.obj_setObj_other v (fun h => hkey (h ▸ hk)), fun _ => rfl⟩

theorem State.linksOnly_setLink {q : Nat → Prop} (s : State) {p : Nat} (st : Nat) (hp : q (oLinkState p)) : s.LinksOnly q (s.setLink p st) :=
  (s.linksOnly_setObj st hp).trans ((State.sendsOnly_traceLink _ _ _ _).linksOnly q)

theorem State.linksOnly_setPort (q : Nat → Prop) {s : State} {p : Nat} {v : Port} (h : v.rest = (s.port p).rest) : s.LinksOnly q (s.setPort p v) :=
  (State.sendsOnly_setPort h).linksOnly q

theorem State.linksOnly_mapChanged (s : State) (p : Nat) (up : Bool) : s.LinksOnly mapObject (s.mapChanged p up) := by
  unfold State.mapChanged
  split
  · exact .refl _ s
  · extract_lets s1 e s2
    have h1 : s.LinksOnly mapObject s1 := s.linksOnly_setObj _ (.inl rfl)
    have h2 : s1.LinksOnly mapObject s2 := (s1.linksOnly_setObj e (.inr rfl)).trans (State.linksOnly_event _ _ _)
    exact (h1.trans h2).trans ((s2.sendsOnly_floodLsa _ _).linksOnly _)

theorem State.linksOnly_unloadPort (s : State) (p : Nat) : s.LinksOnly mapObject (s.unloadPort p) := by
  unfold State.unloadPort
  extract_lets v ks s1
  have hclear : s.LinksOnly mapObject (s.setPort p { v with replay := [], txq := [] }) := State.linksOnly_setPort _ rfl
  have h1 : s.LinksOnly mapObject s1 := hclear.trans (State.linksOnly_mapChanged _ p false)
  exact h1.trans ((State.sendsOnly_foldl (fun x k => x.sendsOnly_forward _ _ _) ks s1).linksOnly _)

/-! ## Retraining (R339, R342, R347, R355) -/

/-- A port that stops is in the state it is sent to; begun commands and queues do not notice. -/
theorem State.stopPort_spec (s : State) {p : Nat} (hp : p < 18) (st cause : Nat) :
    (s.stopPort p st cause).linkState p = st ∧ (s.stopPort p st cause).exec = s.exec ∧ (s.stopPort p st cause).queues = s.queues := by
  unfold State.stopPort
  extract_lets up s1 s2 v
  have h2 : s1.LinksOnly mapObject s2 := by
    unfold s2
    split
    · exact (s1.linksOnly_event _ _).trans (State.linksOnly_unloadPort _ p)
    · exact .refl _ s1
  rw [State.linkState_setPort, State.setPort_exec, State.setPort_queues, h2.linkState hp, h2.exec, h2.queues]
  exact ⟨s.linkState_setLink_self st hp, s.setLink_exec p st, s.setLink_queues p st⟩

theorem State.portLost_spec {s : State} {p : Nat} (hp : p < 18) (hlive : 3 ≤ s.linkState p) (cause : Nat) :
    (s.portLost p cause).linkState p = 2 ∧ (s.portLost p cause).exec = s.exec ∧ (s.portLost p cause).queues = s.queues := by
  unfold State.portLost
  rw [if_neg (Nat.not_lt.mpr hlive)]
  split
  · have h := State.linksOnly_event mapObject ((s.setPort p Port.idle).setLink p 2) (linkEvent 0x0201 1 p cause)
    rw [h.linkState hp, h.exec, h.queues, State.setLink_exec, State.setLink_queues]
    exact ⟨State.linkState_setLink_self _ 2 hp, rfl, rfl⟩
  · exact s.stopPort_spec hp 2 cause

theorem State.symbolErrors_up {s : State} {p : Nat} (hp : p < 16) (hup : s.portUp p = true) : s.symbolErrors p = s.stopPort p 2 3 := by
  unfold State.symbolErrors
  rw [if_neg (by simp [hp, hup])]
  rfl

theorem State.replayTimeout_up {s : State} {p : Nat} (hp : p < 16) (hup : s.portUp p = true) (hreplay : (s.port p).replay ≠ []) :
    s.replayTimeout p = s.stopPort p 2 2 := by
  unfold State.replayTimeout
  rw [if_neg (by simp [hp, hup, hreplay])]
  rfl

/-! ## Training (R339, R340, R359) -/

/-- The port as training that succeeds leaves it (R348: 512 credits for each virtual channel). -/
def Port.trained (v : Port) : Port :=
  { Port.idle with width := v.width, upper := v.upper, delayNs := v.delayNs, credits := List.replicate 16 512 }

section
variable {s : State} {p : Nat} (hp : p < 16) (hstate : s.linkState p = 2) (harmed : (s.port p).retryArmed = false)
include hp hstate harmed

theorem State.linkTraining_succeeds : s.linkTraining p true = ((s.setPort p (s.port p).trained).setLink p 3).sendDiscovery p := by
  unfold State.linkTraining
  dsimp only
  rw [if_neg (by simp [hp, hstate, harmed]), if_pos rfl]
  rfl

theorem State.linkTraining_fails (hwidth : (s.port p).width = 8) : s.linkTraining p false =
    s.setPort p (if (s.port p).fails + 1 < 8 then { s.port p with fails := (s.port p).fails + 1, retryArmed := true }
      else { s.port p with fails := 0, width := 4, upper := false, retryArmed := true }) := by
  unfold State.linkTraining
  dsimp only
  rw [if_neg (by simp [hp, hstate, harmed]), if_neg Bool.false_ne_true, if_pos hwidth]
  split <;> rfl

end

theorem State.trainRetry_waiting {s : State} {p : Nat} (hp : p < 16) (harmed : (s.port p).retryArmed = true) :
    s.trainRetry p = if s.linkState p = 1 then (s.setPort p { s.port p with retryArmed := false }).setLink p 2
      else s.setPort p { s.port p with retryArmed := false } := by
  unfold State.trainRetry
  dsimp only
  rw [if_neg (by simp [hp, harmed])]

theorem State.sendDiscovery_fabric (s : State) (p : Nat) :
    ∃ k, (s.sendDiscovery p).fabric = { s.fabric with outbox := s.fabric.outbox ++ [(p, k)] } ∧ k.hdr.typ = 10 :=
  ⟨_, s.outPacket_fabric p _, rfl⟩

theorem State.sendsOnly_sendDiscovery (s : State) (p : Nat) : s.SendsOnly (s.sendDiscovery p) := s.sendsOnly_outPacket p _

theorem State.sendDiscovery_port (s : State) (p r : Nat) : (s.sendDiscovery p).port r = s.port r := by
  obtain ⟨k, hk, _⟩ := s.sendDiscovery_fabric p
  exact State.port_of_fabric (by rw [hk]) r

/-- A lineage port as training leaves it. -/
def lineagePort (mode node : Nat) : Port := { Port.idle with mode := mode, node := node }

/-- A lineage port that trains in a mode it is set to is open (R359). -/
theorem State.lineageTrained_opens {s : State} {i mode : Nat} (node : Nat) (hstate : s.linkState (16 + i) = 1 ∨ s.linkState (16 + i) = 2)
    (hmode : (mode = 1 ∧ (s.obj (oLineagePortMode i) = 1 ∨ s.obj (oLineagePortMode i) = 3)) ∨
      (mode = 2 ∧ (s.obj (oLineagePortMode i) = 2 ∨ s.obj (oLineagePortMode i) = 3))) :
    s.lineageTrained i mode node =
      ((s.setPort (16 + i) (lineagePort mode node)).setLink (16 + i) 4).event (linkEvent 0x0205 0 (16 + i) mode) := by
  unfold State.lineageTrained
  dsimp only
  rw [if_neg (by simpa using fun h => hstate.resolve_left h), if_pos hmode]
  rfl

/-! ## Acknowledgements (R347) -/

theorem State.linkAck_eq (s : State) (p : Nat) (nak : Bool) : s.linkAck p nak = { s with fabric := (s.linkAck p nak).fabric } := rfl

theorem State.linkAck_exec (s : State) (p : Nat) (nak : Bool) : (s.linkAck p nak).exec = s.exec := rfl
theorem State.linkAck_queues (s : State) (p : Nat) (nak : Bool) : (s.linkAck p nak).queues = s.queues := rfl
theorem State.linkAck_mem (s : State) (p : Nat) (nak : Bool) : (s.linkAck p nak).mem = s.mem := rfl

theorem State.obj_linkAck (s : State) (p : Nat) (nak : Bool) (key : Nat) : (s.linkAck p nak).obj key = s.obj key := rfl

theorem State.linkAck_acksSent (s : State) (p : Nat) (nak : Bool) :
    (s.linkAck p nak).fabric.acksSent = s.fabric.acksSent ++ [(p, (s.port p).rxSeq, nak)] := rfl

@[simp] theorem State.port_linkAck (s : State) (p : Nat) (nak : Bool) :
    (s.linkAck p nak).port p = { s.port p with sinceAck := 0, owed := List.replicate 16 0 } := State.port_setPort_self s p _

theorem State.linkAckTimer_due {s : State} {p : Nat} (hp : p < 16) (hlive : 3 ≤ s.linkState p) (hdue : (s.port p).sinceAck ≠ 0) :
    s.linkAckTimer p = s.linkAck p false := by
  unfold State.linkAckTimer
  rw [if_neg (by omega)]

/-! ## The rows -/

theorem exec_linkTraining (p : Fin 16) (ok : Bool) (s : State) : exec (.linkTraining p ok) s = .next (s.linkTraining p.val ok) := rfl
theorem exec_linkTrainRetryTimer (p : Fin 16) (s : State) : exec (.linkTrainRetryTimer p) s = .next (s.trainRetry p.val) := rfl
theorem exec_portSignalLoss (p : Fin 18) (s : State) : exec (.portSignalLoss p) s = .next (s.portLost p.val 0) := rfl
theorem exec_portFlitTimeout (p : Fin 18) (s : State) : exec (.portFlitTimeout p) s = .next (s.portLost p.val 1) := rfl
theorem exec_symbolErrorRatioExceed (p : Fin 16) (s : State) : exec (.symbolErrorRatioExceed p) s = .next (s.symbolErrors p.val) := rfl
theorem exec_linkReplayTimeout (p : Fin 16) (s : State) : exec (.linkReplayTimeout p) s = .next (s.replayTimeout p.val) := rfl
theorem exec_linkAckTimer (p : Fin 16) (s : State) : exec (.linkAckTimer p) s = .next (s.linkAckTimer p.val) := rfl
theorem exec_lineagePortTraining (i : Fin 2) (mode node : Nat) (s : State) :
    exec (.lineagePortTraining i mode node) s = .next (s.lineageTrained i.val mode node) := rfl

/-- Settles O46, clause by clause: training by what `setLink` and the discovery packet leave, every retraining by `stopPort_spec`. -/
theorem portsTrainAndRetrain : Obligations.PortsTrainAndRetrain := by
  unfold Obligations.PortsTrainAndRetrain
  refine ⟨fun s p hstate harmed => ⟨_, exec_linkTraining p true s, ?_⟩, fun s p hstate harmed hwidth => ?_, fun s p harmed hstate => ?_,
    fun s p harmed hstate => ⟨_, exec_linkTrainRetryTimer p s, ?_⟩,
    fun s p hlive => ⟨⟨_, exec_portSignalLoss p s, ?_⟩, ⟨_, exec_portFlitTimeout p s, ?_⟩⟩,
    fun s p hup => ⟨⟨_, exec_symbolErrorRatioExceed p s, ?_⟩, fun hreplay => ⟨_, exec_linkReplayTimeout p s, ?_⟩⟩,
    fun s p hlive hdue => ⟨_, exec_linkAckTimer p s, ?_⟩, fun s i mode node hstate hmode => ⟨_, exec_lineagePortTraining i mode node s, ?_⟩⟩
  · obtain ⟨k, hk, htyp⟩ := State.sendDiscovery_fabric ((s.setPort p.val (s.port p.val).trained).setLink p.val 3) p.val
    have hsend := State.sendsOnly_sendDiscovery ((s.setPort p.val (s.port p.val).trained).setLink p.val 3) p.val
    rw [State.linkTraining_succeeds p.isLt hstate harmed, State.sendDiscovery_port, State.port_setLink, State.port_setPort_self, hsend.exec, hsend.mem,
      hsend.queues, hk, State.setLink_exec, State.setLink_mem, State.setLink_queues, State.setLink_fabric]
    exact ⟨(hsend.obj _ (oLinkState_lt (by omega))).trans (State.linkState_setLink_self _ 3 (by omega)), rfl, rfl, rfl, rfl, rfl, k, rfl, htyp⟩
  · rw [exec_linkTraining, State.linkTraining_fails p.isLt hstate harmed hwidth]
  · rw [exec_linkTrainRetryTimer, State.trainRetry_waiting p.isLt harmed, if_neg hstate]
  · rw [State.trainRetry_waiting p.isLt harmed, if_pos hstate, State.port_setLink, State.port_setPort_self, State.setLink_exec, State.setLink_queues]
    exact ⟨State.linkState_setLink_self _ 2 (by omega), rfl, rfl, rfl⟩
  · exact State.portLost_spec p.isLt hlive 0
  · exact State.portLost_spec p.isLt hlive 1
  · rw [State.symbolErrors_up p.isLt hup]
    exact s.stopPort_spec (by omega) 2 3
  · rw [State.replayTimeout_up p.isLt hup hreplay]
    exact s.stopPort_spec (by omega) 2 2
  · rw [State.linkAckTimer_due p.isLt hlive hdue, State.linkAck_acksSent, State.port_linkAck]
    exact ⟨rfl, rfl, rfl, State.linkAck_eq s p.val false⟩
  · rw [State.lineageTrained_opens node hstate hmode, State.port_event, State.port_setLink, State.port_setPort_self,
      (State.reportsOnly_event _ _).exec, (State.reportsOnly_event _ _).queues, State.setLink_exec, State.setLink_queues]
    exact ⟨((State.reportsOnly_event _ _).obj _).trans (State.linkState_setLink_self _ 4 (by omega)), rfl, rfl, rfl, rfl⟩

end Sys2Proof.Machine

/-! SUPPORT. Flits that arrive, and the statement about them. -/

namespace Sys2Proof.Machine

/-! ## ACK and NAK (R347) -/

/-- What is left of a replay buffer once the flit named, and those before it, are acknowledged. -/
def unacknowledged (replay : List ReplayFlit) (ack : Nat) : List ReplayFlit :=
  match replay.findIdx? (fun r => r.fseq == ack) with
  | some i => replay.drop (i + 1)
  | none => replay

theorem State.ackIn_ack (s : State) (p ack : Nat) :
    s.ackIn p ack false = s.setPort p { s.port p with replay := unacknowledged (s.port p).replay ack, nakCount := 0 } := rfl

/-! ## Flits that fail R345 or R346 -/

@[simp] theorem State.port_count (s : State) (k n p : Nat) : (s.count k n).port p = s.port p := rfl

section
variable {s : State} {p : Nat} {f : List Byte} (hp : p < 16) (hlive : 3 ≤ s.linkState p) (n : Nat)
include hp hlive

theorem State.live_count_fec : ¬ (16 ≤ p ∨ (s.count (oLinkFecCorrected p) n).linkState p < 3) := by
  have hkey : oLinkFecCorrected p ≠ oLinkState p := by
    unfold oLinkFecCorrected oLinkState
    omega
  rw [State.linkState, State.obj_count_other s n hkey]
  exact fun h => h.elim (Nat.not_le.mpr hp) (Nat.not_lt.mpr hlive)

/-- A bad flit is counted; where it is a data flit and no gap is open, a gap opens and a NAK goes out. -/
theorem State.flitReceived_bad (hbad : flitOk f = false) : s.flitReceived p f n =
    if flitType f = 0 ∨ (s.port p).rxGap = true then (s.count (oLinkFecCorrected p) n).count (oLinkCrcErrors p) 1
    else (((s.count (oLinkFecCorrected p) n).count (oLinkCrcErrors p) 1).setPort p { s.port p with rxGap := true }).linkAck p true := by
  unfold State.flitReceived
  dsimp only
  rw [if_neg (State.live_count_fec hp hlive n), if_pos (by rw [hbad]; rfl)]
  rfl

end

theorem State.obj_crcErrors (s : State) (p n : Nat) : ((s.count (oLinkFecCorrected p) n).count (oLinkCrcErrors p) 1).obj (oLinkCrcErrors p) =
    satAdd (objBits (oLinkCrcErrors p)) (s.obj (oLinkCrcErrors p)) 1 := by
  have hkey : oLinkFecCorrected p ≠ oLinkCrcErrors p := by
    unfold oLinkFecCorrected oLinkCrcErrors
    omega
  rw [State.count, State.obj_setObj_self, State.obj_count_other s n hkey]

/-! ## Data flits in order (R345, R347, R348) -/

/-- The port once the credits a flit returns are taken and what it acknowledges has left the replay buffer. -/
def Port.hear (v : Port) (f : List Byte) : Port :=
  { v with credits := creditIn (creditIn v.credits (le f 4 2)) (le f 6 2), replay := unacknowledged v.replay (bits (le f 2 2) 0 12), nakCount := 0 }

/-- The port once a data flit in order is accepted: the count of flits has moved to it, no gap is open, and its slots are owed. -/
def Port.accept (v : Port) (f : List Byte) : Port :=
  let t := takeSlots f v.rxLeft v.rxVc v.owed
  { v with rxSeq := (v.rxSeq + 1) % 4096, rxGap := false, sinceAck := v.sinceAck + 1, rxLeft := t.1, rxVc := t.2.1, owed := t.2.2 }

/-- What a flit says of this device's own sending, taken in before its slots are. -/
def State.hearFlit (s : State) (p : Nat) (f : List Byte) : State :=
  (s.setPort p { s.port p with credits := creditIn (creditIn (s.port p).credits (le f 4 2)) (le f 6 2) }).ackIn p (bits (le f 2 2) 0 12) false

/-- A data flit in order is accepted; the 64th since the last ACK is acknowledged at once. -/
def State.acceptFlit (s : State) (p : Nat) (f : List Byte) : State :=
  if 64 ≤ (s.port p).sinceAck + 1 then (s.setPort p ((s.port p).accept f)).linkAck p false else s.setPort p ((s.port p).accept f)

theorem State.port_hearFlit (s : State) (p : Nat) (f : List Byte) : (s.hearFlit p f).port p = (s.port p).hear f := by
  rw [State.hearFlit, State.ackIn_ack, State.port_setPort_self, State.port_setPort_self]
  rfl

theorem State.hearFlit_exec (s : State) (p : Nat) (f : List Byte) : (s.hearFlit p f).exec = s.exec := rfl
theorem State.hearFlit_queues (s : State) (p : Nat) (f : List Byte) : (s.hearFlit p f).queues = s.queues := rfl
theorem State.hearFlit_mem (s : State) (p : Nat) (f : List Byte) : (s.hearFlit p f).mem = s.mem := rfl
theorem State.linkState_hearFlit (s : State) (p : Nat) (f : List Byte) (r : Nat) : (s.hearFlit p f).linkState r = s.linkState r := rfl

theorem State.acceptFlit_spec (s : State) (p : Nat) (f : List Byte) :
    ((s.acceptFlit p f).port p).rxSeq = ((s.port p).rxSeq + 1) % 4096 ∧ ((s.acceptFlit p f).port p).rxGap = false ∧
      (s.acceptFlit p f).exec = s.exec ∧ (s.acceptFlit p f).queues = s.queues ∧ (s.acceptFlit p f).mem = s.mem := by
  unfold State.acceptFlit
  split
  · rw [State.port_linkAck, State.port_setPort_self, State.linkAck_exec, State.linkAck_queues, State.linkAck_mem, State.setPort_exec,
      State.setPort_queues, State.setPort_mem]
    exact ⟨rfl, rfl, rfl, rfl, rfl⟩
  · rw [State.port_setPort_self, State.setPort_exec, State.setPort_queues, State.setPort_mem]
    exact ⟨rfl, rfl, rfl, rfl, rfl⟩

theorem State.flitReceived_inOrder {s : State} {p : Nat} {f : List Byte} (hp : p < 16) (hlive : 3 ≤ s.linkState p) (n : Nat) (hok : flitOk f = true)
    (hdata : flitType f = 1) (hack : bit (le f 2 2) 12 = false) (hseq : bits (le f 0 2) 0 12 = ((s.port p).rxSeq + 1) % 4096) :
    s.flitReceived p f n = (((s.count (oLinkFecCorrected p) n).hearFlit p f).acceptFlit p f).pump p := by
  have hup := State.live_count_fec hp hlive n
  unfold State.flitReceived
  dsimp only
  rw [if_neg hup, if_neg (by rw [hok]; decide), hack]
  rw [← State.port_count s (oLinkFecCorrected p) n p] at hseq
  generalize s.count (oLinkFecCorrected p) n = t at hup hseq ⊢
  have hkept : ¬ (flitType f = 0 ∨ (t.hearFlit p f).linkState p < 3) := by
    rw [hdata, State.linkState_hearFlit]
    exact fun h => h.elim (by decide) (fun h => hup (.inr h))
  have hnext : bits (le f 0 2) 0 12 = (((t.hearFlit p f).port p).rxSeq + 1) % 4096 := by
    rw [State.port_hearFlit]
    exact hseq
  rw [← State.hearFlit, if_neg hkept, if_pos hnext, State.acceptFlit]
  rfl

theorem exec_flitReceive (p : Fin 16) (f : List Byte) (n : Nat) (s : State) : exec (.flitReceive p f n) s = .next (s.flitReceived p.val f n) := rfl

/-- What a bad flit leaves, with its NAK or without. -/
theorem State.flitReceived_bad_spec {s : State} {p : Nat} {f : List Byte} (hp : p < 16) (hlive : 3 ≤ s.linkState p) (n : Nat) (hbad : flitOk f = false) :
    (s.flitReceived p f n).obj (oLinkCrcErrors p) = satAdd (objBits (oLinkCrcErrors p)) (s.obj (oLinkCrcErrors p)) 1 ∧
      ((s.flitReceived p f n).port p).rxSeq = (s.port p).rxSeq ∧ ((s.flitReceived p f n).port p).credits = (s.port p).credits ∧
      (flitType f ≠ 0 → ((s.flitReceived p f n).port p).rxGap = true) ∧
      (s.flitReceived p f n).fabric.acksSent =
        s.fabric.acksSent ++ (if flitType f ≠ 0 ∧ (s.port p).rxGap = false then [(p, (s.port p).rxSeq, true)] else []) ∧
      (s.flitReceived p f n).exec = s.exec ∧ (s.flitReceived p f n).queues = s.queues ∧ (s.flitReceived p f n).mem = s.mem := by
  have hcrc := s.obj_crcErrors p n
  rw [State.flitReceived_bad hp hlive n hbad]
  split
  · next h =>
    have hquiet : ¬ (flitType f ≠ 0 ∧ (s.port p).rxGap = false) := by
      rintro ⟨hdata, hgap⟩
      exact h.elim hdata (by simp [hgap])
    rw [if_neg hquiet, List.append_nil, State.port_count, State.port_count, State.count_fabric, State.count_fabric, State.count_exec,
      State.count_exec, State.count_queues, State.count_queues, State.count_mem, State.count_mem]
    exact ⟨hcrc, rfl, rfl, fun hdata => h.resolve_left hdata, rfl, rfl, rfl, rfl⟩
  · next h =>
    obtain ⟨hdata, hgap⟩ := not_or.mp h
    rw [State.obj_linkAck, State.obj_setPort, State.port_linkAck, State.port_setPort_self, State.linkAck_acksSent, State.setPort_acksSent,
      State.count_fabric, State.count_fabric, State.port_setPort_self, if_pos ⟨hdata, Bool.eq_false_iff.mpr hgap⟩, State.linkAck_exec,
      State.linkAck_queues, State.linkAck_mem, State.setPort_exec, State.setPort_queues, State.setPort_mem, State.count_exec, State.count_exec,
      State.count_queues, State.count_queues, State.count_mem, State.count_mem]
    exact ⟨hcrc, rfl, rfl, fun _ => rfl, rfl, rfl, rfl, rfl⟩

/-- Settles O47: bad flits by `flitReceived_bad`, flits in order by `acceptFlit_spec` and what packets that leave keep, ACKs by `ackIn_ack`. -/
theorem flitsAreCheckedAndAcknowledged : Obligations.FlitsAreCheckedAndAcknowledged := by
  unfold Obligations.FlitsAreCheckedAndAcknowledged
  refine ⟨fun s p f n hlive hbad => ⟨_, exec_flitReceive p f n s, ?_⟩, fun s p f n hlive hok hdata hack hseq => ⟨_, exec_flitReceive p f n s, ?_⟩,
    fun s p ack i hi => ?_⟩
  · exact State.flitReceived_bad_spec p.isLt hlive n hbad
  · rw [State.flitReceived_inOrder p.isLt hlive n hok hdata hack hseq]
    have hpump := State.sendsOnly_pump (((s.count (oLinkFecCorrected p.val) n).hearFlit p.val f).acceptFlit p.val f) p.val
    obtain ⟨hrx, hgap, hexec, hqueues, hmem⟩ := ((s.count (oLinkFecCorrected p.val) n).hearFlit p.val f).acceptFlit_spec p.val f
    rw [State.port_hearFlit, State.port_count] at hrx
    rw [hpump.exec, hpump.queues, hpump.mem, hexec, hqueues, hmem, State.hearFlit_exec, State.hearFlit_queues, State.hearFlit_mem,
      State.count_exec, State.count_queues, State.count_mem]
    exact ⟨(hpump.rxSeq p.val).trans hrx, (hpump.rxGap p.val).trans hgap, rfl, rfl, rfl⟩
  · rw [State.ackIn_ack, State.port_setPort_self]
    unfold unacknowledged
    rw [hi]

end Sys2Proof.Machine

/-! SUPPORT. Discovery packets, link parameters and advertisements, and the statement about them. -/

namespace Sys2Proof.Machine

/-! ## Fields of a number -/

theorem setBits_eq (x lo w v : Nat) : setBits x lo w v = x % 2 ^ lo + 2 ^ lo * (v % 2 ^ w + 2 ^ w * (x / 2 ^ lo / 2 ^ w)) := by
  have hlow := Nat.mod_add_div x (2 ^ lo)
  have hfield := Nat.mod_add_div (x / 2 ^ lo) (2 ^ w)
  unfold setBits bits
  rw [Nat.shiftRight_eq_div_pow, Nat.mul_comm _ (2 ^ lo), Nat.mul_comm _ (2 ^ lo), Nat.mul_add]
  rw [← hfield, Nat.mul_add] at hlow
  omega

/-- A field reads back as the low bits of what was put in it. -/
theorem bits_setBits (x lo w v : Nat) : bits (setBits x lo w v) lo w = v % 2 ^ w := by
  rw [setBits_eq, bits, Nat.shiftRight_eq_div_pow, Nat.add_mul_div_left _ _ (Nat.two_pow_pos lo), Nat.div_eq_of_lt (Nat.mod_lt _ (Nat.two_pow_pos lo)),
    Nat.zero_add, Nat.add_mul_mod_self_left, Nat.mod_mod]

/-! ## The map of another device (R344) -/

/-- What is known of device `d` replaced by an advertisement. -/
def State.learnMap (s : State) (d b e : Nat) : State :=
  { s with fabric := { s.fabric with mapEpochs := Store.set 0 s.fabric.mapEpochs d e } }.setObj oLinkMap (setBits (s.obj oLinkMap) (16 * d) 16 b)

theorem State.linksOnly_learnMap (s : State) (d b e : Nat) : s.LinksOnly mapObject (s.learnMap d b e) :=
  ⟨rfl, rfl, rfl, fun _ _ hkey => State.obj_setObj_other _ _ (fun h => hkey (.inl h.symm)), fun _ => rfl⟩

theorem State.learnMap_exec (s : State) (d b e : Nat) : (s.learnMap d b e).exec = s.exec := rfl
theorem State.learnMap_queues (s : State) (d b e : Nat) : (s.learnMap d b e).queues = s.queues := rfl
theorem State.learnMap_mem (s : State) (d b e : Nat) : (s.learnMap d b e).mem = s.mem := rfl

theorem State.learnMap_mapEpochs (s : State) (d b e : Nat) : Store.get 0 (s.learnMap d b e).fabric.mapEpochs d = e := Store.get_set_self _ _ d e

theorem State.learnMap_map (s : State) (d b e : Nat) : bits ((s.learnMap d b e).obj oLinkMap) (16 * d) 16 = b % 2 ^ 16 := by
  rw [State.learnMap, State.obj_setObj_self, bits_setBits]

/-! ## A port that carries traffic (R337, R338, R344) -/

/-- The objects of port `p` and of the link map that the check of its peer moves. -/
def portObject (p key : Nat) : Prop := key = oLinkState p ∨ mapObject key

theorem oLinkPeer_lt {p : Nat} (hp : p < 16) : oLinkPeer p < 0x400000 := by
  unfold oLinkPeer
  omega

theorem not_portObject_linkPeer (p : Nat) : ¬ portObject p (oLinkPeer p) := by
  unfold portObject mapObject oLinkPeer oLinkState oLinkMap oRoutingEpoch
  omega

theorem State.linksOnly_announced (s : State) (p : Nat) (ev : EventRec) : s.LinksOnly mapObject (((s.event ev).mapChanged p true).pump p) :=
  ((s.linksOnly_event _ ev).trans (State.linksOnly_mapChanged _ p true)).trans ((State.sendsOnly_pump _ p).linksOnly _)

theorem State.portActive_spec (s : State) {p : Nat} (hp : p < 18) :
    (s.portActive p).linkState p = (if (s.port p).width = 8 then 4 else 5) ∧ ((s.portActive p).port p).params = (s.port p).params ∧
      (s.portActive p).exec = s.exec ∧ (s.portActive p).queues = s.queues := by
  unfold State.portActive
  extract_lets v st ev
  have h := (s.setLink p st).linksOnly_announced p ev
  rw [h.linkState hp, h.params, h.exec, h.queues, State.port_setLink, State.setLink_exec, State.setLink_queues]
  exact ⟨s.linkState_setLink_self st hp, rfl, rfl, rfl⟩

theorem State.linksOnly_portActive (s : State) (p : Nat) : s.LinksOnly (portObject p) (s.portActive p) :=
  (s.linksOnly_setLink _ (.inl rfl)).trans ((State.linksOnly_announced _ p _).mono fun _ => .inr)

/-! ## The check of a peer (R341) -/

theorem State.linksOnly_unloadedPort (s : State) (p st : Nat) : s.LinksOnly (portObject p) ((s.setLink p st).unloadPort p) :=
  (s.linksOnly_setLink st (.inl rfl)).trans ((State.linksOnly_unloadPort _ p).mono fun _ => .inr)

theorem State.linksOnly_checkPeer (s : State) (p : Nat) : s.LinksOnly (portObject p) (s.checkPeer p) := by
  unfold State.checkPeer
  extract_lets st v s1 s2 x s3 s4
  split
  · exact .refl _ s
  split
  · split
    · exact .refl _ s
    · have h := s.linksOnly_unloadedPort p 3
      exact h.trans (State.linksOnly_setPort _ (h.port p).symm)
  split
  · split
    · exact .refl _ s
    · have h1 : s.LinksOnly (portObject p) s1 := by
        unfold s1
        split
        · exact s.linksOnly_setLink 3 (.inl rfl)
        · exact .refl _ s
      have h2 : s1.LinksOnly (portObject p) s2 := by
        unfold s2
        split
        · exact .refl _ s1
        · have haccept : s1.LinksOnly (portObject p) (s1.setPort p { v with accepted := true }) := State.linksOnly_setPort _ (h1.port p).symm
          exact haccept.trans ((State.sendsOnly_outPacket _ p _).linksOnly _)
      split
      · exact (h1.trans h2).trans (s2.linksOnly_portActive p)
      · exact h1.trans h2
  split
  · exact .refl _ s
  · have h3 : s.LinksOnly (portObject p) s3 := (s.linksOnly_setLink 6 (.inl rfl)).trans (State.linksOnly_event _ _ _)
    have h4 : s3.LinksOnly (portObject p) s4 := by
      unfold s4
      split
      · exact .refl _ s3
      · exact (s3.linksOnly_unloadPort p).mono fun _ => .inr
    exact (h3.trans h4).trans (State.linksOnly_setPort _ rfl)

/-- What a discovery packet says of its sender, as LINK_PEER holds it (Table 13-10). -/
def peerObject (borough device port width serial : Nat) : Nat :=
  borough % 256 + device % 256 * 2 ^ 8 + port % 256 * 2 ^ 16 + width * 2 ^ 24 + serial % 2 ^ 64 * 2 ^ 64

theorem State.discovered_eq {s : State} {p : Nat} {k : Packet} {borough device port serial : Nat} (hbody : k.body = .discovery borough device port serial)
    (hp : p < 16) (hlive : 3 ≤ s.linkState p) (hcrc : k.hdr.crcOk = true) : s.discovered p k =
    ((s.setObj (oLinkPeer p) (peerObject borough device port (s.port p).width serial)).setPort p { s.port p with heard := true }).checkPeer p := by
  unfold State.discovered
  rw [hbody]
  dsimp only
  rw [if_neg (by omega), if_neg (by simp [hcrc])]
  rfl

/-! ## Link parameters (R344) -/

theorem State.mergeMaps_spec (s : State) (bitsL epochs : List Nat) :
    s.LinksOnly mapObject (s.mergeMaps bitsL epochs) ∧ ∀ p, (s.mergeMaps bitsL epochs).port p = s.port p := by
  unfold State.mergeMaps
  refine List.foldlRecOn (motive := fun t => s.LinksOnly mapObject t ∧ ∀ p, t.port p = s.port p) _ _ ⟨.refl _ s, fun _ => rfl⟩ (fun t ht d _ => ?_)
  obtain ⟨hlinks, hport⟩ := ht
  dsimp only
  split
  · split
    · exact ⟨hlinks.trans ((t.linksOnly_setObj _ (.inr rfl)).trans (State.linksOnly_event _ _ _)), fun p => (State.port_event _ _ p).trans (hport p)⟩
    · exact ⟨hlinks, hport⟩
  · split
    · exact ⟨hlinks.trans (t.linksOnly_learnMap d _ _), hport⟩
    · exact ⟨hlinks, hport⟩

/-- The parameters of a peer taken in; over a Street port its maps are merged. -/
def State.hearParams (s : State) (p : Nat) (bitsL epochs : List Nat) : State :=
  if p < 12 then (s.setPort p { s.port p with params := true }).mergeMaps bitsL epochs else s.setPort p { s.port p with params := true }

theorem State.hearParams_spec (s : State) (p : Nat) (bitsL epochs : List Nat) :
    (s.hearParams p bitsL epochs).port p = { s.port p with params := true } ∧ (s.hearParams p bitsL epochs).exec = s.exec ∧
      (s.hearParams p bitsL epochs).queues = s.queues := by
  unfold State.hearParams
  split
  · obtain ⟨hlinks, hport⟩ := (s.setPort p { s.port p with params := true }).mergeMaps_spec bitsL epochs
    exact ⟨(hport p).trans (State.port_setPort_self _ _ _), hlinks.exec, hlinks.queues⟩
  · exact ⟨State.port_setPort_self _ _ _, rfl, rfl⟩

theorem State.paramsReceived_accepted {s : State} {p : Nat} {k : Packet} {a w : Nat} {b e : List Nat} (hbody : k.body = .params a w b e) (hp : p < 16)
    (hstate : s.linkState p = 3) (hcrc : k.hdr.crcOk = true) (haccepted : (s.port p).accepted = true) :
    s.paramsReceived p k = (s.hearParams p b e).portActive p := by
  obtain ⟨hport, _, _⟩ := s.hearParams_spec p b e
  have hpeer : ((s.hearParams p b e).port p).accepted = true := by
    rw [hport]
    exact haccepted
  unfold State.paramsReceived
  rw [hbody]
  dsimp only
  rw [if_neg (by omega), if_neg (by simp [hcrc])]
  exact if_pos hpeer

/-! ## Advertisements (R344, R373) -/

theorem State.peerEpoch_same {s : State} {d boot : Nat} (h : Store.get 0 s.fabric.peerBoot d = 0 ∨ Store.get 0 s.fabric.peerBoot d = boot) :
    s.peerEpoch d boot = { s with fabric := { s.fabric with peerBoot := Store.set 0 s.fabric.peerBoot d boot } } := by
  unfold State.peerEpoch
  exact if_pos h

section
variable {s : State} {p : Nat} {k : Packet} {d b e boot : Nat} (hbody : k.body = .lsa d b e boot) (hself : d ≠ s.deviceNumber) (hd : d < 64) (hp : p < 12)
  (hlive : 3 ≤ s.linkState p) (hcrc : k.hdr.crcOk = true)
include hbody hself hd hp hlive hcrc

theorem State.lsaReceived_newer (hnew : Store.get 0 (s.peerEpoch d boot).fabric.mapEpochs d < e) :
    s.lsaReceived p k = ((s.peerEpoch d boot).learnMap d b e).floodLsa d (some p) := by
  unfold State.lsaReceived
  rw [hbody]
  dsimp only
  rw [if_neg (by omega), if_neg (by simp [hcrc]), if_pos hnew]
  rfl

theorem State.lsaReceived_stale (hold : e ≤ Store.get 0 (s.peerEpoch d boot).fabric.mapEpochs d) : s.lsaReceived p k = s.peerEpoch d boot := by
  unfold State.lsaReceived
  rw [hbody]
  dsimp only
  rw [if_neg (by omega), if_neg (by simp [hcrc]), if_neg (Nat.not_lt.mpr hold)]

end

/-! ## The rows -/

theorem exec_discoveryReceive (p : Fin 16) (k : Packet) (s : State) : exec (.discoveryReceive p k) s = .next (s.discovered p.val k) := rfl
theorem exec_linkParametersReceive (p : Fin 16) (k : Packet) (s : State) : exec (.linkParametersReceive p k) s = .next (s.paramsReceived p.val k) := rfl
theorem exec_linkStateAdvertisementReceive (p : Fin 16) (k : Packet) (s : State) :
    exec (.linkStateAdvertisementReceive p k) s = .next (s.lsaReceived p.val k) := rfl

/-- Settles O48, clause by clause: discovery by what the check of a peer leaves, parameters by `portActive_spec`, advertisements by what is learned and
what flooding them leaves. -/
theorem peersAreLearned : Obligations.PeersAreLearned := by
  unfold Obligations.PeersAreLearned
  refine ⟨fun s p k borough device port serial hbody hlive hcrc => ⟨_, exec_discoveryReceive p k s, ?_⟩,
    fun s p k a w b e hbody hstate hcrc haccepted => ⟨_, exec_linkParametersReceive p k s, ?_⟩,
    fun s p k d b e boot hbody hself hd hp hlive hcrc hboot hnew => ⟨_, exec_linkStateAdvertisementReceive p k s, ?_⟩,
    fun s p k d b e boot hbody hself hd hp hlive hcrc hboot hold => ⟨_, exec_linkStateAdvertisementReceive p k s, ?_⟩⟩
  · have h := State.linksOnly_checkPeer ((s.setObj (oLinkPeer p.val) (peerObject borough device port (s.port p.val).width serial)).setPort p.val
      { s.port p.val with heard := true }) p.val
    rw [State.discovered_eq hbody p.isLt hlive hcrc, h.exec, h.queues, State.quiet_mem, State.quiet_mem, h.device, State.setPort_exec,
      State.setPort_queues, State.setPort_mem, State.setObj_exec, State.setObj_queues, State.setObj_mem]
    refine ⟨(h.obj _ (oLinkPeer_lt p.isLt) (not_portObject_linkPeer p.val)).trans ?_, rfl, rfl, rfl⟩
    rw [State.obj_setPort, State.obj_setObj_self]
    rfl
  · obtain ⟨hport, hexec, hqueues⟩ := s.hearParams_spec p.val b e
    obtain ⟨hstate', hparams, hexec', hqueues'⟩ := (s.hearParams p.val b e).portActive_spec (p := p.val) (by omega)
    rw [State.paramsReceived_accepted hbody p.isLt hstate hcrc haccepted, hstate', hparams, hexec', hqueues', hport, hexec, hqueues]
    exact ⟨rfl, rfl, rfl, rfl⟩
  · have hsame := State.peerEpoch_same hboot
    rw [State.lsaReceived_newer hbody hself hd hp hlive hcrc (by rw [hsame]; exact hnew), hsame]
    have h := State.sendsOnly_floodLsa (State.learnMap { s with fabric := { s.fabric with peerBoot := Store.set 0 s.fabric.peerBoot d boot } } d b e) d
      (some p.val)
    rw [h.mapEpochs, h.obj _ (by decide), h.exec, h.queues, h.mem, State.learnMap_mapEpochs, State.learnMap_map, State.learnMap_exec,
      State.learnMap_queues, State.learnMap_mem]
    exact ⟨rfl, rfl, rfl, rfl, rfl⟩
  · have hsame := State.peerEpoch_same hboot
    rw [State.lsaReceived_stale hbody hself hd hp hlive hcrc (by rw [hsame]; exact hold), hsame]
    exact ⟨rfl, rfl, rfl⟩

end Sys2Proof.Machine

/-! SUPPORT. Thrumyo transactions on a lineage port, and the statement about them. -/

namespace Sys2Proof.Machine

theorem exec_lineageTransactionReceive (i : Fin 2) (x : Thrumyo) (s : State) :
    exec (.lineageTransactionReceive i x) s = .next (s.lineageTransaction i.val x) := rfl

theorem exec_lineageResponseReceive (i : Fin 2) (x : Thrumyo) (s : State) :
    exec (.lineageResponseReceive i x) s = .next (s.lineageResponse i.val x) := rfl

theorem State.faultInfo_tenant_mem (s : State) (t queue : Nat) (f : AccFault) : (s.faultInfo (some t) queue f).mem = s.mem := by
  unfold State.faultInfo
  dsimp only
  rw [State.tenantEvent_mem, State.setObj_mem]

theorem State.faultInfo_tenant_fabric (s : State) (t queue : Nat) (f : AccFault) : (s.faultInfo (some t) queue f).fabric = s.fabric := by
  unfold State.faultInfo
  dsimp only
  rw [(State.reportsOnly_tenantEvent _ t 0).fabric, State.setObj_fabric]

theorem State.lineageAnswer_lineageOut (s : State) (i : Nat) (x : Thrumyo) :
    (s.lineageAnswer i x).fabric.lineageOut = s.fabric.lineageOut ++ [(i, x)] := rfl

/-! ## Transactions that are not performed (R359, R382) -/

theorem State.lineageTransaction_closed {s : State} {i : Nat} (h : s.linkState (16 + i) ≠ 4) (x : Thrumyo) : s.lineageTransaction i x = s := by
  unfold State.lineageTransaction
  exact if_pos h

section
variable {s : State} {i : Nat} (hopen : s.linkState (16 + i) = 4)
include hopen

theorem State.lineageTransaction_unknown {x : Thrumyo} (hx : x.known = false) : s.lineageTransaction i x = s.lineageRefuse i := by
  unfold State.lineageTransaction
  simp only [hopen, hx, ne_eq, not_true_eq_false, Bool.not_false, if_false, if_true]

theorem State.lineageTransaction_no_tenant (ht : s.obj (oLineagePortTenant i) = 0xFFFF) {x : Thrumyo} (hx : x.known = true) :
    s.lineageTransaction i x = s.lineageAnswer i .unsupported := by
  unfold State.lineageTransaction
  simp only [hopen, ht, hx, ne_eq, not_true_eq_false, Bool.not_true, Bool.false_eq_true, if_false, if_true]

/-! ## Transactions of the port's tenant (R359, R382) -/

variable (ht : s.obj (oLineagePortTenant i) ≠ 0xFFFF)
include ht

theorem State.lineageTransaction_write {d : List Byte} (hd : d.length ≤ 4096) {a : Nat} {w : List (Nat × Byte)}
    (hw : s.cellsVa (some (s.obj (oLineagePortTenant i))) a d = .ok w) :
    s.lineageTransaction i (.write a d) = (s.withMem (s.mem.store w)).lineageAnswer i (.ack 0) := by
  have hknown : (Thrumyo.write a d).known = true := decide_eq_true hd
  unfold State.lineageTransaction
  simp only [hopen, ht, hknown, hw, ne_eq, not_true_eq_false, Bool.not_true, Bool.false_eq_true, if_false]

theorem State.lineageTransaction_read {n : Nat} (hn : n ≤ 4096) {a : Nat} {b : List Byte}
    (hb : s.readVa (some (s.obj (oLineagePortTenant i))) a n = .ok b) : s.lineageTransaction i (.read a n) = s.lineageAnswer i (.readData b) := by
  have hknown : (Thrumyo.read a n).known = true := decide_eq_true hn
  unfold State.lineageTransaction
  simp only [hopen, ht, hknown, hb, ne_eq, not_true_eq_false, Bool.not_true, Bool.false_eq_true, if_false]

theorem State.lineageTransaction_read_faults {n : Nat} (hn : n ≤ 4096) {a : Nat} {f : AccFault}
    (hf : s.readVa (some (s.obj (oLineagePortTenant i))) a n = .error f) :
    s.lineageTransaction i (.read a n) = (s.faultInfo (some (s.obj (oLineagePortTenant i))) 0 f).lineageAnswer i .unsupported := by
  have hknown : (Thrumyo.read a n).known = true := decide_eq_true hn
  unfold State.lineageTransaction
  simp only [hopen, ht, hknown, hf, ne_eq, not_true_eq_false, Bool.not_true, Bool.false_eq_true, if_false]

theorem State.lineageTransaction_signal_outside {id : Nat} (hout : s.postInRange (s.obj (oLineagePortTenant i)) id = false) (v : Nat) :
    s.lineageTransaction i (.signal id v) = s.lineageAnswer i .unsupported := by
  have hknown : (Thrumyo.signal id v).known = true := rfl
  unfold State.lineageTransaction
  simp only [hopen, ht, hknown, hout, ne_eq, not_true_eq_false, Bool.not_true, Bool.false_eq_true, if_false]

end

/-! ## Answers (R370) -/

/-- An answer that is no acknowledgement ends the oldest request of its port. -/
theorem State.lineageResponse_unsupported {s : State} {i : Nat} {w : Nat × Nat × Nat} (hw : s.fabric.lineageWait.find? (fun w => w.1 == i) = some w) :
    s.lineageResponse i .unsupported = { s with fabric := { s.fabric with lineageWait := s.fabric.lineageWait.erase w } } := by
  unfold State.lineageResponse
  simp only [hw]

/-- Settles O52, clause by clause: each transaction by its `lineageTransaction_` lemma, a refusal's fault information by what it leaves. -/
theorem lineagePortsServeTheirTenant : Obligations.LineagePortsServeTheirTenant := by
  unfold Obligations.LineagePortsServeTheirTenant
  simp only [exec_lineageTransactionReceive, exec_lineageResponseReceive]
  refine ⟨fun s i x hopen ht hx => ?_, fun s i x hopen hx => ?_, fun s i x hclosed => ?_, fun s i a d w hopen ht hd hw => ?_,
    fun s i a n b hopen ht hn hb => ?_, fun s i a n f hopen ht hn hf => ⟨_, rfl, ?_⟩, fun s i id v hopen ht hout => ?_,
    fun s i w hw => ?_, fun s i tag => rfl⟩
  · rw [State.lineageTransaction_no_tenant hopen ht hx]
  · rw [State.lineageTransaction_unknown hopen hx]
  · rw [State.lineageTransaction_closed hclosed]
  · rw [State.lineageTransaction_write hopen ht hd hw]
  · rw [State.lineageTransaction_read hopen ht hn hb]
  · rw [State.lineageTransaction_read_faults hopen ht hn hf, State.lineageAnswer_mem, State.lineageAnswer_lineageOut,
      State.faultInfo_tenant_mem, State.faultInfo_tenant_fabric]
    exact ⟨rfl, rfl⟩
  · rw [State.lineageTransaction_signal_outside hopen ht hout]
  · rw [State.lineageResponse_unsupported hw]

end Sys2Proof.Machine

/-! SUPPORT. What a command that fails leaves, and what collectives keep of the posts; the statement about packets that have arrived. -/

namespace Sys2Proof.Machine

/-! ## Failing commands (R104, R395) -/

theorem State.chargeEngine_fabric (s : State) (c : Ctx) (key ns : Nat) : (s.chargeEngine c key ns).fabric = s.fabric := by
  obtain ⟨d, o, h⟩ := s.chargeEngine_form c key ns
  rw [h]

theorem State.chargeDiscard_fabric (s : State) (c : Cmd) (status detail : Nat) : (s.chargeDiscard c status detail).fabric = s.fabric := by
  unfold State.chargeDiscard
  dsimp only
  split
  · rfl
  · split
    · rfl
    · exact State.chargeEngine_fabric _ _ _ _

theorem State.failCmdAs_fabric (s : State) (id status detail : Nat) (f : Option AccFault) (wide : Bool) :
    (s.failCmdAs id status detail f wide).fabric = s.fabric := by
  unfold State.failCmdAs
  split
  · next c _ =>
    dsimp only
    rw [State.setCmd_fabric, State.dropGrants_fabric]
    cases wide <;> exact s.chargeDiscard_fabric c status detail
  · rfl

theorem State.failCmd_fabric (s : State) (id status detail : Nat) (f : Option AccFault) : (s.failCmd id status detail f).fabric = s.fabric :=
  s.failCmdAs_fabric id status detail f _

/-! ## Collectives keep the posts (R380 to R382) -/

theorem State.posts_foldl {α : Type} {f : State → α → State} (hf : ∀ (s : State) a, (f s a).fabric.posts = s.fabric.posts) (l : List α) (s : State) :
    (l.foldl f s).fabric.posts = s.fabric.posts := by
  induction l generalizing s with
  | nil => rfl
  | cons a rest ih => exact (ih (f s a)).trans (hf s a)

theorem State.posts_originate (s : State) (tag dst typ : Nat) (body : PktBody) : (s.originate tag dst typ body).fabric.posts = s.fabric.posts :=
  (s.postsKept_originate tag dst typ body).posts

@[simp] theorem State.posts_setColl (s : State) (c : Coll) : (s.setColl c).fabric.posts = s.fabric.posts := rfl
@[simp] theorem State.posts_dropColl (s : State) (id : Nat) : (s.dropColl id).fabric.posts = s.fabric.posts := rfl

theorem State.posts_dropColl_failCmd (s : State) (id status detail : Nat) (f : Option AccFault) :
    ((s.dropColl id).failCmd id status detail f).fabric.posts = s.fabric.posts := by
  rw [State.failCmd_fabric, State.posts_dropColl]

theorem State.posts_sendReleases (s : State) (c : Coll) : (s.sendReleases c).fabric.posts = s.fabric.posts := by
  unfold State.sendReleases
  split
  · rfl
  · exact State.posts_foldl (fun x _ => x.posts_originate _ _ _ _) _ _

theorem State.posts_lineageSend (s : State) (lport id tag : Nat) (x : Thrumyo) : (s.lineageSend lport id tag x).fabric.posts = s.fabric.posts := rfl

theorem State.posts_lineageWrites (s : State) (lport id tag addr : Nat) (bs : List Byte) :
    (s.lineageWrites lport id tag addr bs).1.fabric.posts = s.fabric.posts :=
  State.posts_foldl (fun x _ => x.posts_lineageSend _ _ _ _) _ s

theorem State.posts_startHosted (s : State) (c : Coll) : (s.startHosted c).fabric.posts = s.fabric.posts := by
  unfold State.startHosted
  split
  · rfl
  · refine State.posts_foldl (fun x h => ?_) _ s
    split
    · split
      · exact x.posts_lineageWrites _ _ _ _ _
      · rfl
    · rfl

theorem State.posts_refreshFused (s : State) (c : Coll) : (s.refreshFused c).fabric.posts = s.fabric.posts := by
  unfold State.refreshFused
  split
  · rfl
  · split
    · rfl
    · split
      · rfl
      · split <;> rfl

theorem State.addStepDigest_fabric (s : State) (e : Env) (sd : Option Nat) (w : Work) : (s.addStepDigest e sd w).fabric = s.fabric := by
  unfold State.addStepDigest
  split <;> rfl

theorem State.setWork_fabric (s : State) (id : Nat) (pre : List (Nat × Byte)) (r : Except Fail Work) (e : Env) (sd : Option Nat) :
    (s.setWork id pre r e sd).fabric = s.fabric := by
  unfold State.setWork
  split
  · exact s.addStepDigest_fabric _ _ _
  · exact s.failCmd_fabric _ _ _ _
  · rfl

theorem State.posts_finishFused (s : State) (c : Coll) : (s.finishFused c).fabric.posts = s.fabric.posts := by
  unfold State.finishFused
  split
  · rfl
  · split
    · exact s.posts_dropColl_failCmd _ _ _ _
    · dsimp only
      rw [State.setWork_fabric]
      split <;> rfl

theorem State.posts_endColl (s : State) (c : Coll) : (s.endColl c).fabric.posts = s.fabric.posts := by
  unfold State.endColl
  split
  · rfl
  · split
    · exact s.posts_finishFused c
    · split
      · rfl
      · dsimp only
        split
        · exact s.posts_dropColl_failCmd _ _ _ _
        · rfl

theorem State.posts_collStep (s : State) (id : Nat) : (s.collStep id).fabric.posts = s.fabric.posts := by
  unfold State.collStep
  split
  · rfl
  · split
    · exact s.posts_dropColl_failCmd _ _ _ _
    · next c c1 _ =>
      extract_lets c2 s1 s2
      have h1 : s1.fabric.posts = s.fabric.posts := (State.posts_sendReleases _ c2).trans (s.posts_setColl c2)
      have h2 : s2.fabric.posts = s.fabric.posts := by
        unfold s2
        rw [State.posts_refreshFused]
        split
        · exact (s1.posts_startHosted _).trans h1
        · exact h1
      split
      · exact (s2.posts_endColl _).trans h2
      · exact h2

theorem State.posts_abortColl (s : State) (c : Coll) (status detail : Nat) (tell : Bool) :
    (s.abortColl c status detail tell).fabric.posts = s.fabric.posts := by
  have hfail : ((s.dropColl c.cmd).failCmdAs c.cmd status detail none true).fabric.posts = s.fabric.posts := by
    rw [State.failCmdAs_fabric, State.posts_dropColl]
  unfold State.abortColl
  extract_lets s1 kept s2 devs
  split
  · exact hfail
  · rw [(State.reportsOnly_event _ _).fabric]
    exact (State.posts_foldl (fun x _ => x.posts_originate _ _ _ _) _ s2).trans hfail

theorem State.posts_tryServe (s : State) (h : HeldReq) : (s.tryServe h).1.fabric.posts = s.fabric.posts := by
  unfold State.tryServe
  split
  · rfl
  · split
    · exact s.posts_abortColl _ _ _ _
    · split
      · rfl
      · exact State.posts_foldl (fun x _ => x.posts_originate _ _ _ _) _ s

theorem State.posts_serveHeld (s : State) : s.serveHeld.fabric.posts = s.fabric.posts := by
  refine State.posts_foldl (fun x h => ?_) _ s
  have hserve := x.posts_tryServe h
  dsimp only
  split
  · rfl
  · split <;> exact hserve

theorem State.posts_collProgress (s : State) : s.collProgress.fabric.posts = s.fabric.posts :=
  (State.posts_serveHeld _).trans (State.posts_foldl State.posts_collStep _ s)

/-! ## Writes and signals that arrive (R365, R366, R370) -/

section
variable {s : State} {k : Packet}

theorem State.applyData_write_allowed {b : WriteBody} {w : List (Nat × Byte)} (hbody : k.body = .write b) (hright : s.putRights b.job b.tenant = true)
    (hcells : s.cellsVa (some b.tenant) b.va b.data = .ok w) :
    s.applyData k = (s.withMem (s.mem.store w)).originate tagDevice k.hdr.src 4 (.writeResult b.put 0 0 none) := by
  simp only [State.applyData, hbody, State.applyWrite, hright, hcells, Bool.not_true, Bool.false_eq_true, if_false]

theorem State.applyData_write_refused {b : WriteBody} (hbody : k.body = .write b) (hright : s.putRights b.job b.tenant = false) :
    s.applyData k = s.originate tagDevice k.hdr.src 4 (.writeResult b.put stPostAccess (fieldDetail 0 104) none) := by
  simp only [State.applyData, hbody, State.applyWrite, hright, Bool.not_false, if_true]

/-- A signal that the job may perform sets its post as one of this device would; its answer and what collectives do then set no other. -/
theorem State.applyData_signal_allowed {post job op value id : Nat} (hbody : k.body = .post (.signal post job op value id))
    (hok : s.remoteUseOk post job = true) (p : Nat) : (s.applyData k).postValue p = (s.signalPost post op value).postValue p := by
  simp only [State.applyData, hbody, State.postUpdate, hok, if_true]
  refine congrArg (fun m => Store.get 0 m p) ((State.posts_collProgress _).trans ((State.posts_originate _ _ _ _ _).trans ?_))
  exact (State.talliesOnly_trace _ _ _ _ _).postsKept.posts

theorem State.applyData_signal_denied {post job op value id : Nat} (hbody : k.body = .post (.signal post job op value id))
    (hok : s.remoteUseOk post job = false) : s.applyData k = s.originate tagDevice k.hdr.src 4 (.post (.denied id)) := by
  simp only [State.applyData, hbody, State.postUpdate, hok, Bool.false_eq_true, if_false]

/-! ## Hang queries (R513) -/

theorem State.applyManagement_query {a post job : Nat} (hbody : k.body = .mgmt (.query a s.self post job)) (hok : s.remoteUseOk post job = true)
    (stalled : List From) :
    s.applyManagement stalled k = s.originate tagDevice k.hdr.src 7 (.mgmt (.reply a s.self post (s.postValue post) ((s.postTenant post).getD 0)
      (((sortNodes (s.signallers (stalled.filterMap s.headOf) s.self post)).filter
        (fun n => decide (n.tenant < 1024) && s.obj (oTenantJobId n.tenant) == job && job != 0)).take 16))) := by
  simp only [State.applyManagement, hbody, State.hangAnswer, hok, beq_self_eq_true, Bool.and_self, if_true]

/-! ## Subscriptions (R367) -/

section
variable {post job th w : Nat} (hbody : k.body = .subscribe post job th w) (hok : s.remoteUseOk post job = true)
include hbody hok

theorem State.applyData_subscribe_held (hth : s.postValue post < th) (hroom : s.fabric.subs.length < 16384) :
    (s.applyData k).fabric.subs = s.fabric.subs ++ [⟨post, th, k.hdr.src, w⟩] := by
  simp only [State.applyData, hbody, State.subscribed, hok, Bool.not_true, Bool.false_eq_true, if_false, Nat.not_le.mpr hth, Nat.not_le.mpr hroom,
    State.setObj_fabric]

theorem State.applyData_subscribe_met (hth : th ≤ s.postValue post) :
    s.applyData k = s.originate tagDevice k.hdr.src 4 (.post (.reply post (s.postValue post) w)) := by
  simp only [State.applyData, hbody, State.subscribed, hok, Bool.not_true, Bool.false_eq_true, if_false, hth, if_true]

end

/-! ## The last answer of a PUT (R370) -/

theorem State.applyData_last_writeResult {put dt : Nat} {c : Cmd} (hbody : k.body = .writeResult put 0 dt none) (hcmd : s.cmd? put = some c)
    (hwait : c.wait = .remote) (hop : opcodeOf c.bytes = 0x21) (hone : c.packets = 1) :
    s.applyData k = s.setCmd { c with packets := 0, wait := .none } := by
  simp only [State.applyData, hbody, State.writeResult, hcmd, hwait, hop, hone, ne_eq, not_true_eq_false, or_self, if_false, Nat.le_refl, if_true]

end

/-! ## The rows -/

theorem exec_subscriptionRetry (w : Nat) (s : State) : exec (.subscriptionRetry w) s = .next (s.resubscribe w) := rfl
theorem exec_collectiveRequestRetry (id : Nat) (s : State) : exec (.collectiveRequestRetry id) s = .next (s.collRetry id) := rfl

theorem State.resubscribe_refused {s : State} {w : RemoteWait} (hw : s.fabric.waits.find? (fun x => x.waiter == w.waiter) = some w) (hst : w.state = 4) :
    s.resubscribe w.waiter =
      (s.setWait w.waiter 0).originate (ctxTag (srcCtx s w.src)) w.device 4 (.subscribe w.post w.job w.threshold w.waiter) := by
  unfold State.resubscribe
  rw [hw]
  exact if_pos hst

theorem State.collRetry_begun {s : State} {id : Nat} {c : Coll} (hc : s.coll? id = some c) : s.collRetry id = s.sendPulls c true := by
  unfold State.collRetry
  rw [hc]

/-- Settles O50, clause by clause: a packet by the `applyData_` lemma of its body, a retry by what its row does. -/
theorem packetsHaveTheirEffect : Obligations.PacketsHaveTheirEffect := by
  unfold Obligations.PacketsHaveTheirEffect
  refine ⟨fun s k b w hbody hright hcells => State.applyData_write_allowed hbody hright hcells, fun s k b hbody hright => ?_,
    fun s k post job value id hbody hok => ?_, fun s k post job value id hbody hok => ?_, fun s k post job op value id hbody hok => ?_,
    fun s k stalled a post job hbody hok => State.applyManagement_query hbody hok stalled,
    fun s k post job th w hbody hok hth hroom => State.applyData_subscribe_held hbody hok hth hroom,
    fun s k post job th w hbody hok hth => State.applyData_subscribe_met hbody hok hth,
    fun s k put st dt c hbody hcmd hwait hop hone hst => ?_, fun s w hw hst => ?_, fun s id c hc => ?_⟩
  · rw [State.applyData_write_refused hbody hright]
    exact ⟨(s.postsKept_originate _ _ _ _).mem, rfl⟩
  · rw [State.applyData_signal_allowed hbody hok, State.signalPost_postValue, if_pos rfl, if_pos rfl]
  · rw [State.applyData_signal_allowed hbody hok, State.signalPost_postValue, if_pos rfl, if_neg (by decide)]
  · rw [State.applyData_signal_denied hbody hok]
    exact ⟨rfl, s.posts_originate _ _ _ _⟩
  · subst hst
    exact State.applyData_last_writeResult hbody hcmd hwait hop hone
  · rw [exec_subscriptionRetry, State.resubscribe_refused hw hst]
  · rw [exec_collectiveRequestRetry, State.collRetry_begun hc]

end Sys2Proof.Machine

/-! SUPPORT. Streams that are acknowledged, resent and discarded, and the statement about them. -/

namespace Sys2Proof.Machine

/-! ## Streams -/

@[simp] theorem State.streamOut_heardFrom (s : State) (dev dst cls : Nat) : (s.heardFrom dev).streamOut dst cls = s.streamOut dst cls := rfl

@[simp] theorem State.streamOut_setStreamOut_self (s : State) (dst cls : Nat) (v : StreamOut) : (s.setStreamOut dst cls v).streamOut dst cls = v :=
  Store.get_set_self _ _ _ v

theorem State.drainStream_of_none_waiting {s : State} {dst cls : Nat} (h : (s.streamOut dst cls).waiting = []) (fuel : Nat) :
    s.drainStream dst cls fuel = s := by
  cases fuel with
  | zero => rfl
  | succ n =>
    unfold State.drainStream
    dsimp only
    rw [h]

/-- The key of a stream names its device. -/
theorem streamKey_device (dev : Nat) {cls : Nat} (h : cls < 4) : (4 * dev + cls) / 4 = dev := by omega

theorem State.streamOut_dropStreams (s : State) (dev : Nat) {cls : Nat} (h : cls < 4) : (s.dropStreams dev).streamOut dev cls = StreamOut.idle := by
  refine (Store.get_filter StreamOut.idle (fun j => j / 4 != dev) s.fabric.streamsOut _).trans (if_neg ?_)
  simp [streamKey_device dev h]

theorem State.streamIn_dropStreams (s : State) (dev : Nat) {cls : Nat} (h : cls < 4) : (s.dropStreams dev).streamIn dev cls = StreamIn.idle := by
  refine (Store.get_filter StreamIn.idle (fun j => j / 4 != dev) s.fabric.streamsIn _).trans (if_neg ?_)
  simp [streamKey_device dev h]

/-! ## Acknowledgements that arrive (R371, R372) -/

/-- What an acknowledgement of packet `seq` leaves of a retransmit buffer. -/
def notCovered (seq : Nat) (l : List (Nat × Packet)) : List (Nat × Packet) :=
  l.filter (fun p => decide (2 ^ 31 ≤ (seq + 2 ^ 32 - p.2.hdr.seq) % 2 ^ 32))

section
variable {s : State} {k : Packet} {cls seq : Nat} (hbody : k.body = .ack cls seq) (hdst : k.hdr.dst = s.self) (hfatal : s.regs.fatal = false)
include hbody hdst hfatal

theorem State.e2eAck_badCrc (hcrc : k.hdr.crcOk = false) : s.e2eAck k = s.enterSquare.count oLinkE2eCrcDrops 1 := by
  simp only [State.e2eAck, hbody, hdst, hfatal, hcrc, ne_eq, not_true_eq_false, Bool.false_eq_true, or_self, if_false, Bool.not_false, if_true]

/-- The device is heard of; where the acknowledgement covers a packet, the stream keeps what it does not cover and starts its interval again. -/
theorem State.e2eAck_cases (hcrc : k.hdr.crcOk = true) (hwait : (s.streamOut k.hdr.src cls).waiting = []) (hspur : s.obj oSpurEnable ≠ 1) :
    (notCovered seq (s.streamOut k.hdr.src cls).unacked = (s.streamOut k.hdr.src cls).unacked ∧ s.e2eAck k = s.heardFrom k.hdr.src) ∨
      s.e2eAck k = (s.heardFrom k.hdr.src).setStreamOut k.hdr.src cls
        { s.streamOut k.hdr.src cls with unacked := notCovered seq (s.streamOut k.hdr.src cls).unacked, interval := 1 } := by
  have henter : s.enterSquare = s := congrArg Prod.fst (State.spurDraw_off hspur 1 none)
  unfold State.e2eAck
  rw [hbody]
  dsimp only
  rw [if_neg (by simp [hdst, hfatal]), if_neg (by simp [hcrc]), henter, State.streamOut_heardFrom]
  split
  · next hlen => exact .inl ⟨List.filter_eq_self.mpr (List.length_filter_eq_length_iff.mp hlen), rfl⟩
  · refine .inr (State.drainStream_of_none_waiting ?_ _)
    rw [State.streamOut_setStreamOut_self]
    exact hwait

theorem State.e2eAck_spec (hcrc : k.hdr.crcOk = true) (hwait : (s.streamOut k.hdr.src cls).waiting = []) (hspur : s.obj oSpurEnable ≠ 1) :
    ((s.e2eAck k).streamOut k.hdr.src cls).unacked = notCovered seq (s.streamOut k.hdr.src cls).unacked ∧
      s.e2eAck k = { s with fabric := (s.e2eAck k).fabric } := by
  obtain ⟨hnone, h⟩ | h := State.e2eAck_cases hbody hdst hfatal hcrc hwait hspur
  · rw [h, hnone]
    exact ⟨rfl, rfl⟩
  · rw [h, State.streamOut_setStreamOut_self]
    exact ⟨rfl, rfl⟩

end

/-! ## The timers (R371, R372) -/

theorem State.e2eRetx_unacked {s : State} {dst cls : Nat} (h : (s.streamOut dst cls).unacked ≠ []) : s.e2eRetx dst cls =
    (s.streamOut dst cls).unacked.foldl (fun (acc : State) k => acc.forward k.2 none (some k.1))
      ((s.setStreamOut dst cls { s.streamOut dst cls with interval := min 16 (2 * (s.streamOut dst cls).interval) }).count oE2eRetransmits
        (s.streamOut dst cls).unacked.length) := by
  unfold State.e2eRetx
  exact if_neg (by simpa using h)

/-! ## A device declared unreachable (R368, R372) -/

/-- The fabric without a device: no stream to or from it, nothing it asked for, no wait left open on it. -/
def State.fabricWithout (s : State) (dev : Nat) : FabricGroup :=
  { (s.dropStreams dev).fabric with
    waits := s.fabric.waits.map (fun w => if w.device = dev ∧ (w.state = 0 ∨ w.state = 4) then { w with state := 3 } else w)
    subs := s.fabric.subs.filter (fun x => x.device != dev)
    held := s.fabric.held.filter (fun h => h.device != dev)
    unreachable := s.fabric.unreachable ++ [dev] }

/-- A command that loses its device ends its wait; no queue and no packet is touched. -/
theorem State.cmdLoses_keeps (s : State) (dev : Nat) (c : Cmd) : (s.cmdLoses dev c).fabric = s.fabric ∧ (s.cmdLoses dev c).queues = s.queues := by
  unfold State.cmdLoses
  split
  · split <;> exact ⟨rfl, rfl⟩
  · split
    · exact ⟨s.failCmd_fabric _ _ _ _, (s.keepsUnits_failCmdAs _ _ _ _ _).queues⟩
    · exact ⟨rfl, rfl⟩

theorem State.foldl_cmdLoses_keeps (dev : Nat) (l : List Cmd) (s : State) :
    (l.foldl (fun (acc : State) c => acc.cmdLoses dev c) s).fabric = s.fabric ∧ (l.foldl (fun (acc : State) c => acc.cmdLoses dev c) s).queues = s.queues := by
  induction l generalizing s with
  | nil => exact ⟨rfl, rfl⟩
  | cons c rest ih =>
    obtain ⟨hfabric, hqueues⟩ := s.cmdLoses_keeps dev c
    exact ⟨(ih (s.cmdLoses dev c)).1.trans hfabric, (ih (s.cmdLoses dev c)).2.trans hqueues⟩

theorem State.collsLose_of_none {s : State} (h : s.fabric.colls = []) (dev : Nat) : s.collsLose dev = s := by
  unfold State.collsLose
  rw [h]
  rfl

theorem State.loseDevice_spec {s : State} (hcolls : s.fabric.colls = []) (dev : Nat) :
    (s.loseDevice dev).fabric = s.fabricWithout dev ∧ (s.loseDevice dev).queues = s.queues := by
  unfold State.loseDevice
  extract_lets s1 fabric s2 s3
  obtain ⟨hfabric, hqueues⟩ := State.foldl_cmdLoses_keeps dev s3.exec.cmds s3
  rw [State.collsLose_of_none ((congrArg FabricGroup.colls hfabric).trans hcolls)]
  have hrep := State.reportsOnly_event (s3.exec.cmds.foldl (fun (acc : State) c => acc.cmdLoses dev c) s3) ⟨0x0400, 2, 0, 0, dev % 4096⟩
  exact ⟨hrep.fabric.trans hfabric, hrep.queues.trans hqueues⟩

theorem State.e2eUnreachable_noRoute {s : State} {dev : Nat} (hnew : s.fabric.unreachable.contains dev = false) (hself : dev ≠ s.self)
    (hroute : s.noRoute dev = true) : s.e2eUnreachable dev = s.loseDevice dev := by
  unfold State.e2eUnreachable
  rw [if_neg (by simp only [hnew, hself, Bool.false_eq_true, or_self, not_false_eq_true]), if_pos (.inr hroute)]

/-! ## The rows -/

theorem exec_e2eAckReceive (k : Packet) (s : State) : exec (.e2eAckReceive k) s = .next (s.e2eAck k) := rfl
theorem exec_e2eAckTimer (d : Fin 4096) (c : Fin 4) (s : State) : exec (.e2eAckTimer d c) s = .next (s.e2eAckTimer d.val c.val) := rfl
theorem exec_e2eRetxTimer (d : Fin 4096) (c : Fin 4) (s : State) : exec (.e2eRetxTimer d c) s = .next (s.e2eRetx d.val c.val) := rfl
theorem exec_e2eUnreachableTimer (d : Fin 4096) (s : State) : exec (.e2eUnreachableTimer d) s = .next (s.e2eUnreachable d.val) := rfl

/-- Settles O51: the acknowledgement by `e2eAck_spec`, the timers by what each does when it is due, the lost device by the fabric without it. -/
theorem streamsAcknowledgeAndResend : Obligations.StreamsAcknowledgeAndResend := by
  unfold Obligations.StreamsAcknowledgeAndResend
  simp only [exec_e2eAckReceive, exec_e2eAckTimer, exec_e2eRetxTimer, exec_e2eUnreachableTimer]
  refine ⟨fun s k cls seq hbody hdst hfatal hcrc hwait hspur => ⟨_, rfl, State.e2eAck_spec hbody hdst hfatal hcrc hwait hspur⟩,
    fun s k cls seq hbody hdst hfatal hcrc => ?_, fun s d c hdue => congrArg Host.Outcome.next (if_neg hdue),
    fun s d c hnone => congrArg Host.Outcome.next (if_pos hnone), fun s d c hunacked => ?_, fun s d hnew hself hroute hcolls => ?_⟩
  · rw [State.e2eAck_badCrc hbody hdst hfatal hcrc]
  · rw [State.e2eRetx_unacked hunacked]
  · obtain ⟨hfabric, hqueues⟩ := State.loseDevice_spec hcolls d.val
    rw [State.e2eUnreachable_noRoute hnew hself hroute]
    refine ⟨_, rfl, by rw [hfabric]; rfl, fun c hc => ?_, fun c hc => ?_, fun x hx => ?_, hqueues⟩
    · unfold State.streamOut
      rw [hfabric]
      exact s.streamOut_dropStreams d.val hc
    · unfold State.streamIn
      rw [hfabric]
      exact s.streamIn_dropStreams d.val hc
    · rw [hfabric] at hx
      simpa using (List.mem_filter.mp hx).2

end Sys2Proof.Machine

/-! SUPPORT. A reset of a tenant that changes a queue: the counterexample to the statement about tenants. -/

namespace Sys2Proof.Machine

/-! ## A reset that returns a buffer

A reset fails the tenant's frames (R406), a frame that fails returns its buffers, their return is signalled on POOL_POST (R304), and a head that
waits on that post latches its wait (R129): `Queue.waitsMet` changes. -/

/-- An ENCODE of tenant 3. -/
def waitingEncode : Cmd :=
  { id := 0, src := .queue 24 0, tenant := some 3, bytes := [0x30], status := stSuccess, detail := 0, fault := none, flags := 0, writes := [], stats := [],
    digest := [], tiles := [], stationary := [], wait := .engine, pinned := [], slots := [], signalled := false, packets := 0, began := Began.none,
    endFlags := 0, bufs := [] }

/-- Its frame holds buffer 0 and waits for an engine. -/
def waitingFrame : CodecJob :=
  { cmd := 0, tenant := 3, enc := true, ctx := 0, cfg := [], frame := [], roi := [], bufs := [0], ready := true, engine := none, requester := 0, done := none }

/-- Tenant 3, of function 0, runs with a pool of one buffer and POST_EN for post 0; that ENCODE has begun. The head of queue 8192, at the start of host
memory, has NWAIT 1 and waits for post 0 to reach 1. -/
def poolPostAwaited : State :=
  let s := (((State.reset.setObj (oTenantEnable 3) 1).setObj (oTenantRunState 3) 1).setObj (oTenantCodecPoolConfig 3) (2 ^ 64 + 2 ^ 160)).setObj
    (queueKey 8192) (2 ^ 56 + 2 ^ 144)
  { s with
    mem := s.mem.store [(hostKey 0 2, 1), (hostKey 0 16, 1)]
    queues := [(8192, { Queue.idle with state := 1, sqTail := 1 })]
    exec := { s.exec with cmds := [waitingEncode], nextCmd := 1 }
    codec := { s.codec with jobs := [waitingFrame], bufs := [(bufKey 3 0, 1)] } }

theorem poolPostAwaited_tenant : poolPostAwaited.tenantEnabled 3 = true ∧ poolPostAwaited.tenantFunction 3 = 0 := by decide +kernel

/-- Before a reset of function 0 the head of queue 8192 has latched nothing; after it, its first wait. -/
theorem poolPostAwaited_latches :
    (poolPostAwaited.queue 8192).waitsMet = [] ∧ ((poolPostAwaited.functionReset 0).queue 8192).waitsMet = [0] := by decide +kernel

theorem exec_functionLevelReset (f : Fin 256) (s : State) : exec (.functionLevelReset f) s = .next (s.functionReset f.val) := rfl

/-- Refutes O26: a reset does not leave the queues as they are. Where it returns a codec buffer, the signal on the pool's post latches the wait of
another queue's head. -/
theorem not_tenantsAreEnabledHeldAndReset : ¬ Obligations.TenantsAreEnabledHeldAndReset := by
  unfold Obligations.TenantsAreEnabledHeldAndReset
  rintro ⟨-, -, -, -, -, -, hflr, -⟩
  obtain ⟨henabled, hfunction⟩ := poolPostAwaited_tenant
  obtain ⟨hbefore, hafter⟩ := poolPostAwaited_latches
  obtain ⟨t, ht, -, hqueues⟩ := hflr poolPostAwaited 0 3 (by decide) henabled hfunction
  rw [exec_functionLevelReset] at ht
  rw [← Host.Outcome.next.inj ht] at hqueues
  have hsame : (poolPostAwaited.functionReset 0).queue 8192 = poolPostAwaited.queue 8192 := congrArg (fun q => Store.get Queue.idle q 8192) hqueues
  rw [hsame, hbefore] at hafter
  exact List.cons_ne_nil 0 [] hafter.symm

end Sys2Proof.Machine

/-! SUPPORT. Pre-emption requests and run states, and the statements about static partitions and about dismounting, resuming and resetting tenants. -/

namespace Sys2Proof.Machine

/-! ## Static partitions (R407) -/

theorem State.power_of_quiet {s t : State} (h : t.quiet = s.quiet) : t.power = s.power := (congrArg State.power h :)

/-- Settles O22: the check of each partition only reports (`quiet_staticCheck`), and `quiet` keeps what the statement names. -/
theorem staticCheckOnlyReports : Obligations.StaticCheckOnlyReports := by
  unfold Obligations.StaticCheckOnlyReports
  intro s
  have h := s.quiet_staticCheck
  exact ⟨h, State.queues_of_quiet h, State.exec_of_quiet h, State.power_of_quiet h, State.obj_of_quiet h⟩

/-! ## Pre-emption requests (R397) -/

@[simp] theorem State.preempt_setPreempt_self (s : State) (t : Nat) (v : Preempt) : (s.setPreempt t v).preempt t = v := Store.get_set_self _ _ t v

@[simp] theorem State.preempt_setObj (s : State) (key v t : Nat) : (s.setObj key v).preempt t = s.preempt t := rfl

@[simp] theorem State.obj_setPreempt (s : State) (t : Nat) (v : Preempt) (key : Nat) : (s.setPreempt t v).obj key = s.obj key := rfl

theorem State.preempt_event (s : State) (e : EventRec) (t : Nat) : (s.event e).preempt t = s.preempt t := by
  unfold State.preempt
  rw [(s.reportsOnly_event e).sched]

/-- State `u` is `s` but for the run states of tenants and what is kept of their pre-emption. -/
structure State.RunStatesOnly (s u : State) : Prop where
  form : ∃ vals pre, u = { s with dict := { s.dict with vals := vals }, sched := { s.sched with preempt := pre } }
  obj : ∀ key, (∀ t, key ≠ oTenantRunState t) → u.obj key = s.obj key

namespace State.RunStatesOnly
variable {s t u : State}

theorem refl (s : State) : s.RunStatesOnly s := ⟨⟨_, _, rfl⟩, fun _ _ => rfl⟩

theorem trans (h : s.RunStatesOnly t) (k : t.RunStatesOnly u) : s.RunStatesOnly u where
  form := by
    obtain ⟨_, _, rfl⟩ := h.form
    obtain ⟨v, p, rfl⟩ := k.form
    exact ⟨v, p, rfl⟩
  obj := fun key hkey => (k.obj key hkey).trans (h.obj key hkey)

theorem mem (h : s.RunStatesOnly u) : u.mem = s.mem := by
  obtain ⟨_, _, rfl⟩ := h.form
  rfl

theorem exec (h : s.RunStatesOnly u) : u.exec = s.exec := by
  obtain ⟨_, _, rfl⟩ := h.form
  rfl

theorem queues (h : s.RunStatesOnly u) : u.queues = s.queues := by
  obtain ⟨_, _, rfl⟩ := h.form
  rfl

theorem sched (h : s.RunStatesOnly u) : u.sched = { s.sched with preempt := u.sched.preempt } := by
  obtain ⟨_, _, rfl⟩ := h.form
  rfl

end State.RunStatesOnly

theorem State.runStatesOnly_foldl {α : Type} {f : State → α → State} (hf : ∀ (s : State) a, s.RunStatesOnly (f s a)) (l : List α) (s : State) :
    s.RunStatesOnly (l.foldl f s) := by
  induction l generalizing s with
  | nil => exact .refl s
  | cons a rest ih => exact (hf s a).trans (ih (f s a))

theorem State.runStatesOnly_setPreempt (s : State) (t : Nat) (v : Preempt) : s.RunStatesOnly (s.setPreempt t v) := ⟨⟨_, _, rfl⟩, fun _ _ => rfl⟩

theorem State.runStatesOnly_setRunState (s : State) (t v : Nat) : s.RunStatesOnly (s.setObj (oTenantRunState t) v) :=
  ⟨⟨_, _, rfl⟩, fun _ hkey => s.obj_setObj_other v (hkey t).symm⟩

theorem State.runStatesOnly_preemptCheck (s : State) (t : Nat) : s.RunStatesOnly (s.preemptCheck t) := by
  unfold State.preemptCheck
  dsimp only
  split
  · exact (s.runStatesOnly_setRunState t 2).trans (State.runStatesOnly_setPreempt _ t _)
  · split
    · exact s.runStatesOnly_setRunState t 4
    · exact .refl s

theorem State.runStatesOnly_holdTenant (s : State) (t b : Nat) (on : Bool) : s.RunStatesOnly (s.holdTenant t b on) :=
  (s.runStatesOnly_setPreempt t _).trans (State.runStatesOnly_preemptCheck _ t)

/-- The run state a tenant goes to from run state `st`, held by `requests` (R397, R403, R405). -/
def nextRunState (st requests : Nat) : Nat :=
  if st = 1 ∧ requests ≠ 0 then 2 else if (st = 2 ∨ st = 3) ∧ requests = 0 then 4 else st

theorem State.runState_preemptCheck (s : State) (t : Nat) :
    (s.preemptCheck t).obj (oTenantRunState t) = nextRunState (s.obj (oTenantRunState t)) (s.preempt t).requests := by
  unfold State.preemptCheck nextRunState
  dsimp only
  split
  · rw [State.obj_setPreempt, State.obj_setObj_self]
  · split
    · rw [State.obj_setObj_self]
    · rfl

theorem State.runState_holdTenant (s : State) (t b : Nat) (on : Bool) :
    (s.holdTenant t b on).obj (oTenantRunState t) =
      nextRunState (s.obj (oTenantRunState t)) (setBits (s.preempt t).requests b 1 (b2n on)) := by
  rw [State.holdTenant, State.runState_preemptCheck, State.preempt_setPreempt_self, State.obj_setPreempt]

theorem State.saved_preemptCheck (s : State) (t : Nat) : ((s.preemptCheck t).preempt t).saved = (s.preempt t).saved := by
  unfold State.preemptCheck
  dsimp only
  split
  · rw [State.preempt_setPreempt_self]
  · split <;> rfl

/-! ## Objects of tenants -/

theorem State.obj_count_self (s : State) (k n : Nat) : (s.count k n).obj k = satAdd (objBits k) (s.obj k) n := State.obj_setObj_self s k _

theorem State.preempt_count (s : State) (k n t : Nat) : (s.count k n).preempt t = s.preempt t := State.preempt_setObj s k _ t

/-- Objects of tenants with different subindices are different. -/
theorem tenantObject_ne (t u : Nat) {a b : Nat} (hab : a ≠ b) (ha : a < 256) (hb : b < 256) : (0x4000 + t) * 256 + a ≠ (0x4000 + u) * 256 + b := by
  omega

theorem ne_oTenantRunState (t : Nat) {a : Nat} (ha : a ≠ 0x0A) (hlt : a < 256) (u : Nat) : (0x4000 + t) * 256 + a ≠ oTenantRunState u :=
  tenantObject_ne t u ha hlt (by decide)

/-- Save and restore time is charged to two objects of the tenant (R395, R500). -/
theorem State.obj_chargeMove (s : State) (t ns : Nat) {a : Nat} (hengine : a ≠ 0x90) (hother : a ≠ 0xA3) (hlt : a < 256) :
    (s.chargeMove t ns).obj ((0x4000 + t) * 256 + a) = s.obj ((0x4000 + t) * 256 + a) := by
  have h1 : oTenantAttribOtherNs t ≠ (0x4000 + t) * 256 + a := tenantObject_ne t t hother.symm (by decide) hlt
  have h2 : oTenantEngineNs t ≠ (0x4000 + t) * 256 + a := tenantObject_ne t t hengine.symm (by decide) hlt
  rw [State.chargeMove, State.obj_count_other _ _ h1, State.obj_count_other _ _ h2]

theorem State.chargeMove_exec (s : State) (t ns : Nat) : (s.chargeMove t ns).exec = s.exec := by
  rw [State.chargeMove, State.count_exec, State.count_exec]

theorem State.chargeMove_queues (s : State) (t ns : Nat) : (s.chargeMove t ns).queues = s.queues := by
  rw [State.chargeMove, State.count_queues, State.count_queues]

theorem State.preempt_chargeMove (s : State) (t ns u : Nat) : (s.chargeMove t ns).preempt u = s.preempt u := by
  rw [State.chargeMove, State.preempt_count, State.preempt_count]

/-! ## Dismounting (R403) -/

theorem State.withMem_self (s : State) : s.withMem s.mem = s := rfl
theorem State.chargeSpent_nil (s : State) : s.chargeSpent [] = s := rfl
theorem hbmOf_nil : hbmOf [] = 0 := rfl

theorem State.letGo_exec (s : State) (t : Nat) : (s.letGo t).exec = s.exec := rfl
theorem State.letGo_queues (s : State) (t : Nat) : (s.letGo t).queues = s.queues := rfl
theorem State.obj_letGo (s : State) (t key : Nat) : (s.letGo t).obj key = s.obj key := rfl

theorem State.requests_letGo (s : State) (t : Nat) : ((s.letGo t).preempt t).requests = (s.preempt t).requests := by
  rw [State.letGo, State.preempt_setPreempt_self]

/-- A tenant that is dismounted with no tile saved: its counters, and its run state 3. -/
def State.countDismount (s : State) (t ns : Nat) : State :=
  ((((s.chargeMove t ns).count (oTenantPreemptions t) 1).count (oTenantSavedTiles t) 0).count (oTenantHbmBytes t) 0).setObj (oTenantRunState t) 3

theorem State.countDismount_exec (s : State) (t ns : Nat) : (s.countDismount t ns).exec = s.exec := by
  simp only [State.countDismount, State.setObj_exec, State.count_exec, State.chargeMove_exec]

theorem State.countDismount_queues (s : State) (t ns : Nat) : (s.countDismount t ns).queues = s.queues := by
  simp only [State.countDismount, State.setObj_queues, State.count_queues, State.chargeMove_queues]

theorem State.countDismount_preemptions (s : State) (t ns : Nat) : (s.countDismount t ns).obj (oTenantPreemptions t) =
    satAdd (objBits (oTenantPreemptions t)) (s.obj (oTenantPreemptions t)) 1 := by
  have hmove : (s.chargeMove t ns).obj (oTenantPreemptions t) = s.obj (oTenantPreemptions t) := s.obj_chargeMove t ns (by decide) (by decide) (by decide)
  have hrun : oTenantRunState t ≠ oTenantPreemptions t := tenantObject_ne t t (by decide) (by decide) (by decide)
  have hbytes : oTenantHbmBytes t ≠ oTenantPreemptions t := tenantObject_ne t t (by decide) (by decide) (by decide)
  have htiles : oTenantSavedTiles t ≠ oTenantPreemptions t := tenantObject_ne t t (by decide) (by decide) (by decide)
  rw [State.countDismount, State.obj_setObj_other _ _ hrun, State.obj_count_other _ _ hbytes, State.obj_count_other _ _ htiles, State.obj_count_self, hmove]

/-- With no command begun, nothing drains and nothing is saved. -/
theorem State.dismounted_nothingBegun {s : State} {t : Nat} (ns : Nat) (hrun : s.obj (oTenantRunState t) = 2) (hfatal : s.regs.fatal = false)
    (hstopped : (s.streamsOf t).all s.stopped = true) (hcmds : s.exec.cmds = []) :
    ∃ v e, v.requests = (s.preempt t).requests ∧
      s.dismounted t ns [] = ((((s.countDismount t ns).setPreempt t v).letGo t).event e).holdTenant t 2 false := by
  have hdrain : ∀ acts, s.draining t acts = false := fun acts => by
    unfold State.draining
    rw [hcmds]
    rfl
  unfold State.dismounted
  rw [if_neg (by simp [hrun, hfatal, hstopped, hdrain])]
  simp only [hcmds, List.filter_nil, ite_self, List.flatMap_nil, List.isEmpty_nil, if_true, List.map_nil, savedAt, List.foldl_nil, MemGroup.store_nil,
    State.withMem_self, State.chargeSpent_nil, List.length_nil, hbmOf_nil, State.preempt_count, State.preempt_chargeMove]
  exact ⟨{ s.preempt t with actions := s.actionsOf t, saved := 0, saves := [], away := true }, _, rfl, rfl⟩

theorem State.dismounted_spec {s : State} {t : Nat} (ns : Nat) (hrun : s.obj (oTenantRunState t) = 2) (hfatal : s.regs.fatal = false)
    (hstopped : (s.streamsOf t).all s.stopped = true) (hcmds : s.exec.cmds = []) :
    (s.dismounted t ns []).obj (oTenantRunState t) = (if setBits (s.preempt t).requests 2 1 0 = 0 then 4 else 3) ∧
      (s.dismounted t ns []).exec = s.exec ∧ (s.dismounted t ns []).queues = s.queues ∧
      (s.dismounted t ns []).obj (oTenantPreemptions t) = satAdd (objBits (oTenantPreemptions t)) (s.obj (oTenantPreemptions t)) 1 := by
  obtain ⟨v, e, hv, hu⟩ := s.dismounted_nothingBegun ns hrun hfatal hstopped hcmds
  rw [hu]
  have hevent := State.reportsOnly_event (((s.countDismount t ns).setPreempt t v).letGo t) e
  have hhold := State.runStatesOnly_holdTenant ((((s.countDismount t ns).setPreempt t v).letGo t).event e) t 2 false
  have hst : (s.countDismount t ns).obj (oTenantRunState t) = 3 := State.obj_setObj_self _ _ 3
  refine ⟨?_, ?_, ?_, ?_⟩
  · rw [State.runState_holdTenant, hevent.obj, State.obj_letGo, State.obj_setPreempt, hst, State.preempt_event, State.requests_letGo,
      State.preempt_setPreempt_self, hv]
    simp [nextRunState, b2n]
  · rw [hhold.exec, hevent.exec, State.letGo_exec, State.setPreempt_exec, State.countDismount_exec]
  · rw [hhold.queues, hevent.queues, State.letGo_queues, State.setPreempt_queues, State.countDismount_queues]
  · rw [hhold.obj (oTenantPreemptions t) (ne_oTenantRunState t (by decide) (by decide)), hevent.obj, State.obj_letGo, State.obj_setPreempt,
      State.countDismount_preemptions]

theorem State.dismounted_other {s : State} {t : Nat} (hrun : s.obj (oTenantRunState t) ≠ 2) (ns : Nat) (spent : List (Nat × Nat)) :
    s.dismounted t ns spent = s := by
  unfold State.dismounted
  exact if_pos (.inl hrun)

/-! ## Resuming (R405) -/

/-- Where no tile is saved, restoring empties the save area at most. -/
theorem State.restore_withMem {s : State} {t : Nat} (h : (s.preempt t).saves = []) : ∃ m, s.restore t = s.withMem m := by
  unfold State.restore
  dsimp only
  rw [h]
  split
  · exact ⟨s.mem, rfl⟩
  · split
    · exact ⟨_, rfl⟩
    · exact ⟨s.mem, rfl⟩

/-- With nothing gone and nothing saved, a tenant that resumes is charged and runs, unless a request has come. -/
theorem State.resumed_nothingSaved {s : State} {t : Nat} (ns : Nat) (hrun : s.obj (oTenantRunState t) = 4) (hfatal : s.regs.fatal = false)
    (hgone : (s.preempt t).gone = []) (hsaves : (s.preempt t).saves = []) :
    ∃ m n v e, v.requests = (s.preempt t).requests ∧ v.saved = 0 ∧
      s.resumed t ns =
        ((((((s.withMem m).chargeMove t ns).count (oTenantHbmBytes t) n).setPreempt t v).setObj (oTenantRunState t) 1).event e).preemptCheck t := by
  obtain ⟨m, hm⟩ := State.restore_withMem hsaves
  unfold State.resumed
  rw [if_neg (by simp [hrun, hfatal])]
  dsimp only
  rw [hgone, List.foldl_nil, hm]
  exact ⟨m, _, { s.preempt t with actions := [], saved := 0, saves := [], gone := [], away := false }, _, rfl, rfl, rfl⟩

theorem State.resumed_spec {s : State} {t : Nat} (ns : Nat) (hrun : s.obj (oTenantRunState t) = 4) (hfatal : s.regs.fatal = false)
    (hgone : (s.preempt t).gone = []) (hsaves : (s.preempt t).saves = []) :
    (s.resumed t ns).obj (oTenantRunState t) = (if (s.preempt t).requests = 0 then 1 else 2) ∧ ((s.resumed t ns).preempt t).saved = 0 ∧
      (s.resumed t ns).exec = s.exec ∧ (s.resumed t ns).queues = s.queues := by
  obtain ⟨m, n, v, e, hv, hsaved, hu⟩ := s.resumed_nothingSaved ns hrun hfatal hgone hsaves
  rw [hu]
  have hevent := State.reportsOnly_event (((((s.withMem m).chargeMove t ns).count (oTenantHbmBytes t) n).setPreempt t v).setObj (oTenantRunState t) 1) e
  have hcheck := State.runStatesOnly_preemptCheck
    ((((((s.withMem m).chargeMove t ns).count (oTenantHbmBytes t) n).setPreempt t v).setObj (oTenantRunState t) 1).event e) t
  refine ⟨?_, ?_, ?_, ?_⟩
  · rw [State.runState_preemptCheck, hevent.obj, State.obj_setObj_self, State.preempt_event, State.preempt_setObj, State.preempt_setPreempt_self, hv]
    simp only [nextRunState, true_and, ne_eq, ite_not]
    split <;> rfl
  · rw [State.saved_preemptCheck, State.preempt_event, State.preempt_setObj, State.preempt_setPreempt_self, hsaved]
  · rw [hcheck.exec, hevent.exec, State.setObj_exec, State.setPreempt_exec, State.count_exec, State.chargeMove_exec, State.withMem_exec]
  · rw [hcheck.queues, hevent.queues, State.setObj_queues, State.setPreempt_queues, State.count_queues, State.chargeMove_queues, State.withMem_queues]

/-! ## Overruns (R404) -/

theorem State.overrun_first {s : State} {t : Nat} (hrun : s.obj (oTenantRunState t) = 2) (hlate : (s.preempt t).late = false) :
    ∃ e, s.overrun t = ((s.setPreempt t { s.preempt t with late := true }).count oPreemptOverruns 1).event e := by
  unfold State.overrun
  dsimp only
  rw [if_neg (by simp [hrun, hlate])]
  exact ⟨_, rfl⟩

theorem oPreemptOverruns_ne (t : Nat) : oPreemptOverruns ≠ oTenantRunState t := by
  unfold oPreemptOverruns oTenantRunState
  omega

theorem State.overrun_spec {s : State} {t : Nat} (hrun : s.obj (oTenantRunState t) = 2) (hlate : (s.preempt t).late = false) :
    ((s.overrun t).preempt t).late = true ∧
      (s.overrun t).obj oPreemptOverruns = satAdd (objBits oPreemptOverruns) (s.obj oPreemptOverruns) 1 ∧
      (s.overrun t).obj (oTenantRunState t) = 2 ∧ (s.overrun t).exec = s.exec ∧ (s.overrun t).queues = s.queues := by
  obtain ⟨e, hu⟩ := State.overrun_first hrun hlate
  rw [hu]
  have hevent := State.reportsOnly_event ((s.setPreempt t { s.preempt t with late := true }).count oPreemptOverruns 1) e
  refine ⟨?_, ?_, ?_, ?_, ?_⟩
  · rw [State.preempt_event, State.preempt_count, State.preempt_setPreempt_self]
  · rw [hevent.obj, State.obj_count_self, State.obj_setPreempt]
  · rw [hevent.obj, State.obj_count_other _ _ (oPreemptOverruns_ne t), State.obj_setPreempt, hrun]
  · rw [hevent.exec, State.count_exec, State.setPreempt_exec]
  · rw [hevent.queues, State.count_queues, State.setPreempt_queues]

theorem State.overrun_reported {s : State} {t : Nat} (hlate : (s.preempt t).late = true) : s.overrun t = s := by
  unfold State.overrun
  exact if_pos (.inr hlate)

/-! ## Tenant reset (R406) -/

/-- Queue `q` is disabled: its state and its configuration say so. -/
def State.QueueOff (s : State) (q : Nat) : Prop := (s.queue q).state = 0 ∧ cfgEnable (s.queueCfg q) = false

theorem State.QueueOff.of_same {s u : State} {q : Nat} (h : s.QueueOff q) (hqueues : u.queues = s.queues) (hcfg : u.queueCfg q = s.queueCfg q) :
    u.QueueOff q := by
  unfold State.QueueOff State.queue
  rw [hqueues, hcfg]
  exact h

theorem State.queue_setObj (s : State) (key v q : Nat) : (s.setObj key v).queue q = s.queue q := rfl
theorem State.obj_setQueue (s : State) (q : Nat) (v : Queue) (key : Nat) : (s.setQueue q v).obj key = s.obj key := rfl

theorem queueKey_tenant {q : Nat} (hq : q < 8192) : queueKey q = (0x4000 + q / 8) * 256 + (0x30 + q % 8) := by
  rw [queueKey, if_pos hq, oTenantQueueConfig, Nat.add_assoc]

theorem queueKey_ne {q r : Nat} (hq : q < 8192) (hr : r < 8192) (h : q ≠ r) : queueKey q ≠ queueKey r := by
  rw [queueKey_tenant hq, queueKey_tenant hr]
  omega

/-- ENABLE is bit 144 of a configuration (R119). -/
theorem cfgEnable_eq (c : Nat) : cfgEnable c = (bits c 144 1 == 1) := by
  simp [cfgEnable, bit, leN, bits, Nat.mod_mod_of_dvd]

theorem cfgEnable_cleared (c : Nat) : cfgEnable (setBits c 144 1 0) = false := by
  rw [cfgEnable_eq, bits_setBits]
  rfl

theorem State.queueOff_clearQueue_self (s : State) (q : Nat) : (s.clearQueue q).QueueOff q := by
  refine ⟨?_, ?_⟩
  · rw [State.clearQueue, State.queue_setQueue_self]
  · rw [State.clearQueue, State.queueCfg, State.obj_setQueue, State.obj_setObj_self, cfgEnable_cleared]

theorem State.QueueOff.clearQueue {s : State} {r : Nat} (h : s.QueueOff r) (hr : r < 8192) {q : Nat} (hq : q < 8192) : (s.clearQueue q).QueueOff r := by
  by_cases hqr : q = r
  · exact hqr ▸ s.queueOff_clearQueue_self q
  · obtain ⟨hstate, hcfg⟩ := h
    refine ⟨?_, ?_⟩
    · rw [State.clearQueue, State.queue_setQueue_other _ _ (Ne.symm hqr), State.queue_setObj]
      exact hstate
    · rw [State.clearQueue, State.queueCfg, State.obj_setQueue, State.obj_setObj_other _ _ (queueKey_ne hq hr hqr)]
      exact hcfg

theorem State.queueOff_foldl_clearQueue {t k : Nat} (ht : t < 1024) (hk : k < 8) {l : List Nat} (hl : ∀ n ∈ l, n < 8) (s : State)
    (h : k ∈ l ∨ s.QueueOff (8 * t + k)) : (l.foldl (fun (acc : State) n => acc.clearQueue (8 * t + n)) s).QueueOff (8 * t + k) := by
  induction l generalizing s with
  | nil => exact h.resolve_left List.not_mem_nil
  | cons n rest ih =>
    have hn : n < 8 := hl n List.mem_cons_self
    refine ih (fun m hm => hl m (List.mem_cons_of_mem n hm)) _ ?_
    rcases h with hmem | hoff
    · rcases List.mem_cons.mp hmem with rfl | hrest
      · exact .inr (State.queueOff_clearQueue_self s _)
      · exact .inl hrest
    · exact .inr (hoff.clearQueue (by omega) (by omega))

/-- The tenant's eight queues, disabled (R406). -/
def State.clearQueues (s : State) (t : Nat) : State := (List.range 8).foldl (fun (acc : State) n => acc.clearQueue (8 * t + n)) s

theorem State.queueOff_clearQueues (s : State) {t k : Nat} (ht : t < 1024) (hk : k < 8) : (s.clearQueues t).QueueOff (8 * t + k) :=
  State.queueOff_foldl_clearQueue ht hk (fun _ hn => List.mem_range.mp hn) s (.inl (List.mem_range.mpr hk))

/-- A reset that completes ends with these steps, whatever its commands, entries and buffers left. -/
theorem State.resetComplete_ends {s : State} {t : Nat} (hrun : s.obj (oTenantRunState t) = 5) (hfatal : s.regs.fatal = false) (hjobs : s.codec.jobs = [])
    (spent : List (Nat × Nat)) : ∃ (x : State) (e : EventRec), s.resetComplete t spent =
      ((((x.clearQueues t).setObj (oTenantFlags t) 0).event e).setObj (oTenantRunState t) (s.obj (oTenantEnable t))).preemptCheck t := by
  have hengine : ∀ id, s.onEngine id = false := fun id => by
    unfold State.onEngine
    rw [hjobs]
    rfl
  unfold State.resetComplete
  dsimp only
  rw [if_neg (by simp [hrun, hfatal, hengine])]
  exact ⟨_, _, rfl⟩

theorem State.resetComplete_spec {s : State} {t : Nat} (ht : t < 1024) (hrun : s.obj (oTenantRunState t) = 5) (hfatal : s.regs.fatal = false)
    (hjobs : s.codec.jobs = []) (henable : s.obj (oTenantEnable t) ≤ 1) (spent : List (Nat × Nat)) :
    (∀ k, k < 8 → (s.resetComplete t spent).QueueOff (8 * t + k)) ∧
      ((s.resetComplete t spent).obj (oTenantRunState t) = s.obj (oTenantEnable t) ∨ (s.resetComplete t spent).obj (oTenantRunState t) = 2) ∧
      (s.resetComplete t spent).obj (oTenantFlags t) = 0 := by
  obtain ⟨x, e, hu⟩ := State.resetComplete_ends hrun hfatal hjobs spent
  rw [hu]
  have hevent := State.reportsOnly_event ((x.clearQueues t).setObj (oTenantFlags t) 0) e
  have hend := (State.runStatesOnly_setRunState (((x.clearQueues t).setObj (oTenantFlags t) 0).event e) t (s.obj (oTenantEnable t))).trans
    (State.runStatesOnly_preemptCheck _ t)
  refine ⟨fun k hk => ?_, ?_, ?_⟩
  · have hkey : queueKey (8 * t + k) = (0x4000 + t) * 256 + (0x30 + k) := by
      rw [queueKey_tenant (by omega)]
      omega
    have hflags : oTenantFlags t ≠ (0x4000 + t) * 256 + (0x30 + k) := tenantObject_ne t t (by omega) (by decide) (by omega)
    refine (x.queueOff_clearQueues ht hk).of_same ?_ ?_
    · rw [hend.queues, hevent.queues, State.setObj_queues]
    · rw [State.queueCfg, State.queueCfg, hkey, hend.obj _ (ne_oTenantRunState t (by omega) (by omega)), hevent.obj, State.obj_setObj_other _ _ hflags]
  · rw [State.runState_preemptCheck, State.obj_setObj_self]
    unfold nextRunState
    split
    · exact .inr rfl
    · rw [if_neg (by omega)]
      exact .inl rfl
  · rw [hend.obj (oTenantFlags t) (ne_oTenantRunState t (by decide) (by decide)), hevent.obj, State.obj_setObj_self]

theorem State.resetComplete_other {s : State} {t : Nat} (hrun : s.obj (oTenantRunState t) ≠ 5) (spent : List (Nat × Nat)) : s.resetComplete t spent = s := by
  unfold State.resetComplete
  exact if_pos (.inl hrun)

/-! ## The rows -/

theorem exec_tenantDismounted (n : Fin 1024) (ns : Nat) (spent : List (Nat × Nat)) (s : State) :
    exec (.tenantDismounted n ns spent) s = .next (s.dismounted n.val ns spent).staticCheck := rfl
theorem exec_tenantResume (n : Fin 1024) (ns : Nat) (s : State) : exec (.tenantResume n ns) s = .next (s.resumed n.val ns).staticCheck := rfl
theorem exec_preemptOverrun (n : Fin 1024) (s : State) : exec (.preemptOverrun n) s = .next (s.overrun n.val) := rfl
theorem exec_tenantResetComplete (n : Fin 1024) (spent : List (Nat × Nat)) (s : State) :
    exec (.tenantResetComplete n spent) s = .next (s.resetComplete n.val spent).staticCheck := rfl

/-- Settles O42, clause by clause: each row by the `_spec` lemma of its meaning, and unchanged where the run state is another. -/
theorem tenantsDismountResumeAndReset : Obligations.TenantsDismountResumeAndReset := by
  unfold Obligations.TenantsDismountResumeAndReset
  refine ⟨fun s n ns hrun hfatal hstopped hcmds => ⟨_, exec_tenantDismounted n ns [] s, State.dismounted_spec ns hrun hfatal hstopped hcmds⟩,
    fun s n ns spent hrun => ?_,
    fun s n ns hrun hfatal hgone hsaves => ⟨_, exec_tenantResume n ns s, State.resumed_spec ns hrun hfatal hgone hsaves⟩,
    fun s n hrun hlate => ⟨_, exec_preemptOverrun n s, State.overrun_spec hrun hlate⟩, fun s n _ hlate => ?_,
    fun s n spent hrun hfatal hjobs henable => ⟨_, exec_tenantResetComplete n spent s, State.resetComplete_spec n.isLt hrun hfatal hjobs henable spent⟩,
    fun s n spent hrun => ?_⟩
  · rw [exec_tenantDismounted, State.dismounted_other hrun]
  · rw [exec_preemptOverrun, State.overrun_reported hlate]
  · rw [exec_tenantResetComplete, State.resetComplete_other hrun]

end Sys2Proof.Machine

/-! SUPPORT. Slot boundaries, major frames and time, and the statement about them. -/

namespace Sys2Proof.Machine

/-! ## The Carousel (R409 to R411) -/

/-- Objects below those of tenants are no run states. -/
theorem ne_oTenantRunState_of_lt {key : Nat} (hkey : key < 0x400000) (t : Nat) : key ≠ oTenantRunState t :=
  Nat.ne_of_lt (Nat.lt_of_lt_of_le hkey (tenantObject_ge t 0x0A))

theorem State.runStatesOnly_slotRequests (s : State) (p : Nat) : s.RunStatesOnly (s.slotRequests p) :=
  State.runStatesOnly_foldl (fun x t => x.runStatesOnly_holdTenant t 0 _) _ s

/-- The state at a boundary, before the requests of its slot (R410). -/
def State.slotBegun (s : State) : State :=
  if s.sched.carCount ≤ s.sched.slot + 1 then s.majorFrame else { s with sched := { s.sched with slot := s.sched.slot + 1 } }

/-- A boundary begins a slot; its requests change run states and pre-emption only. -/
theorem State.runStatesOnly_slotBoundary (s : State) : s.slotBegun.RunStatesOnly s.slotBoundary :=
  State.runStatesOnly_foldl State.runStatesOnly_slotRequests (List.range 8) s.slotBegun

theorem State.slotBegun_next {s : State} (h : s.sched.slot + 1 < s.sched.carCount) :
    s.slotBegun = { s with sched := { s.sched with slot := s.sched.slot + 1 } } := if_neg (Nat.not_le.mpr h)

theorem State.slotBegun_frame {s : State} (h : s.sched.carCount ≤ s.sched.slot + 1) : s.slotBegun = s.majorFrame := if_pos h

theorem State.slotBoundary_next {s : State} (h : s.sched.slot + 1 < s.sched.carCount) :
    s.slotBoundary.sched.slot = s.sched.slot + 1 ∧ s.slotBoundary.sched.carCount = s.sched.carCount ∧ s.slotBoundary.sched.carLen = s.sched.carLen ∧
      s.slotBoundary.obj oCarouselFrameNumber = s.obj oCarouselFrameNumber ∧ s.slotBoundary.exec = s.exec ∧ s.slotBoundary.mem = s.mem ∧
      s.slotBoundary.queues = s.queues := by
  have hrest := s.runStatesOnly_slotBoundary
  rw [State.slotBegun_next h] at hrest
  rw [hrest.sched, hrest.obj _ (ne_oTenantRunState_of_lt (by decide)), hrest.exec, hrest.mem, hrest.queues]
  exact ⟨rfl, rfl, rfl, rfl, rfl, rfl, rfl⟩

theorem State.slotBoundary_frame {s : State} (h : s.sched.carCount ≤ s.sched.slot + 1) :
    s.slotBoundary.sched.slot = 0 ∧ s.slotBoundary.sched.carCount = s.obj oCarouselSlotCount ∧ s.slotBoundary.sched.carLen = s.obj oCarouselSlotLen ∧
      s.slotBoundary.sched.carEnable = (s.obj oCarouselEnable == 1) ∧
      s.slotBoundary.obj oCarouselFrameNumber = (s.obj oCarouselFrameNumber + 1) % 2 ^ 64 ∧ s.slotBoundary.exec = s.exec ∧
      s.slotBoundary.mem = s.mem ∧ s.slotBoundary.queues = s.queues := by
  have hrest := s.runStatesOnly_slotBoundary
  rw [State.slotBegun_frame h] at hrest
  have hnumber : s.majorFrame.obj oCarouselFrameNumber = (s.obj oCarouselFrameNumber + 1) % 2 ^ 64 :=
    State.obj_setObj_self s oCarouselFrameNumber _
  rw [hrest.sched, hrest.obj _ (ne_oTenantRunState_of_lt (by decide)), hrest.exec, hrest.mem, hrest.queues, hnumber]
  exact ⟨rfl, rfl, rfl, rfl, rfl, rfl, rfl, rfl⟩

/-! ## Time (R412, R413) -/

theorem State.delayMeasured_up {s : State} {p : Nat} (hp : p < 16) (hup : s.portUp p = true) (ns : Nat) :
    s.delayMeasured p ns = (s.setPort p { s.port p with delayNs := ns }).sendParams p := by
  unfold State.delayMeasured
  rw [if_neg (by simp [hp, hup])]

/-- A follower that loses its source holds over, and that is reported. -/
theorem State.timeLost_first {s : State} (hrole : s.obj oCarouselTimeRole = 2 ∨ s.obj oCarouselTimeRole = 3) (hlost : s.sched.lost = false) :
    s.timeLost = ({ s with sched := { s.sched with lost := true } }.setObj oCarouselSyncState 1).event ⟨0x0504, 1, 0, 0, 0⟩ := by
  unfold State.timeLost
  dsimp only
  rw [if_pos (by simp [hrole, hlost])]

theorem State.timeLost_again {s : State} (hlost : s.sched.lost = true) : s.timeLost = s := by
  unfold State.timeLost
  dsimp only
  rw [if_neg (by simp [hlost])]

/-- A copy of time that is adopted is kept, and the follower is in step. -/
theorem State.adoptTime_spec (s : State) (p frame there phase hops : Nat) :
    (s.adoptTime p frame there phase hops).obj oCarouselSyncState = 3 ∧
      (s.adoptTime p frame there phase hops).sched.fresh = some (frame, there, hops, p) ∧
      (s.adoptTime p frame there phase hops).exec = s.exec ∧ (s.adoptTime p frame there phase hops).queues = s.queues := by
  unfold State.adoptTime
  extract_lets off lost s1 left sched s2
  have hsync : s2.obj oCarouselSyncState = 3 := State.obj_setObj_self _ oCarouselSyncState 3
  have hexec : s2.exec = s.exec := rfl
  have hqueues : s2.queues = s.queues := rfl
  split
  · have hevent := s2.reportsOnly_event ⟨0x0505, 0, 0, 0, unsigned 32 off⟩
    rw [hevent.obj, hevent.sched, hevent.exec, hevent.queues]
    exact ⟨hsync, rfl, hexec, hqueues⟩
  · split
    · rw [State.obj_setObj_other _ _ (by decide), State.setObj_sched, State.setObj_exec, State.setObj_queues]
      exact ⟨hsync, rfl, hexec, hqueues⟩
    · exact ⟨hsync, rfl, hexec, hqueues⟩

section
variable {s : State} {p frame there hops : Nat} {k : Packet} (hbody : k.body = .time frame there hops) (hfatal : s.regs.fatal = false)
  (hup : s.portUp p = true) (hcrc : k.hdr.crcOk = true)
include hbody hfatal hup hcrc

/-- An Avenue follower adopts every copy of its Avenue port. -/
theorem State.timeReceived_avenue (hrole : s.obj oCarouselTimeRole = 3) (hport : p = 12 + s.obj oCarouselAvenuePort) (phase : Nat) :
    s.timeReceived p k phase = s.adoptTime p frame (there + (s.port p).delayNs) phase hops := by
  unfold State.timeReceived
  rw [hbody]
  dsimp only
  rw [if_neg (by simp [hfatal, hup]), if_neg (by simp [hcrc]), if_pos ⟨hrole, hport⟩]

/-- A Street follower with no copy yet adopts one and sends it on. -/
theorem State.timeReceived_street (hrole : s.obj oCarouselTimeRole = 2) (hport : p < 12) (hfresh : s.sched.fresh = none) (phase : Nat) :
    s.timeReceived p k phase = (s.adoptTime p frame (there + (s.port p).delayNs) phase hops).sendTime frame (there + (s.port p).delayNs) (hops + 1)
      (some p) := by
  unfold State.timeReceived
  rw [hbody]
  dsimp only
  rw [if_neg (by simp [hfatal, hup]), if_neg (by simp [hcrc]), if_neg (by simp [hrole]), if_pos ⟨hrole, hport⟩, hfresh]

end

/-! ## The rows -/

theorem exec_carouselSlotBoundary (s : State) : exec .carouselSlotBoundary s = .next s.slotBoundary.staticCheck := rfl
theorem exec_timeMasterTick (phase : Nat) (s : State) : exec (.timeMasterTick phase) s = .next (s.masterTick phase) := rfl
theorem exec_linkDelayMeasure (p : Fin 16) (ns : Nat) (s : State) : exec (.linkDelayMeasure p ns) s = .next (s.delayMeasured p.val ns) := rfl
theorem exec_timeSourceLoss (s : State) : exec .timeSourceLoss s = .next s.timeLost := rfl
theorem exec_timePacketReceive (p : Fin 16) (k : Packet) (phase : Nat) (s : State) :
    exec (.timePacketReceive p k phase) s = .next (s.timeReceived p.val k phase) := rfl

/-- Settles O43, clause by clause: a boundary by the slot it begins, a copy of time by `adoptTime_spec`, a loss by its report. -/
theorem carouselAndTime : Obligations.CarouselAndTime := by
  unfold Obligations.CarouselAndTime
  refine ⟨fun s hnext => ⟨_, exec_carouselSlotBoundary s, State.slotBoundary_next hnext⟩,
    fun s hlast => ⟨_, exec_carouselSlotBoundary s, State.slotBoundary_frame hlast⟩, fun s phase => exec_timeMasterTick phase s,
    fun s p ns hup => ?_, fun s hrole hlost => ⟨_, exec_timeSourceLoss s, ?_⟩, fun s hlost => ?_,
    fun s p k frame there phase hops hbody hrole hport hfatal hup hcrc => ⟨_, exec_timePacketReceive p k phase s, ?_⟩,
    fun s p k frame there phase hops hbody hrole hport hfatal hup hcrc hfresh => ?_⟩
  · rw [exec_linkDelayMeasure, State.delayMeasured_up p.isLt hup]
  · rw [State.timeLost_first hrole hlost]
    exact ⟨((State.reportsOnly_event _ _).obj _).trans (State.obj_setObj_self _ _ 1), State.quiet_event _ _⟩
  · rw [exec_timeSourceLoss, State.timeLost_again hlost]
  · rw [State.timeReceived_avenue hbody hfatal hup hcrc hrole hport]
    exact s.adoptTime_spec p.val frame (there + (s.port p.val).delayNs) phase hops
  · rw [exec_timePacketReceive, State.timeReceived_street hbody hfatal hup hcrc hrole hport hfresh]

end Sys2Proof.Machine

/-! SUPPORT. Tack messages as the engine serves them, and the statements about messages and commits (R421 to R435). -/

namespace Sys2Proof.Machine

/-! ## Stores written twice, and what is removed -/

theorem Store.put_put {α : Type} (m : Store α) (k : Nat) (v w : α) : Store.put (Store.put m k v) k w = Store.put m k w := by
  induction m with
  | nil => simp [Store.put]
  | cons c rest ih =>
    obtain ⟨j, u⟩ := c
    by_cases hjk : j = k
    · simp [Store.put, hjk]
    · by_cases hkj : k < j
      · simp [Store.put, hjk, hkj]
      · simp [Store.put, hjk, hkj, ih]

@[simp] theorem Store.find?_erase_self {α : Type} (m : Store α) (k : Nat) : Store.find? (Store.erase m k) k = none := by
  induction m with
  | nil => rfl
  | cons c rest ih =>
    obtain ⟨j, u⟩ := c
    unfold Store.erase
    split
    · exact ih
    · next hjk => rw [Store.find?, if_neg hjk, ih]

@[simp] theorem State.tx?_dropTx_self (s : State) (m : Nat) : (s.dropTx m).tx? m = none := Store.find?_erase_self _ m

/-! ## A message that is sent whole -/

/-- A message put at the start of a request buffer is read from it as it was sent. -/
theorem Mailbox.message_putBytes (m : Mailbox) (b : List Byte) : Mailbox.message { m with request := putBytes m.request 0 b } b.length = b := by
  simp [Mailbox.message, putBytes]

theorem State.setTenantMbx_twice (s : State) (n : Nat) {v w : Mailbox} (hv : v ≠ Mailbox.idle) (hw : w ≠ Mailbox.idle) :
    (s.setTenantMbx n v).setTenantMbx n w = s.setTenantMbx n w := by
  unfold State.setTenantMbx Store.set
  rw [if_neg hv, if_neg hw, if_neg hw, Store.put_put]

theorem Mailbox.ne_idle_of_request {m : Mailbox} (h : m.request ≠ []) : m ≠ Mailbox.idle := fun hm => h (congrArg Mailbox.request hm)

/-- What a mailbox holds while a message put in it whole is served (R143). -/
def Mailbox.sent (m : Mailbox) (b : List Byte) : Mailbox := { m with request := putBytes m.request 0 b, status := 1 }

/-- A request put in the administrator's mailbox and rung is served. -/
theorem State.ringWith_admin {s : State} {b : List Byte} (hfree : s.mbxBusy 0 = false) (hpos : 0 < b.length) (hfit : b.length ≤ 4096)
    (serve : State → Nat → List Byte → State) :
    (s.setAdminMbx { s.regs.adminMbx with request := putBytes s.regs.adminMbx.request 0 b }).ringWith serve 0 b.length =
      serve (s.setAdminMbx (s.regs.adminMbx.sent b)) 0 b := by
  have hbusy : (s.setAdminMbx { s.regs.adminMbx with request := putBytes s.regs.adminMbx.request 0 b }).mbxBusy 0 = false := hfree
  have hgo : ¬ (false = true ∨ b.length = 0 ∨ routeLimit 0 < b.length) := by
    simp only [Bool.false_eq_true, false_or, routeLimit]
    omega
  exact (if_neg (hbusy ▸ hgo)).trans (congrArg (serve _ 0) (Mailbox.message_putBytes s.regs.adminMbx b))

/-- A request put in a tenant's mailbox and rung is served. -/
theorem State.ringWith_tenant {s : State} {n : Nat} {b : List Byte} (hfree : s.mbxBusy (2 + n) = false) (hpos : 0 < b.length) (hfit : b.length ≤ 1024)
    (serve : State → Nat → List Byte → State) :
    (s.setTenantMbx n { s.tenantMbx n with request := putBytes (s.tenantMbx n).request 0 b }).ringWith serve (2 + n) b.length =
      serve (s.setTenantMbx n ((s.tenantMbx n).sent b)) (2 + n) b := by
  have hput : putBytes (s.tenantMbx n).request 0 b ≠ [] := by
    have hb := List.ne_nil_of_length_pos hpos
    simp [putBytes, hb]
  have hroute : ¬ 2 + n = 0 := by omega
  have hbusy : (s.setTenantMbx n { s.tenantMbx n with request := putBytes (s.tenantMbx n).request 0 b }).mbxBusy (2 + n) = s.mbxBusy (2 + n) := by
    simp only [State.mbxBusy, if_neg hroute, Nat.add_sub_cancel_left, State.tenantMbx_setTenantMbx_self]
    rfl
  unfold State.ringWith
  simp only [hbusy, hfree, if_neg hroute, Nat.add_sub_cancel_left, routeLimit_tenant, State.tenantMbx_setTenantMbx_self]
  rw [if_neg (by simp only [Bool.false_eq_true, false_or]; omega),
    State.setTenantMbx_twice s n (Mailbox.ne_idle_of_request hput) (Mailbox.ne_idle_of_request hput)]
  exact congrArg (serve _ (2 + n)) (Mailbox.message_putBytes (s.tenantMbx n) b)

/-- A message that is served reaches its engine, whichever engine it is (R424). -/
theorem State.sendMessage_serving {s a : State} {via : Via} {r : Nat} {b : List Byte} (h : s.serving via b = some (a, r))
    (serve : State → Nat → List Byte → State) : s.sendMessage serve via b = serve a r b := by
  cases via with
  | admin =>
    simp only [State.serving, Option.ite_none_right_eq_some, Option.some.injEq, Prod.mk.injEq] at h
    obtain ⟨⟨hup, hfree, hpos, hfit⟩, rfl, rfl⟩ := h
    exact (if_pos hup).trans (State.ringWith_admin hfree hpos hfit serve)
  | tenant n =>
    simp only [State.serving, Option.ite_none_right_eq_some, Option.some.injEq, Prod.mk.injEq] at h
    obtain ⟨⟨hup, hlive, hfree, hpos, hfit⟩, rfl, rfl⟩ := h
    exact (if_pos (by rw [hup, hlive]; rfl)).trans (State.ringWith_tenant hfree hpos hfit serve)
  | bus src =>
    simp only [State.serving, Option.ite_none_right_eq_some, Option.some.injEq, Prod.mk.injEq] at h
    obtain ⟨⟨hup, hnode, hsrc, hnew⟩, rfl, rfl⟩ := h
    have hfind : s.dict.busReplies.find? (fun x => x.1 == msgId b) = none := by simpa using hnew
    simp [State.sendMessage, State.datagramWith, hup, hnode, hsrc, hfind]

/-! ## The engine's answers (R421 to R425, R431 to R435) -/

section
variable {s : State} {r : Nat} {b : List Byte}

theorem bareMessage.op {op : Nat} (h : bareMessage r op b) : msgOp b = op := h.2.1

/-- A message whose header is not in order is answered MALFORMED and changes nothing (R421). -/
theorem State.request_malformed (hbad : headerOk r b = false) (mbx : Bool) :
    s.request r mbx b = s.deliver r mbx (respondStatus r b tkMalformed) := by
  simp [State.request, State.engine, State.engineFrom, hbad, State.answered]

section
variable {items : List TackItem} (hok : headerOk r b = true)
include hok

/-- A READ without a handle is answered with the applied values (R422). -/
theorem State.request_readItems (hop : msgOp b = 0x01) (hhandle : msgHandle b = 0) (hitems : parseItems false (msgCount b) (b.drop 16) = some items)
    (mbx : Bool) : s.request r mbx b = (s.readItems r items).1.deliver r mbx (respond r b tkOk 0 items.length (s.readItems r items).2) := by
  simp [State.request, State.engine, State.engineFrom, hok, hop, hhandle, hitems, State.answered]

section
variable (hop : msgOp b = 0x02) (hitems : parseItems true (msgCount b) (b.drop 16) = some items)
include hop hitems

/-- A WRITE that names a request whose result is due waits whole (R425, R451). -/
theorem State.request_write_waits (hhandle : msgHandle b = 0) (hdue : s.mustWait items = true) (mbx : Bool) :
    s.request r mbx b = s.holdMsg ⟨r, mbx, b, 0, []⟩ := by
  simp [State.request, State.engine, State.engineFrom, hok, hop, hhandle, hitems, hdue, State.answered]

/-- A WRITE none of whose items has to wait is applied item by item and answered (R424). -/
theorem State.request_write_done (hhandle : msgHandle b = 0) (hdue : s.mustWait items = false) (hleft : (s.writeItems r items).2.2 = []) (mbx : Bool) :
    s.request r mbx b = (s.writeItems r items).1.deliver r mbx (respond r b tkOk 0 items.length (s.writeItems r items).2.1) := by
  simp [State.request, State.engine, State.engineFrom, hok, hop, hhandle, hitems, hdue, hleft, State.answered]

/-- A WRITE one of whose own items makes a result due is held with the items that are left (R451). -/
theorem State.request_write_held (hhandle : msgHandle b = 0) (hdue : s.mustWait items = false) (hleft : (s.writeItems r items).2.2 ≠ []) (mbx : Bool) :
    s.request r mbx b =
      (s.writeItems r items).1.holdMsg ⟨r, mbx, b, items.length - (s.writeItems r items).2.2.length, (s.writeItems r items).2.1⟩ := by
  simp [State.request, State.engine, State.engineFrom, hok, hop, hhandle, hitems, hdue, hleft, State.answered]

/-- A WRITE with the handle of its sender's open transaction stages its items (R431). -/
theorem State.request_write_staged {x : Tx} {u : State × List Byte} (hhandle : msgHandle b ≠ 0) (htx : s.tx? r = some x) (hx : x.handle = msgHandle b)
    (hopen : x.committing = false) (hstage : s.stageItems r x items = some u) (mbx : Bool) :
    s.request r mbx b = u.1.deliver r mbx (respond r b tkOk (msgHandle b) items.length u.2) := by
  simp [State.request, State.engine, State.engineFrom, hok, hop, hhandle, hitems, routeMaster, htx, hx, hopen, hstage, State.answered]

end
end

/-- A transaction opened for a master, with the next handle (R431). -/
def State.openTx (s : State) (m : Nat) : State :=
  { s with dict := { s.dict with txs := Store.put s.dict.txs m ⟨s.dict.nextHandle, [], false, 0⟩, nextHandle := s.dict.nextHandle % (2 ^ 32 - 1) + 1 } }

theorem State.tx?_openTx (s : State) (m : Nat) : (s.openTx m).tx? m = some ⟨s.dict.nextHandle, [], false, 0⟩ := Store.find?_put_self _ m _

/-- TX_BEGIN opens the one transaction of a master that has none (R431, R432). -/
theorem State.request_txBegin (h : bareMessage r 0x10 b) (hr : r < 2) (hnone : s.tx? r = none) (mbx : Bool) :
    s.request r mbx b = (s.openTx r).deliver r mbx (respond r b tkOk s.dict.nextHandle 0 []) := by
  obtain ⟨hok, hop, hcount, hlen⟩ := h
  have hmaster : ¬ 2 ≤ r := by omega
  simp [State.request, State.engine, State.engineFrom, hok, hop, hcount, hlen, hmaster, routeMaster, hnone, State.answered, State.openTx, State.setTx]

section
variable {x : Tx} (htx : s.tx? r = some x) (hx : x.handle = msgHandle b) (hopen : x.committing = false)
include htx hx hopen

/-- TX_ROLLBACK closes the transaction (R435). -/
theorem State.request_txRollback (h : bareMessage r 0x12 b) (mbx : Bool) :
    s.request r mbx b = (s.dropTx r).deliver r mbx (respondStatus r b tkOk) := by
  obtain ⟨hok, hop, hcount, hlen⟩ := h
  simp [State.request, State.engine, State.engineFrom, hok, hop, hcount, hlen, routeMaster, htx, hx, hopen, State.answered]

section
variable (h : bareMessage r 0x11 b)
include h

/-- A commit that names a request whose result is due waits for it (R425). -/
theorem State.request_txCommit_waits (hdue : x.staged.any (fun w => s.resultDue w.1) = true) (mbx : Bool) :
    s.request r mbx b = s.holdMsg ⟨r, mbx, b, 0, []⟩ := by
  obtain ⟨hok, hop, hcount, hlen⟩ := h
  simp [State.request, State.engine, State.engineFrom, hok, hop, hcount, hlen, routeMaster, htx, hx, hopen, hdue, State.answered]

section
variable (hdue : x.staged.any (fun w => s.resultDue w.1) = false)
include hdue

/-- A commit with a reason against it applies nothing (R433). -/
theorem State.request_txCommit_fails {f : Nat × Nat} (hfail : s.commitFailure r x.staged = some f) (mbx : Bool) :
    s.request r mbx b = (s.dropTx r).deliver r mbx (respond r b tkCommitFailed (msgHandle b) 0 (failureBody f.1 f.2)) := by
  obtain ⟨hok, hop, hcount, hlen⟩ := h
  simp [State.request, State.engine, State.engineFrom, hok, hop, hcount, hlen, routeMaster, htx, hx, hopen, hdue, hfail, State.endCommit, State.answered]

/-- A commit with no reason against it and no tile in its way applies its staged writes (R433). -/
theorem State.request_txCommit_applies (hfail : s.commitFailure r x.staged = none) (hquiet : s.commitQuiet x.staged = true) (mbx : Bool) :
    s.request r mbx b = ((s.dropTx r).applyStaged r x.staged).deliver r mbx
      (respond r b tkOk (msgHandle b) x.staged.length (((s.dropTx r).applyStaged r x.staged).commitItems x.staged)) := by
  obtain ⟨hok, hop, hcount, hlen⟩ := h
  simp [State.request, State.engine, State.engineFrom, hok, hop, hcount, hlen, routeMaster, htx, hx, hopen, hdue, hfail, hquiet, State.endCommit,
    State.answered]

/-- A commit that must wait for quiescence is marked and not answered yet (R434). -/
theorem State.request_txCommit_marked (hfail : s.commitFailure r x.staged = none) (hquiet : s.commitQuiet x.staged = false) (mbx : Bool) :
    s.request r mbx b = s.setTx r { x with committing := true, reply := msgId b } := by
  obtain ⟨hok, hop, hcount, hlen⟩ := h
  simp [State.request, State.engine, State.engineFrom, hok, hop, hcount, hlen, routeMaster, htx, hx, hopen, hdue, hfail, hquiet, State.answered]

end

end
end
end

/-! ## The end of a commit or of a transaction (R434, R435) -/

section
variable {s : State} {m : Nat} {x : Tx} (htx : s.tx? m = some x)
include htx

section
variable (hopen : x.committing = false)
include hopen

/-- A transaction that is not committing expires with event 0x0600 (R435). -/
theorem State.txExpire_open : s.txExpire m = (s.dropTx m).event ⟨0x0600, 0, 0, 0, x.handle⟩ := by
  simp [State.txExpire, htx, hopen]

/-- A commit overtaken by the 10 s of its transaction answers reason 8 after the expiry (R435). -/
theorem State.serveLate_commit {b : List Byte} (h : bareMessage m 0x11 b) (hx : x.handle = msgHandle b) :
    s.serveLate m b = ((s.dropTx m).event ⟨0x0600, 0, 0, 0, x.handle⟩).deliver m true
      (respond m b tkCommitFailed (msgHandle b) 0 (failureBody 8 0xFFFF)) := by
  obtain ⟨hok, _, hcount, hlen⟩ := h
  simp [State.serveLate, routeMaster, htx, hok, hcount, hlen, hx, hopen, State.txExpire_open htx hopen]

end

/-- A commit that something is in the way of waits (R434). -/
theorem State.commitApply_waits (h : s.commitQuiet x.staged = false ∨ x.staged.any (fun w => s.resultDue w.1) = true) : s.commitApply m = s := by
  rcases h with h | h <;> simp [State.commitApply, htx, h]

section
variable (hcommit : x.committing = true)
include hcommit

/-- The expiry leaves a commit in progress (R435). -/
theorem State.txExpire_committing : s.txExpire m = s := by
  simp [State.txExpire, htx, hcommit]

/-- A commit in progress applies its staged writes once nothing is in its way (R434). -/
theorem State.commitApply_quiet (hquiet : s.commitQuiet x.staged = true) (hdue : x.staged.any (fun w => s.resultDue w.1) = false) :
    s.commitApply m = ((s.dropTx m).applyStaged m x.staged).deliver m true
      (respond m (commitRequest x.reply x.handle) tkOk (msgHandle (commitRequest x.reply x.handle)) x.staged.length
        (((s.dropTx m).applyStaged m x.staged).commitItems x.staged)) := by
  simp [State.commitApply, htx, hcommit, hquiet, hdue, State.endCommit]

/-- A commit whose wait ends at 1 ms applies nothing and answers reason 7 (R434). -/
theorem State.commitTimeout_committing :
    s.commitTimeout m = (s.dropTx m).deliver m true
      (respond m (commitRequest x.reply x.handle) tkCommitFailed (msgHandle (commitRequest x.reply x.handle)) 0 (failureBody 7 0xFFFF)) := by
  simp [State.commitTimeout, htx, hcommit, State.endCommit]

end
end

/-! ## The rows -/

section
variable {s a : State} {via : Via} {r : Nat} {b : List Byte} (h : s.serving via b = some (a, r))
include h

/-- A row of the protocol serves a message of its own operation (R424). -/
theorem State.tackRow_serving {op : Nat} (hop : msgOp b = op) : s.tackRow op via b = a.request r true b :=
  (if_pos hop).trans (State.sendMessage_serving h State.serveMsg)

theorem exec_tackRead (hop : msgOp b = 0x01) : exec (.tackRead via b) s = .next (a.request r true b) :=
  congrArg Host.Outcome.next (State.tackRow_serving h hop)

theorem exec_tackWrite (hop : msgOp b = 0x02) : exec (.tackWrite via b) s = .next (a.request r true b) :=
  congrArg Host.Outcome.next (State.tackRow_serving h hop)

theorem exec_txBegin (hop : msgOp b = 0x10) : exec (.txBegin via b) s = .next (a.request r true b) :=
  congrArg Host.Outcome.next (State.tackRow_serving h hop)

theorem exec_txRollback (hop : msgOp b = 0x12) : exec (.txRollback via b) s = .next (a.request r true b) :=
  congrArg Host.Outcome.next (State.tackRow_serving h hop)

theorem exec_txCommit (hop : msgOp b = 0x11) : exec (.txCommit via b false) s = .next (a.request r true b) :=
  congrArg Host.Outcome.next (State.tackRow_serving h hop)

theorem exec_txCommit_late (hop : msgOp b = 0x11) : exec (.txCommit via b true) s = .next (a.serveLate r b) :=
  congrArg Host.Outcome.next ((if_pos (by simp [hop])).trans (State.sendMessage_serving h State.serveLate))

end

theorem exec_txCommitApply (m : Fin 2) (s : State) : exec (.txCommitApply m) s = .next (s.commitApply m.val) := rfl
theorem exec_txQuiescenceTimeout (m : Fin 2) (s : State) : exec (.txQuiescenceTimeout m) s = .next (s.commitTimeout m.val) := rfl
theorem exec_txExpire (m : Fin 2) (s : State) : exec (.txExpire m) s = .next (s.txExpire m.val) := rfl

/-- Settles O33, clause by clause: the row serves the message, and the engine's answer is the `request_` lemma of its case. -/
theorem tackMessagesAreServed : Obligations.TackMessagesAreServed := by
  unfold Obligations.TackMessagesAreServed
  intro s a via r b h
  refine ⟨fun hbad => ?_, fun hok hhandle items => ⟨fun hop hitems => ?_, fun hop hitems hdue => ⟨fun hleft => ?_, fun hleft => ?_⟩,
    fun hop hitems hdue => ?_⟩, fun hbare hr hnone => ⟨a.openTx r, a.tx?_openTx r, rfl, ?_⟩, fun x hbare htx hx hopen => ?_,
    fun x items u hok hop hhandle hitems htx hx hopen hstage => ?_⟩
  · have hanswer := State.request_malformed (s := a) hbad true
    rw [← hanswer]
    exact ⟨exec_tackRead h, exec_tackWrite h, exec_txBegin h, exec_txRollback h⟩
  · rw [exec_tackRead h hop, State.request_readItems hok hop hhandle hitems]
  · rw [exec_tackWrite h hop, State.request_write_done hok hop hitems hhandle hdue hleft]
  · rw [exec_tackWrite h hop, State.request_write_held hok hop hitems hhandle hdue hleft]
  · rw [exec_tackWrite h hop, State.request_write_waits hok hop hitems hhandle hdue]
  · rw [exec_txBegin h hbare.op, State.request_txBegin hbare hr hnone]
  · rw [exec_txRollback h hbare.op, State.request_txRollback htx hx hopen hbare]
  · rw [exec_tackWrite h hop, State.request_write_staged hok hop hitems hhandle htx hx hopen hstage]

/-- Settles O34, clause by clause: a commit that reaches the engine by the `request_txCommit_` lemmas, one in progress by what ends it. -/
theorem commitsApplyAllOrNothing : Obligations.CommitsApplyAllOrNothing := by
  unfold Obligations.CommitsApplyAllOrNothing
  refine ⟨fun s a via r b x h hbare htx hx hopen => ?_, fun s m x htx hcommit => ⟨fun hquiet hdue => ?_, fun hwait => ?_, ?_, ?_⟩,
    fun s m x htx hopen => ?_, State.tx?_dropTx_self⟩
  · have hop : msgOp b = 0x11 := hbare.op
    refine ⟨fun hdue => ?_, fun f hdue hfail => ?_, fun hdue hfail hquiet => ?_, fun hdue hfail hquiet => ?_, ?_⟩
    · rw [exec_txCommit h hop, State.request_txCommit_waits htx hx hopen hbare hdue]
    · rw [exec_txCommit h hop, State.request_txCommit_fails htx hx hopen hbare hdue hfail]
    · rw [exec_txCommit h hop, State.request_txCommit_applies htx hx hopen hbare hdue hfail hquiet]
    · rw [exec_txCommit h hop, State.request_txCommit_marked htx hx hopen hbare hdue hfail hquiet]
    · rw [exec_txCommit_late h hop, State.serveLate_commit htx hopen hbare hx]
  · rw [exec_txCommitApply, State.commitApply_quiet htx hcommit hquiet hdue]
  · rw [exec_txCommitApply, State.commitApply_waits htx hwait]
  · rw [exec_txQuiescenceTimeout, State.commitTimeout_committing htx hcommit]
  · rw [exec_txExpire, State.txExpire_committing htx hcommit]
  · rw [exec_txExpire, State.txExpire_open htx hopen]

end Sys2Proof.Machine

/-! SUPPORT. What a change of the device's numbers leaves, and the statement about enumeration (R427 to R429). -/

namespace Sys2Proof.Machine

/-! ## The numbers of the device change (R341) -/

/-- The objects that checking peers moves. -/
def linkObject (key : Nat) : Prop := (∃ p, key = oLinkState p) ∨ mapObject key

theorem State.linksOnly_foldl {q : Nat → Prop} {α : Type} {f : State → α → State} (hf : ∀ (s : State) a, s.LinksOnly q (f s a)) (l : List α) (s : State) :
    s.LinksOnly q (l.foldl f s) := by
  induction l generalizing s with
  | nil => exact .refl q s
  | cons a rest ih => exact (hf s a).trans (ih (f s a))

/-- Peers are checked and told: begun commands and queues do not notice. -/
theorem State.linksOnly_numbersChanged (s : State) : s.LinksOnly linkObject s.numbersChanged := by
  unfold State.numbersChanged
  extract_lets s1
  have hpeers : s.LinksOnly linkObject s1 :=
    State.linksOnly_foldl (fun x p => (x.linksOnly_checkPeer p).mono fun _ => Or.imp_left fun h => ⟨p, h⟩) _ s
  exact hpeers.trans (State.linksOnly_foldl (fun x p => (x.sendsOnly_sendDiscovery p).linksOnly _) _ s1)

/-- Addresses, node numbers and the numbers of the device are none of these objects. -/
theorem not_linkObject {key : Nat} (h : key ≤ oTopoDeviceNumber) : ¬ linkObject key := by
  unfold linkObject mapObject oLinkState oLinkMap oRoutingEpoch
  unfold oTopoDeviceNumber at h
  rintro (⟨p, hp⟩ | hmap) <;> omega

/-! ## The bus write of TOPO_BOROUGH_NUMBER (R429 step 7) -/

/-- State `u` has the begun commands and the queues of `s`, and its objects up to the device's numbers. -/
structure State.NumbersKept (s u : State) : Prop where
  exec : u.exec = s.exec
  queues : u.queues = s.queues
  obj : ∀ key, key ≤ oTopoDeviceNumber → u.obj key = s.obj key

theorem State.NumbersKept.trans {s t u : State} (h : s.NumbersKept t) (k : t.NumbersKept u) : s.NumbersKept u :=
  ⟨k.exec.trans h.exec, k.queues.trans h.queues, fun key hkey => (k.obj key hkey).trans (h.obj key hkey)⟩

theorem State.LinksOnly.numbersKept {s u : State} (h : s.LinksOnly linkObject u) : s.NumbersKept u :=
  ⟨h.exec, h.queues, fun key hkey => h.obj key (Nat.lt_of_le_of_lt hkey (by decide)) (not_linkObject hkey)⟩

theorem State.ReportsOnly.numbersKept {s u : State} (h : s.ReportsOnly u) : s.NumbersKept u := ⟨h.exec, h.queues, fun key _ => h.obj key⟩

theorem State.numbersKept_staticCheck (s : State) : s.NumbersKept s.staticCheck :=
  ⟨State.exec_of_quiet s.quiet_staticCheck, State.queues_of_quiet s.quiet_staticCheck, fun key _ => State.obj_of_quiet s.quiet_staticCheck key⟩

/-- What the write sets, before peers are checked and told. -/
def State.boroughSet (s : State) (v : Nat) : State := ((s.counted oTopoBoroughNumber).setObj oTopoBoroughNumber v).setObj oTopoBoroughConfirmed 1

theorem State.boroughSet_streams (s : State) (v : Nat) : (s.boroughSet v).exec = s.exec ∧ (s.boroughSet v).queues = s.queues := ⟨rfl, rfl⟩

theorem State.busBorough_eq (s : State) (v : Nat) : s.busBorough v = (s.boroughSet v).numbersChanged.staticCheck := rfl

theorem State.numbersKept_busBorough (s : State) (v : Nat) : (s.boroughSet v).NumbersKept (s.busBorough v) := by
  rw [State.busBorough_eq]
  exact (State.linksOnly_numbersChanged _).numbersKept.trans (State.numbersKept_staticCheck _)

/-! ## Offers and confirmations (R428, R429) -/

section
variable {s : State} {b body : List Byte}

/-- An offer that is taken is answered (R429 steps 4 and 5). -/
theorem State.enumOffer_taken (hup : s.ostlerUp = true) (hnode : s.obj oHalterPlcaNode = 0) (hlead : s.power.leadIn = true)
    (hbeacon : s.power.beacon = true) (hbody : enumBody 0x20 8 b = some body) (hok : offerOk body = true) :
    s.enumOffer b = { s with power := { s.power with offer := some (body.take 8) },
                             dict := { s.dict with busOut := s.dict.busOut ++ [s.enumAccept b body] } } := by
  simp [State.enumOffer, hup, hnode, hlead, hbeacon, hbody, hok, State.withPower]

/-- A module that has an address, or whose `LEAD_IN` is low, does not answer. -/
theorem State.enumOffer_ignored (h : s.obj oHalterPlcaNode ≠ 0 ∨ s.power.leadIn = false) (b : List Byte) : s.enumOffer b = s := by
  rcases h with h | h <;> simp [State.enumOffer, h]

/-- The address, the device number and the controller that a confirmation gives (R428, R429). -/
def State.addressed (s : State) (src : Nat) (body : List Byte) : State :=
  ((s.setObj oHalterPlcaNode (le body 0 1)).setObj oTopoDeviceNumber (le body 1 1)).setObj oHalterControllerAddr (src % 2 ^ 128)

/-- The event of an enumerated module (Table 16-13). -/
def enumeratedEvent (body : List Byte) : EventRec := ⟨0x0601, 0, 0, 0, le body 0 1 + le body 1 1 * 2 ^ 4 + le body 2 1 * 2 ^ 10⟩

/-- A module whose offer is confirmed, before its offer ends and `LEAD_OUT` is released. -/
def State.enumerated (s : State) (src : Nat) (body : List Byte) : State :=
  ((s.addressed src body).busBorough (le body 2 1)).event (enumeratedEvent body)

theorem State.enumConfirm_taken {o : List Byte} (hup : s.ostlerUp = true) (hnode : s.obj oHalterPlcaNode = 0) (hoffer : s.power.offer = some o)
    (hbody : enumBody 0x22 16 b = some body) (hok : offerOk body = true) (hid : le body 4 4 = le o 4 4) (hserial : le body 8 8 = s.obj oModuleSerial)
    (src : Nat) : s.enumConfirm src b = (s.enumerated src body).withPower { (s.enumerated src body).power with offer := none, leadOutLow := false } := by
  simp [State.enumConfirm, hoffer, hbody, hup, hnode, hok, hid, hserial, State.enumerated, State.addressed, enumeratedEvent]

theorem State.numbersKept_enumerated (s : State) (src : Nat) (body : List Byte) :
    ((s.addressed src body).boroughSet (le body 2 1)).NumbersKept (s.enumerated src body) :=
  (State.numbersKept_busBorough _ _).trans (State.reportsOnly_event _ _).numbersKept

end

/-! ## The rows -/

theorem exec_enumOffer (b : List Byte) (s : State) : exec (.enumOffer b) s = .next (s.enumOffer b) := rfl
theorem exec_enumConfirm (src : Nat) (b : List Byte) (s : State) : exec (.enumConfirm src b) s = .next (s.enumConfirm src b) := rfl
theorem exec_enumConfirmTimeout (s : State) : exec .enumConfirmTimeout s = .next s.enumTimeout := rfl
theorem exec_halterBeaconLoss (s : State) : exec .halterBeaconLoss s = .next (s.setBeacon false) := rfl
theorem exec_halterBeaconResume (s : State) : exec .halterBeaconResume s = .next (s.setBeacon true) := rfl
theorem exec_leadInHigh (s : State) : exec .leadInHigh s = .next s.leadInHigh := rfl

/-- Settles O35, clause by clause: the offer by what it leaves, the confirmation by what checking peers and reports keep of the numbers it gives. -/
theorem enumerationTakesItsSteps : Obligations.EnumerationTakesItsSteps := by
  unfold Obligations.EnumerationTakesItsSteps
  refine ⟨fun s b body hup hnode hlead hbeacon hbody hok => ⟨_, exec_enumOffer b s, ?_⟩, fun s b h => ?_,
    fun s src b o body hup hnode hoffer hbody hok hid hserial => ⟨_, exec_enumConfirm src b s, ?_⟩, exec_enumConfirmTimeout, fun s hstandby => ?_,
    exec_halterBeaconLoss, exec_halterBeaconResume⟩
  · rw [State.enumOffer_taken hup hnode hlead hbeacon hbody hok]
    exact ⟨rfl, rfl, rfl⟩
  · rw [exec_enumOffer, State.enumOffer_ignored h]
  · rw [State.enumConfirm_taken hup hnode hoffer hbody hok hid hserial]
    have hkept := s.numbersKept_enumerated src body
    generalize s.enumerated src body = u at hkept ⊢
    have hobj : ∀ key, key ≤ oTopoDeviceNumber →
        (u.withPower { u.power with offer := none, leadOutLow := false }).obj key = ((s.addressed src body).boroughSet (le body 2 1)).obj key := hkept.obj
    rw [hobj _ (by decide), hobj _ (by decide), hobj _ (by decide), hobj _ (by decide)]
    obtain ⟨hexec, hqueues⟩ := (s.addressed src body).boroughSet_streams (le body 2 1)
    refine ⟨?_, ?_, ?_, ?_, rfl, rfl, hkept.exec.trans hexec, hkept.queues.trans hqueues⟩
    all_goals
      simp [State.boroughSet, State.addressed, State.obj_setObj, oHalterPlcaNode, oTopoDeviceNumber, oTopoBoroughNumber, oTopoBoroughConfirmed,
        oHalterControllerAddr]
  · rw [exec_leadInHigh, State.leadInHigh, if_pos hstandby]

end Sys2Proof.Machine

/-! SUPPORT. What writes of objects leave of the power group: the Ostler goes on running as it did (R455, R456). -/

namespace Sys2Proof.Machine

/-! ## Updates that are described already -/

theorem State.power_foldl {α : Type} {f : State → α → State} (hf : ∀ (s : State) a, (f s a).power = s.power) (l : List α) (s : State) :
    (l.foldl f s).power = s.power := by
  induction l generalizing s with
  | nil => rfl
  | cons a rest ih => exact (ih (f s a)).trans (hf s a)

theorem State.SendsOnly.power {s u : State} (h : s.SendsOnly u) : u.power = s.power := by
  obtain ⟨_, _, _, _, _, _, rfl⟩ := h.form
  rfl

theorem State.TalliesOnly.power {s u : State} (h : s.TalliesOnly u) : u.power = s.power := by
  obtain ⟨_, _, _, rfl⟩ := h
  rfl

theorem State.ObjectsOnly.power {p : Nat → Prop} {s u : State} (h : s.ObjectsOnly p u) : u.power = s.power := by
  obtain ⟨_, rfl⟩ := h.eq
  rfl

theorem State.EnginesGiven.power {s u : State} (h : s.EnginesGiven u) : u.power = s.power := by
  obtain ⟨_, _, _, _, rfl⟩ := h.form
  rfl

@[simp] theorem State.event_power (s : State) (e : EventRec) : (s.event e).power = s.power := (s.reportsOnly_event e).power
@[simp] theorem State.capacityEvent_power (s : State) (q : Nat) : (s.capacityEvent q).power = s.power := (s.reportsOnly_capacityEvent q).power
@[simp] theorem State.staticCheck_power (s : State) : s.staticCheck.power = s.power := State.power_of_quiet s.quiet_staticCheck
@[simp] theorem State.trace_power (s : State) (typ sub tenant : Nat) (tail : List Byte) : (s.trace typ sub tenant tail).power = s.power :=
  (s.talliesOnly_trace typ sub tenant tail).power
@[simp] theorem State.syncMemory_power (s : State) (t : Nat) : (s.syncMemory t).power = s.power := (s.objectsOnly_syncMemory t).power
@[simp] theorem State.assignEngines_power (s : State) : s.assignEngines.power = s.power := s.enginesGiven_assignEngines.power

@[simp] theorem State.goneFor_power (s : State) (t : Option Nat) : (s.goneFor t).power = s.power := by
  obtain ⟨_, h⟩ := s.goneFor_eq t
  rw [h]

@[simp] theorem State.chargeEngine_power (s : State) (c : Ctx) (key ns : Nat) : (s.chargeEngine c key ns).power = s.power := by
  obtain ⟨_, _, h⟩ := s.chargeEngine_form c key ns
  rw [h]

@[simp] theorem State.holdTenant_power (s : State) (t b : Nat) (on : Bool) : (s.holdTenant t b on).power = s.power := by
  obtain ⟨_, _, h⟩ := (s.runStatesOnly_holdTenant t b on).form
  rw [h]

/-! ## Packets that leave and links -/

@[simp] theorem State.spurDraw_power (s : State) (k : Nat) (part : Option Nat) : (s.spurDraw k part).1.power = s.power := (s.sendsOnly_spurDraw k part).power
@[simp] theorem State.pump_power (s : State) (p : Nat) : (s.pump p).power = s.power := (s.sendsOnly_pump p).power
@[simp] theorem State.forward_power (s : State) (k : Packet) (inp tag : Option Nat) : (s.forward k inp tag).power = s.power :=
  (s.sendsOnly_forward k inp tag).power
@[simp] theorem State.floodLsa_power (s : State) (d : Nat) (but : Option Nat) : (s.floodLsa d but).power = s.power := (s.sendsOnly_floodLsa d but).power
@[simp] theorem State.sendDiscovery_power (s : State) (p : Nat) : (s.sendDiscovery p).power = s.power := (s.sendsOnly_sendDiscovery p).power
@[simp] theorem State.sendParams_power (s : State) (p : Nat) : (s.sendParams p).power = s.power := (s.sendsOnly_outPacket p _).power

@[simp] theorem State.setLink_power (s : State) (p st : Nat) : (s.setLink p st).power = s.power := State.trace_power _ _ _ _ _

@[simp] theorem State.mapChanged_power (s : State) (p : Nat) (up : Bool) : (s.mapChanged p up).power = s.power := by
  unfold State.mapChanged
  split <;> simp

@[simp] theorem State.unloadPort_power (s : State) (p : Nat) : (s.unloadPort p).power = s.power := by
  unfold State.unloadPort
  rw [State.power_foldl (fun x k => x.forward_power _ _ _)]
  simp

@[simp] theorem State.stopPort_power (s : State) (p st cause : Nat) : (s.stopPort p st cause).power = s.power := by
  unfold State.stopPort
  dsimp only
  split <;> simp

@[simp] theorem State.linkEnabled_power (s : State) (p : Nat) (on : Bool) : (s.linkEnabled p on).power = s.power := by
  unfold State.linkEnabled
  split <;> split <;> simp

@[simp] theorem State.linkEnableWrite_power (s : State) (p v : Nat) : (s.linkEnableWrite p v).power = s.power := by
  unfold State.linkEnableWrite
  dsimp only
  split
  · split <;> simp
  · simp

@[simp] theorem State.lineageMode_power (s : State) (i mode : Nat) : (s.lineageMode i mode).power = s.power := by
  unfold State.lineageMode
  dsimp only
  split <;> simp

@[simp] theorem State.lineageModeWrite_power (s : State) (i v : Nat) : (s.lineageModeWrite i v).power = s.power := by
  unfold State.lineageModeWrite
  dsimp only
  split <;> simp

@[simp] theorem State.portActive_power (s : State) (p : Nat) : (s.portActive p).power = s.power := by
  simp [State.portActive]

@[simp] theorem State.checkPeer_power (s : State) (p : Nat) : (s.checkPeer p).power = s.power := by
  unfold State.checkPeer
  dsimp only
  repeat' split
  all_goals simp

@[simp] theorem State.numbersChanged_power (s : State) : s.numbersChanged.power = s.power :=
  (State.power_foldl State.sendDiscovery_power _ _).trans (State.power_foldl State.checkPeer_power _ s)

@[simp] theorem State.portsDown_power (s : State) (n : Nat) : (s.portsDown n).power = s.power := by
  unfold State.portsDown
  rw [State.power_foldl (fun x p => x.mapChanged_power p false), State.power_foldl (fun x p => ?_)]
  dsimp only
  split
  · simp
  · split <;> simp

/-! ## Posts and streams -/

@[simp] theorem State.drainStream_power (fuel : Nat) (s : State) (dst cls : Nat) : (s.drainStream dst cls fuel).power = s.power := by
  induction fuel generalizing s with
  | zero => rfl
  | succ n ih =>
    unfold State.drainStream
    dsimp only
    split
    · rfl
    · split
      · rfl
      · simp [ih]

@[simp] theorem State.originate_power (s : State) (tag dst typ : Nat) (body : PktBody) : (s.originate tag dst typ body).power = s.power := by
  unfold State.originate
  dsimp only
  split
  · rfl
  · split <;> split <;> simp

@[simp] theorem State.setWaitsMet_power (s : State) (src : Src) (l : List Nat) : (s.setWaitsMet src l).power = s.power := by
  unfold State.setWaitsMet
  split
  · rfl
  · split <;> rfl

@[simp] theorem State.latch_power (s : State) (src : Src) : (s.latch src).power = s.power := by
  unfold State.latch
  split
  · rfl
  · dsimp only
    split
    · rfl
    · exact (State.power_foldl (fun x i => x.trace_power _ _ _ _) _ _).trans (s.setWaitsMet_power _ _)

@[simp] theorem State.latchAll_power (s : State) : s.latchAll.power = s.power := State.power_foldl State.latch_power _ s

@[simp] theorem State.replySubs_power (s : State) (p : Nat) : (s.replySubs p).power = s.power :=
  State.power_foldl (fun x _ => x.originate_power _ _ _ _) _ _

@[simp] theorem State.signalPost_power (s : State) (p op v : Nat) : (s.signalPost p op v).power = s.power := by
  simp [State.signalPost]

/-! ## Commands that end without success -/

@[simp] theorem State.dropColl_power (s : State) (id : Nat) : (s.dropColl id).power = s.power := rfl

@[simp] theorem State.chargeDiscard_power (s : State) (c : Cmd) (status detail : Nat) : (s.chargeDiscard c status detail).power = s.power := by
  unfold State.chargeDiscard
  dsimp only
  split
  · rfl
  · split <;> simp

@[simp] theorem State.failCmdAs_power (s : State) (id status detail : Nat) (f : Option AccFault) (wide : Bool) :
    (s.failCmdAs id status detail f wide).power = s.power := by
  unfold State.failCmdAs
  split
  · cases wide <;> simp
  · rfl

@[simp] theorem State.failCmd_power (s : State) (id status detail : Nat) (f : Option AccFault) : (s.failCmd id status detail f).power = s.power :=
  s.failCmdAs_power id status detail f _

@[simp] theorem State.abortColl_power (s : State) (c : Coll) (status detail : Nat) (tell : Bool) : (s.abortColl c status detail tell).power = s.power := by
  unfold State.abortColl
  dsimp only
  split
  · simp
  · rw [State.event_power, State.power_foldl (fun x d => x.originate_power _ _ _ _)]
    simp

@[simp] theorem State.syncBufs_power (s : State) (t : Nat) : (s.syncBufs t).power = s.power := rfl

@[simp] theorem State.returnBufs_power (s : State) (t : Nat) (l : List Nat) : (s.returnBufs t l).power = s.power := by
  have hbufs : (l.foldl (fun acc b => acc.setBuf t b 0) s).power = s.power := State.power_foldl (fun x b => x.setBuf_power t b 0) l s
  unfold State.returnBufs
  dsimp only
  split <;> simp [hbufs]

@[simp] theorem State.dropJob_power (s : State) (id : Nat) : (s.dropJob id).power = s.power := State.assignEngines_power _

@[simp] theorem State.jobFails_power (s : State) (j : CodecJob) (status detail : Nat) (f : Option AccFault) :
    (s.jobFails j status detail f).power = s.power := by
  simp [State.jobFails]

/-! ## Tenants -/

@[simp] theorem State.tenantReset_power (s : State) (t : Nat) : (s.tenantReset t).power = s.power := by
  unfold State.tenantReset
  dsimp only
  split
  · rfl
  · rw [State.power_foldl (fun x c => ?_), State.power_foldl (fun x c => x.abortColl_power c _ _ _)]
    · simp
    · split
      · rfl
      · split <;> simp

@[simp] theorem State.tenantHold_power (s : State) (t v : Nat) : (s.tenantHold t v).power = s.power := by
  unfold State.tenantHold
  dsimp only
  split <;> simp

@[simp] theorem State.tenantEnable_power (s : State) (t v : Nat) : (s.tenantEnable t v).power = s.power := by
  unfold State.tenantEnable
  dsimp only
  split
  · rfl
  · split <;> simp

@[simp] theorem State.addDelayed_power (s : State) (q : DelayedReq) : (s.addDelayed q).power = s.power := rfl
@[simp] theorem State.setGranule_power (s : State) (g o : Nat) : (s.setGranule g o).power = s.power := rfl
@[simp] theorem State.setFrame_power (s : State) (f o : Nat) : (s.setFrame f o).power = s.power := rfl

@[simp] theorem State.paddockAllocate_power (s : State) (t v seq : Nat) : (s.paddockAllocate t v seq).power = s.power := by
  unfold State.paddockAllocate
  dsimp only
  split
  · rfl
  · rw [State.syncMemory_power, State.addDelayed_power, State.power_foldl (fun x g => x.setGranule_power g t)]

@[simp] theorem State.paddockFree_power (s : State) (t v seq : Nat) : (s.paddockFree t v seq).power = s.power := by
  unfold State.paddockFree
  dsimp only
  split
  · rfl
  · split <;> simp

@[simp] theorem State.frameRequest_power (s : State) (v seq : Nat) : (s.frameRequest v seq).power = s.power := by
  have hframes : ∀ x : State, ((frRange v).foldl (fun acc f => acc.setFrame f ownerLeaving) x).power = x.power :=
    State.power_foldl (fun x f => x.setFrame_power f _) _
  unfold State.frameRequest
  dsimp only
  rw [State.syncMemory_power, State.addDelayed_power]
  repeat' split
  all_goals simp [hframes]

@[simp] theorem State.queueCfgWrite_power (s : State) (q c : Nat) : (s.queueCfgWrite q c).power = s.power := by
  unfold State.queueCfgWrite
  dsimp only
  split
  · rfl
  · split <;> rfl

@[simp] theorem State.syncStalls_power (s : State) (t : Nat) : (s.syncStalls t).power = s.power := rfl
@[simp] theorem State.syncRemuda_power (s : State) (t : Nat) : (s.syncRemuda t).power = s.power := rfl
@[simp] theorem State.tlbInvalidate_power (s : State) (t v seq : Nat) : (s.tlbInvalidate t v seq).power = s.power := rfl
@[simp] theorem State.attribQuota_power (s : State) (t v : Nat) : (s.attribQuota t v).power = s.power := rfl

@[simp] theorem State.postRangeWrite_power (s : State) (t v : Nat) : (s.postRangeWrite t v).power = s.power := by
  rw [State.postRangeWrite, State.clearPosts_power, State.setObj_power]

/-- Writing an object of a tenant changes nothing of the power group. -/
@[simp] theorem State.applyTenant_power (s : State) (t sub key v seq : Nat) : (s.applyTenant t sub key v seq).power = s.power := by
  unfold State.applyTenant
  split
  · exact s.queueCfgWrite_power _ v
  · split
    · exact s.tenantEnable_power t v
    · exact s.tenantReset_power t
    · exact s.tenantHold_power t v
    · exact s.setObj_power key _
    · split
      · exact s.paddockFree_power t v seq
      · exact s.paddockAllocate_power t v seq
    · exact s.tlbInvalidate_power t v seq
    · exact State.syncStalls_power _ t
    · exact State.syncRemuda_power _ t
    · exact s.answerObj_power _ _ seq
    · exact State.syncBufs_power _ t
    · exact s.postRangeWrite_power t v
    · exact s.answerObj_power _ _ seq
    · exact s.attribQuota_power t v
    · exact s.answerObj_power _ _ seq
    · exact s.setObj_power key v

/-! ## Stables -/

@[simp] theorem State.loseWork_power (s : State) (p : Nat) : (s.loseWork p).power = s.power := by
  unfold State.loseWork
  split <;> rfl

@[simp] theorem State.vacate_power (s : State) (l : Option Nat) : (s.vacate l).power = s.power := by cases l <;> rfl

@[simp] theorem State.dealAgain_power (s : State) (p : Nat) (c : Cmd) : (s.dealAgain p c).power = s.power := by
  unfold State.dealAgain
  dsimp only
  split
  · rfl
  · split <;> simp

@[simp] theorem State.dealAll_power (s : State) (p : Nat) : (s.dealAll p).power = s.power := by
  refine State.power_foldl (fun x c => ?_) _ s
  split <;> simp

@[simp] theorem State.syncActive_power (s : State) (q : Nat) : (s.syncActive q).power = s.power := rfl

@[simp] theorem State.retireStable_power (s : State) (p cause : Nat) : (s.retireStable p cause).power = s.power := by
  unfold State.retireStable
  dsimp only
  split
  · rfl
  · rw [State.capacityEvent_power, State.event_power]
    split <;> simp

@[simp] theorem State.retireRequest_power (s : State) (p : Nat) : (s.retireRequest p).power = s.power := by
  simp [State.retireRequest]

/-! ## The Spur unit, the trace, flags, time and firmware -/

@[simp] theorem State.syncSpur_power (s : State) : s.syncSpur.power = s.power := rfl

@[simp] theorem State.spurEnable_power (s : State) (v : Nat) : (s.spurEnable v).power = s.power := by
  unfold State.spurEnable
  dsimp only
  repeat' split
  all_goals simp

@[simp] theorem State.spurLock_power (s : State) (v : Nat) : (s.spurLock v).power = s.power := by
  unfold State.spurLock
  dsimp only
  repeat' split
  all_goals simp

@[simp] theorem State.traceEnable_power (s : State) (v : Nat) : (s.traceEnable v).power = s.power := by
  unfold State.traceEnable
  dsimp only
  split <;> rfl

@[simp] theorem State.stableFlagsClear_power (s : State) (v : Nat) : (s.stableFlagsClear v).power = s.power := by
  unfold State.stableFlagsClear
  split
  · exact State.power_foldl (fun x i => x.setObj_power _ _) _ s
  · rfl

@[simp] theorem State.timeRole_power (s : State) (v : Nat) : (s.timeRole v).power = s.power := rfl
@[simp] theorem State.setSlot_power (s : State) (i : Nat) (f : FwSlot) : (s.setSlot i f).power = s.power := rfl
@[simp] theorem State.setStage_power (s : State) (v : Nat) : (s.setStage v).power = s.power := rfl
@[simp] theorem State.stageBegin_power (s : State) (m : Nat) : (s.stageBegin m).power = s.power := by simp [State.stageBegin]
@[simp] theorem State.stageAbandon_power (s : State) : s.stageAbandon.power = s.power := by simp [State.stageAbandon]

@[simp] theorem State.stageChunk_power (s : State) (chunk : List Byte) : (s.stageChunk chunk).power = s.power := by
  unfold State.stageChunk
  dsimp only
  repeat' split
  all_goals simp

@[simp] theorem State.stageActivate_power (s : State) : s.stageActivate.power = s.power := by
  unfold State.stageActivate
  split <;> simp

/-! ## What the host's reset and the loss of power clear -/

@[simp] theorem State.releaseGranule_power (s : State) (g : Nat) : (s.releaseGranule g).power = s.power := by
  unfold State.releaseGranule
  split <;> simp

@[simp] theorem State.releaseFrame_power (s : State) (f : Nat) : (s.releaseFrame f).power = s.power := by
  unfold State.releaseFrame
  dsimp only
  repeat' split
  all_goals simp

@[simp] theorem State.freeAll_power (s : State) : s.freeAll.power = s.power := by
  unfold State.freeAll
  rw [State.syncMemory_power, State.withMem_power, State.power_foldl State.releaseFrame_power, State.power_foldl State.releaseGranule_power]

@[simp] theorem State.hostReset_power (s : State) : s.hostReset.power = s.power := by
  simp [State.hostReset]

@[simp] theorem State.memoryLost_power (s : State) : s.memoryLost.power = s.power := rfl
@[simp] theorem State.streamsLost_power (s : State) : s.streamsLost.power = s.power := rfl

/-! ## Gaits and rails: the power group changes, the Ostler does not stop -/

@[simp] theorem State.supplyLost_power_ostler (s : State) : s.supplyLost.power.ostler = s.power.ostler := rfl

@[simp] theorem State.railsOn_power_ostler (s : State) : s.railsOn.power.ostler = s.power.ostler := by
  unfold State.railsOn
  repeat' split
  all_goals rfl

@[simp] theorem State.railsOff_power_ostler (s : State) : s.railsOff.power.ostler = s.power.ostler := by
  unfold State.railsOff
  dsimp only
  split
  · rfl
  · rw [State.power_foldl (fun x q => x.setObj_power _ _)]
    simp

@[simp] theorem State.mainRails_power_ostler (s : State) (v : Nat) : (s.mainRails v).power.ostler = s.power.ostler := by
  unfold State.mainRails
  dsimp only
  repeat' split
  all_goals simp

theorem State.power_ostler_foldl {α : Type} {f : State → α → State} (hf : ∀ (s : State) a, (f s a).power.ostler = s.power.ostler) (l : List α) (s : State) :
    (l.foldl f s).power.ostler = s.power.ostler := by
  induction l generalizing s with
  | nil => rfl
  | cons a rest ih => exact (ih (f s a)).trans (hf s a)

@[simp] theorem State.changeGait_power_ostler (s : State) (g cause : Nat) : (s.changeGait g cause).power.ostler = s.power.ostler := by
  simp [State.changeGait, State.divider, State.traceGait]

@[simp] theorem State.settleRail_power_ostler (s : State) (g q : Nat) : (s.settleRail g q).power.ostler = s.power.ostler := by
  simp [State.settleRail, State.setRail]

@[simp] theorem State.raiseRails_power_ostler (s : State) (g : Nat) : (s.raiseRails g).power.ostler = s.power.ostler := by
  refine State.power_ostler_foldl (fun x q => ?_) _ s
  split <;> simp

@[simp] theorem State.gaitCeiling_power_ostler (s : State) (v : Nat) : (s.gaitCeiling v).power.ostler = s.power.ostler := by
  unfold State.gaitCeiling State.reselect
  dsimp only
  repeat' split
  all_goals simp

@[simp] theorem State.boroughWrite_power (s : State) (v : Nat) : (s.boroughWrite v).power = s.power := by
  simp [State.boroughWrite]

@[simp] theorem State.loseAddress_power_ostler (s : State) (cause : Nat) : (s.loseAddress cause).power.ostler = s.power.ostler := by
  unfold State.loseAddress
  dsimp only
  split <;> simp

/-! ## Writes -/

section
variable {apply : State → List Byte → State} (happly : ∀ (s : State) b, (apply s b).power.ostler = s.power.ostler)
include happly

theorem State.stageVerify_power_ostler (s : State) : (s.stageVerify apply).power.ostler = s.power.ostler := by
  unfold State.stageVerify
  dsimp only
  repeat' split
  all_goals simp [happly]

theorem State.stageCommand_power_ostler (s : State) (m v : Nat) : (s.stageCommand m v apply).power.ostler = s.power.ostler := by
  unfold State.stageCommand
  split
  · simp
  · exact State.stageVerify_power_ostler happly s
  · simp
  · simp

theorem State.applyEffect_power_ostler (s : State) (m key v seq : Nat) : (s.applyEffect m key v seq apply).power.ostler = s.power.ostler := by
  unfold State.applyEffect
  dsimp only
  split
  · rw [State.applyTenant_power]
  · split
    · exact s.loseAddress_power_ostler 0
    · rw [State.queueCfgWrite_power]
    · exact s.gaitCeiling_power_ostler v
    · exact s.mainRails_power_ostler v
    · rw [State.frameRequest_power]
    · split
      · rw [State.timeRole_power]
      · rw [State.setObj_power]
    · rw [State.boroughWrite_power]
    · rw [State.linkEnableWrite_power]
    · rw [State.lineageModeWrite_power]
    · rw [State.answerObj_power]
    · rw [State.stableFlagsClear_power]
    · rw [State.retireRequest_power]
    · split <;> rfl
    · rw [State.traceEnable_power]
    · rw [State.spurLock_power]
    · rw [State.spurEnable_power]
    · rw [State.stageChunk_power]
    · exact State.stageCommand_power_ostler happly s m v
    · rw [State.answerObj_power]
    · rw [State.setObj_power]

/-- No write of an object stops the Ostler or puts it in recovery. -/
theorem State.applyWriteTo_power_ostler (s : State) (m key v : Nat) : (s.applyWriteTo m key v apply).power.ostler = s.power.ostler := by
  rw [State.applyWriteTo, State.staticCheck_power, State.applyEffect_power_ostler happly]

end

theorem State.applyRecord_power_ostler (s : State) (b : List Byte) : (s.applyRecord b).power.ostler = s.power.ostler := by
  refine State.power_ostler_foldl (fun x i => ?_) _ s
  unfold State.applyService
  split
  · split
    · exact State.applyWriteTo_power_ostler (fun _ _ => rfl) x _ _ _
    · rfl
  · rfl

end Sys2Proof.Machine

/-! SUPPORT. The rows that are a write of one object, and the statement about them (R420, R423, R424). -/

namespace Sys2Proof.Machine

/-! ## The answer of a write that is applied -/

theorem State.served_of_power_ostler {s u : State} (h : u.power.ostler = s.power.ostler) (i : TackItem) : u.served i = s.served i := by
  unfold State.served
  rw [h]

/-- A write that passes checks 1 to 7 names an object that is served. -/
theorem State.served_of_writeStatus {s : State} {r : Nat} {staging : Bool} {i : TackItem} (h : s.writeStatus r staging i = tkOk) :
    ∃ d, s.served i = some d := by
  unfold State.writeStatus at h
  split at h
  · cases h
  · exact ⟨_, ‹_›⟩

theorem State.itemSeq_served {s : State} {i : TackItem} {d : ObjDef} (h : s.served i = some d) : s.itemSeq i = s.dict.seq (itemKey i) := by
  unfold State.itemSeq
  rw [h]

section
variable {s : State} {via : Via} {r key v : Nat}

/-- The answer to a write that is applied is OK with the object's new write-sequence number (R420, R424): the object is served as it was before. -/
theorem State.viaWrite_applied (h : s.takesWrite via r key v) :
    s.viaWrite via key v = (s.applyWriteTo r key v State.applyRecord).answeredWrite tkOk key := by
  obtain ⟨d, hd⟩ := State.served_of_writeStatus h.2.1
  have hserved : (s.applyWriteTo r key v State.applyRecord).served (itemOf key v) = some d :=
    (State.served_of_power_ostler (State.applyWriteTo_power_ostler State.applyRecord_power_ostler s r key v) _).trans hd
  rw [State.viaWrite_takes h, State.itemSeq_served hserved, itemKey_itemOf]
  rfl

/-- The answer to a write whose item changes nothing is the item's status. -/
theorem State.viaWrite_refused {st : Nat} (hkey : key < 2 ^ 24) (hr : s.reaches via r key v) (hitem : s.writeItem r (itemOf key v) = (s, st)) :
    ∃ n, s.viaWrite via key v = s.answeredWith (st, n) := by
  rw [State.viaWrite_eq hkey hr, hitem]
  exact ⟨_, rfl⟩

theorem State.writeItem_checked (h : s.writeStatus r false (itemOf key v) ≠ tkOk) :
    s.writeItem r (itemOf key v) = (s, s.writeStatus r false (itemOf key v)) := if_pos h

theorem State.writeItem_rejected (hstatus : s.writeStatus r false (itemOf key v) = tkOk) (hrule : s.ruleOk s r false key v = false) :
    s.writeItem r (itemOf key v) = (s, tkRejected) := by
  have hvalue : s.ruleOk s (routeMaster r) false (itemKey (itemOf key v)) (itemOf key v).value = false := by
    rw [itemKey_itemOf]
    exact hrule
  rw [State.writeItem, hstatus, if_neg (fun h => h rfl), hvalue]
  rfl

end

/-! ## The rows -/

/-- An object of a tenant has a key of 24 bits, as every object does (R416). -/
theorem tenantKey_lt (n : Fin 1024) {sub : Nat} (hsub : sub < 256) : (0x4000 + n.val) * 256 + sub < 2 ^ 24 := by omega

theorem queueKey_lt (q : Fin 8194) : queueKey q.val < 2 ^ 24 := by
  unfold queueKey oTenantQueueConfig oAdminQueueConfig
  split <;> omega

/-- A row that is a write of one object is that object's write by its route, and its object's key has 24 bits (R416). -/
theorem objectWrite_spec {i : Instr} {via : Via} {key v : Nat} (h : objectWrite i = some (via, key, v)) :
    key < 2 ^ 24 ∧ ∀ s, exec i s = .next (s.viaWrite via key v) := by
  unfold objectWrite at h
  split at h
  case h_2 =>
    obtain ⟨hop, h⟩ := Option.ite_none_left_eq_some.mp h
    cases h
    exact ⟨tenantKey_lt _ (by decide), exec_paddockAllocate _ _ hop⟩
  case h_3 =>
    obtain ⟨hop, h⟩ := Option.ite_none_right_eq_some.mp h
    cases h
    exact ⟨tenantKey_lt _ (by decide), exec_paddockFree _ _ hop⟩
  case h_4 =>
    obtain ⟨hop, h⟩ := Option.ite_none_left_eq_some.mp h
    cases h
    exact ⟨by decide, exec_hbmFrameAssign _ hop⟩
  case h_5 =>
    obtain ⟨hop, h⟩ := Option.ite_none_right_eq_some.mp h
    cases h
    exact ⟨by decide, exec_hbmFrameRelease _ hop⟩
  case h_7 =>
    obtain ⟨hon, h⟩ := Option.ite_none_right_eq_some.mp h
    cases h
    exact ⟨queueKey_lt _, exec_queueEnable _ _ hon⟩
  case h_8 =>
    obtain ⟨hoff, h⟩ := Option.ite_none_left_eq_some.mp h
    cases h
    exact ⟨queueKey_lt _, exec_queueDisable _ _ (Bool.eq_false_iff.mpr hoff)⟩
  all_goals cases h
  all_goals refine ⟨?_, fun _ => rfl⟩
  all_goals
    simp only [oHalterRelease, oTenantTlbInvalidate, oStableFlagsClear, oTenantFlags, oSpareAutoActivate, oTenantRemudaReadReq, oRngProbeRequest,
      oTenantPostReadReq, oTenantAttribReadReq, oTenantAttribQuota, oLogReadReq, oTenantEnable, oTenantPostRange, oTenantReset, oTenantHold, oSpurEnable,
      oSpurProductionLock, oTraceEnable, oFwStageCommand, oFwStageChunk, oStableRetireRequest, oMainRailsCommand, oGaitCeiling, oLinkEnable,
      oLineagePortMode, oTopoBoroughNumber]
    omega

/-- Settles O23: a write that is applied by `viaWrite_applied`, one that is refused by its item, which leaves the state as it is. -/
theorem objectWritesAreCheckedAndApplied : Obligations.ObjectWritesAreCheckedAndApplied := by
  unfold Obligations.ObjectWritesAreCheckedAndApplied
  intro i s via r key v h
  obtain ⟨hkey, hexec⟩ := objectWrite_spec h
  refine ⟨fun htake => ?_, fun hr hstatus => ?_, fun hr hstatus hrule => ?_⟩
  · rw [hexec, State.viaWrite_applied htake]
  · obtain ⟨n, hn⟩ := State.viaWrite_refused hkey hr (State.writeItem_checked hstatus)
    exact ⟨_, hexec s, by rw [hn]; rfl, n, by rw [hn]; rfl⟩
  · obtain ⟨n, hn⟩ := State.viaWrite_refused hkey hr (State.writeItem_rejected hstatus hrule)
    exact ⟨_, hexec s, by rw [hn]; rfl, n, by rw [hn]; rfl⟩

end Sys2Proof.Machine

/-! SUPPORT. The step function and its table of rows (95_what_each_step_holds.md). -/

namespace Sys2Proof.Machine

/-- Every row of the table answers a next state. -/
theorem exec_isNext (c : Instr) (s : State) : ∃ t, exec c s = .next t := by
  cases c <;> exact ⟨_, rfl⟩

/-- Settles O1, from the two branches of `step`. -/
theorem stepRunsFront : Obligations.StepRunsFront := by
  unfold Obligations.StepRunsFront
  refine ⟨fun c rest s => rfl, fun s h => ?_⟩
  unfold step
  rw [h]

/-- Settles O5: no row of the table stops the module. -/
theorem everyCommandAnswersNext : Obligations.EveryCommandAnswersNext := exec_isNext

end Sys2Proof.Machine

/-! SUPPORT. Gaits, rails, and the loops that move the gait, and the statements about them (R465 to R475). -/

namespace Sys2Proof.Machine

/-! ## Traces and reports -/

/-- Of the objects a record that is traced counts the dropped records at most (R510). -/
theorem State.obj_trace_other (s : State) (typ sub tenant : Nat) (tail : List Byte) {key : Nat} (hkey : oTraceRecordsDropped ≠ key) :
    (s.trace typ sub tenant tail).obj key = s.obj key := by
  unfold State.trace
  dsimp only
  split
  · rfl
  · split
    · rw [State.obj_count_other _ 1 hkey]
      exact s.obj_reportDrops key
    · exact s.obj_reportDrops key

/-- A record that is traced touches no register. -/
theorem State.trace_regs (s : State) (typ sub tenant : Nat) (tail : List Byte) : (s.trace typ sub tenant tail).regs = s.regs := by
  obtain ⟨_, _, _, h⟩ := s.talliesOnly_trace typ sub tenant tail
  rw [h]

/-! ## The selection (R465) -/

theorem State.selected_rein {s : State} (h : s.power.rein = true ∨ s.power.reinHold = true) : s.selected = 0 := by
  unfold State.selected
  exact if_pos (by simpa using h)

theorem State.selected_loops {s : State} (hrein : s.power.rein = false) (hhold : s.power.reinHold = false) :
    s.selected = min (s.obj oGaitCeiling) (min s.power.powerGait (min s.power.thermalGait (min s.power.inputGait s.power.coolantGait))) := by
  unfold State.selected
  exact if_neg (by simp [hrein, hhold])

/-- An input out of range selects Walk (Table 18-7). -/
theorem State.selected_inputOut {s : State} (h : s.power.inputGait = 0) : s.selected = 0 := by
  unfold State.selected
  dsimp only
  split
  · rfl
  · rw [h]
    omega

/-! ## What rails and gaits touch -/

/-- The measured voltage of a quarter's rail. -/
def voltageObject (key : Nat) : Prop := oQuarterVoltageMv 0 ≤ key ∧ key ≤ oQuarterVoltageMv 7

/-- State `u` is `s` but for the rails of quarters, what is measured of them, and free values (R469, Table 18-4). -/
structure State.RailsOnly (s u : State) : Prop where
  form : ∃ r d n, u = { s with power := { s.power with railTenths := r }, dict := { s.dict with vals := d }, freeCount := n }
  obj : ∀ key, ¬ voltageObject key → u.obj key = s.obj key

/-- What a change of gait sets: the gait and its clock, the rails' measurements, and the count of dropped trace records. -/
def gaitObject (key : Nat) : Prop := key = oGaitCurrent ∨ key = oCoreClockKhz ∨ key = oTraceRecordsDropped ∨ voltageObject key

/-- State `u` has the begun commands and the queues of `s`, its power group but for the up-transition and the rails, and its objects but for
those a change of gait sets. -/
structure State.GaitOnly (s u : State) : Prop where
  exec : u.exec = s.exec
  queues : u.queues = s.queues
  power : ∃ x r, u.power = { s.power with raising := x, railTenths := r }
  obj : ∀ key, ¬ gaitObject key → u.obj key = s.obj key

theorem State.RailsOnly.refl (s : State) : s.RailsOnly s := ⟨⟨_, _, _, rfl⟩, fun _ _ => rfl⟩

theorem State.RailsOnly.trans {s t u : State} (h : s.RailsOnly t) (k : t.RailsOnly u) : s.RailsOnly u where
  form := by
    obtain ⟨_, _, _, rfl⟩ := h.form
    obtain ⟨r, d, n, rfl⟩ := k.form
    exact ⟨r, d, n, rfl⟩
  obj := fun key hkey => (k.obj key hkey).trans (h.obj key hkey)

theorem State.RailsOnly.mem {s u : State} (h : s.RailsOnly u) : u.mem = s.mem := by
  obtain ⟨_, _, _, rfl⟩ := h.form
  rfl

theorem State.RailsOnly.exec {s u : State} (h : s.RailsOnly u) : u.exec = s.exec := by
  obtain ⟨_, _, _, rfl⟩ := h.form
  rfl

theorem State.RailsOnly.queues {s u : State} (h : s.RailsOnly u) : u.queues = s.queues := by
  obtain ⟨_, _, _, rfl⟩ := h.form
  rfl

theorem State.RailsOnly.regs {s u : State} (h : s.RailsOnly u) : u.regs = s.regs := by
  obtain ⟨_, _, _, rfl⟩ := h.form
  rfl

theorem State.RailsOnly.power {s u : State} (h : s.RailsOnly u) : ∃ r, u.power = { s.power with railTenths := r } := by
  obtain ⟨r, _, _, rfl⟩ := h.form
  exact ⟨r, rfl⟩

theorem State.RailsOnly.gaitOnly {s u : State} (h : s.RailsOnly u) : s.GaitOnly u where
  exec := h.exec
  queues := h.queues
  power := by
    obtain ⟨r, hr⟩ := h.power
    exact ⟨s.power.raising, r, hr⟩
  obj := fun key hkey => h.obj key (fun hv => hkey (.inr (.inr (.inr hv))))

theorem State.GaitOnly.refl (s : State) : s.GaitOnly s := (State.RailsOnly.refl s).gaitOnly

theorem State.GaitOnly.trans {s t u : State} (h : s.GaitOnly t) (k : t.GaitOnly u) : s.GaitOnly u where
  exec := k.exec.trans h.exec
  queues := k.queues.trans h.queues
  power := by
    obtain ⟨_, _, ht⟩ := h.power
    obtain ⟨x, r, hu⟩ := k.power
    exact ⟨x, r, by rw [hu, ht]⟩
  obj := fun key hkey => (k.obj key hkey).trans (h.obj key hkey)

/-- Nothing the selection reads moves with the gait, so it selects what it selected. -/
theorem State.GaitOnly.selected {s u : State} (h : s.GaitOnly u) : u.selected = s.selected := by
  obtain ⟨x, r, hp⟩ := h.power
  have hceiling : u.obj oGaitCeiling = s.obj oGaitCeiling := h.obj _ (by unfold gaitObject voltageObject; decide)
  unfold State.selected
  rw [hp, hceiling]

theorem State.ReportsOnly.gaitOnly {s u : State} (h : s.ReportsOnly u) : s.GaitOnly u where
  exec := h.exec
  queues := h.queues
  power := ⟨s.power.raising, s.power.railTenths, h.power⟩
  obj := fun key _ => h.obj key

/-! ## Rails (R466, R469) -/

theorem State.railsOnly_setRail (s : State) {q : Nat} (hq : q < 8) (tenths : Nat) : s.RailsOnly (s.setRail q tenths) := by
  refine ⟨⟨_, _, _, rfl⟩, fun key hkey => ?_⟩
  refine State.obj_setObj_other _ _ (fun h => hkey ?_)
  unfold voltageObject oQuarterVoltageMv at *
  omega

theorem State.rail_setRail_self (s : State) (q tenths : Nat) : (s.setRail q tenths).rail q = tenths := Store.get_set_self 0 _ q tenths

theorem State.rail_setRail_other (s : State) {q r : Nat} (tenths : Nat) (h : r ≠ q) : (s.setRail q tenths).rail r = s.rail r :=
  Store.get_set_other 0 _ tenths h.symm

theorem State.railsOnly_settleRail (s : State) (g : Nat) {q : Nat} (hq : q < 8) : s.RailsOnly (s.settleRail g q) := by
  have hfree : s.RailsOnly s.free.2 := ⟨⟨_, _, _, rfl⟩, fun _ _ => rfl⟩
  exact hfree.trans (s.free.2.railsOnly_setRail hq _)

theorem State.railsOnly_raiseRails (s : State) (g : Nat) : s.RailsOnly (s.raiseRails g) := by
  unfold State.raiseRails
  refine List.foldlRecOn (List.range 8) _ (.refl s) (fun x hx q hq => hx.trans ?_)
  split
  · exact .refl x
  · exact x.railsOnly_settleRail g (List.mem_range.mp hq)

/-! ## A change of gait (R466) -/

/-- The start of an up-transition, or its end. -/
theorem State.gaitOnly_raising (s : State) (x : Option (Nat × Nat)) : s.GaitOnly (s.withPower { s.power with raising := x }) :=
  ⟨rfl, rfl, ⟨x, s.power.railTenths, rfl⟩, fun _ _ => rfl⟩

theorem State.gaitOnly_setObj (s : State) {key : Nat} (v : Nat) (hkey : gaitObject key) : s.GaitOnly (s.setObj key v) :=
  ⟨rfl, rfl, ⟨s.power.raising, s.power.railTenths, rfl⟩, fun _ hk => s.obj_setObj_other v (fun h => hk (h ▸ hkey))⟩

theorem State.gaitOnly_traceGait (s : State) (g cause : Nat) : s.GaitOnly (s.traceGait g cause) where
  exec := (s.talliesOnly_trace 6 0 0xFFFF _).exec
  queues := (s.talliesOnly_trace 6 0 0xFFFF _).queues
  power := ⟨s.power.raising, s.power.railTenths, s.trace_power 6 0 0xFFFF _⟩
  obj := fun _ hkey => s.obj_trace_other 6 0 0xFFFF _ (fun h => hkey (.inr (.inr (.inl h.symm))))

theorem State.gaitOnly_divider (s : State) (g cause : Nat) : s.GaitOnly (s.divider g cause) :=
  (s.gaitOnly_raising none).trans ((State.gaitOnly_setObj _ g (.inl rfl)).trans
    ((State.gaitOnly_setObj _ (gaitKhz g) (.inr (.inl rfl))).trans (State.gaitOnly_traceGait _ g cause)))

theorem State.divider_power (s : State) (g cause : Nat) : (s.divider g cause).power = { s.power with raising := none } := State.trace_power _ _ _ _ _

theorem State.divider_regs (s : State) (g cause : Nat) : (s.divider g cause).regs = s.regs := State.trace_regs _ _ _ _ _

/-- The core runs at the gait and at its clock (Table 22-7). -/
theorem State.obj_divider (s : State) (g cause : Nat) :
    (s.divider g cause).obj oGaitCurrent = g ∧ (s.divider g cause).obj oCoreClockKhz = gaitKhz g := by
  unfold State.divider State.traceGait
  rw [State.obj_trace_other _ _ _ _ _ (by decide), State.obj_trace_other _ _ _ _ _ (by decide), State.obj_setObj_other _ _ (by decide)]
  exact ⟨State.obj_setObj_self _ _ _, State.obj_setObj_self _ _ _⟩

theorem State.gaitOnly_changeGait (s : State) (g cause : Nat) : s.GaitOnly (s.changeGait g cause) :=
  (s.gaitOnly_divider g cause).trans (State.reportsOnly_event _ _).gaitOnly

theorem State.changeGait_power (s : State) (g cause : Nat) : (s.changeGait g cause).power = { s.power with raising := none } :=
  (State.event_power _ _).trans (s.divider_power g cause)

theorem State.obj_changeGait (s : State) (g cause : Nat) :
    (s.changeGait g cause).obj oGaitCurrent = g ∧ (s.changeGait g cause).obj oCoreClockKhz = gaitKhz g := by
  have h := State.reportsOnly_event (s.divider g cause) ⟨0x0700, 0, 0, 0, g + 16 * cause⟩
  exact (s.obj_divider g cause).imp (h.obj _).trans (h.obj _).trans

theorem State.changeGait_eventSeq (s : State) (g cause : Nat) : (s.changeGait g cause).regs.eventSeq = (s.regs.eventSeq + 1) % 2 ^ 32 := by
  rw [State.changeGait, State.event_eventSeq, State.divider_regs]

/-! ## The selection made again (R466) -/

theorem State.reselect_lower {s : State} (h : s.selected < s.obj oGaitCurrent) (down up : Nat) : s.reselect down up = s.changeGait s.selected down :=
  if_pos h

/-- A higher gait begins an up-transition, where none to it is in progress. -/
theorem State.reselect_higher {s : State} (h : s.obj oGaitCurrent < s.selected) (down up : Nat) :
    ((∃ c, s.power.raising = some (s.selected, c)) ∧ s.reselect down up = s) ∨
      s.reselect down up = (s.withPower { s.power with raising := some (s.selected, up) }).raiseRails s.selected := by
  unfold State.reselect
  dsimp only
  rw [if_neg (by omega), if_neg (by omega)]
  split
  · next g c hr =>
    split
    · next hg => exact .inl ⟨⟨c, by rw [hr, hg]⟩, rfl⟩
    · exact .inr rfl
  · exact .inr rfl

theorem State.reselect_same {s : State} (h : s.selected = s.obj oGaitCurrent) (down up : Nat) :
    s.reselect down up = s.withPower { s.power with raising := none } := by
  unfold State.reselect
  dsimp only
  rw [if_neg (by omega), if_pos h]

theorem State.gaitOnly_reselect (s : State) (down up : Nat) : s.GaitOnly (s.reselect down up) := by
  rcases Nat.lt_trichotomy s.selected (s.obj oGaitCurrent) with h | h | h
  · rw [State.reselect_lower h]
    exact s.gaitOnly_changeGait _ _
  · rw [State.reselect_same h]
    exact s.gaitOnly_raising none
  · rcases State.reselect_higher h down up with ⟨_, hr⟩ | hr
    · rw [hr]
      exact .refl s
    · rw [hr]
      exact (s.gaitOnly_raising _).trans (State.railsOnly_raiseRails _ _).gaitOnly

/-- An up-transition to the gait selected is in progress after the selection, where that gait is above the core's. -/
theorem State.reselect_raising {s : State} (h : s.obj oGaitCurrent < s.selected) (down up : Nat) :
    ∃ c, (s.reselect down up).power.raising = some (s.selected, c) := by
  rcases State.reselect_higher h down up with ⟨⟨c, hc⟩, hr⟩ | hr
  · exact ⟨c, by rw [hr, hc]⟩
  · obtain ⟨r, hp⟩ := ((s.withPower { s.power with raising := some (s.selected, up) }).railsOnly_raiseRails s.selected).power
    exact ⟨up, by rw [hr, hp]; rfl⟩

/-- The selection of Walk takes effect at once. -/
theorem State.obj_reselect_walk {s : State} (h : s.selected = 0) (down up : Nat) : (s.reselect down up).obj oGaitCurrent = 0 := by
  rcases Nat.eq_zero_or_pos (s.obj oGaitCurrent) with hcur | hcur
  · rw [State.reselect_same (h.trans hcur.symm)]
    exact hcur
  · rw [State.reselect_lower (by omega), (s.obj_changeGait _ _).1, h]

/-! ## Gaits taken -/

theorem State.gaitUp_raising {s : State} {g cause : Nat} (h : s.power.raising = some (g, cause)) : s.gaitUp = s.changeGait g cause := by
  unfold State.gaitUp
  rw [h]

theorem exec_gaitUpComplete (s : State) : exec .gaitUpComplete s = .next s.gaitUp := rfl

/-- Settles O12: the selection by its two cases, the higher gait as `changeGait` leaves it. -/
theorem gaitIsSelectedAndTaken : Obligations.GaitIsSelectedAndTaken := by
  unfold Obligations.GaitIsSelectedAndTaken
  refine ⟨fun s h => State.selected_rein h, fun s hrein hhold => ?_, fun s g cause h => ⟨_, exec_gaitUpComplete s, ?_⟩⟩
  · rw [State.selected_loops hrein hhold]
    omega
  · rw [State.gaitUp_raising h]
    obtain ⟨hgait, hclock⟩ := s.obj_changeGait g cause
    have hkeep := s.gaitOnly_changeGait g cause
    exact ⟨hgait, hclock, s.changeGait_power g cause, s.changeGait_eventSeq g cause, hkeep.exec, hkeep.queues⟩

end Sys2Proof.Machine

/-! SUPPORT. REIN_n, and the loops of power, temperature, input and coolant (R467 to R474). -/

namespace Sys2Proof.Machine

/-! ## Objects set over a range -/

theorem State.obj_setRange_other (f v : Nat → Nat) {key : Nat} (n : Nat) (hf : ∀ i, i < n → f i ≠ key) (s : State) :
    ((List.range n).foldl (fun (acc : State) i => acc.setObj (f i) (v i)) s).obj key = s.obj key := by
  refine List.foldlRecOn (motive := fun u : State => u.obj key = s.obj key) (List.range n) _ rfl (fun u hu i hi => ?_)
  rw [State.obj_setObj_other _ _ (hf i (List.mem_range.mp hi)), hu]

/-- Each object of a range holds what was written to it. -/
theorem State.obj_setRange_self (f v : Nat → Nat) (hf : ∀ i j, f i = f j → i = j) {n i : Nat} (hi : i < n) (s : State) :
    ((List.range n).foldl (fun (acc : State) i => acc.setObj (f i) (v i)) s).obj (f i) = v i := by
  induction n with
  | zero => omega
  | succ n ih =>
    rw [List.range_succ, List.foldl_append]
    rcases Nat.lt_succ_iff_lt_or_eq.mp hi with h | h
    · exact (State.obj_setObj_other _ _ (fun heq => by have := hf _ _ heq; omega)).trans (ih h)
    · subst h
      exact State.obj_setObj_self _ _ _

theorem State.objectsOnly_setRange {p : Nat → Prop} (f v : Nat → Nat) (n : Nat) (hf : ∀ i, i < n → p (f i)) (s : State) :
    s.ObjectsOnly p ((List.range n).foldl (fun (acc : State) i => acc.setObj (f i) (v i)) s) :=
  State.objectsOnly_foldl (fun i hi x => x.objectsOnly_setObj (v i) (hf i (List.mem_range.mp hi))) s

theorem State.ObjectsOnly.queues {p : Nat → Prop} {s u : State} (h : s.ObjectsOnly p u) : u.queues = s.queues :=
  h.eq.elim fun _ hu => (congrArg State.queues hu :)

/-! ## What the loops read and set -/

/-- An event that is raised, or not, changes nothing but reports. -/
theorem State.reportsOnly_eventWhere (s : State) (p : Prop) [Decidable p] (e : EventRec) : s.ReportsOnly (if p then s.event e else s) := by
  split
  · exact s.reportsOnly_event e
  · exact .refl s

theorem State.loops_of_ostler {s : State} (h : s.power.ostler = 1) : s.loops = true := by
  unfold State.loops
  rw [h]
  rfl

theorem not_gaitObject_input : ¬ gaitObject oInputPowerW ∧ ¬ gaitObject oInputVoltageMv := by
  unfold gaitObject voltageObject
  decide

theorem oGaitResidencyMs_ne (g : Nat) : oGaitResidencyMs g ≠ oInputPowerW ∧ oGaitResidencyMs g ≠ oInputVoltageMv := by
  unfold oGaitResidencyMs oInputPowerW oInputVoltageMv
  omega

theorem signed_unsigned {x : Int} (h0 : 0 ≤ x) (h1 : x < 2 ^ 31) : signed 32 (unsigned 32 x) = x := by
  unfold signed unsigned
  omega

/-! ## `REIN_n` (R467) -/

theorem exec_reinAssert (late : Bool) (s : State) : exec (.reinAssert late) s = .next (s.reinAssert late) := rfl
theorem exec_reinDeassert (s : State) : exec .reinDeassert s = .next s.reinDeassert := rfl
theorem exec_reinHoldExpire (s : State) : exec .reinHoldExpire s = .next s.reinExpire := rfl

/-- Settles O18: the assertion through `divider`, the selection made again through `reselect`. -/
theorem reinHoldsTheCoreAtWalk : Obligations.ReinHoldsTheCoreAtWalk := by
  unfold Obligations.ReinHoldsTheCoreAtWalk
  refine ⟨fun s late hstandby hrein hgait => ?_, fun s hrein => ?_, fun s hhold hrein => ?_⟩
  · rw [exec_reinAssert, State.reinAssert, if_neg (by simp [hstandby, hrein])]
    dsimp only
    rw [if_neg hgait]
    generalize hs1 : (s.withPower { s.power with rein := true, reinHold := false, raising := none }).setObj oReinState 1 = s1
    have hreports := (s1.divider 0 7).reportsOnly_eventWhere (late = true ∧ s.loops = true) ⟨0x0703, 0, 0, 0, 0⟩
    have hdivider := s1.gaitOnly_divider 0 7
    obtain ⟨hcur, hclock⟩ := s1.obj_divider 0 7
    have hstate : (s1.divider 0 7).obj oReinState = 1 := by
      rw [hdivider.obj _ (by unfold gaitObject voltageObject; decide), ← hs1]
      exact State.obj_setObj_self _ _ _
    refine ⟨_, rfl, ?_, (hreports.obj _).trans hcur, (hreports.obj _).trans hclock, (hreports.obj _).trans hstate,
      hreports.exec.trans (hdivider.exec.trans (by rw [← hs1]; rfl)), hreports.queues.trans (hdivider.queues.trans (by rw [← hs1]; rfl))⟩
    rw [hreports.power, State.divider_power, ← hs1]
    rfl
  · rw [exec_reinDeassert, State.reinDeassert, if_neg (by simp [hrein])]
    exact ⟨_, rfl, rfl, State.obj_setObj_self _ _ _, rfl, rfl, rfl⟩
  · rw [exec_reinHoldExpire, State.reinExpire, if_neg (by simp [hhold])]
    have hkeep := (s.withPower { s.power with reinHold := false }).gaitOnly_reselect 6 6
    obtain ⟨_, _, hpower⟩ := hkeep.power
    refine ⟨_, rfl, by rw [hpower]; rfl, hkeep.exec, fun h => .inr ?_⟩
    rw [hkeep.selected] at h ⊢
    exact State.reselect_raising h 6 6

/-! ## Power and temperature (R472, R473) -/

theorem exec_powerGaitTick (watts mv : Nat) (due : Bool) (s : State) : exec (.powerGaitTick watts mv due) s = .next (s.powerTick watts mv due) := rfl
theorem exec_powerGaitRaise (s : State) : exec .powerGaitRaise s = .next s.powerRaise := rfl
theorem exec_powerWalkStall (s : State) : exec .powerWalkStall s = .next s.powerStall := rfl
theorem exec_thermalGaitTick (points hbm : List Int) (s : State) : exec (.thermalGaitTick points hbm) s = .next (s.thermalTick points hbm) := rfl
theorem exec_thermalGaitRaise (s : State) : exec .thermalGaitRaise s = .next s.thermalRaise := rfl

/-- The state in which a tick of the power loop has stored what the input measures and the residency of the gait. -/
def State.powerMeasured (s : State) (watts mv : Nat) : State :=
  ((s.setObj oInputPowerW watts).setObj oInputVoltageMv mv).count (oGaitResidencyMs (s.obj oGaitCurrent)) 1

theorem State.obj_powerMeasured (s : State) (watts mv : Nat) :
    (s.powerMeasured watts mv).obj oInputPowerW = watts ∧ (s.powerMeasured watts mv).obj oInputVoltageMv = mv := by
  obtain ⟨hw, hv⟩ := oGaitResidencyMs_ne (s.obj oGaitCurrent)
  unfold State.powerMeasured
  rw [State.obj_count_other _ _ hw, State.obj_count_other _ _ hv, State.obj_setObj_other _ _ (by decide)]
  exact ⟨State.obj_setObj_self _ _ _, State.obj_setObj_self _ _ _⟩

theorem State.powerTick_over {s : State} {watts : Nat} (mv : Nat) (hloops : s.power.ostler = 1) (h : s.obj oPowerLimitW < watts) :
    s.powerTick watts mv false =
      ((s.powerMeasured watts mv).withPower { (s.powerMeasured watts mv).power with powerGait := s.power.powerGait - 1 }).reselect 1 0 := by
  rw [State.powerTick, if_neg (by simp [State.loops_of_ostler hloops])]
  exact if_pos h

theorem State.powerTick_under {s : State} {watts : Nat} (mv : Nat) (due : Bool) (hloops : s.power.ostler = 1) (h : watts ≤ s.obj oPowerLimitW)
    (hlow : 100 * watts ≤ 95 * s.obj oPowerLimitW) :
    s.powerTick watts mv due = (s.powerMeasured watts mv).withPower { (s.powerMeasured watts mv).power with walkStall := false } := by
  rw [State.powerTick, if_neg (by simp [State.loops_of_ostler hloops])]
  exact (if_neg (by omega)).trans (if_pos hlow)

/-- The state in which a tick of the thermal loop has stored the temperatures. -/
def State.temperaturesTaken (s : State) (points hbm : List Int) : State :=
  (List.range 8).foldl (fun (acc : State) k => acc.setObj (oHbmStackTemp k) (unsigned 32 (hbm.getD k 0)))
    ((List.range 96).foldl (fun (acc : State) i => acc.setObj (oThermalPoint i) (unsigned 32 (points.getD i 0))) s)

theorem State.objectsOnly_temperaturesTaken (s : State) (points hbm : List Int) : s.ObjectsOnly (fun _ => True) (s.temperaturesTaken points hbm) :=
  (State.objectsOnly_setRange _ _ _ (fun _ _ => trivial) _).trans (State.objectsOnly_setRange _ _ _ (fun _ _ => trivial) _)

theorem State.point_temperaturesTaken (s : State) (points hbm : List Int) {i : Nat} (hi : i < 96) :
    (s.temperaturesTaken points hbm).point (i + 1) = signed 32 (unsigned 32 (points.getD i 0)) := by
  unfold State.point State.temperaturesTaken
  rw [Nat.add_sub_cancel, State.obj_setRange_other _ _ 8 (fun k hk => by unfold oHbmStackTemp oThermalPoint; omega),
    State.obj_setRange_self _ _ (fun i j h => by unfold oThermalPoint at h; omega) hi]

/-- With a point at or above the threshold not every temperature is below it. -/
theorem State.tempsBelow_point {s : State} {i : Nat} {limit : Int} (hi : i < 96) (h : limit ≤ s.point (i + 1)) (stack : Int) :
    s.tempsBelow limit stack = false := by
  unfold State.tempsBelow
  rw [Bool.and_eq_false_iff]
  refine .inl (List.all_eq_false.mpr ⟨i, List.mem_range.mpr hi, ?_⟩)
  simpa using h

theorem State.tempsBelow_all {s : State} {limit stack : Int} (hpoints : ∀ n, 1 ≤ n → n ≤ 96 → s.point n < limit)
    (hstacks : ∀ k, k < 8 → s.stackTemp k < stack) : s.tempsBelow limit stack = true := by
  unfold State.tempsBelow
  rw [Bool.and_eq_true, List.all_eq_true, List.all_eq_true]
  refine ⟨fun i hi => ?_, fun k hk => decide_eq_true (hstacks k (List.mem_range.mp hk))⟩
  have := List.mem_range.mp hi
  exact decide_eq_true (hpoints (i + 1) (by omega) (by omega))

/-- Settles O19: each loop by the branch its readings take, and what the selection made again leaves. -/
theorem powerAndThermalLoopsMoveTheGait : Obligations.PowerAndThermalLoopsMoveTheGait := by
  unfold Obligations.PowerAndThermalLoopsMoveTheGait
  refine ⟨fun s watts mv hloops h => ⟨_, exec_powerGaitTick watts mv false s, ?_⟩,
    fun s watts mv due hloops hlow h => ⟨_, exec_powerGaitTick watts mv due s, ?_⟩, fun s hloops h => ⟨_, exec_powerGaitRaise s, ?_⟩,
    fun s hloops hgait h => ?_, fun s points hbm hloops hpoint => ⟨_, exec_thermalGaitTick points hbm s, ?_⟩,
    fun s hloops hgait hpoints hstacks => ⟨_, exec_thermalGaitRaise s, ?_⟩⟩
  · rw [State.powerTick_over mv hloops h]
    obtain ⟨hw, hv⟩ := s.obj_powerMeasured watts mv
    have hkeep := State.gaitOnly_reselect
      ((s.powerMeasured watts mv).withPower { (s.powerMeasured watts mv).power with powerGait := s.power.powerGait - 1 }) 1 0
    obtain ⟨_, _, hpower⟩ := hkeep.power
    exact ⟨by rw [hpower]; rfl, (hkeep.obj _ not_gaitObject_input.1).trans hw, (hkeep.obj _ not_gaitObject_input.2).trans hv, hkeep.exec, hkeep.queues⟩
  · rw [State.powerTick_under mv due hloops h hlow]
    exact ⟨rfl, (s.obj_powerMeasured watts mv).1, rfl, rfl⟩
  · rw [State.powerRaise, if_neg (by simp [State.loops_of_ostler hloops]; omega)]
    have hkeep := (s.withPower { s.power with powerGait := s.power.powerGait + 1 }).gaitOnly_reselect 1 0
    obtain ⟨_, _, hpower⟩ := hkeep.power
    exact ⟨by rw [hpower]; rfl, hkeep.exec, hkeep.queues⟩
  · rw [exec_powerWalkStall, State.powerStall, if_neg (by simp [State.loops_of_ostler hloops, hgait]; omega)]
  · obtain ⟨i, hi, hlo, hhi⟩ := hpoint
    have htaken := s.objectsOnly_temperaturesTaken points hbm
    have hhot : (s.temperaturesTaken points hbm).tempsBelow 10000 9500 = false :=
      State.tempsBelow_point hi (by rw [State.point_temperaturesTaken s points hbm hi, signed_unsigned (by omega) hhi]; exact hlo) 9500
    have heq : s.thermalTick points hbm = ((s.temperaturesTaken points hbm).withPower
        { (s.temperaturesTaken points hbm).power with thermalGait := (s.temperaturesTaken points hbm).power.thermalGait - 1 }).reselect 2 0 := by
      rw [State.thermalTick, if_neg (by simp [State.loops_of_ostler hloops])]
      exact if_neg (fun h => Bool.false_ne_true (hhot.symm.trans h))
    rw [heq]
    generalize s.temperaturesTaken points hbm = u at htaken
    have hkeep := (u.withPower { u.power with thermalGait := u.power.thermalGait - 1 }).gaitOnly_reselect 2 0
    obtain ⟨_, _, hpower⟩ := hkeep.power
    exact ⟨by rw [hpower, ← htaken.power]; rfl, hkeep.exec.trans htaken.exec, hkeep.queues.trans htaken.queues⟩
  · rw [State.thermalRaise]
    dsimp only
    rw [if_neg (by simp [State.loops_of_ostler hloops, State.tempsBelow_all hpoints hstacks]; omega)]
    have hkeep := (s.withPower { s.power with thermalGait := s.power.thermalGait + 1 }).gaitOnly_reselect 2 0
    obtain ⟨_, _, hpower⟩ := hkeep.power
    exact ⟨by rw [hpower]; rfl, hkeep.exec, hkeep.queues⟩

/-! ## The input and the coolant (R474, Table 18-7) -/

theorem exec_inputVoltageExcursion (mv : Nat) (s : State) : exec (.inputVoltageExcursion mv) s = .next (s.inputOut mv) := rfl
theorem exec_inputVoltageRecover (mv : Nat) (s : State) : exec (.inputVoltageRecover mv) s = .next (s.inputBack mv).railsAwaited := rfl
theorem exec_coolantSample (inlet outlet : Int) (s : State) : exec (.coolantSample inlet outlet) s = .next (s.coolant inlet outlet) := rfl

/-- With no rise of temperature the flow is not estimated, so it is not below its limit. -/
theorem flowBelow_noRise (watts : Nat) (n : Int) : flowBelow watts 0 n = false := by
  unfold flowBelow
  rw [Bool.and_assoc, Bool.and_comm]
  rfl

/-- The rails' command touches whether they are on and whether they wait for the input (R532 step 4). -/
theorem State.railsOn_form (s : State) : ∃ r d, s.railsOn = s.withPower { s.power with rails := r, railsDue := d } := by
  unfold State.railsOn
  split
  · exact ⟨1, false, rfl⟩
  · split
    · exact ⟨s.power.rails, true, rfl⟩
    · exact ⟨s.power.rails, s.power.railsDue, rfl⟩

theorem State.railsAwaited_form (s : State) : ∃ r d, s.railsAwaited = s.withPower { s.power with rails := r, railsDue := d } := by
  unfold State.railsAwaited
  split
  · exact s.railsOn_form
  · exact ⟨s.power.rails, s.power.railsDue, rfl⟩

/-- The coolant's limit on the gait changes the selection and its warnings alone. -/
theorem State.coolant_noRise {s : State} {inlet : Int} (hloops : s.power.ostler = 1) (h : signed 32 (s.obj oCoolantInletLimitC) < inlet) :
    ∃ u : State, s.coolant inlet inlet = u.reselect 4 0 ∧
      u.power.coolantGait = (if signed 32 (s.obj oCoolantInletLimitC) + 500 < inlet then 1 else 2) ∧ u.exec = s.exec ∧ u.queues = s.queues := by
  rw [State.coolant, if_neg (by simp [State.loops_of_ostler hloops])]
  dsimp only
  simp only [Int.sub_self, flowBelow_noRise, Bool.false_eq_true, or_false, if_pos h]
  refine ⟨_, rfl, by rw [(State.reportsOnly_eventWhere _ _ _).power]; rfl, (State.reportsOnly_eventWhere _ _ _).exec,
    (State.reportsOnly_eventWhere _ _ _).queues⟩

/-- Settles O20: the excursion selects Walk, the return and the coolant by the selection made again. -/
theorem inputAndCoolantLimitTheGait : Obligations.InputAndCoolantLimitTheGait := by
  unfold Obligations.InputAndCoolantLimitTheGait
  refine ⟨fun s mv hstandby hlo hhi hgait => ⟨_, exec_inputVoltageExcursion mv s, ?_⟩,
    fun s mv hgait hlo hhi => ⟨_, exec_inputVoltageRecover mv s, ?_⟩, fun s inlet hloops hlimit _ => ⟨_, exec_coolantSample inlet inlet s, ?_⟩⟩
  · rw [State.inputOut]
    dsimp only
    rw [if_neg (by simp [hstandby]; omega), if_neg (by omega), if_neg hgait]
    generalize hs0 : (s.setObj oInputVoltageMv mv).withPower { (s.setObj oInputVoltageMv mv).power with inputGait := 0 } = s0
    have hreports := s0.reportsOnly_event ⟨0x0706, 1, 0, 0, mv⟩
    have hout : (s0.event ⟨0x0706, 1, 0, 0, mv⟩).power.inputGait = 0 := by rw [hreports.power, ← hs0]; rfl
    have hkeep := (s0.event ⟨0x0706, 1, 0, 0, mv⟩).gaitOnly_reselect 3 0
    obtain ⟨_, _, hpower⟩ := hkeep.power
    refine ⟨by rw [hpower]; exact hout, ?_, State.obj_reselect_walk (State.selected_inputOut hout) 3 0,
      hkeep.exec.trans (hreports.exec.trans (by rw [← hs0]; rfl))⟩
    rw [hkeep.obj _ not_gaitObject_input.2, hreports.obj, ← hs0]
    exact State.obj_setObj_self _ _ _
  · rw [State.inputBack, if_neg (by omega)]
    generalize hs0 : (s.setObj oInputVoltageMv mv).withPower { s.power with inputGait := 3 } = s0
    have hkeep := s0.gaitOnly_reselect 3 0
    obtain ⟨_, _, hpower⟩ := hkeep.power
    obtain ⟨_, _, hrails⟩ := (s0.reselect 3 0).railsAwaited_form
    refine ⟨?_, fun hdue => ?_, ?_⟩
    · rw [hrails, State.withPower, hpower, ← hs0]
      rfl
    · rw [State.railsAwaited, if_neg (by rw [hpower, ← hs0]; simpa using hdue), hpower, ← hs0]
      rfl
    · rw [hrails]
      exact hkeep.exec.trans (by rw [← hs0]; rfl)
  · obtain ⟨u, heq, hgait, hexec, hqueues⟩ := State.coolant_noRise hloops hlimit
    have hkeep := u.gaitOnly_reselect 4 0
    obtain ⟨_, _, hpower⟩ := hkeep.power
    rw [heq]
    exact ⟨by rw [hpower]; exact hgait, hkeep.exec.trans hexec, hkeep.queues.trans hqueues⟩

end Sys2Proof.Machine

/-! SUPPORT. Droops, margins and cooling of a quarter (R469 to R471). -/

namespace Sys2Proof.Machine

theorem exec_droopDetect (q : Fin 8) (s : State) : exec (.droopDetect q) s = .next (s.droop q) := rfl
theorem exec_droopStretchEnd (q : Fin 8) (s : State) : exec (.droopStretchEnd q) s = .next (s.droopEnd q) := rfl
theorem exec_canaryLowMargin (q : Fin 8) (failure : Bool) (s : State) : exec (.canaryLowMargin q failure) s = .next (s.canaryLow q failure) := rfl
theorem exec_voltageStepDownTick (q : Fin 8) (s : State) : exec (.voltageStepDownTick q) s = .next (s.stepDown q) := rfl
theorem exec_quarterCoolingEnter (q : Fin 8) (s : State) : exec (.quarterCoolingEnter q) s = .next (s.coolingEnter q) := rfl
theorem exec_quarterCoolingLeave (q : Fin 8) (s : State) : exec (.quarterCoolingLeave q) s = .next (s.coolingLeave q) := rfl

theorem objBits_droopStretches : objBits oDroopStretches = 64 := by decide

/-- State `u` is `s` but for the rail of quarter `q`, which holds `tenths`. -/
structure State.RailSet (s u : State) (q tenths : Nat) : Prop where
  only : s.RailsOnly u
  self : u.rail q = tenths
  other : ∀ r, r ≠ q → u.rail r = s.rail r

theorem State.railSet_setRail (s : State) {q : Nat} (hq : q < 8) (tenths : Nat) : s.RailSet (s.setRail q tenths) q tenths :=
  ⟨s.railsOnly_setRail hq tenths, s.rail_setRail_self q tenths, fun _ hr => s.rail_setRail_other tenths hr⟩

theorem State.RailSet.keeps {s u : State} {q tenths : Nat} (h : s.RailSet u q tenths) :
    u.rail q = tenths ∧ (∀ r, r ≠ q → u.rail r = s.rail r) ∧ u.mem = s.mem ∧ u.exec = s.exec ∧ u.queues = s.queues ∧ u.regs = s.regs :=
  ⟨h.self, h.other, h.only.mem, h.only.exec, h.only.queues, h.only.regs⟩

/-- With the rail below the top of the gait's range by 25 mV or more, a low margin raises it by 25 mV. -/
theorem State.canaryLow_room {s : State} {q : Nat} (hrails : s.power.rails = 2) (h : s.rail q + 250 ≤ railMax (s.obj oGaitCurrent)) :
    s.canaryLow q false = s.setRail q (s.rail q + 250) := by
  unfold State.canaryLow
  dsimp only
  rw [if_neg (by simp [hrails]), if_neg Bool.false_ne_true, min_eq_right (by omega)]

/-- Within the gait's range a rail comes down by 2.5 mV. -/
theorem State.stepDown_room {s : State} {q : Nat} (hrails : s.power.rails = 2) (hraising : s.power.raising = none)
    (hlo : railMin (s.obj oGaitCurrent) + 25 ≤ s.rail q) (hhi : s.rail q ≤ railMax (s.obj oGaitCurrent)) :
    s.stepDown q = s.setRail q (s.rail q - 25) := by
  unfold State.stepDown
  dsimp only
  rw [if_neg (by simp [hrails, hraising]), if_neg (by omega), max_eq_right (by omega)]

/-- Settles O21: each sensor's row by the branch its reading takes. -/
theorem quartersFollowTheirSensors : Obligations.QuartersFollowTheirSensors := by
  unfold Obligations.QuartersFollowTheirSensors
  refine ⟨fun s q hrails hstretched => ⟨_, exec_droopDetect q s, ?_⟩, fun s q => exec_droopStretchEnd q s,
    fun s q hrails h => ⟨_, exec_canaryLowMargin q false s, ?_⟩, fun s q hrails hraising hlo hhi => ⟨_, exec_voltageStepDownTick q s, ?_⟩,
    fun s q r henable hrails hcooling hhot hmem hne hcooler => ⟨_, exec_quarterCoolingEnter q s, ?_⟩,
    fun s q hcooling hcool => ⟨_, exec_quarterCoolingLeave q s, ?_⟩⟩
  · rw [State.droop, if_neg (by simpa [hrails] using hstretched)]
    refine ⟨rfl, ?_, rfl⟩
    rw [State.obj_count_self, objBits_droopStretches]
    rfl
  · rw [State.canaryLow_room hrails h]
    exact (s.railSet_setRail q.isLt _).keeps
  · rw [State.stepDown_room hrails hraising hlo hhi]
    exact (s.railSet_setRail q.isLt _).keeps
  · have hother : ((s.partitionQuarters (s.quarterPartition q)).filter (fun r => r != q.val)).any
        (fun r => decide (s.hottest r + 800 ≤ s.hottest q)) = true :=
      List.any_eq_true.mpr ⟨r, List.mem_filter.mpr ⟨hmem, bne_iff_ne.mpr hne⟩, decide_eq_true hcooler⟩
    rw [State.coolingEnter]
    dsimp only
    rw [if_neg (by rw [henable, hrails, hcooling, hother]; simpa using hhot)]
    have hreports := State.reportsOnly_event (s.withPower { s.power with cooling := s.power.cooling ++ [q.val] }) ⟨0x0702, 0, 2, q, 1⟩
    exact ⟨hreports.power, hreports.exec, hreports.queues⟩
  · rw [State.coolingLeave, if_neg (by rw [hcooling]; simpa using hcool)]
    have hreports := State.reportsOnly_event (s.withPower { s.power with cooling := s.power.cooling.erase q.val }) ⟨0x0702, 0, 2, q, 0⟩
    exact ⟨hreports.power, hreports.exec, hreports.queues⟩

end Sys2Proof.Machine

/-! SUPPORT. The loss of the main rails, trips, lost clocks and the boot (R452 to R455, R474, R531, R537). -/

namespace Sys2Proof.Machine

/-! ## What events leave of the FATAL state -/

/-- State `u` has the begun commands, the queues and the FATAL state of `s`. -/
structure State.CommandsKept (s u : State) : Prop where
  exec : u.exec = s.exec
  queues : u.queues = s.queues
  fatal : u.regs.fatal = s.regs.fatal

theorem State.CommandsKept.refl (s : State) : s.CommandsKept s := ⟨rfl, rfl, rfl⟩

theorem State.CommandsKept.trans {s t u : State} (h : s.CommandsKept t) (k : t.CommandsKept u) : s.CommandsKept u :=
  ⟨k.exec.trans h.exec, k.queues.trans h.queues, k.fatal.trans h.fatal⟩

theorem State.commandsKept_foldl {α : Type} {f : State → α → State} (hf : ∀ (s : State) a, s.CommandsKept (f s a)) (l : List α) (s : State) :
    s.CommandsKept (l.foldl f s) :=
  List.foldlRecOn (motive := fun u : State => s.CommandsKept u) l f (.refl s) (fun u hu a _ => hu.trans (hf u a))

theorem State.SendsOnly.commandsKept {s u : State} (h : s.SendsOnly u) : s.CommandsKept u := by
  obtain ⟨_, _, _, _, _, _, rfl⟩ := h.form
  exact ⟨rfl, rfl, rfl⟩

theorem State.event_fatal (s : State) (e : EventRec) : (s.event e).regs.fatal = s.regs.fatal := by
  obtain ⟨u, hu, _, hregs, _⟩ := s.event_fields e
  rw [hregs]
  have hlogged : (s.eventLogged e).regs.fatal = s.regs.fatal := by rw [s.eventLogged_regs e]
  rcases hu with ⟨_, rfl⟩ | ⟨_, rfl⟩
  · exact hlogged
  · exact hlogged

theorem State.commandsKept_event (s : State) (e : EventRec) : s.CommandsKept (s.event e) :=
  ⟨(s.reportsOnly_event e).exec, (s.reportsOnly_event e).queues, s.event_fatal e⟩

theorem State.setLink_regs (s : State) (p st : Nat) : (s.setLink p st).regs = s.regs := by
  unfold State.setLink State.traceLink
  rw [State.trace_regs]
  rfl

theorem State.commandsKept_setLink (s : State) (p st : Nat) : s.CommandsKept (s.setLink p st) :=
  ⟨s.setLink_exec p st, s.setLink_queues p st, congrArg RegGroup.fatal (s.setLink_regs p st)⟩

theorem State.commandsKept_mapChanged (s : State) (p : Nat) (up : Bool) : s.CommandsKept (s.mapChanged p up) := by
  unfold State.mapChanged
  extract_lets s1 e s2
  split
  · exact .refl s
  · have hobjs : s.CommandsKept (s1.setObj oRoutingEpoch e) := ⟨rfl, rfl, rfl⟩
    exact (hobjs.trans (State.commandsKept_event _ _)).trans (s2.sendsOnly_floodLsa _ none).commandsKept

/-- One port goes DOWN; a DISABLED port stays so. -/
def State.portDown (s acc : State) (p : Nat) : State :=
  if acc.linkState p ≤ 1 then acc.setPort p Port.idle
  else (if s.portUp p then (acc.setLink p 1).event (linkEvent 0x0201 1 p 0) else acc.setLink p 1).setPort p Port.idle

theorem State.portsDown_eq (s : State) (n : Nat) :
    s.portsDown n = ((List.range n).filter s.portUp).foldl (fun (acc : State) p => acc.mapChanged p false) ((List.range n).foldl s.portDown s) := rfl

theorem State.commandsKept_portDown (s acc : State) (p : Nat) : acc.CommandsKept (s.portDown acc p) := by
  unfold State.portDown
  have hlink := acc.commandsKept_setLink p 1
  split
  · exact ⟨rfl, rfl, rfl⟩
  · split
    · exact (hlink.trans (State.commandsKept_event _ _)).trans ⟨rfl, rfl, rfl⟩
    · exact hlink.trans ⟨rfl, rfl, rfl⟩

theorem State.commandsKept_portsDown (s : State) (n : Nat) : s.CommandsKept (s.portsDown n) := by
  rw [State.portsDown_eq]
  exact (State.commandsKept_foldl s.commandsKept_portDown _ s).trans
    (State.commandsKept_foldl (fun acc p => acc.commandsKept_mapChanged p false) _ _)

/-! ## The host's reset -/

theorem State.releaseGranule_form (s : State) (g : Nat) : ∃ m d, s.releaseGranule g = { s with mem := m, dict := d } := by
  unfold State.releaseGranule
  split <;> exact ⟨_, _, rfl⟩

theorem State.releaseFrame_form (s : State) (f : Nat) : ∃ m d, s.releaseFrame f = { s with mem := m, dict := d } := by
  unfold State.releaseFrame
  dsimp only
  split
  · split <;> exact ⟨_, _, rfl⟩
  · exact ⟨_, _, rfl⟩

theorem State.memForm_foldl {f : State → Nat → State} (hf : ∀ (s : State) a, ∃ m d, f s a = { s with mem := m, dict := d }) (l : List Nat) (s : State) :
    ∃ m d, l.foldl f s = { s with mem := m, dict := d } := by
  refine List.foldlRecOn (motive := fun u : State => ∃ m d, u = { s with mem := m, dict := d }) l f ⟨_, _, rfl⟩ (fun u hu a _ => ?_)
  obtain ⟨_, _, rfl⟩ := hu
  obtain ⟨m, d, h⟩ := hf _ a
  exact ⟨m, d, h⟩

/-- Freeing what is owned changes the memory and objects; no allocation is left. -/
theorem State.freeAll_form (s : State) : ∃ m d, s.freeAll = { s with mem := m, dict := d } ∧ m.allocs = [] := by
  unfold State.freeAll
  dsimp only
  obtain ⟨_, _, hg⟩ := State.memForm_foldl State.releaseGranule_form ((s.mem.granOwner.filter (fun x => x.2 != ownerRetired)).map (·.1)) s
  rw [hg]
  obtain ⟨_, _, hf⟩ := State.memForm_foldl State.releaseFrame_form ((s.mem.frameOwner.filter (fun x => x.2 != ownerRetired)).map (·.1))
    { s with mem := _, dict := _ }
  rw [hf]
  obtain ⟨_, h⟩ := (State.objectsOnly_syncMemory _ 1024).eq
  exact ⟨_, _, h, rfl⟩

/-- After the host's reset no command, no queue and no allocation is left; FATAL stays. -/
theorem State.hostReset_spec (s : State) :
    s.hostReset.exec.cmds = [] ∧ s.hostReset.queues = [] ∧ s.hostReset.mem.allocs = [] ∧ s.hostReset.regs.fatal = s.regs.fatal := by
  unfold State.hostReset
  obtain ⟨_, _, h, hallocs⟩ := State.freeAll_form ((s.noCommands.noPosts.functionRegs.keepObjs (fun k => !hostObject k)).dropTx 0)
  rw [h]
  exact ⟨rfl, rfl, hallocs, rfl⟩

/-! ## The loss of the main rails -/

theorem State.railsOff_off {s : State} (h : s.power.rails = 0) : s.railsOff = s := if_pos h

/-- State `u` is what the rails' loss leaves of `s`: its power group without the main rails, its FATAL state, no command and no queue. -/
structure State.RailsLost (s u : State) : Prop where
  power : u.power = s.supplyLost.power
  fatal : u.regs.fatal = s.regs.fatal
  cmds : u.exec.cmds = []
  queues : u.queues = []

theorem State.supplyLost_power {s u : State} (h : u.power = s.power) : u.supplyLost.power = s.supplyLost.power := by
  unfold State.supplyLost
  rw [h]
  rfl

theorem State.railsLost_railsOff {s : State} (h : s.power.rails ≠ 0) : s.RailsLost s.railsOff := by
  obtain ⟨hcmds, hqueues, _, hfatal⟩ := s.hostReset_spec
  have hports := s.hostReset.commandsKept_portsDown 18
  have hpower : (s.hostReset.portsDown 18).power = s.power := (State.portsDown_power _ _).trans s.hostReset_power
  rw [State.railsOff, if_neg h]
  generalize s.hostReset.portsDown 18 = u at hports hpower
  refine List.foldlRecOn (motive := fun x : State => s.RailsLost x) (List.range 8) _ ⟨?_, hports.fatal.trans hfatal, ?_, hports.queues.trans hqueues⟩
    (fun x hx q _ => ⟨hx.power, hx.fatal, hx.cmds, hx.queues⟩)
  · exact State.supplyLost_power (s := s) (u := u.memoryLost.unitsOff.streamsLost) hpower
  · exact (congrArg ExecGroup.cmds hports.exec).trans hcmds

/-- What the rails' loss leaves of the power group, whether they were on or not. -/
structure PowerGroup.RailsGone (p r : PowerGroup) : Prop where
  rails : r.rails = 0
  ostler : r.ostler = p.ostler
  standby : r.standby = p.standby
  mrst : r.mrst = p.mrst
  refclk : r.refclk = p.refclk

theorem State.railsOff_spec (s : State) : s.power.RailsGone s.railsOff.power ∧ s.railsOff.regs.fatal = s.regs.fatal := by
  by_cases h : s.power.rails = 0
  · rw [State.railsOff_off h]
    exact ⟨⟨h, rfl, rfl, rfl, rfl⟩, rfl⟩
  · have hlost := State.railsLost_railsOff h
    rw [hlost.power]
    exact ⟨⟨rfl, rfl, rfl, rfl, rfl⟩, hlost.fatal⟩

/-! ## Trips and lockstep mismatches (R453, R474) -/

theorem exec_trip (cause : Nat) (s : State) : exec (.trip cause) s = .next (s.trip cause) := rfl
theorem exec_lockstepMismatch (s : State) : exec .lockstepMismatch s = .next s.lockstep := rfl

/-- A device-fatal fault sets FATAL and is kept with what clears it (R493). -/
theorem State.fatalFault_spec (s : State) (e : EventRec) (clear : Nat) :
    (s.fatalFault e clear).regs.fatal = true ∧ (s.fatalFault e clear).power = { s.power with fatals := s.power.fatals ++ [(e.code, e.param, clear)] } ∧
      (s.fatalFault e clear).exec = s.exec ∧ (s.fatalFault e clear).queues = s.queues := by
  unfold State.fatalFault
  dsimp only
  split
  · next h =>
    refine ⟨?_, (State.reportsOnly_logEvent _ _ _).power, (State.reportsOnly_logEvent _ _ _).exec, (State.reportsOnly_logEvent _ _ _).queues⟩
    rw [State.logEvent_regs]
    exact h
  · exact ⟨State.event_fatal _ _, (State.reportsOnly_event _ _).power, (State.reportsOnly_event _ _).exec, (State.reportsOnly_event _ _).queues⟩

/-- Settles O17: the trip through the fault and the rails' loss, the mismatch by its latch. -/
theorem tripsAndMismatchesAreFatal : Obligations.TripsAndMismatchesAreFatal := by
  unfold Obligations.TripsAndMismatchesAreFatal
  refine ⟨fun s cause hstandby hmrst hnew => ⟨_, exec_trip cause s, ?_⟩, fun s h => ⟨_, exec_lockstepMismatch s, ?_⟩⟩
  · rw [State.trip, if_neg (by rw [hstandby, hmrst, hnew]; decide)]
    obtain ⟨hfatal, hpower, _, _⟩ := s.fatalFault_spec ⟨0x0708, 3, 0, 0, cause⟩ 1
    generalize s.fatalFault ⟨0x0708, 3, 0, 0, cause⟩ 1 = u at hfatal hpower
    obtain ⟨hgone, hkept⟩ := u.railsOff_spec
    refine ⟨hkept.trans hfatal, hgone.rails, fun hrails => ?_⟩
    have hlost := State.railsLost_railsOff (s := u) (by rw [hpower]; exact hrails)
    exact ⟨hlost.cmds, hlost.queues⟩
  · rw [State.lockstep, if_neg (by omega)]
    dsimp only
    split
    · next hfatal => exact ⟨hfatal, rfl, rfl, rfl, rfl, rfl⟩
    · exact ⟨rfl, rfl, rfl, rfl, rfl, rfl⟩

end Sys2Proof.Machine

/-! SUPPORT. Stops of the Ostler and the boot (R452, R455, R531, R537). -/

namespace Sys2Proof.Machine

/-! ## Stops -/

theorem State.logFlush_power (s : State) : s.logFlush.power = s.power := by
  unfold State.logFlush
  dsimp only
  split
  · rfl
  · rw [State.event_power]
    rfl

theorem State.obj_addressLost (s : State) :
    (((s.setObj oHalterPlcaNode 0).setObj oTopoDeviceNumber 0xFF).setObj oHalterControllerAddr 0).obj oHalterPlcaNode = 0 ∧
      (((s.setObj oHalterPlcaNode 0).setObj oTopoDeviceNumber 0xFF).setObj oHalterControllerAddr 0).obj oTopoDeviceNumber = 0xFF := by
  constructor
  · rw [State.obj_setObj_other _ _ (by decide), State.obj_setObj_other _ _ (by decide), State.obj_setObj_self]
  · rw [State.obj_setObj_other _ _ (by decide), State.obj_setObj_self]

/-- What a stop of the Ostler leaves: no address, no transaction, and the rails off. -/
theorem State.ostlerStop_spec (s : State) : s.ostlerStop.power = { s.railsOff.power with ostler := 0, leadIn := false, offer := none } ∧
    s.ostlerStop.obj oHalterPlcaNode = 0 ∧ s.ostlerStop.obj oTopoDeviceNumber = 0xFF ∧ s.ostlerStop.dict.txs = [] := by
  obtain ⟨hnode, hnumber⟩ := s.railsOff.logFlush.obj_addressLost
  refine ⟨?_, hnode, hnumber, rfl⟩
  rw [← s.railsOff.logFlush_power]
  rfl

/-- What a lost clock leaves: the Ostler stopped, the rails off and FATAL. -/
theorem State.clockFault_spec (s : State) : s.clockFault.power.ostler = 0 ∧ s.clockFault.power.rails = 0 ∧ s.clockFault.regs.fatal = true := by
  unfold State.clockFault
  dsimp only
  split
  · next h =>
    obtain ⟨hgone, hfatal⟩ := (s.withPower { s.power with fatals := s.power.fatals ++ [(0x0811, 8, 1)] }).railsOff_spec
    exact ⟨rfl, hgone.rails, hfatal.trans h⟩
  · generalize hu : State.setObj _ oFatalCause 0x0811 = u
    obtain ⟨hgone, hfatal⟩ := u.railsOff_spec
    exact ⟨rfl, hgone.rails, hfatal.trans (by rw [← hu]; rfl)⟩

theorem State.loseAddress_standby (s : State) (cause : Nat) : (s.loseAddress cause).power.standby = s.power.standby := by
  unfold State.loseAddress
  dsimp only
  split
  · rfl
  · rw [State.event_power, State.numbersChanged_power]
    rfl

/-! ## The boot -/

/-- State `u` has the pins and rails that a boot finds, as `s` has them, and its BOOT_EPOCH. -/
structure State.BootKept (s u : State) : Prop where
  standby : u.power.standby = s.power.standby
  mrst : u.power.mrst = s.power.mrst
  refclk : u.power.refclk = s.power.refclk
  epoch : u.obj oBootEpoch = s.obj oBootEpoch

theorem State.BootKept.refl (s : State) : s.BootKept s := ⟨rfl, rfl, rfl, rfl⟩

theorem State.BootKept.trans {s t u : State} (h : s.BootKept t) (k : t.BootKept u) : s.BootKept u :=
  ⟨k.standby.trans h.standby, k.mrst.trans h.mrst, k.refclk.trans h.refclk, k.epoch.trans h.epoch⟩

theorem State.ReportsOnly.bootKept {s u : State} (h : s.ReportsOnly u) : s.BootKept u :=
  ⟨congrArg PowerGroup.standby h.power, congrArg PowerGroup.mrst h.power, congrArg PowerGroup.refclk h.power, h.obj _⟩

theorem State.bootKept_setObj (s : State) {key : Nat} (v : Nat) (hkey : key ≠ oBootEpoch) : s.BootKept (s.setObj key v) :=
  ⟨rfl, rfl, rfl, s.obj_setObj_other v hkey⟩

theorem State.bootKept_foldl {α : Type} {f : State → α → State} {l : List α} (hf : ∀ (s : State), ∀ a ∈ l, s.BootKept (f s a)) (s : State) :
    s.BootKept (l.foldl f s) :=
  List.foldlRecOn (motive := fun u : State => s.BootKept u) l f (.refl s) (fun u hu a ha => hu.trans (hf u a ha))

theorem State.reportsOnly_trySlot (s : State) (fails i : Nat) : s.ReportsOnly (s.trySlot fails i).1 := by
  unfold State.trySlot
  split
  · exact s.reportsOnly_event _
  · split
    · exact s.reportsOnly_event _
    · exact .refl s

theorem State.reportsOnly_pickSlot (s : State) (active : Nat) (pending : Bool) (fails : Nat) : s.ReportsOnly (s.pickSlot active pending fails).1 := by
  unfold State.pickSlot
  extract_lets first a b
  split
  · exact s.reportsOnly_trySlot fails _
  · exact (s.reportsOnly_trySlot fails _).trans (State.reportsOnly_trySlot _ fails _)

theorem State.reportsOnly_bootLatched (s : State) (latched : List (Nat × Nat × Nat)) : s.ReportsOnly (s.bootLatched latched) :=
  State.reportsOnly_foldl (fun x _ => (x.reportsOnly_regs _).trans (State.reportsOnly_logEvent _ _ _)) latched s

theorem State.bootKept_newEpoch (s : State) : s.BootKept s.newEpoch :=
  State.BootKept.trans (t := s.free.2) ⟨rfl, rfl, rfl, rfl⟩ (State.bootKept_setObj _ _ (by decide))

theorem State.bootKept_startGait (s : State) : s.BootKept s.startGait := by
  have hraising : s.BootKept (s.withPower { s.power with raising := none }) := ⟨rfl, rfl, rfl, rfl⟩
  exact (hraising.trans (State.bootKept_setObj _ _ (by decide))).trans (State.bootKept_setObj _ _ (by decide))

theorem State.bootKept_timeRole (s : State) (v : Nat) : s.BootKept (s.timeRole v) := by
  have hrole := s.bootKept_setObj (key := oCarouselTimeRole) v (by decide)
  exact (hrole.trans (State.bootKept_setObj _ _ (by decide))).trans ⟨rfl, rfl, rfl, rfl⟩

theorem State.bootKept_railsOn (s : State) : s.BootKept s.railsOn := by
  obtain ⟨_, _, h⟩ := s.railsOn_form
  rw [h]
  exact ⟨rfl, rfl, rfl, rfl⟩

theorem State.bootKept_bootObjects (s : State) (slot : Nat) : s.BootKept (s.bootObjects slot) := by
  unfold State.bootObjects
  extract_lets f s1 s2 s3
  have h1 : s.BootKept s1 := (s.bootKept_setObj _ (by decide)).trans (State.bootKept_setObj _ _ (by decide))
  have h2 : s1.BootKept s2 :=
    ((s1.bootKept_setObj _ (by decide)).trans (State.bootKept_setObj _ _ (by decide))).trans (State.bootKept_setObj _ _ (by decide))
  have h3 : s2.BootKept s3 :=
    State.bootKept_foldl (fun x p hp => x.bootKept_setObj _ (by have := List.mem_range.mp hp; unfold oLinkState oBootEpoch; omega)) s2
  exact (h1.trans (h2.trans h3)).trans ((s3.bootKept_setObj _ (by decide)).trans (State.bootKept_timeRole _ _))

theorem State.bootKept_ostler (s : State) (n : Nat) : s.BootKept (s.withPower { s.power with ostler := n }) := ⟨rfl, rfl, rfl, rfl⟩

/-- The bundle that boots runs. -/
theorem State.bootFrom_spec (s : State) (slot : Nat) (activated : Bool) : s.BootKept (s.bootFrom slot activated) ∧ (s.bootFrom slot activated).power.ostler = 1 := by
  unfold State.bootFrom
  extract_lets s4 power s5 s6 s7
  have h4 : s.BootKept s4 := ((s.bootKept_bootObjects slot).trans (State.bootKept_newEpoch _)).trans (State.bootKept_startGait _)
  have h6 : s4.BootKept s6 := (s4.bootKept_ostler 1).trans (s5.bootKept_setObj _ (by decide))
  have h7 : s6.ReportsOnly s7 := s6.reportsOnly_eventWhere (activated = true) _
  have hrun : s7.power.ostler = 1 := congrArg PowerGroup.ostler h7.power
  have hkept : s.BootKept s7 := (h4.trans h6).trans h7.bootKept
  split
  · exact ⟨hkept.trans s7.bootKept_railsOn, s7.railsOn_power_ostler.trans hrun⟩
  · exact ⟨hkept, hrun⟩

/-- BOOT_EPOCH outlasts the Ostler: it is the hardware's (R455). -/
theorem State.obj_ostlerDefaults_bootEpoch (s : State) : s.ostlerDefaults.obj oBootEpoch = s.obj oBootEpoch := by
  refine (Store.get_filter (objDefault oBootEpoch) (fun k => objFlash k || hardwareObject k) s.dict.vals oBootEpoch).trans (if_pos ?_)
  exact Bool.or_eq_true_iff.mpr (.inr (by decide))

theorem State.bootClean_spec (s : State) (mv : Nat) (left : List (Nat × Nat × Nat)) :
    (s.bootClean mv left).power.standby = true ∧ (s.bootClean mv left).power.mrst = s.power.mrst ∧ (s.bootClean mv left).power.refclk = s.power.refclk ∧
      (s.bootClean mv left).obj oBootEpoch = (s.obj oBootEpoch + 1) % 2 ^ 32 := by
  refine ⟨rfl, rfl, rfl, ?_⟩
  rw [← s.obj_ostlerDefaults_bootEpoch]
  exact (State.obj_setObj_other _ _ (by decide)).trans ((State.obj_setObj_other _ _ (by decide)).trans (State.obj_setObj_self _ _ _))

/-- With the standby rail in range, REFCLK running and `MRST_n` deasserted the Ostler boots, or enters recovery. -/
theorem State.ostlerBoot_spec {s : State} {mv : Nat} (fails : Nat) (hmrst : s.power.mrst = false) (hstop : s.power.ostler = 0)
    (hrefclk : s.power.refclk = true) (hlo : 40000 ≤ mv) (hhi : mv ≤ 60000) :
    ((s.ostlerBoot fails mv).power.ostler = 1 ∨ (s.ostlerBoot fails mv).power.ostler = 2) ∧ (s.ostlerBoot fails mv).power.standby = true ∧
      (s.ostlerBoot fails mv).power.mrst = false ∧ (s.ostlerBoot fails mv).power.refclk = true ∧
      (s.ostlerBoot fails mv).obj oBootEpoch = (s.obj oBootEpoch + 1) % 2 ^ 32 := by
  unfold State.ostlerBoot
  extract_lets active latched r
  rw [if_neg (by simp [hmrst, hstop, hrefclk]; omega)]
  obtain ⟨hstandby, hmrst', hrefclk', hepoch⟩ := s.bootClean_spec mv (s.power.fatals.filter (s.tripHolds mv))
  have hpick : (s.bootClean mv (s.power.fatals.filter (s.tripHolds mv))).BootKept r.1 :=
    ((State.reportsOnly_bootLatched _ latched).trans (State.reportsOnly_pickSlot _ active _ fails)).bootKept
  cases r.2.1 with
  | none =>
    exact ⟨.inr rfl, hpick.standby.trans hstandby, hpick.mrst.trans (hmrst'.trans hmrst), hpick.refclk.trans (hrefclk'.trans hrefclk),
      (State.obj_setObj_other _ _ (by decide)).trans (hpick.epoch.trans hepoch)⟩
  | some slot =>
    obtain ⟨hkept, hrun⟩ := r.1.bootFrom_spec slot r.2.2
    have hall := hpick.trans hkept
    exact ⟨.inl hrun, hall.standby.trans hstandby, hall.mrst.trans (hmrst'.trans hmrst), hall.refclk.trans (hrefclk'.trans hrefclk),
      hall.epoch.trans hepoch⟩

theorem exec_mrstAssert (s : State) : exec .mrstAssert s = .next s.mrstAssert := rfl
theorem exec_standbyPowerLoss (s : State) : exec .standbyPowerLoss s = .next s.standbyLoss := rfl
theorem exec_refclkLoss (s : State) : exec .refclkLoss s = .next s.refclkLoss := rfl
theorem exec_rootPllLockLoss (s : State) : exec .rootPllLockLoss s = .next s.pllLoss := rfl
theorem exec_ostlerBoot (fails mv : Nat) (s : State) : exec (.ostlerBoot fails mv) s = .next (s.ostlerBoot fails mv) := rfl
theorem exec_mrstDeassert (fails mv : Nat) (s : State) : exec (.mrstDeassert fails mv) s = .next (s.mrstDeassert fails mv) := rfl
theorem exec_refclkRestore (fails mv : Nat) (s : State) : exec (.refclkRestore fails mv) s = .next (s.refclkRestore fails mv) := rfl

/-- The address given up before `MRST_n` stops the Ostler leaves the standby rail as it is. -/
theorem State.standby_addressGivenUp (s : State) : (if s.ostlerUp then s.loseAddress 1 else s).power.standby = s.power.standby := by
  split
  · exact s.loseAddress_standby 1
  · rfl

/-- Settles O15: the stops through `ostlerStop` and `clockFault`, the boots through `ostlerBoot`. -/
theorem theOstlerStopsAndBoots : Obligations.TheOstlerStopsAndBoots := by
  unfold Obligations.TheOstlerStopsAndBoots
  refine ⟨fun s hmrst => ⟨_, exec_mrstAssert s, ?_⟩, fun s hstandby => ⟨_, exec_standbyPowerLoss s, ?_⟩,
    fun s hrefclk hstandby => ⟨_, exec_refclkLoss s, ?_⟩, fun s hpll => ⟨_, exec_rootPllLockLoss s, ?_⟩,
    fun s fails mv hmrst hstop hrefclk hlo hhi => ⟨_, exec_ostlerBoot fails mv s, ?_⟩,
    fun s fails mv hmrst hstop hrefclk hlo hhi => ⟨_, exec_mrstDeassert fails mv s, ?_⟩,
    fun s fails mv hrefclk hmrst hlo hhi => ⟨_, exec_refclkRestore fails mv s, ?_⟩⟩
  · rw [State.mrstAssert, if_neg (by simp [hmrst])]
    have hstandby := s.standby_addressGivenUp
    generalize (if s.ostlerUp then s.loseAddress 1 else s) = s1 at hstandby ⊢
    obtain ⟨hpower, hnode, hnumber, htxs⟩ := s1.ostlerStop_spec
    have hgone := s1.railsOff_spec.1
    refine ⟨rfl, (congrArg PowerGroup.ostler hpower :), (congrArg PowerGroup.rails hpower).trans hgone.rails, hnode, hnumber, htxs, ?_⟩
    exact ((congrArg PowerGroup.standby hpower).trans hgone.standby).trans hstandby
  · rw [State.standbyLoss, if_neg (by simp [hstandby])]
    obtain ⟨hpower, hnode, _, htxs⟩ := s.ostlerStop_spec
    exact ⟨rfl, rfl, (congrArg PowerGroup.ostler hpower :), (congrArg PowerGroup.rails hpower).trans s.railsOff_spec.1.rails, hnode, htxs⟩
  · rw [State.refclkLoss, if_neg (by simp [hrefclk, hstandby])]
    exact ⟨rfl, s.clockFault_spec⟩
  · rw [State.pllLoss, if_neg (by simp [hpll])]
    exact ⟨rfl, s.clockFault_spec⟩
  · obtain ⟨hrun, hstandby, _, _, hepoch⟩ := State.ostlerBoot_spec fails hmrst hstop hrefclk hlo hhi
    exact ⟨hrun, hstandby, hepoch⟩
  · rw [State.mrstDeassert, if_pos hmrst]
    obtain ⟨hrun, _, hdeasserted, _⟩ := State.ostlerBoot_spec (s := s.withPower { s.power with mrst := false }) fails rfl hstop hrefclk hlo hhi
    exact ⟨hdeasserted, hrun⟩
  · rw [State.refclkRestore, if_neg (by simp [hrefclk])]
    obtain ⟨hpower, _⟩ := s.ostlerStop_spec
    have hdeasserted : s.ostlerStop.power.mrst = false := (congrArg PowerGroup.mrst hpower).trans (s.railsOff_spec.1.mrst.trans hmrst)
    obtain ⟨hrun, _, _, hruns, _⟩ := State.ostlerBoot_spec (s := s.ostlerStop.withPower { s.ostlerStop.power with refclk := true }) fails
      hdeasserted (congrArg PowerGroup.ostler hpower) rfl hlo hhi
    exact ⟨hruns, hrun⟩

end Sys2Proof.Machine

/-! SUPPORT. The link ports and SREFCLK, the steps of the power-up, and `PERST_n` (R531, R532, R536). -/

namespace Sys2Proof.Machine

/-! ## Link ports that change one after another -/

theorem State.linkState_setLink_other (s : State) {p r : Nat} (st : Nat) (hr : r < 18) (h : r ≠ p) : (s.setLink p st).linkState r = s.linkState r := by
  unfold State.setLink State.traceLink State.linkState
  rw [State.obj_trace _ _ _ _ _ (oLinkState_lt hr), State.obj_setObj_other _ _ (by unfold oLinkState; omega)]

theorem State.linkState_event (s : State) (e : EventRec) (r : Nat) : (s.event e).linkState r = s.linkState r := (s.reportsOnly_event e).obj _

/-- Where one step sets a port's state from the state it had and leaves the other ports, the steps of all set all. -/
theorem State.linkState_foldl_range {f : State → Nat → State} {g : Nat → Nat} (hself : ∀ (s : State) p, p < 18 → (f s p).linkState p = g (s.linkState p))
    (hother : ∀ (s : State) p r, r < 18 → r ≠ p → (f s p).linkState r = s.linkState r) (s : State) {n r : Nat} (hn : n ≤ 18) (hr : r < 18) :
    ((List.range n).foldl f s).linkState r = if r < n then g (s.linkState r) else s.linkState r := by
  induction n with
  | zero => rw [if_neg (Nat.not_lt_zero r)]; rfl
  | succ n ih =>
    rw [List.range_succ, List.foldl_append, List.foldl_cons, List.foldl_nil]
    rcases Nat.lt_trichotomy r n with h | h | h
    · rw [hother _ _ _ hr (by omega), ih (by omega), if_pos h, if_pos (by omega)]
    · subst h
      rw [hself _ _ hr, ih (by omega), if_neg (Nat.lt_irrefl r), if_pos (by omega)]
    · rw [hother _ _ _ hr (by omega), ih (by omega), if_neg (by omega), if_neg (by omega)]

/-! ## SREFCLK (R531) -/

theorem State.linkState_portDown_self (s acc : State) {p : Nat} (hp : p < 18) : (s.portDown acc p).linkState p = min (acc.linkState p) 1 := by
  unfold State.portDown
  split
  · next h =>
    rw [State.linkState_setPort]
    omega
  · next h =>
    rw [State.linkState_setPort, min_eq_right (by omega)]
    split
    · rw [State.linkState_event, acc.linkState_setLink_self 1 hp]
    · exact acc.linkState_setLink_self 1 hp

theorem State.linkState_portDown_other (s acc : State) (p r : Nat) (hr : r < 18) (h : r ≠ p) : (s.portDown acc p).linkState r = acc.linkState r := by
  unfold State.portDown
  split
  · rfl
  · rw [State.linkState_setPort]
    split
    · rw [State.linkState_event, acc.linkState_setLink_other 1 hr h]
    · exact acc.linkState_setLink_other 1 hr h

/-- Every port that was not DISABLED is DOWN. -/
theorem State.linkState_portsDown (s : State) {p : Nat} (hp : p < 18) : (s.portsDown 18).linkState p = min (s.linkState p) 1 := by
  rw [State.portsDown_eq, (State.linksOnly_foldl (fun acc r => acc.linksOnly_mapChanged r false) _ _).linkState hp,
    State.linkState_foldl_range (g := fun st => min st 1) (fun acc _ => s.linkState_portDown_self acc) s.linkState_portDown_other s (Nat.le_refl 18) hp, if_pos hp]

/-- One port that is not DISABLED begins to train. -/
def State.trainPort (s : State) (p : Nat) : State := if s.linkState p = 0 then s else (s.setPort p Port.idle).setLink p 2

theorem State.trainPorts_eq (s : State) : s.trainPorts = (List.range 18).foldl State.trainPort s := rfl

theorem State.linkState_trainPort_self (s : State) (p : Nat) (hp : p < 18) : (s.trainPort p).linkState p = if s.linkState p = 0 then 0 else 2 := by
  unfold State.trainPort
  split
  · next h => exact h
  · exact State.linkState_setLink_self _ 2 hp

theorem State.linkState_trainPort_other (s : State) (p r : Nat) (hr : r < 18) (h : r ≠ p) : (s.trainPort p).linkState r = s.linkState r := by
  unfold State.trainPort
  split
  · rfl
  · rw [State.linkState_setLink_other _ 2 hr h, State.linkState_setPort]

theorem State.trainPort_power (s : State) (p : Nat) : (s.trainPort p).power = s.power := by
  unfold State.trainPort
  split
  · rfl
  · rw [State.setLink_power, State.setPort_power]

theorem State.trainPorts_power (s : State) : s.trainPorts.power = s.power := State.power_foldl State.trainPort_power _ s

theorem exec_srefclkLoss (s : State) : exec .srefclkLoss s = .next s.srefclkLoss := rfl
theorem exec_srefclkRestore (s : State) : exec .srefclkRestore s = .next s.srefclkRestore := rfl

/-- Settles O16: every port goes DOWN, and each that is enabled trains again. -/
theorem linkPortsNeedSrefclk : Obligations.LinkPortsNeedSrefclk := by
  unfold Obligations.LinkPortsNeedSrefclk
  refine ⟨fun s h => ⟨_, exec_srefclkLoss s, ?_⟩, fun s h hready => ⟨_, exec_srefclkRestore s, ?_⟩, fun s h hready => ?_⟩
  · rw [State.srefclkLoss, if_neg (by simp [h])]
    refine ⟨by rw [State.portsDown_power]; rfl, fun p hp => ?_⟩
    rw [State.linkState_portsDown _ hp]
    exact min_le_right _ _
  · rw [State.srefclkRestore, if_neg (by simp [h])]
    dsimp only
    rw [if_pos hready]
    refine ⟨by rw [State.trainPorts_power]; rfl, fun p hp => ?_⟩
    rw [State.trainPorts_eq, State.linkState_foldl_range (g := fun st => if st = 0 then 0 else 2) State.linkState_trainPort_self
      State.linkState_trainPort_other _ (Nat.le_refl 18) hp, if_pos hp]
    rfl
  · rw [exec_srefclkRestore, State.srefclkRestore, if_neg (by simp [h])]
    dsimp only
    rw [if_neg (by rw [hready]; decide)]

/-! ## The power-up (R532) -/

theorem exec_mainRailsGood (s : State) : exec .mainRailsGood s = .next s.railsGood := rfl
theorem exec_rootPllLock (s : State) : exec .rootPllLock s = .next s.pllLock := rfl
theorem exec_hbmTrainingComplete (s : State) : exec .hbmTrainingComplete s = .next s.hbmTrained := rfl
theorem exec_pcieLinkUp (s : State) : exec .pcieLinkUp s = .next s.pcieLinkUp := rfl

theorem State.obj_startGait (s : State) : s.startGait.obj oGaitCurrent = s.selected :=
  (State.obj_setObj_other (k := oCoreClockKhz) (j := oGaitCurrent) _ _ (by decide)).trans (State.obj_setObj_self _ _ _)

/-- A new epoch is non-zero and not the last one (R488). -/
theorem State.newEpoch_fresh (s : State) : s.newEpoch.obj oDeviceEpoch ≠ 0 ∧ s.newEpoch.obj oDeviceEpoch ≠ s.obj oDeviceEpoch := by
  unfold State.newEpoch
  dsimp only
  rw [State.obj_setObj_self]
  split <;> omega

/-- Settles O13: each step by what it sets. -/
theorem powerUpTakesItsSteps : Obligations.PowerUpTakesItsSteps := by
  unfold Obligations.PowerUpTakesItsSteps
  refine ⟨fun s hrails => ⟨_, exec_mainRailsGood s, ?_⟩, fun s hrails hpll => ⟨_, exec_rootPllLock s, ?_⟩,
    fun s hrails hpll hready hsrefclk hperst hpcie => ?_, fun s h => ?_⟩
  · rw [State.railsGood, if_neg (by simp [hrails])]
    generalize hs1 : (s.withPower { s.power with rails := 2 }).startGait = s1
    have hraised := s1.railsOnly_raiseRails (s1.obj oGaitCurrent)
    obtain ⟨_, hpower⟩ := hraised.power
    have hgait : s1.obj oGaitCurrent = s.selected := hs1 ▸ State.obj_startGait _
    refine ⟨by rw [hpower, ← hs1]; rfl, (hraised.obj _ (by unfold voltageObject; decide)).trans hgait, ?_, ?_, ?_, ?_⟩
    · exact hraised.mem.trans (hs1 ▸ rfl)
    · exact hraised.queues.trans (hs1 ▸ rfl)
    · exact hraised.regs.trans (hs1 ▸ rfl)
    · exact hraised.exec.trans (hs1 ▸ rfl)
  · rw [State.pllLock, if_neg (by simp [hrails, hpll])]
    obtain ⟨hnonzero, hnew⟩ := (s.setObj oRootPllState 1).newEpoch_fresh
    refine ⟨?_, hnonzero, ?_, rfl, rfl, rfl⟩
    · exact (State.obj_setObj_other (k := oDeviceEpoch) (j := oRootPllState) _ _ (by decide)).trans (State.obj_setObj_self _ _ _)
    · rwa [State.obj_setObj_other _ _ (by decide)] at hnew
  · rw [exec_hbmTrainingComplete, State.hbmTrained, if_neg (by simp [hrails, hpll, hready])]
    dsimp only
    rw [if_neg (by rw [hsrefclk]; decide)]
    rw [State.pcieDetect, if_pos (by simp [State.withPower, hperst, hpcie])]
    rfl
  · rw [exec_pcieLinkUp, State.pcieLinkUp, if_pos h]
    rfl

/-! ## `PERST_n` (R536) -/

theorem exec_perstAssert (s : State) : exec .perstAssert s = .next s.perstAssert.staticCheck := rfl
theorem exec_perstScrubComplete (s : State) : exec .perstScrubComplete s = .next s.perstScrubbed := rfl
theorem exec_perstDeassert (s : State) : exec .perstDeassert s = .next s.perstDeassert := rfl

/-- After the host's reset no post and no entry of the Remuda is left, and the function is not ready. -/
theorem State.hostReset_function (s : State) : s.hostReset.fabric.posts = [] ∧ s.hostReset.remuda.entries = [] ∧ s.hostReset.regs.ready = false := by
  unfold State.hostReset
  obtain ⟨_, _, h, _⟩ := State.freeAll_form ((s.noCommands.noPosts.functionRegs.keepObjs (fun k => !hostObject k)).dropTx 0)
  rw [h]
  exact ⟨rfl, rfl, rfl⟩

/-- Clearing the faults that `PERST_n` clears touches the faults kept, the scrubs, FATAL, and objects. -/
theorem State.clearFatals_form (s : State) : ∃ l scrubs b d n,
    s.clearFatals = { s with power := { s.power with fatals := l, scrubs := scrubs }, regs := { s.regs with fatal := b }, dict := d, freeCount := n } := by
  unfold State.clearFatals
  extract_lets left power s1 regs s2
  split
  · exact ⟨_, _, _, _, _, rfl⟩
  · split <;> exact ⟨_, _, _, _, _, rfl⟩

/-- Whether the assertion of `PERST_n` has the frames scrubbed (R536 step 4). -/
def State.scrubsAtPerst (s : State) : Bool := s.obj oPerstScrubPolicy == 1 && s.power.rails == 2

/-- What an assertion of `PERST_n` does before it resets the host's side: the pin's level, the collectives told, the frames scrubbed. -/
def State.beforeReset (s : State) : State :=
  let s0 := s.withPower { s.power with perst := true }
  let s1 := if s.regs.fatal then s0 else s0.fabric.colls.foldl (fun (acc : State) c => acc.abortColl c stAborted 0 true) s0
  if s.scrubsAtPerst then s1.scrubFrames else s1

theorem State.perst_beforeReset (s : State) : s.beforeReset.power.perst = true := by
  have htold : ∀ (l : List Coll) (x : State), (l.foldl (fun (acc : State) c => acc.abortColl c stAborted 0 true) x).power = x.power :=
    State.power_foldl (fun x c => x.abortColl_power c _ _ _)
  unfold State.beforeReset
  dsimp only
  split <;> split
  · rfl
  · exact congrArg PowerGroup.perst (htold _ _)
  · rfl
  · exact congrArg PowerGroup.perst (htold _ _)

theorem State.perstAssert_up {s : State} (h : s.ostlerUp = true) : s.perstAssert =
    (s.beforeReset.hostReset.withPower { s.beforeReset.hostReset.power with pcie := 0, retry := s.scrubsAtPerst || s.power.retry }).clearFatals := by
  unfold State.perstAssert State.beforeReset State.scrubsAtPerst
  dsimp only
  rw [if_neg (by simp [h])]

/-- Settles O14: the assertion through the host's reset, the rest by what each step sets. -/
theorem perstEndsTheHostsSide : Obligations.PerstEndsTheHostsSide := by
  unfold Obligations.PerstEndsTheHostsSide
  refine ⟨fun s hup => ⟨s.perstAssert, exec_perstAssert s, ?_⟩, fun s hdown => ?_, fun s hretry => ?_, fun s hready hpcie => ?_, fun s hready => ?_⟩
  · rw [State.perstAssert_up hup]
    have hperst := s.perst_beforeReset
    generalize s.beforeReset = base at hperst
    obtain ⟨hcmds, hqueues, hallocs, _⟩ := base.hostReset_spec
    obtain ⟨hposts, hentries, hready⟩ := base.hostReset_function
    have hpower := (congrArg PowerGroup.perst base.hostReset_power).trans hperst
    generalize base.hostReset = reset at hcmds hqueues hallocs hposts hentries hready hpower ⊢
    obtain ⟨_, _, _, _, _, hclear⟩ := (reset.withPower { reset.power with pcie := 0, retry := s.scrubsAtPerst || s.power.retry }).clearFatals_form
    rw [hclear]
    exact ⟨hpower, rfl, hcmds, hqueues, hposts, hentries, hready, hallocs⟩
  · rw [exec_perstAssert, State.perstAssert]
    dsimp only
    rw [if_pos (by simp [hdown])]
  · rw [exec_perstScrubComplete, State.perstScrubbed, if_pos hretry]
    simp [State.syncReady, State.pcieUp, State.withPower]
  · rw [exec_perstDeassert, State.perstDeassert, State.pcieDetect, if_pos (by simp [State.withPower, hready, hpcie])]
    rfl
  · rw [exec_perstDeassert, State.perstDeassert, State.pcieDetect, if_neg (by simp [State.withPower, hready])]

end Sys2Proof.Machine

/-! SUPPORT. Trace frames, activity windows, the log in flash, hang analysis, and reading the log (R463, R464, R497, R510 to R514). -/

namespace Sys2Proof.Machine

/-! ## Trace frames, windows and hang analysis -/

theorem exec_traceFrameSend (due : Bool) (s : State) : exec (.traceFrameSend due) s = .next (s.traceFrameSend due) := rfl
theorem exec_utilisationWindow (quarters ports : List Nat) (whole : List Bool) (s : State) :
    exec (.utilisationWindow quarters ports whole) s = .next (s.utilisation quarters ports whole) := rfl
theorem exec_hangStallDetect (f : From) (others : List From) (s : State) : exec (.hangStallDetect f others) s = .next (s.hangDetect f others) := rfl
theorem exec_hangReplyTimeout (id : Nat) (s : State) : exec (.hangReplyTimeout id) s = .next (s.hangTimeout id) := rfl
theorem exec_logFlush (s : State) : exec .logFlush s = .next s.logFlush := rfl

theorem State.ObjectsOnly.dictOnly {p : Nat → Prop} {s u : State} (h : s.ObjectsOnly p u) : u = { s with dict := u.dict } := by
  obtain ⟨_, rfl⟩ := h.eq
  rfl

/-- The objects of the window's shares. -/
theorem oStreetUtilisation_ne (p : Nat) {q : Nat} (hq : q < 8) : oStreetUtilisation p ≠ oQuarterUtilisation q := by
  unfold oStreetUtilisation oQuarterUtilisation
  omega

/-- With nothing lost before, the buffer goes to flash and the count follows (R463, R464). -/
theorem State.logFlush_kept {s : State} (h : s.ostler.logLost = 0) : s.logFlush =
    ({ s with ostler := { s.ostler with log := (s.ostler.log ++ s.ostler.logBuf).drop (s.ostler.log.length + s.ostler.logBuf.length - 4096),
                                        logBuf := [], logLost := 0 } }).setObj oLogCount (min 4096 (s.ostler.log.length + s.ostler.logBuf.length)) := by
  unfold State.logFlush
  dsimp only
  rw [if_pos h, List.length_append]

/-- Settles O44: each row by the branch its guards take. -/
theorem observationRows : Obligations.ObservationRows := by
  unfold Obligations.ObservationRows
  refine ⟨fun s hrails htrace => ?_, fun s h => ?_, fun s howed hroom hon => ?_, fun s quarters ports whole => ⟨_, exec_utilisationWindow quarters ports whole s, ?_⟩,
    fun s hlost hroom => ⟨_, exec_logFlush s, ?_⟩, fun s f others src hhead hostler hwaits hquiet hnew => ?_, fun s id h hfind hwaiting => ?_⟩
  · have hpos := List.length_pos_iff.mpr htrace
    rw [exec_traceFrameSend, State.traceFrameSend]
    dsimp only
    rw [if_neg (by rw [hrails]; omega), if_neg (fun h => Bool.false_ne_true h.1)]
  · exact if_pos (.inl h)
  · unfold State.reportDrops
    rw [if_neg (by simp [howed, hon, hroom])]
    exact ⟨_, rfl⟩
  · have hquarters := s.objectsOnly_setRange (p := fun _ => True) oQuarterUtilisation
      (fun q => if s.outOfService q then 0 else min 1000 (quarters.getD q 0)) 8 (fun _ _ => trivial)
    have hports := State.objectsOnly_setRange (p := fun _ => True) oStreetUtilisation
      (fun p => if s.portUp p && whole.getD p false then min 1000 (ports.getD p 0) else 0) 12 (fun _ _ => trivial)
    refine ⟨fun q hq => ?_, fun p hp => ?_, (hquarters.trans (hports _)).dictOnly⟩
    · unfold State.utilisation
      rw [State.obj_setRange_other _ _ 12 (fun p _ => oStreetUtilisation_ne p hq),
        State.obj_setRange_self _ _ (fun i j h => by unfold oQuarterUtilisation at h; omega) hq]
    · unfold State.utilisation
      rw [State.obj_setRange_self _ _ (fun i j h => by unfold oStreetUtilisation at h; omega) hp]
      simp only [Bool.and_eq_true]
  · rw [State.logFlush_kept hlost, Nat.sub_eq_zero_of_le hroom, List.drop_zero, min_eq_right hroom]
    exact ⟨rfl, State.obj_setObj_self _ _ _, rfl⟩
  · rw [exec_hangStallDetect, State.hangDetect, hhead]
    dsimp only
    rw [if_neg (by rw [hwaits, hquiet, hnew]; simp [hostler])]
    refine ⟨_, ?_, ?_, ?_, rfl⟩
    · rfl
    · rfl
    · rfl
  · rw [exec_hangReplyTimeout, State.hangTimeout, hfind]
    dsimp only
    rw [if_neg (by simpa using hwaiting)]

/-! ## The log (R463) -/

/-- The i-th newest record, where i newer ones follow it. -/
theorem State.logRecord_newest {s : State} {old new : List LogRec} {l : LogRec} (h : s.ostler.log = old ++ l :: new) :
    s.logRecord new.length = ofLe l.bytes := by
  have hnth : s.ostler.log.reverse[new.length]? = some l := by
    rw [h, List.reverse_append, List.reverse_cons, List.append_assoc, ← List.length_reverse, List.getElem?_append_right (Nat.le_refl _), Nat.sub_self]
    rfl
  unfold State.logRecord
  rw [hnth]

/-- What checks 1 to 7 answer to a write of an object that its route may write outside a transaction: its range, then who holds it (Table 16-7). -/
theorem State.writeStatus_listed {s : State} {r key : Nat} {d : ObjDef} (v : Nat) (hrun : s.power.ostler = 1)
    (hdef : objDef? (keyIndex key) (keySub key) = some d) (haccess : accessOk r d (keyIndex key) = true) (hacc : d.acc = 2) (hauth : d.auth = 0) :
    s.writeStatus r false (itemOf key v) =
      if s.rangeOk key v then (if s.heldByOther (routeMaster r) key then tkBusyTx else tkOk) else tkRange := by
  have hserved : s.served (itemOf key v) = some d := (if_neg (fun h => by omega)).trans hdef
  have htype : (itemOf key v).typ = d.typ ∧ (itemOf key v).vlen = d.len := by
    unfold itemOf
    rw [hdef]
    exact ⟨rfl, rfl⟩
  unfold State.writeStatus
  rw [hserved, itemKey_itemOf]
  dsimp only
  rw [if_neg (by rw [show (itemOf key v).index = keyIndex key from rfl, haccess]; decide), if_neg (by omega), if_neg (by omega), if_neg (by omega),
    if_neg (by rw [htype.1, htype.2]; simp)]
  cases h : s.rangeOk key v
  · exact if_pos (by rw [show (itemOf key v).value = v from rfl, h]; rfl)
  · exact if_neg (by rw [show (itemOf key v).value = v from rfl, h]; decide)

/-- The host and the bus write object `d` of the device (R418). -/
theorem accessOk_all {r : Nat} {d : ObjDef} (index : Nat) (hr : r ≤ 1) (hd : bit d.rights 0 = true ∧ bit d.rights 1 = true) : accessOk r d index = true := by
  have hroute : r = 0 ∨ r = 1 := by omega
  unfold accessOk
  rcases hroute with rfl | rfl
  · rw [show routeRight 0 = 0 from rfl, hd.1]
    rfl
  · rw [show routeRight 1 = 1 from rfl, hd.2]
    rfl

/-- A request for a record is in range below LOG_COUNT. -/
theorem State.rangeOk_logReadReq (s : State) (v : Nat) : s.rangeOk oLogReadReq v = decide (v < s.obj oLogCount) :=
  Bool.true_and _

/-- Settles O45: the flush by its form, a read by the answer of its request, one out of range by the check it fails. -/
theorem theLogIsReadNewestFirst : Obligations.TheLogIsReadNewestFirst := by
  unfold Obligations.TheLogIsReadNewestFirst
  refine ⟨fun s hlost => ⟨_, exec_logFlush s, ?_⟩, fun s via r v old new l htake hlog hlen => ⟨_, exec_logReadReq via v s, ?_⟩,
    fun s via r v hreach hr hrun hcount => ?_⟩
  · rw [State.logFlush_kept hlost]
    exact ⟨State.obj_setObj_self _ _ _, by rw [State.setObj_ostler]⟩
  · subst hlen
    have hread := State.viaWrite_logReadReq htake
    exact ⟨by rw [hread.obj, State.logRecord_newest hlog], hread.seq, hread.log⟩
  · have hstatus : s.writeStatus r false (itemOf oLogReadReq v) = tkRange := by
      have hrange : s.rangeOk oLogReadReq v = false := (s.rangeOk_logReadReq v).trans (decide_eq_false (by omega))
      rw [State.writeStatus_listed v hrun (d := ⟨0x6001, 0x00, 0x00, 3, 2, 2, 3, 0, 0, false⟩) (by decide) (accessOk_all _ hr (by decide)) rfl rfl, hrange]
      rfl
    obtain ⟨n, hn⟩ := State.viaWrite_refused (key := oLogReadReq) (by unfold oLogReadReq; omega) hreach (State.writeItem_checked (by rw [hstatus]; decide))
    exact ⟨_, n, exec_logReadReq via v s, by rw [hn, hstatus]; rfl⟩

end Sys2Proof.Machine

/-! SUPPORT. Commands that are dealt again or fail, codec engines that leave service, and device-fatal faults (R492, R493). -/

namespace Sys2Proof.Machine

/-! ## Commands that are dealt again or fail -/

/-- State `u` is `s` but for the begun commands and stables, objects, what is observed, and free values. -/
def State.DealsOnly (s u : State) : Prop := ∃ d o n x, u = { s with dict := d, obs := o, freeCount := n, exec := x }

theorem State.DealsOnly.refl (s : State) : s.DealsOnly s := ⟨_, _, _, _, rfl⟩

theorem State.DealsOnly.trans {s t u : State} (h : s.DealsOnly t) (k : t.DealsOnly u) : s.DealsOnly u := by
  obtain ⟨_, _, _, _, rfl⟩ := h
  obtain ⟨d, o, n, x, rfl⟩ := k
  exact ⟨d, o, n, x, rfl⟩

theorem State.DealsOnly.regs {s u : State} (h : s.DealsOnly u) : u.regs = s.regs := by
  obtain ⟨_, _, _, _, rfl⟩ := h
  rfl

theorem State.DealsOnly.ostler {s u : State} (h : s.DealsOnly u) : u.ostler = s.ostler := by
  obtain ⟨_, _, _, _, rfl⟩ := h
  rfl

theorem State.DealsOnly.codec {s u : State} (h : s.DealsOnly u) : u.codec = s.codec := by
  obtain ⟨_, _, _, _, rfl⟩ := h
  rfl

theorem State.DealsOnly.queues {s u : State} (h : s.DealsOnly u) : u.queues = s.queues := by
  obtain ⟨_, _, _, _, rfl⟩ := h
  rfl

theorem State.chargeDiscard_form (s : State) (c : Cmd) (status detail : Nat) :
    ∃ d o n, s.chargeDiscard c status detail = { s with dict := d, obs := o, freeCount := n } := by
  unfold State.chargeDiscard
  dsimp only
  split
  · exact ⟨_, _, _, rfl⟩
  · split
    · exact ⟨_, _, _, rfl⟩
    · obtain ⟨d, o, h⟩ := s.free.2.chargeEngine_form c.tenant (cmdKey c.bytes) s.free.1
      exact ⟨d, o, _, h⟩

/-- A command that fails is found with its status, and waits for nothing. -/
theorem State.failCmdAs_found {s : State} {id : Nat} {c : Cmd} (h : s.cmd? id = some c) (status detail : Nat) (f : Option AccFault) (wide : Bool) :
    ∃ c', (s.failCmdAs id status detail f wide).cmd? id = some c' ∧ c'.status = status ∧ c'.detail = detail ∧ c'.wait = Wait.none := by
  unfold State.failCmdAs
  rw [h]
  dsimp only
  obtain ⟨_, _, _, hcharged⟩ := s.chargeDiscard_form c status detail
  refine ⟨_, State.cmd?_setCmd (c := c) ?_ (State.cmd?_id h : c.id = id), rfl, rfl, rfl⟩
  rw [hcharged]
  cases wide <;> exact h

theorem State.dealsOnly_failCmdAs (s : State) (id status detail : Nat) (f : Option AccFault) (wide : Bool) :
    s.DealsOnly (s.failCmdAs id status detail f wide) := by
  unfold State.failCmdAs
  split
  · next c _ =>
    obtain ⟨_, _, _, hcharged⟩ := s.chargeDiscard_form c status detail
    dsimp only
    rw [hcharged]
    cases wide <;> exact ⟨_, _, _, _, rfl⟩
  · exact .refl s

theorem State.dealsOnly_dealAgain (s : State) (p : Nat) (c : Cmd) : s.DealsOnly (s.dealAgain p c) := by
  unfold State.dealAgain
  dsimp only
  split
  · exact .refl s
  · split
    · exact s.dealsOnly_failCmdAs _ _ _ _ _
    · exact ⟨_, _, _, _, rfl⟩

theorem State.dealsOnly_dealAll (s : State) (p : Nat) : s.DealsOnly (s.dealAll p) := by
  refine List.foldlRecOn (motive := fun u : State => s.DealsOnly u) s.exec.cmds _ (.refl s) (fun u hu c _ => hu.trans ?_)
  split
  · exact u.dealsOnly_dealAgain p _
  · exact .refl u

/-! ## A codec engine leaves service (R492) -/

theorem exec_codecSelfCheckFail (e : Fin 6) (s : State) : exec (.codecSelfCheckFail e) s = .next (s.selfCheckFail e) := rfl

/-- The state in which engine `e` has left service and event 0x0809 tells of it. -/
def State.engineDown (s : State) (e : Nat) : State :=
  let s1 := { s with codec := { s.codec with down := s.codec.down ++ [e] } }
  let key := if e < 4 then oCodecEncoders else oCodecDecoders
  (s1.setObj key (s1.obj key - 1)).event ⟨0x0809, 1, 0, 0, e⟩

theorem State.selfCheckFail_idle {s : State} {e : Fin 6} (hup : s.codec.down.contains e.val = false)
    (hidle : s.codec.jobs.find? (fun j => j.engine == some e.val) = none) : s.selfCheckFail e = s.engineDown e := by
  unfold State.selfCheckFail
  rw [if_neg (by rw [hup]; simp), hidle]
  rfl

theorem State.selfCheckFail_busy {s : State} {e : Fin 6} {j : CodecJob} (hup : s.codec.down.contains e.val = false)
    (hjob : s.codec.jobs.find? (fun j => j.engine == some e.val) = some j) : s.selfCheckFail e = (s.engineDown e).jobFails j stContained 3 none := by
  unfold State.selfCheckFail
  rw [if_neg (by rw [hup]; simp), hjob]
  rfl

/-- What the engine's leaving changes, but for reports. -/
theorem State.engineDown_spec (s : State) (e : Nat) : (s.engineDown e).codec = { s.codec with down := s.codec.down ++ [e] } ∧
    (s.engineDown e).exec = s.exec ∧ (s.engineDown e).queues = s.queues ∧
    ∀ key, (s.engineDown e).obj key = if (if e < 4 then oCodecEncoders else oCodecDecoders) = key then s.obj key - 1 else s.obj key := by
  unfold State.engineDown
  dsimp only
  generalize (if e < 4 then oCodecEncoders else oCodecDecoders) = k
  have h := State.reportsOnly_event (State.setObj { s with codec := { s.codec with down := s.codec.down ++ [e] } } k (s.obj k - 1)) ⟨0x0809, 1, 0, 0, e⟩
  refine ⟨h.codec, h.exec, h.queues, fun key => (h.obj key).trans ?_⟩
  rw [State.obj_setObj]
  split
  · next hkey => rw [hkey]
  · rfl

/-- Buffers that return without a signal change the pool and its telemetry (R304). -/
theorem State.returnBufs_unsignalled {s : State} {t : Nat} (h : (s.codecPool t).postEn = false) (l : List Nat) :
    ∃ m d, s.returnBufs t l = { s with codec := { s.codec with bufs := m }, dict := d } := by
  obtain ⟨m, hm⟩ := s.foldl_setBuf_form t 0 l
  have hpool : ((l.foldl (fun (acc : State) b => acc.setBuf t b 0) s).syncBufs t).codecPool t = s.codecPool t := by
    unfold State.codecPool State.syncBufs
    rw [hm, State.obj_setObj_other _ _ (by unfold oTenantCodecBufsFree oTenantCodecPoolConfig; omega),
      State.obj_setObj_other _ _ (by unfold oTenantCodecBufsHeld oTenantCodecPoolConfig; omega)]
    rfl
  unfold State.returnBufs
  dsimp only
  rw [if_pos (by rw [hpool, h]; exact .inr rfl), hm]
  exact ⟨m, _, rfl⟩

/-- A frame whose engine left service fails; nothing but its buffers, its job and its command changes. -/
theorem State.jobFails_spec {s : State} {j : CodecJob} {c : Cmd} (hc : s.cmd? j.cmd = some c) (hpost : (s.codecPool j.tenant).postEn = false)
    (status detail : Nat) (f : Option AccFault) : (s.jobFails j status detail f).codec.down = s.codec.down ∧ (s.jobFails j status detail f).queues = s.queues ∧
      ∃ c', (s.jobFails j status detail f).cmd? j.cmd = some c' ∧ c'.status = status ∧ c'.detail = detail ∧ c'.wait = Wait.none := by
  obtain ⟨m, d, hbufs⟩ := State.returnBufs_unsignalled hpost j.bufs
  unfold State.jobFails State.failCmd State.dropJob
  rw [hbufs]
  generalize hs1 : ({ s with codec := { s.codec with bufs := m, jobs := s.codec.jobs.filter (fun x => x.cmd != j.cmd) }, dict := d } : State) = s1
  have hgiven := s1.enginesGiven_assignEngines
  have hdown : s1.assignEngines.codec.down = s.codec.down := by
    obtain ⟨_, _, _, _, h⟩ := hgiven.form
    rw [h, ← hs1]
  have hfound : s1.assignEngines.cmd? j.cmd = some c := (hgiven.cmd? _).trans (by rw [← hs1]; exact hc)
  have hdeals := s1.assignEngines.dealsOnly_failCmdAs j.cmd status detail f (leavesOpen status)
  exact ⟨(congrArg CodecGroup.down hdeals.codec).trans hdown, hdeals.queues.trans (hgiven.queues.trans (by rw [← hs1])),
    State.failCmdAs_found hfound status detail f (leavesOpen status)⟩

/-! ## Device-fatal faults (R493) -/

theorem exec_deviceFatalFault (code source unit : Nat) (s : State) : exec (.deviceFatalFault code source unit) s = .next (s.deviceFatal code source unit) := rfl

/-- The first device-fatal fault is the FATAL_CAUSE. -/
theorem State.obj_fatalFault_first {s : State} (h : s.regs.fatal = false) (e : EventRec) (clear : Nat) : (s.fatalFault e clear).obj oFatalCause = e.code := by
  unfold State.fatalFault
  dsimp only
  rw [if_neg (by simp [h])]
  exact ((State.reportsOnly_event _ _).obj _).trans (State.obj_setObj_self _ _ _)

/-- Settles O41: the engine by whether it held a frame, the faults by `fatalFault`. -/
theorem enginesAndDeviceFail : Obligations.EnginesAndDeviceFail := by
  unfold Obligations.EnginesAndDeviceFail
  refine ⟨fun s e hup hidle => ⟨_, exec_codecSelfCheckFail e s, ?_⟩, fun s e j c hup hjob hc hpost => ?_,
    fun s source hfatal => ⟨_, exec_deviceFatalFault 0x0812 source 0 s, ?_⟩,
    fun s source unit hfatal hlo hhi => ⟨_, exec_deviceFatalFault 0x0811 source unit s, ?_⟩⟩
  · rw [State.selfCheckFail_idle hup hidle]
    obtain ⟨hcodec, hexec, hqueues, hobj⟩ := s.engineDown_spec e
    exact ⟨hcodec, (hobj _).trans (if_pos rfl), hexec, hqueues⟩
  · obtain ⟨hcodec, hexec, hqueues, hobj⟩ := s.engineDown_spec e
    have hpool : ((s.engineDown e).codecPool j.tenant).postEn = false := by
      unfold State.codecPool
      rw [hobj, if_neg (by unfold oTenantCodecPoolConfig oCodecEncoders oCodecDecoders; split <;> omega)]
      exact hpost
    have hfound : (s.engineDown e).cmd? j.cmd = some c := by
      unfold State.cmd?
      rw [hexec]
      exact hc
    obtain ⟨hdown, hqueues', c', hc', hstatus, hdetail, hwait⟩ := State.jobFails_spec hfound hpool stContained 3 none
    refine ⟨_, c', exec_codecSelfCheckFail e s, ?_⟩
    rw [State.selfCheckFail_busy hup hjob]
    exact ⟨hdown.trans (congrArg CodecGroup.down hcodec), hc', hstatus, hdetail, hwait, hqueues'.trans hqueues⟩
  · have hfault : s.deviceFatal 0x0812 source 0 = s.fatalFault ⟨0x0812, 3, 5, source % 8, 0⟩ 1 := rfl
    obtain ⟨hset, hpower, hexec, hqueues⟩ := s.fatalFault_spec ⟨0x0812, 3, 5, source % 8, 0⟩ 1
    rw [hfault]
    exact ⟨hset, State.obj_fatalFault_first hfatal _ _, congrArg PowerGroup.fatals hpower, hexec, hqueues⟩
  · have hfault : s.deviceFatal 0x0811 source unit = s.fatalFault ⟨0x0811, 3, 0, 0, unit⟩ 0 := by
      unfold State.deviceFatal
      dsimp only
      rw [if_neg (by decide), if_neg (by decide), if_pos ⟨rfl, by omega, hhi⟩, if_neg (by omega)]
    obtain ⟨hset, hpower, hexec, hqueues⟩ := s.fatalFault_spec ⟨0x0811, 3, 0, 0, unit⟩ 0
    rw [hfault]
    exact ⟨hset, State.obj_fatalFault_first hfatal _ _, congrArg PowerGroup.fatals hpower, hexec, hqueues⟩

end Sys2Proof.Machine

/-! SUPPORT. The retirement of a stable on request (R487). -/

namespace Sys2Proof.Machine

/-! ## The log's buffer grows -/

/-- The log's buffer of `u` begins with that of `s`. -/
def State.LogGrows (s u : State) : Prop := s.ostler.logBuf <+: u.ostler.logBuf

theorem State.LogGrows.refl (s : State) : s.LogGrows s := List.prefix_refl _

theorem State.LogGrows.trans {s t u : State} (h : s.LogGrows t) (k : t.LogGrows u) : s.LogGrows u := List.IsPrefix.trans h k

theorem State.LogGrows.mem {s u : State} (h : s.LogGrows u) {l : LogRec} (hl : l ∈ s.ostler.logBuf) : l ∈ u.ostler.logBuf := List.IsPrefix.mem hl h

theorem State.logGrows_foldl {α : Type} {f : State → α → State} (hf : ∀ (s : State) a, s.LogGrows (f s a)) (l : List α) (s : State) :
    s.LogGrows (l.foldl f s) :=
  List.foldlRecOn (motive := fun u : State => s.LogGrows u) l f (.refl s) (fun u hu a _ => hu.trans (hf u a))

theorem State.event_ostler (s : State) (e : EventRec) : (s.event e).ostler = (s.eventLogged e).ostler := by
  obtain ⟨u, hu, _, _, hostler⟩ := s.event_fields e
  rw [hostler]
  rcases hu with ⟨_, rfl⟩ | ⟨_, rfl⟩ <;> rfl

theorem State.logGrows_event (s : State) (e : EventRec) : s.LogGrows (s.event e) := by
  unfold State.LogGrows
  rw [s.event_ostler e]
  unfold State.eventLogged State.logEvent
  split
  · exact List.prefix_refl _
  · exact List.prefix_append _ _

theorem State.logGrows_tenantEvent (s : State) (t b : Nat) : s.LogGrows (s.tenantEvent t b) := by
  unfold State.tenantEvent
  dsimp only
  split
  · exact .refl s
  · split <;> exact .refl s

theorem State.logGrows_capacityEvent (s : State) (q : Nat) : s.LogGrows (s.capacityEvent q) :=
  State.logGrows_foldl (fun x t => x.logGrows_tenantEvent t 4) _ s

theorem State.logGrows_schedEvent (s : State) (x : SchedGroup) (e : EventRec) : s.LogGrows (({ s with sched := x } : State).event e) :=
  State.logGrows_event { s with sched := x } e

theorem State.logGrows_staticOne (s : State) (p : Nat) : s.LogGrows (s.staticOne p) := by
  unfold State.staticOne
  dsimp only
  split
  · exact .refl s
  · split
    · exact .refl s
    · split
      · split
        · exact s.logGrows_schedEvent _ _
        · exact .refl s
      · split
        · exact .refl s
        · exact s.logGrows_schedEvent _ _

theorem State.logGrows_staticCheck (s : State) : s.LogGrows s.staticCheck := State.logGrows_foldl State.logGrows_staticOne _ s

/-- With room, an event is in the log's buffer. -/
theorem State.event_logged {s : State} (h : s.ostler.logBuf.length < 256) (e : EventRec) :
    ∃ l ∈ (s.event e).ostler.logBuf, l.seq = s.regs.eventSeq ∧ l.ev = e := by
  obtain ⟨r, hbuf, hseq, hev⟩ := State.eventLogged_room h e
  exact ⟨r, by rw [s.event_ostler e, hbuf]; exact List.mem_append_right _ (List.mem_singleton_self r), hseq, hev⟩

/-! ## Retirement of a stable that is in use, or of a spare -/

/-- The state in which a stable is dark and named among the retired. -/
def State.darkened (s : State) (p : Nat) : State :=
  (s.putStable p ((s.stable p).off 3)).setObj oRetiredStables (setBit (s.obj oRetiredStables) p)

theorem State.stable_darkened_self (s : State) (p : Nat) : (s.darkened p).stable p = (s.stable p).off 3 := by
  rw [State.darkened, State.stable_setObj, State.stable_putStable_self]

theorem State.stable_darkened_other (s : State) {p r : Nat} (hr : r ≠ p) : (s.darkened p).stable r = s.stable r := by
  rw [State.darkened, State.stable_setObj, State.stable_putStable_other _ _ hr.symm]

theorem State.bit_darkened (s : State) (p : Nat) : bit ((s.darkened p).obj oRetiredStables) p = true := by
  rw [State.darkened, State.obj_setObj_self]
  exact bit_setBit_self _ p

/-- The state a retirement reports of: a spare is gone from its quarter, and the commands of a stable in use are dealt again. -/
def State.retiredAt (s : State) (p : Nat) : State :=
  if (s.stable p).service = 1 then (s.darkened p).setObj (oQuarterSpareState (p / 17)) 2
  else (((s.darkened p).vacate (s.stable p).logical).dealAll p).syncActive (p / 17)

/-- The event of a retirement (R484). -/
def State.retiredEvent (s : State) (p cause : Nat) : EventRec :=
  ⟨0x0802, 1, 2, p / 17, retiredParam p ((s.stable p).logical.getD 0xFF) cause ((s.retiredAt p).activeCount (p / 17))⟩

theorem State.retireStable_eq {s : State} {p : Nat} (hp : p < 136) (hv : (s.stable p).service ≠ 3) (cause : Nat) :
    s.retireStable p cause = ((s.retiredAt p).event (s.retiredEvent p cause)).capacityEvent (p / 17) := by
  unfold State.retireStable
  dsimp only
  rw [if_neg (by omega)]
  rfl

theorem State.keepsUnits_retiredAt (s : State) (p : Nat) : (s.darkened p).KeepsUnits (s.retiredAt p) := by
  unfold State.retiredAt
  split
  · exact State.keepsUnits_setObj _ _ (quarterObject_ge _).2
  · exact (State.keepsUnits_vacate _ _).trans ((State.keepsUnits_dealAll _ p).trans (State.keepsUnits_syncActive _ _))

theorem State.dealsOnly_retiredAt (s : State) (p : Nat) : s.DealsOnly (s.retiredAt p) := by
  have hdark : s.DealsOnly (s.darkened p) := ⟨_, _, _, _, rfl⟩
  unfold State.retiredAt
  split
  · exact hdark.trans ⟨_, _, _, _, rfl⟩
  · have hvacant : (s.darkened p).DealsOnly ((s.darkened p).vacate (s.stable p).logical) := by
      cases (s.stable p).logical <;> exact ⟨_, _, _, _, rfl⟩
    exact (hdark.trans hvacant).trans ((State.dealsOnly_dealAll _ p).trans ⟨_, _, _, _, rfl⟩)

theorem State.keepsUnits_retireStable {s : State} {p : Nat} (hp : p < 136) (hv : (s.stable p).service ≠ 3) (cause : Nat) :
    (s.darkened p).KeepsUnits (s.retireStable p cause) := by
  rw [State.retireStable_eq hp hv]
  exact (s.keepsUnits_retiredAt p).trans (State.reportsOnly_event_capacityEvent _ _ _).keepsUnits

theorem State.keepsUnits_staticCheck (s : State) : s.KeepsUnits s.staticCheck :=
  ⟨State.queues_of_quiet s.quiet_staticCheck, fun p => by rw [State.stable_of_exec (State.exec_of_quiet s.quiet_staticCheck)],
    fun key _ => State.obj_of_quiet s.quiet_staticCheck key⟩

/-- The event of a retirement is in the log's buffer, where that has room. -/
theorem State.retireStable_logged {s : State} {p : Nat} (hp : p < 136) (hv : (s.stable p).service ≠ 3) (hroom : s.ostler.logBuf.length < 256)
    (cause : Nat) : ∃ l ∈ (s.retireStable p cause).ostler.logBuf, l.seq = s.regs.eventSeq ∧ l.ev = s.retiredEvent p cause := by
  have hdeals := s.dealsOnly_retiredAt p
  rw [State.retireStable_eq hp hv]
  obtain ⟨l, hl, hseq, hev⟩ := State.event_logged (s := s.retiredAt p) (by rw [hdeals.ostler]; exact hroom) (s.retiredEvent p cause)
  exact ⟨l, (State.logGrows_capacityEvent _ _).mem hl, hseq.trans (by rw [hdeals.regs]), hev⟩

/-- A spare that retires has no command to deal again. -/
theorem State.retireStable_spareOnly {s : State} {p : Nat} (hp : p < 136) (hv : (s.stable p).service = 1) (cause : Nat) :
    (s.retireStable p cause).obj (oQuarterSpareState (p / 17)) = 2 ∧ (s.retireStable p cause).exec.cmds = s.exec.cmds := by
  have h := State.retireStable_spare hp hv cause
  exact ⟨(h.obj _).trans (State.obj_setObj_self _ _ _), (congrArg ExecGroup.cmds h.exec :)⟩

theorem bits_retiredParam {p : Nat} (hp : p < 136) (logical active : Nat) {cause : Nat} (hcause : cause < 16) :
    bits (retiredParam p logical cause active) 0 8 = p ∧ bits (retiredParam p logical cause active) 16 4 = cause := by
  unfold bits retiredParam
  rw [Nat.shiftRight_eq_div_pow, Nat.shiftRight_eq_div_pow]
  omega

/-! ## The request (R487) -/

theorem exec_stableRetireRequest (via : Via) (v : Nat) (s : State) :
    exec (.stableRetireRequest via v) s = .next (s.viaWrite via oStableRetireRequest v) := rfl

theorem State.rangeOk_stableRetireRequest (s : State) (v : Nat) : s.rangeOk oStableRetireRequest v = decide (v ≤ 135) := Bool.true_and _

theorem State.ruleOk_stableRetireRequest (s : State) (r v : Nat) :
    s.ruleOk s r false oStableRetireRequest v = !bit (s.obj oRetiredStables) v := rfl

/-- A write that passes checks 1 to 7 is in range. -/
theorem State.rangeOk_of_writeStatus {s : State} {r key v : Nat} (h : s.writeStatus r false (itemOf key v) = tkOk) : s.rangeOk key v = true := by
  by_contra hrange
  obtain ⟨d, hd⟩ := State.served_of_writeStatus h
  unfold State.writeStatus at h
  rw [hd, itemKey_itemOf] at h
  dsimp only at h
  rw [show (itemOf key v).value = v from rfl, Bool.eq_false_iff.mpr hrange] at h
  have hlast : ∀ (st : Nat), (if (!false) = true then tkRange else st) = tkRange := fun _ => if_pos rfl
  rw [hlast] at h
  repeat' split at h
  all_goals cases h

/-- What a retire request does, once its write is counted. -/
theorem State.applyWriteTo_retire (s : State) (r v : Nat) : s.applyWriteTo r oStableRetireRequest v State.applyRecord =
    ((s.counted oStableRetireRequest).retireRequest v).staticCheck := rfl

theorem State.loseWork_form (s : State) (p : Nat) : ∃ d n, s.loseWork p = { s with dict := d, freeCount := n } := by
  unfold State.loseWork
  split <;> exact ⟨_, _, rfl⟩

/-- A retire request that is taken retires its stable: the state of the units, the event, and what a spare leaves. -/
theorem State.retireRequest_spec {s : State} {p : Nat} (hp : p < 136) (hv : (s.stable p).service ≠ 3) :
    (s.darkened p).KeepsUnits (s.retireRequest p) ∧
      (s.ostler.logBuf.length < 256 →
        ∃ l ∈ (s.retireRequest p).ostler.logBuf, l.seq = s.regs.eventSeq ∧ l.ev = (s.loseWork p).retiredEvent p 4) ∧
      ((s.stable p).service = 1 → (s.retireRequest p).obj (oQuarterSpareState (p / 17)) = 2 ∧ (s.retireRequest p).exec.cmds = s.exec.cmds) := by
  have hlost := s.keepsUnits_loseWork p
  obtain ⟨_, _, hform⟩ := s.loseWork_form p
  have hexec : (s.loseWork p).exec = s.exec := by rw [hform]
  have hservice : ((s.loseWork p).stable p).service ≠ 3 := by rwa [State.stable_of_exec hexec]
  have hdark : (s.darkened p).KeepsUnits ((s.loseWork p).darkened p) := by
    refine ⟨by rw [hform]; rfl, fun r => ?_, fun key hkey => ?_⟩
    · rw [State.stable_of_exec (u := (s.loseWork p).darkened p) (s := s.darkened p)]
      unfold State.darkened
      rw [hform]
      rfl
    · unfold State.darkened
      rw [State.obj_setObj, State.obj_setObj, hlost.obj oRetiredStables (by decide)]
      split
      · rfl
      · exact hlost.obj key hkey
  refine ⟨hdark.trans (State.keepsUnits_retireStable hp hservice 4), fun hroom => ?_, fun hspare => ?_⟩
  · obtain ⟨l, hl, hseq, hev⟩ := State.retireStable_logged (s := s.loseWork p) hp hservice (by rw [hform]; exact hroom) 4
    exact ⟨l, hl, hseq.trans (by rw [hform]), hev⟩
  · obtain ⟨hobj, hcmds⟩ := State.retireStable_spareOnly (s := s.loseWork p) hp (by rwa [State.stable_of_exec hexec]) 4
    exact ⟨hobj, hcmds.trans (by rw [hexec])⟩

/-- Settles O31: the retirement through the state it reports of, the refusals by the checks that fail. -/
theorem retireRequestsAreTaken : Obligations.RetireRequestsAreTaken := by
  unfold Obligations.RetireRequestsAreTaken
  have hkey : oStableRetireRequest < 2 ^ 24 := by unfold oStableRetireRequest; omega
  have hlisted := fun (s : State) (r v : Nat) (hr : r ≤ 1) (hrun : s.power.ostler = 1) =>
    State.writeStatus_listed (key := oStableRetireRequest) (d := ⟨0x3501, 0x00, 0x00, 2, 1, 2, 3, 0, 0, false⟩) v hrun (by decide)
      (accessOk_all _ hr (by decide)) rfl rfl
  refine ⟨fun s via r v htake hv hroom => ⟨_, exec_stableRetireRequest via v s, ?_⟩, fun s via r v hreach hr hrun hbig => ?_,
    fun s via r v hreach hr hrun hsmall hretired htxs => ?_⟩
  · have hp : v < 136 := by
      have h := State.rangeOk_of_writeStatus htake.2.1
      rw [State.rangeOk_stableRetireRequest, decide_eq_true_eq] at h
      omega
    obtain ⟨hunits, hlogged, hspare⟩ := State.retireRequest_spec (s := s.counted oStableRetireRequest) hp hv
    obtain ⟨l, hl, hseq, hev⟩ := hlogged hroom
    rw [State.viaWrite_takes htake, State.applyWriteTo_retire]
    generalize (s.counted oStableRetireRequest).retireRequest v = u at hunits hl hspare
    have hchecked : ((s.counted oStableRetireRequest).darkened v).KeepsUnits u.staticCheck := hunits.trans u.keepsUnits_staticCheck
    obtain ⟨hparam, hcause⟩ := bits_retiredParam hp ((((s.counted oStableRetireRequest).loseWork v).stable v).logical.getD 0xFF)
      ((((s.counted oStableRetireRequest).loseWork v).retiredAt v).activeCount (v / 17)) (cause := 4) (by decide)
    have hmem := u.logGrows_staticCheck.mem hl
    have hobj := State.obj_of_quiet u.quiet_staticCheck
    have hexec := State.exec_of_quiet u.quiet_staticCheck
    generalize u.staticCheck = w at hchecked hmem hobj hexec
    refine ⟨?_, ?_, fun p hne => ?_, ?_, ⟨l, hmem, hseq, ?_, ?_, ?_⟩, fun h => ?_, hchecked.queues⟩
    · exact (hchecked.service v).trans (by rw [State.stable_darkened_self]; rfl)
    · exact (hchecked.logical v).trans (by rw [State.stable_darkened_self]; rfl)
    · exact (hchecked.stable p).trans (by rw [State.stable_darkened_other _ hne]; rfl)
    · exact (congrArg (fun x => bit x v) (hchecked.obj oRetiredStables (by decide))).trans (State.bit_darkened _ v)
    · rw [hev]; rfl
    · rw [hev]; exact hparam
    · rw [hev]; exact hcause
    · obtain ⟨hgone, hcmds⟩ := hspare h
      exact ⟨(hobj _).trans hgone, (congrArg ExecGroup.cmds hexec).trans hcmds⟩
  · have hstatus : s.writeStatus r false (itemOf oStableRetireRequest v) = tkRange := by
      rw [hlisted s r v hr hrun, State.rangeOk_stableRetireRequest, decide_eq_false (by omega)]
      rfl
    obtain ⟨n, hn⟩ := State.viaWrite_refused hkey hreach (State.writeItem_checked (by rw [hstatus]; decide))
    exact ⟨_, n, exec_stableRetireRequest via v s, by rw [hn, hstatus]; rfl⟩
  · have hstatus : s.writeStatus r false (itemOf oStableRetireRequest v) = tkOk := by
      rw [hlisted s r v hr hrun, State.rangeOk_stableRetireRequest, decide_eq_true hsmall, if_pos rfl, if_neg]
      unfold State.heldByOther
      rw [htxs]
      exact Bool.false_ne_true
    obtain ⟨n, hn⟩ := State.viaWrite_refused hkey hreach (State.writeItem_rejected hstatus (by rw [State.ruleOk_stableRetireRequest, hretired]; rfl))
    exact ⟨_, n, exec_stableRetireRequest via v s, by rw [hn]; rfl⟩

end Sys2Proof.Machine

/-! SUPPORT. Staging sessions (R459). -/

namespace Sys2Proof.Machine

/-! ## What a write that is taken leaves of the session and the slots -/

theorem State.AnsweredFrom.session {u t : State} (h : u.AnsweredFrom t) : t.ostler.session = u.ostler.session :=
  h.elim fun _ ha => (congrArg (fun q => q.ostler.session) ha :)

theorem State.AnsweredFrom.slots {u t : State} (h : u.AnsweredFrom t) : t.ostler.slots = u.ostler.slots :=
  h.elim fun _ ha => (congrArg (fun q => q.ostler.slots) ha :)

theorem State.AnsweredFrom.slotAt {u t : State} (h : u.AnsweredFrom t) (i : Nat) : t.slotAt i = u.slotAt i := by
  unfold State.slotAt
  rw [h.slots]

/-! ## The state of the session and its slot -/

theorem State.obj_setStage (s : State) (v : Nat) : (s.setStage v).obj oFwStageState = v := by
  unfold State.setStage
  dsimp only
  rw [State.obj_setObj_other _ _ (by decide), State.obj_setObj_other _ _ (by decide), State.obj_setObj_self]

theorem State.setStage_ostler (s : State) (v : Nat) : (s.setStage v).ostler = s.ostler := rfl
theorem State.setStage_exec (s : State) (v : Nat) : (s.setStage v).exec = s.exec := rfl

theorem State.inactiveSlot_lt {s : State} (h : s.ostler.slots.length = 2) : s.inactiveSlot < s.ostler.slots.length := by
  unfold State.inactiveSlot
  omega

/-- The other slot is the active one. -/
theorem State.activeSlot_ne {s : State} (h : s.obj oFwActiveSlot ≤ 1) : s.inactiveSlot ≠ 1 - s.inactiveSlot := by
  unfold State.inactiveSlot
  omega

theorem getD_set_self (l : List FwSlot) {i : Nat} (h : i < l.length) (f d : FwSlot) : (l.set i f).getD i d = f := by
  rw [List.getD_eq_getElem?_getD, List.getElem?_set_self h]
  rfl

theorem getD_set_other (l : List FwSlot) {i j : Nat} (h : i ≠ j) (f d : FwSlot) : (l.set i f).getD j d = l.getD j d := by
  rw [List.getD_eq_getElem?_getD, List.getElem?_set_ne h, List.getD_eq_getElem?_getD]

/-! ## The steps -/

/-- Begin opens the session of its master in the emptied slot. -/
theorem State.stageBegin_spec (s : State) (m : Nat) : (s.stageBegin m).obj oFwStageState = 1 ∧ (s.stageBegin m).ostler.session = some m ∧
    (s.stageBegin m).ostler.slots = s.ostler.slots.set s.inactiveSlot ⟨false, []⟩ ∧ (s.stageBegin m).exec = s.exec :=
  ⟨State.obj_setStage _ 1, rfl, rfl, rfl⟩

/-- A chunk that is in order and has room is appended to the inactive slot. -/
theorem State.stageChunk_room {s : State} (hstate : s.obj oFwStageState = 1)
    (hroom : (s.slotAt s.inactiveSlot).bytes = [] ∨ (s.slotAt s.inactiveSlot).bytes.length < recLength (s.slotAt s.inactiveSlot).bytes)
    (hlen : (s.slotAt s.inactiveSlot).bytes.length < 67108864) (chunk : List Byte) :
    s.stageChunk chunk =
      { s with ostler := { s.ostler with slots := s.ostler.slots.set s.inactiveSlot ⟨false, (s.slotAt s.inactiveSlot).bytes ++ chunk⟩ } } := by
  have hfull : ¬ ((s.slotAt s.inactiveSlot).bytes.length ≠ 0 ∧ recLength (s.slotAt s.inactiveSlot).bytes ≤ (s.slotAt s.inactiveSlot).bytes.length ∨
      67108864 ≤ (s.slotAt s.inactiveSlot).bytes.length) := by
    rcases hroom with h | h
    · rw [h]
      simp
    · omega
  unfold State.stageChunk
  dsimp only
  rw [if_neg (by simp [hstate]), if_neg hfull]

theorem State.stageChunk_unexpected {s : State} (hstate : s.obj oFwStageState ≠ 1) (chunk : List Byte) : s.stageChunk chunk = s.setStage 5 :=
  if_pos hstate

/-- Verify accepts a bundle that has no cause for refusal. -/
theorem State.stageVerify_bundle {s : State} (hstate : s.obj oFwStageState = 1) (htype : le (s.slotAt s.inactiveSlot).bytes 4 1 ≠ 2)
    (apply : State → List Byte → State) : (s.stageVerify apply).obj oFwStageState =
        (if imageRefusal (s.obj oFwRollbackCounter) (s.slotAt s.inactiveSlot).bytes = none then 2 else 5) ∧ (s.stageVerify apply).exec = s.exec := by
  unfold State.stageVerify
  dsimp only
  rw [if_neg (by simp [hstate]), if_neg htype]
  cases imageRefusal (s.obj oFwRollbackCounter) (s.slotAt s.inactiveSlot).bytes with
  | none => exact ⟨State.obj_setStage _ 2, rfl⟩
  | some _ => exact ⟨State.obj_setStage _ 5, rfl⟩

theorem State.stageActivate_spec (s : State) : s.stageActivate.obj oFwStageState = (if s.obj oFwStageState = 2 then 4 else 5) ∧
    (s.obj oFwStageState = 2 → s.stageActivate.ostler.session = none) ∧ s.stageActivate.ostler.slots = s.ostler.slots ∧ s.stageActivate.exec = s.exec := by
  unfold State.stageActivate
  split
  · exact ⟨State.obj_setStage _ 4, fun _ => rfl, rfl, rfl⟩
  · next h => exact ⟨State.obj_setStage _ 5, fun h2 => absurd h2 h, rfl, rfl⟩

theorem State.stageAbandon_spec (s : State) : s.stageAbandon.obj oFwStageState = 0 ∧ s.stageAbandon.ostler.session = none ∧
    s.stageAbandon.ostler.slots = s.ostler.slots ∧ s.stageAbandon.exec = s.exec :=
  ⟨State.obj_setStage _ 0, rfl, rfl, rfl⟩

theorem exec_fwStageBegin (via : Via) (s : State) : exec (.fwStageBegin via) s = .next (s.viaWrite via oFwStageCommand 1) := rfl
theorem exec_fwStageChunk (via : Via) (v : Nat) (s : State) : exec (.fwStageChunk via v) s = .next (s.viaWrite via oFwStageChunk v) := rfl
theorem exec_fwStageVerify (via : Via) (s : State) : exec (.fwStageVerify via) s = .next (s.viaWrite via oFwStageCommand 2) := rfl
theorem exec_fwStageActivate (via : Via) (s : State) : exec (.fwStageActivate via) s = .next (s.viaWrite via oFwStageCommand 3) := rfl
theorem exec_fwStageAbandon (via : Via) (s : State) : exec (.fwStageAbandon via) s = .next (s.viaWrite via oFwStageCommand 4) := rfl
theorem exec_fwStageTimeout (s : State) : exec .fwStageTimeout s = .next s.stageTimeout := rfl

/-- A staging command that is taken has its effect. -/
theorem State.viaWrite_stageCommand {s : State} {via : Via} {r v : Nat} (h : s.takesWrite via r oFwStageCommand v) :
    ((s.counted oFwStageCommand).stageCommand r v State.applyRecord).AnsweredFrom (s.viaWrite via oFwStageCommand v) := State.viaWrite_effect h

theorem State.viaWrite_stageChunk {s : State} {via : Via} {r v : Nat} (h : s.takesWrite via r oFwStageChunk v) :
    ((s.counted oFwStageChunk).stageChunk (toLe 1024 v)).AnsweredFrom (s.viaWrite via oFwStageChunk v) := State.viaWrite_effect h

/-- Settles O32: each command by its step, which the answer and the reports leave as it is. -/
theorem stagingFollowsItsStates : Obligations.StagingFollowsItsStates := by
  unfold Obligations.StagingFollowsItsStates
  refine ⟨fun s via r htake hactive hslots => ⟨_, exec_fwStageBegin via s, ?_⟩,
    fun s via r v htake hactive hslots hstate hroom hlen => ⟨_, exec_fwStageChunk via v s, ?_⟩,
    fun s via r v htake hstate => ⟨_, exec_fwStageChunk via v s, ?_⟩, fun s via r htake hstate htype => ⟨_, exec_fwStageVerify via s, ?_⟩,
    fun s via r htake => ⟨_, exec_fwStageActivate via s, ?_⟩, fun s via r htake => ⟨_, exec_fwStageAbandon via s, ?_⟩,
    fun s hsession => ⟨_, exec_fwStageTimeout s, ?_⟩⟩
  · have hans := State.viaWrite_stageCommand htake
    obtain ⟨hstate, hsession, hset, hexec⟩ := (s.counted oFwStageCommand).stageBegin_spec r
    have ht := hans.slots.trans hset
    refine ⟨(hans.obj _).trans hstate, hans.session.trans hsession, ?_, ?_, hans.exec.trans hexec⟩
    · rw [State.slotAt, ht]
      exact getD_set_self _ (State.inactiveSlot_lt hslots) _ _
    · rw [State.slotAt, ht]
      exact getD_set_other _ (State.activeSlot_ne hactive) _ _
  · have hans := State.viaWrite_stageChunk htake
    rw [State.stageChunk_room (s := s.counted oFwStageChunk) hstate hroom hlen] at hans
    refine ⟨?_, (hans.obj _).trans hstate, hans.exec⟩
    rw [hans.slotAt]
    exact congrArg FwSlot.bytes (getD_set_self _ (State.inactiveSlot_lt hslots) _ _)
  · have hans := State.viaWrite_stageChunk htake
    rw [State.stageChunk_unexpected (s := s.counted oFwStageChunk) hstate] at hans
    exact ⟨(hans.obj _).trans (State.obj_setStage _ 5), hans.exec⟩
  · have hans := State.viaWrite_stageCommand htake
    obtain ⟨hobj, hexec⟩ := State.stageVerify_bundle (s := s.counted oFwStageCommand) hstate htype State.applyRecord
    exact ⟨(hans.obj _).trans hobj, hans.exec.trans hexec⟩
  · have hans := State.viaWrite_stageCommand htake
    obtain ⟨hobj, hsession, hslots, hexec⟩ := (s.counted oFwStageCommand).stageActivate_spec
    exact ⟨(hans.obj _).trans hobj, fun h => hans.session.trans (hsession h), hans.slots.trans hslots, hans.exec.trans hexec⟩
  · have hans := State.viaWrite_stageCommand htake
    obtain ⟨hobj, hsession, hslots, hexec⟩ := (s.counted oFwStageCommand).stageAbandon_spec
    exact ⟨(hans.obj _).trans hobj, hans.session.trans hsession, hans.slots.trans hslots, hans.exec.trans hexec⟩
  · rw [State.stageTimeout, if_pos hsession]
    obtain ⟨hobj, hnone, hslots, hexec⟩ := s.stageAbandon_spec
    exact ⟨hobj, hnone, hslots, rfl, rfl, hexec⟩

end Sys2Proof.Machine

/-! SUPPORT. What keeps the commands that wait: updates, folds, and what a relation between states says of them. -/

namespace Sys2Proof.Machine

theorem State.pending_foldl {α : Type} {f : State → α → State} (hf : ∀ (s : State) a, (f s a).pending = s.pending) (l : List α) (s : State) :
    (l.foldl f s).pending = s.pending :=
  List.foldlRecOn (motive := fun u : State => u.pending = s.pending) l f rfl (fun u hu a _ => (hf u a).trans hu)

theorem State.pending_foldl_fst {α β : Type} {f : State × β → α → State × β} (hf : ∀ (s : State × β) a, (f s a).1.pending = s.1.pending) (l : List α)
    (s : State × β) : (l.foldl f s).1.pending = s.1.pending :=
  List.foldlRecOn (motive := fun u : State × β => u.1.pending = s.1.pending) l f rfl (fun u hu a _ => (hf u a).trans hu)

theorem State.pending_of_quiet {s u : State} (h : u.quiet = s.quiet) : u.pending = s.pending := (congrArg State.pending h :)

theorem State.TalliesOnly.pending {s u : State} (h : s.TalliesOnly u) : u.pending = s.pending := by
  obtain ⟨_, _, _, rfl⟩ := h
  rfl

theorem State.SendsOnly.pending {s u : State} (h : s.SendsOnly u) : u.pending = s.pending := by
  obtain ⟨_, _, _, _, _, _, rfl⟩ := h.form
  rfl

theorem State.ObjectsOnly.pending {p : Nat → Prop} {s u : State} (h : s.ObjectsOnly p u) : u.pending = s.pending := by
  obtain ⟨_, rfl⟩ := h.eq
  rfl

theorem State.EnginesGiven.pending {s u : State} (h : s.EnginesGiven u) : u.pending = s.pending := by
  obtain ⟨_, _, _, _, rfl⟩ := h.form
  rfl

theorem State.RunStatesOnly.pending {s u : State} (h : s.RunStatesOnly u) : u.pending = s.pending := by
  obtain ⟨_, _, rfl⟩ := h.form
  rfl

theorem State.DealsOnly.pending {s u : State} (h : s.DealsOnly u) : u.pending = s.pending := by
  obtain ⟨_, _, _, _, rfl⟩ := h
  rfl

/-- A computation that succeeds, succeeds in its first step. -/
theorem Except.bind_eq_ok {ε α β : Type} {x : Except ε α} {f : α → Except ε β} {b : β} (h : (x >>= f) = .ok b) : ∃ a, x = .ok a ∧ f a = .ok b := by
  cases x with
  | error e => cases h
  | ok a => exact ⟨a, rfl, h⟩

theorem State.pending_foldlM {α : Type} {f : State → α → Except AccFault State} (hf : ∀ (s : State) a t, f s a = .ok t → t.pending = s.pending)
    (l : List α) {s t : State} (h : l.foldlM f s = .ok t) : t.pending = s.pending := by
  induction l generalizing s with
  | nil =>
    cases h
    rfl
  | cons a rest ih =>
    rw [List.foldlM_cons] at h
    cases hx : f s a with
    | error e => rw [hx] at h; cases h
    | ok x => rw [hx] at h; exact (ih h).trans (hf s a x hx)

/-- What an answer's state keeps, the next state keeps. -/
theorem State.pending_of_next {s t u : State} (h : (.next u : Answer) = .next t) (hu : u.pending = s.pending) : t.pending = s.pending := by
  cases h
  exact hu

theorem State.pending_ite {c : Prop} [Decidable c] {s u v : State} (hu : u.pending = s.pending) (hv : v.pending = s.pending) :
    (if c then u else v).pending = s.pending := by
  split
  · exact hu
  · exact hv

end Sys2Proof.Machine

/-! SUPPORT. The functions of the memory, the objects, the links, the posts and the beginning of a command keep the commands that wait. -/

namespace Sys2Proof.Machine

/-! ## Commands and their runs -/

@[simp] theorem State.sendQueueVector_pending (s : State) (q : Nat) : (s.sendQueueVector q).pending = s.pending := rfl

@[simp] theorem State.tenantEvent_pending (s : State) (t b : Nat) : (s.tenantEvent t b).pending = s.pending :=
  State.pending_of_quiet (s.quiet_tenantEvent t b)

@[simp] theorem State.spurDraw_pending (s : State) (k : Nat) (part : Option Nat) : (s.spurDraw k part).1.pending = s.pending :=
  (s.sendsOnly_spurDraw k part).pending

@[simp] theorem State.logEvent_pending (s : State) (e : EventRec) (seq : Nat) : (s.logEvent e seq).pending = s.pending :=
  State.pending_of_quiet (s.quiet_logEvent e seq)

@[simp] theorem State.event_pending (s : State) (e : EventRec) : (s.event e).pending = s.pending := State.pending_of_quiet (s.quiet_event e)

/-! ## Traces and charges -/

@[simp] theorem State.reportDrops_pending (s : State) : s.reportDrops.pending = s.pending := by
  unfold State.reportDrops
  split <;> simp

@[simp] theorem State.trace_pending (s : State) (typ sub tenant : Nat) (tail : List Byte) : (s.trace typ sub tenant tail).pending = s.pending :=
  (s.talliesOnly_trace typ sub tenant tail).pending

@[simp] theorem State.traceCommand_pending (s : State) (typ : Nat) (src : Src) (c : Ctx) (b : List Byte) (status flags : Nat) :
    (s.traceCommand typ src c b status flags).pending = s.pending := (s.talliesOnly_traceCommand typ src c b status flags).pending

@[simp] theorem State.traceMark_pending (s : State) (src : Src) (c : Ctx) (b : List Byte) : (s.traceMark src c b).pending = s.pending :=
  by simp [State.traceMark]

@[simp] theorem State.tracePost_pending (s : State) (typ sub : Nat) (c : Ctx) (queue ref value : Nat) :
    (s.tracePost typ sub c queue ref value).pending = s.pending := by simp [State.tracePost]

@[simp] theorem State.traceLink_pending (s : State) (port st width : Nat) : (s.traceLink port st width).pending = s.pending :=
  by simp [State.traceLink]

@[simp] theorem State.traceGait_pending (s : State) (gait cause : Nat) : (s.traceGait gait cause).pending = s.pending := by simp [State.traceGait]

@[simp] theorem State.charge_pending (s : State) (t key ns bytes commands : Nat) : (s.charge t key ns bytes commands).pending = s.pending :=
  (s.talliesOnly_charge t key ns bytes commands).pending

@[simp] theorem State.chargeEngine_pending (s : State) (c : Ctx) (key ns : Nat) : (s.chargeEngine c key ns).pending = s.pending := by
  obtain ⟨_, _, h⟩ := s.chargeEngine_form c key ns
  rw [h]

@[simp] theorem State.chargeBytes_pending (s : State) (c : Ctx) (key paddock hbm : Nat) : (s.chargeBytes c key paddock hbm).pending = s.pending := by
  unfold State.chargeBytes
  split <;> simp

@[simp] theorem State.faultInfo_pending (s : State) (c : Ctx) (queue : Nat) (f : AccFault) : (s.faultInfo c queue f).pending = s.pending := by
  unfold State.faultInfo
  cases c with
  | none => rw [State.event_pending, State.setObj_pending]
  | some t => rw [State.tenantEvent_pending, State.setObj_pending]

/-! ## Arbitration -/

@[simp] theorem State.arbitrate_pending (s : State) (n : Nat) (inc : Nat → Nat) (reqs : List (Nat × Nat)) :
    (s.arbitrate n inc reqs).1.pending = s.pending := by
  unfold State.arbitrate
  split
  · rfl
  · dsimp only
    split
    · exact State.spurDraw_pending s _ _
    · exact State.spurDraw_pending s _ _

theorem State.grantTo_pending {s : State} {n quantum name : Nat} {reqs : List (Nat × Nat)} {g : State × Nat}
    (h : s.grantTo n quantum name reqs = some g) : g.1.pending = s.pending := by
  have hpick := s.arbitrate_pending n (s.shareInc quantum) reqs
  unfold State.grantTo at h
  split at h
  · next hq =>
    rw [hq] at hpick
    split at h
    · cases h
      exact hpick
    · cases h
  · cases h

@[simp] theorem State.chargeArb_pending (s : State) (n tag cost : Nat) (more : Bool) : (s.chargeArb n tag cost more).pending = s.pending := rfl
@[simp] theorem State.chargeLate_pending (s : State) (n tag cost : Nat) : (s.chargeLate n tag cost).pending = s.pending := rfl

/-! ## Packets sent -/

@[simp] theorem State.outPacket_pending (s : State) (p : Nat) (k : Packet) : (s.outPacket p k).pending = s.pending :=
  (s.sendsOnly_outPacket p k).pending

@[simp] theorem State.pump_pending (s : State) (p : Nat) : (s.pump p).pending = s.pending := (s.sendsOnly_pump p).pending

@[simp] theorem State.sendOn_pending (s : State) (p : Nat) (tag : Option Nat) (k : Packet) : (s.sendOn p tag k).pending = s.pending :=
  (s.sendsOnly_sendOn p tag k).pending

@[simp] theorem State.enterSquare_pending (s : State) : s.enterSquare.pending = s.pending := by simp [State.enterSquare]

@[simp] theorem State.forward_pending (s : State) (k : Packet) (inp tag : Option Nat) : (s.forward k inp tag).pending = s.pending :=
  (s.sendsOnly_forward k inp tag).pending

@[simp] theorem State.drainStream_pending (s : State) (dst cls fuel : Nat) : (s.drainStream dst cls fuel).pending = s.pending := by
  induction fuel generalizing s with
  | zero => rfl
  | succ n ih =>
    unfold State.drainStream
    dsimp only
    split
    · rfl
    · split
      · rfl
      · simp [ih]

@[simp] theorem State.originate_pending (s : State) (tag : Nat) (dst typ : Nat) (body : PktBody) :
    (s.originate tag dst typ body).pending = s.pending := by
  unfold State.originate
  dsimp only
  repeat' split
  all_goals simp

@[simp] theorem State.sendE2eAck_pending (s : State) (src cls : Nat) : (s.sendE2eAck src cls).pending = s.pending := State.originate_pending _ _ _ _ _

@[simp] theorem State.floodLsa_pending (s : State) (d : Nat) (but : Option Nat) : (s.floodLsa d but).pending = s.pending :=
  (s.sendsOnly_floodLsa d but).pending

@[simp] theorem State.mapChanged_pending (s : State) (p : Nat) (up : Bool) : (s.mapChanged p up).pending = s.pending := by
  unfold State.mapChanged
  split <;> simp

/-! ## Posts and waits -/

@[simp] theorem State.setWaitsMet_pending (s : State) (src : Src) (l : List Nat) : (s.setWaitsMet src l).pending = s.pending := by
  unfold State.setWaitsMet
  dsimp only
  repeat' split
  all_goals simp

@[simp] theorem State.latch_pending (s : State) (src : Src) : (s.latch src).pending = s.pending := by
  unfold State.latch
  split
  · rfl
  · dsimp only
    split
    · rfl
    · exact (State.pending_foldl (fun x i => x.trace_pending _ _ _ _) _ _).trans (s.setWaitsMet_pending _ _)

@[simp] theorem State.latchAll_pending (s : State) : s.latchAll.pending = s.pending := State.pending_foldl State.latch_pending _ s

@[simp] theorem State.subscribe_pending (s : State) (src : Src) (b : List Byte) : (s.subscribe src b).pending = s.pending := by
  refine State.pending_foldl (fun x i => ?_) _ s
  dsimp only
  split
  · rfl
  · split
    · rfl
    · exact State.originate_pending _ _ _ _ _

@[simp] theorem State.replySubs_pending (s : State) (p : Nat) : (s.replySubs p).pending = s.pending :=
  State.pending_foldl (fun x _ => x.originate_pending _ _ _ _) _ _

@[simp] theorem State.signalPost_pending (s : State) (p op v : Nat) : (s.signalPost p op v).pending = s.pending := by simp [State.signalPost]

/-! ## Gates -/

theorem State.gateOpen_pending {s t : State} {src : Src} (h : s.gateOpen src = .ok t) : t.pending = s.pending := by
  unfold State.gateOpen at h
  split at h
  · cases h
    rfl
  · split at h
    · cases h
      rfl
    · split at h
      · cases h
        rfl
      · split at h
        · cases h
          rfl
        · obtain ⟨_, _, h⟩ := Except.bind_eq_ok h
          obtain ⟨_, _, h⟩ := Except.bind_eq_ok h
          cases h
          rfl

theorem State.gateClose_pending {s t : State} {run : Run} {i : Nat} (h : s.gateClose run i = .ok t) : t.pending = s.pending := by
  unfold State.gateClose at h
  split at h
  · cases h
    rfl
  · split at h
    · cases h
      rfl
    · refine State.pending_foldlM (fun x slot u hu => State.pending_foldlM (fun y lr v hv => ?_) _ hu) _ h
      obtain ⟨_, _, hv⟩ := Except.bind_eq_ok hv
      obtain ⟨_, _, hv⟩ := Except.bind_eq_ok hv
      obtain ⟨_, _, hv⟩ := Except.bind_eq_ok hv
      cases hv
      rfl

/-! ## The beginning of a command -/

@[simp] theorem State.preemptCheck_pending (s : State) (t : Nat) : (s.preemptCheck t).pending = s.pending := (s.runStatesOnly_preemptCheck t).pending

@[simp] theorem State.holdTenant_pending (s : State) (t b : Nat) (on : Bool) : (s.holdTenant t b on).pending = s.pending :=
  (s.runStatesOnly_holdTenant t b on).pending

@[simp] theorem State.spurDismount_pending (s : State) (c : Ctx) (b : List Byte) : (s.spurDismount c b).1.pending = s.pending := by
  unfold State.spurDismount
  dsimp only
  repeat' split
  all_goals simp

@[simp] theorem State.advance_pending (s : State) (src : Src) : (s.advance src).pending = s.pending := by
  unfold State.advance
  dsimp only
  repeat' split
  all_goals simp

@[simp] theorem State.startCmd_pending (s : State) (src : Src) (b : List Byte) (r : Except Fail Work) (dig : List (Nat × Byte)) :
    (s.startCmd src b r dig).pending = s.pending := by
  unfold State.startCmd
  dsimp only
  repeat' split
  all_goals simp

@[simp] theorem State.addStepDigest_pending (s : State) (e : Env) (sd : Option Nat) (w : Work) : (s.addStepDigest e sd w).pending = s.pending := by
  unfold State.addStepDigest
  split <;> simp

theorem State.beginNow_pending {launch : State → Env → Nat → State} (hlaunch : ∀ s e id, (launch s e id).pending = s.pending) (s : State)
    (src : Src) (b : List Byte) (plan : State → Env → Plan) : (s.beginNow src b plan launch).pending = s.pending := by
  unfold State.beginNow
  dsimp only
  repeat' split
  all_goals simp [hlaunch]

@[simp] theorem State.fetchFault_pending (s : State) (src : Src) (f : AccFault) : (s.fetchFault src f).pending = s.pending := by
  unfold State.fetchFault
  dsimp only
  repeat' split
  all_goals simp

theorem State.beginGated_pending {launch : State → Env → Nat → State} (hlaunch : ∀ s e id, (launch s e id).pending = s.pending) (s : State)
    (src : Src) (b : List Byte) (plan : State → Env → Plan) : (s.beginGated src b plan launch).pending = s.pending := by
  unfold State.beginGated
  split
  · next h => exact (State.beginNow_pending hlaunch _ src b plan).trans (State.gateOpen_pending h)
  · simp

theorem State.beginRow_pending {launch : State → Env → Nat → State} (hlaunch : ∀ s e id, (launch s e id).pending = s.pending) (s : State)
    (f : From) (mine : List Byte → Bool) (plan : State → Env → Plan) :
    (s.beginRow f mine plan launch).pending = s.pending := by
  unfold State.beginRow
  dsimp only
  repeat' split
  all_goals simp [State.beginGated_pending hlaunch]

@[simp] theorem noLaunch_pending (s : State) (e : Env) (id : Nat) : (noLaunch s e id).pending = s.pending := rfl

end Sys2Proof.Machine

/-! SUPPORT. The functions of completion records, stalls, steps, hand-off and admission keep the commands that wait. -/

namespace Sys2Proof.Machine

/-! ## Completion records -/

@[simp] theorem State.failCmdAs_pending (s : State) (id status detail : Nat) (f : Option AccFault) (wide : Bool) :
    (s.failCmdAs id status detail f wide).pending = s.pending := (s.dealsOnly_failCmdAs id status detail f wide).pending

@[simp] theorem State.failCmd_pending (s : State) (id status detail : Nat) (f : Option AccFault) :
    (s.failCmd id status detail f).pending = s.pending := by simp [State.failCmd]

@[simp] theorem State.irq_pending (s : State) (q : Nat) (now : Bool) : (s.irq q now).pending = s.pending := by
  unfold State.irq
  dsimp only
  repeat' split
  all_goals simp

@[simp] theorem State.putRecord_pending (s : State) (q tag status : Nat) (fl : Flags) (detail dig : Nat) (now : Bool) :
    (s.putRecord q tag status fl detail dig now).pending = s.pending := by
  unfold State.putRecord
  dsimp only
  repeat' split
  all_goals simp

/-! ## Stalls -/

@[simp] theorem State.syncStalls_pending (s : State) (t : Nat) : (s.syncStalls t).pending = s.pending := rfl
@[simp] theorem State.dropRef_pending (s : State) (t i : Nat) : (s.dropRef t i).1.pending = s.pending := rfl

theorem State.sumDrops_pending {f : State → Nat → State × Nat} (hf : ∀ s i, (f s i).1.pending = s.pending) (s : State) (l : List Nat) :
    (s.sumDrops f l).1.pending = s.pending :=
  State.pending_foldl_fst (f := fun (acc : State × Nat) i => ((f acc.1 i).1, acc.2 + (f acc.1 i).2)) (fun x i => hf x.1 i) l (s, 0)

@[simp] theorem State.pin_pending (s : State) (t : Nat) (l : List Nat) : (s.pin t l).pending = s.pending := by
  refine State.pending_foldl (fun _ _ => ?_) l s
  rfl

@[simp] theorem State.unpin_pending (s : State) (t : Nat) (l : List Nat) : (s.unpin t l).1.pending = s.pending := by
  refine State.sumDrops_pending (fun _ _ => ?_) s l
  rfl

@[simp] theorem State.returned_pending (s : State) (t n : Nat) : (s.returned t n).pending = s.pending := by
  unfold State.returned
  dsimp only
  split <;> simp

@[simp] theorem State.emptyList_pending (s : State) (t ix : Nat) : (s.emptyList t ix).1.pending = s.pending :=
  State.sumDrops_pending (fun x i => x.dropRef_pending t i) _ _

@[simp] theorem State.share_pending (s : State) (t child parent : Nat) : (s.share t child parent).pending = s.pending := by
  unfold State.share
  dsimp only
  rw [State.pending_foldl (fun x i => x.putStall_pending t i _), State.setEntry_pending]

theorem State.copyStall_pending {s u : State} {t src dst : Nat} (h : s.copyStall t src dst = .ok u) : u.pending = s.pending := by
  unfold State.copyStall at h
  obtain ⟨_, _, h⟩ := Except.bind_eq_ok h
  obtain ⟨_, _, h⟩ := Except.bind_eq_ok h
  cases h
  rfl

theorem State.takeStalls_pending {s u : State} {t : Nat} {needs : List (Need × Nat)} (h : s.takeStalls t needs = .ok u) : u.pending = s.pending := by
  refine State.pending_foldlM (fun x n v hv => ?_) needs h
  dsimp only at hv
  split at hv
  · cases hv
    rfl
  · obtain ⟨y, hy, hv⟩ := Except.bind_eq_ok hv
    cases hv
    exact (State.copyStall_pending hy : y.pending = _)

@[simp] theorem State.applyDrops_pending (s : State) (t : Nat) (l : List Nat) : (s.applyDrops t l).1.pending = s.pending := by
  refine State.sumDrops_pending (fun x i => ?_) s l
  exact State.dropRef_pending _ t i

@[simp] theorem State.applyWindow_pending (s : State) (t ix len window : Nat) : (s.applyWindow t ix len window).1.pending = s.pending :=
  State.sumDrops_pending (fun x i => x.dropRef_pending t i) _ _

/-! ## Entries and steps -/

@[simp] theorem State.syncRemuda_pending (s : State) (t : Nat) : (s.syncRemuda t).pending = s.pending := rfl
@[simp] theorem State.setImage_pending (s : State) (ix img : Nat) : (s.setImage ix img).pending = s.pending := rfl
@[simp] theorem State.holdRoom_pending (s : State) (q : Nat) (n : Int) : (s.holdRoom q n).pending = s.pending := rfl

@[simp] theorem launchStep_pending (s : State) (e : Env) (id : Nat) : (launchStep s e id).pending = s.pending := by
  unfold launchStep
  dsimp only
  repeat' split
  all_goals simp

@[simp] theorem State.releaseRoom_pending (s : State) (r : Run) : (s.releaseRoom r).pending = s.pending := by
  unfold State.releaseRoom
  split <;> simp

@[simp] theorem State.stepFails_pending (s : State) (r : Run) (f : Fail) : (s.stepFails r f).pending = s.pending := by
  unfold State.stepFails
  split <;> simp

theorem State.reserve_pending {s t : State} {r : Run} {n : Nat} {seqs : List Nat} (h : s.reserve r n seqs = .ok t) : t.pending = s.pending := by
  unfold State.reserve at h
  dsimp only at h
  split at h
  · cases h
  · split at h
    · cases h
    · split at h
      · cases h
      · split at h
        · cases h
        · cases h
          simpa using State.takeStalls_pending (by assumption)

theorem State.layOut_pending {s t : State} {r : Run} {set : Buckets} {batch images : List Nat} (h : s.layOut r set batch images = .ok t) :
    t.pending = s.pending := by
  unfold State.layOut at h
  dsimp only at h
  repeat' split at h
  all_goals cases h
  all_goals rfl

theorem State.stepPrepare_pending {s t : State} {r : Run} {set : Buckets} {batch images : List Nat} {a : Except AccFault Nat}
    (h : s.stepPrepare r set batch images a = .ok t) : t.pending = s.pending := by
  unfold State.stepPrepare at h
  obtain ⟨n, _, h⟩ := Except.bind_eq_ok h
  obtain ⟨s3, h3, h⟩ := Except.bind_eq_ok h
  obtain ⟨s4, h4, h⟩ := Except.bind_eq_ok h
  have hreserved : s3.pending = s.pending := by
    split at h3
    · exact State.reserve_pending h3
    · cases h3
      rfl
  have hlaid := (State.layOut_pending h4).trans hreserved
  repeat' split at h
  all_goals cases h
  all_goals exact hlaid

@[simp] theorem State.stepRefused_pending (s : State) (r : Run) (batch : List Nat) (f : Fail) : (s.stepRefused r batch f).pending = s.pending := by
  have himages : ∀ (l : List Nat) (x : State),
      (l.foldl (fun (acc : State) ix => acc.setImage ix (setLeN (acc.entry ix).image 6 1 f.status)) x).pending = x.pending :=
    State.pending_foldl (fun x ix => x.setImage_pending _ _)
  unfold State.stepRefused
  dsimp only
  repeat' split
  all_goals simp [himages]

@[simp] theorem State.stepCounted_pending (s : State) (r : Run) : (s.stepCounted r).pending = s.pending := rfl

@[simp] theorem State.stepTake_pending (s : State) (r : Run) (batch : List Nat) : (s.stepTake r batch).pending = s.pending :=
  State.pending_foldl (fun x _ => x.setImage_pending _ _) batch _

@[simp] theorem State.stepSelect_pending (s : State) (id : Nat) : (s.stepSelect id).pending = s.pending := by
  unfold State.stepSelect
  dsimp only
  split
  · rfl
  · split
    · rfl
    · split
      · simp
      · split
        · simp
        · split
          · next h => exact (State.stepPrepare_pending h).trans (s.stepTake_pending _ _)
          · simp

/-! ## The end of a step -/

@[simp] theorem State.retire_pending (s : State) (t ix img : Nat) (by' : Option Nat) (hand : Bool) :
    (s.retire t ix img by' hand).1.pending = s.pending := by
  unfold State.retire
  extract_lets d req s1 e s2
  clear_value req
  have h1 : s1.pending = d.1.pending := by
    unfold s1
    split
    · split
      · exact State.withMem_pending _ _
      · rfl
    · rfl
  have h2 : s2.pending = s1.pending := by
    unfold s2
    split
    · exact State.setEntry_pending _ _ _
    · exact State.setEntry_pending _ _ _
  rw [State.syncRemuda_pending, h2, h1, State.emptyList_pending]

@[simp] theorem State.endWait_pending (s : State) (id : Nat) : (s.endWait id).pending = s.pending := by
  unfold State.endWait
  split <;> simp

@[simp] theorem State.finishRetires_pending (s : State) : s.finishRetires.pending = s.pending := by
  simp [State.finishRetires, State.pending_foldl, apply_ite State.pending]

@[simp] theorem State.shareChildren_pending (s : State) (t parent : Nat) : (s.shareChildren t parent).pending = s.pending := by
  simp [State.shareChildren, State.pending_foldl, apply_ite State.pending]

@[simp] theorem State.boundary_pending (s : State) (r : Run) (retiring : List (Nat × Nat × Option Nat × Bool)) (window : Option Nat) :
    (s.boundary r retiring window).pending = s.pending := by
  unfold State.boundary
  dsimp only
  repeat' split
  all_goals simp [State.pending_foldl, State.pending_foldl_fst]

@[simp] theorem State.commitFails_pending (s : State) (r : Run) (status detail : Nat) (f : Option AccFault) :
    (s.commitFails r status detail f).pending = s.pending := by
  unfold State.commitFails
  extract_lets imgs pending s1 s2
  have h1 : s1.pending = s.pending := State.pending_foldl (fun x a => x.setImage_pending _ _) imgs s
  have h2 : s2.pending = s1.pending := by simp [s2]
  split
  · split
    · exact (State.setCmd_pending _ _).trans (h2.trans h1)
    · exact h2.trans h1
  · exact h2.trans h1

@[simp] theorem State.commitOk_pending (s : State) (r : Run) : (s.commitOk r).pending = s.pending := by
  unfold State.commitOk
  extract_lets n slots made auto hand retiring handed s1 recs s2 s3 s4
  have h1 : s1.pending = s.pending := State.pending_foldl (fun x _ => x.setEntry_pending _ _) made s
  have h2 : s2.pending = s1.pending := by
    unfold s2
    split <;> rfl
  have h3 : s3.pending = s2.pending := State.boundary_pending _ _ _ _
  have h4 : s4.pending = s3.pending := by
    unfold s4
    split
    · exact State.releaseRoom_pending _ _
    · rfl
  have hall : s4.pending = s.pending := h4.trans (h3.trans (h2.trans h1))
  split
  · exact (State.setCmd_pending _ _).trans hall
  · exact hall

@[simp] theorem State.stepCommit_pending (s : State) (id : Nat) : (s.stepCommit id).pending = s.pending := by
  unfold State.stepCommit
  dsimp only
  repeat' split
  all_goals simp

@[simp] theorem State.handFails_pending (s : State) (r : Run) (f : Fail) : (s.handFails r f).pending = s.pending := by
  unfold State.handFails
  dsimp only
  split <;> simp

@[simp] theorem State.handoffStart_pending (s : State) (id : Nat) : (s.handoffStart id).pending = s.pending := by
  unfold State.handoffStart
  dsimp only
  split
  · rfl
  · split
    · rfl
    · split
      · simp
      · split
        · simp
        · split
          · next h => exact State.layOut_pending h
          · simp

@[simp] theorem State.handoffComplete_pending (s : State) (id : Nat) : (s.handoffComplete id).pending = s.pending := by
  have hfreed : ∀ (l : List Nat) (x : State), (l.foldl (fun (acc : State) ix => acc.setEntry ix Entry.free) x).pending = x.pending :=
    State.pending_foldl (fun _ _ => by rfl)
  unfold State.handoffComplete
  dsimp only
  repeat' split
  all_goals simp [hfreed]

@[simp] theorem launchRetire_pending (s : State) (e : Env) (id : Nat) : (launchRetire s e id).pending = s.pending := by
  unfold launchRetire
  split
  · dsimp only
    rw [State.finishRetires_pending, State.returned_pending]
    refine (State.pending_foldl_fst (fun x ix => ?_) _ _).trans rfl
    split
    · exact State.setEntry_pending _ _ _
    · exact x.1.retire_pending _ _ _ _ _
  · rfl

/-! ## Admission -/

@[simp] theorem launchAdmit_pending (s : State) (e : Env) (id : Nat) : (launchAdmit s e id).pending = s.pending := by
  have hheld : ∀ (l : List Nat) (x : State),
      (l.foldl (fun (acc : State) r => acc.setEntry (leN r 0 2) { Entry.free with heldBy := some id }) x).pending = x.pending :=
    State.pending_foldl (fun _ _ => by rfl)
  have hshared : ∀ (t : Nat) (l : List (Nat × Nat)) (x : State), (l.foldl (fun (acc : State) p => acc.share t p.1 p.2) x).pending = x.pending :=
    fun t => State.pending_foldl (fun x p => x.share_pending t p.1 p.2)
  unfold launchAdmit
  dsimp only
  repeat' split
  all_goals simp [hheld, hshared]

@[simp] theorem State.admitDone_pending (s : State) (id : Nat) : (s.admitDone id).pending = s.pending := by
  unfold State.admitDone
  split
  · rfl
  · refine (State.syncRemuda_pending _ _).trans ?_
    exact State.pending_foldl (fun x _ => x.setEntry_pending _ _) _ s

end Sys2Proof.Machine

/-! SUPPORT. The functions of codec engines, collectives, packets and ports keep the commands that wait. -/

namespace Sys2Proof.Machine

/-! ## Codec engines -/

@[simp] theorem State.syncBufs_pending (s : State) (t : Nat) : (s.syncBufs t).pending = s.pending := rfl

theorem State.setBufs_pending (s : State) (t v : Nat) (l : List Nat) : (l.foldl (fun (acc : State) b => acc.setBuf t b v) s).pending = s.pending :=
  State.pending_foldl (fun x b => x.setBuf_pending t b v) l s

@[simp] theorem State.returnBufs_pending (s : State) (t : Nat) (l : List Nat) : (s.returnBufs t l).pending = s.pending := by
  unfold State.returnBufs
  dsimp only
  split <;> simp [State.setBufs_pending]

@[simp] theorem State.assignEngines_pending (s : State) : s.assignEngines.pending = s.pending := s.enginesGiven_assignEngines.pending

@[simp] theorem State.dropJob_pending (s : State) (id : Nat) : (s.dropJob id).pending = s.pending := State.assignEngines_pending _

@[simp] theorem State.jobFails_pending (s : State) (j : CodecJob) (status detail : Nat) (f : Option AccFault) :
    (s.jobFails j status detail f).pending = s.pending := by
  simp [State.jobFails]

@[simp] theorem launchDecode_pending (s : State) (e : Env) (id : Nat) : (launchDecode s e id).pending = s.pending := by
  unfold launchDecode
  simp

@[simp] theorem State.takeBuffers_pending (s : State) (j : CodecJob) (g : State) (init : Bool) : (s.takeBuffers j g init).pending = s.pending := by
  unfold State.takeBuffers
  dsimp only
  repeat' split
  all_goals simp [State.setBufs_pending]

@[simp] theorem State.bufferRequest_pending (s : State) (id : Nat) : (s.bufferRequest id).pending = s.pending := by
  unfold State.bufferRequest
  repeat' split
  all_goals simp

@[simp] theorem launchRelease_pending (s : State) (e : Env) (id : Nat) : (launchRelease s e id).pending = s.pending := by
  unfold launchRelease
  split
  · exact s.setBufs_pending _ 3 _
  · rfl

@[simp] theorem State.frameComplete_pending (s : State) (id : Nat) : (s.frameComplete id).pending = s.pending := by
  unfold State.frameComplete
  dsimp only
  repeat' split
  all_goals simp [State.pending_foldl]

@[simp] theorem State.releaseDone_pending (s : State) (c : Cmd) : (s.releaseDone c).pending = s.pending := by
  unfold State.releaseDone
  repeat' split
  all_goals simp [State.setBufs_pending]

@[simp] theorem State.selfCheckFail_pending (s : State) (eng : Nat) : (s.selfCheckFail eng).pending = s.pending := by
  unfold State.selfCheckFail
  dsimp only
  repeat' split
  all_goals simp

/-! ## Collectives -/

@[simp] theorem State.setColls_pending (s : State) (l : List Coll) : (s.setColls l).pending = s.pending := rfl
@[simp] theorem State.dropColl_pending (s : State) (cmd : Nat) : (s.dropColl cmd).pending = s.pending := rfl

@[simp] theorem State.abortColl_pending (s : State) (c : Coll) (status detail : Nat) (tell : Bool) :
    (s.abortColl c status detail tell).pending = s.pending := by
  simp [State.abortColl, State.pending_foldl, apply_ite State.pending]

@[simp] theorem State.abortReceived_pending (s : State) (key : CollKey) (status detail : Nat) :
    (s.abortReceived key status detail).pending = s.pending := by
  simp [State.abortReceived, State.pending_foldl]

@[simp] theorem State.collsLose_pending (s : State) (dev : Nat) : (s.collsLose dev).pending = s.pending := by
  simp [State.collsLose, State.pending_foldl]

@[simp] theorem State.sendPulls_pending (s : State) (c : Coll) (again : Bool) : (s.sendPulls c again).pending = s.pending := by
  simp [State.sendPulls, State.pending_foldl]

@[simp] theorem State.tryServe_pending (s : State) (h : HeldReq) : (s.tryServe h).1.pending = s.pending := by
  unfold State.tryServe
  dsimp only
  repeat' split
  all_goals simp [State.pending_foldl]

@[simp] theorem State.serveHeld_pending (s : State) : s.serveHeld.pending = s.pending := by
  simp [State.serveHeld, State.pending_foldl, apply_ite State.pending]

@[simp] theorem State.sendReleases_pending (s : State) (c : Coll) : (s.sendReleases c).pending = s.pending := by
  simp [State.sendReleases, State.pending_foldl, apply_ite State.pending]

@[simp] theorem State.lineageWrites_pending (s : State) (lport cmd tag addr : Nat) (bs : List Byte) :
    (s.lineageWrites lport cmd tag addr bs).1.pending = s.pending := by
  refine State.pending_foldl (fun _ _ => ?_) _ s
  rfl

@[simp] theorem State.startHosted_pending (s : State) (c : Coll) : (s.startHosted c).pending = s.pending := by
  unfold State.startHosted
  split
  · rfl
  · refine State.pending_foldl (fun x h => ?_) _ s
    dsimp only
    split
    · split
      · exact x.lineageWrites_pending _ _ _ _ _
      · rfl
    · rfl

@[simp] theorem State.setWork_pending (s : State) (id : Nat) (pre : List (Nat × Byte)) (r : Except Fail Work) (e : Env) (sd : Option Nat) :
    (s.setWork id pre r e sd).pending = s.pending := by
  unfold State.setWork
  split <;> simp

@[simp] theorem State.pushPartials_pending (s : State) (c : Coll) (m : Nat) (ps : Partials) (last : Bool) :
    (s.pushPartials c m ps last).pending = s.pending := by
  simp [State.pushPartials, State.pending_foldl, apply_ite State.pending]

@[simp] theorem State.finishFused_pending (s : State) (c : Coll) : (s.finishFused c).pending = s.pending := by
  unfold State.finishFused
  dsimp only
  repeat' split
  all_goals simp

@[simp] theorem State.endColl_pending (s : State) (c : Coll) : (s.endColl c).pending = s.pending := by
  unfold State.endColl
  dsimp only
  repeat' split
  all_goals simp

@[simp] theorem State.refreshFused_pending (s : State) (c : Coll) : (s.refreshFused c).pending = s.pending := by
  unfold State.refreshFused
  repeat' split
  all_goals simp

@[simp] theorem State.collStep_pending (s : State) (id : Nat) : (s.collStep id).pending = s.pending := by
  unfold State.collStep
  dsimp only
  repeat' split
  all_goals simp

@[simp] theorem State.collProgress_pending (s : State) : s.collProgress.pending = s.pending := by
  simp [State.collProgress, State.pending_foldl]

@[simp] theorem State.startColl_pending (s : State) (c : Coll) : (s.startColl c).pending = s.pending := by
  unfold State.startColl
  dsimp only
  split <;> simp

@[simp] theorem launchCollective_pending (s : State) (e : Env) (id : Nat) : (launchCollective s e id).pending = s.pending := by
  unfold launchCollective
  split <;> simp

@[simp] theorem launchFused_pending (s : State) (e : Env) (id : Nat) : (launchFused s e id).pending = s.pending := by
  unfold launchFused
  dsimp only
  repeat' split
  all_goals simp

@[simp] theorem State.stagingGrant_pending (s : State) (cmd chunk : Nat) : (s.stagingGrant cmd chunk).pending = s.pending := by
  unfold State.stagingGrant
  dsimp only
  repeat' split
  any_goals simp
  exact State.grantTo_pending (by assumption)

@[simp] theorem State.collRetry_pending (s : State) (cmd : Nat) : (s.collRetry cmd).pending = s.pending := by
  unfold State.collRetry
  split <;> simp

@[simp] theorem State.readRequest_pending (s : State) (dev : Nat) (key : CollKey) (p : CollParams) (pull : Pull) (req : Nat) :
    (s.readRequest dev key p pull req).pending = s.pending := by
  unfold State.readRequest
  dsimp only
  repeat' split
  all_goals simp

@[simp] theorem State.readResponse_pending (s : State) (key : CollKey) (pull : Pull) (req : Nat) (x : Slab) :
    (s.readResponse key pull req x).pending = s.pending := by
  unfold State.readResponse
  repeat' split
  all_goals simp

@[simp] theorem State.readRefusal_pending (s : State) (key : CollKey) (pull : Pull) (req : Nat) :
    (s.readRefusal key pull req).pending = s.pending := by
  unfold State.readRefusal
  repeat' split
  all_goals simp

@[simp] theorem State.collData_pending (s : State) (b : DataBody) : (s.collData b).pending = s.pending := by
  unfold State.collData
  dsimp only
  repeat' split
  all_goals simp

@[simp] theorem State.lineageAck_pending (s : State) (lport : Nat) : (s.lineageAck lport).pending = s.pending := by
  unfold State.lineageAck
  dsimp only
  repeat' split
  all_goals simp

/-! ## Write packets sent -/

@[simp] theorem launchPut_pending (s : State) (e : Env) (id : Nat) : (launchPut s e id).pending = s.pending := by
  unfold launchPut
  dsimp only
  repeat' split
  all_goals simp [State.pending_foldl]

@[simp] theorem State.applyWrite_pending (s : State) (src : Nat) (b : WriteBody) : (s.applyWrite src b).pending = s.pending := by
  unfold State.applyWrite
  dsimp only
  repeat' split
  all_goals simp

@[simp] theorem State.writeResult_pending (s : State) (put st dt : Nat) (f : Option (Nat × Nat × Nat)) :
    (s.writeResult put st dt f).pending = s.pending := by
  unfold State.writeResult
  repeat' split
  all_goals simp

@[simp] theorem State.subscribed_pending (s : State) (src post job th w : Nat) : (s.subscribed src post job th w).pending = s.pending := by
  unfold State.subscribed
  repeat' split
  all_goals simp

@[simp] theorem State.resubscribe_pending (s : State) (waiter : Nat) : (s.resubscribe waiter).pending = s.pending := by
  unfold State.resubscribe
  repeat' split
  all_goals simp

@[simp] theorem State.signalAnswered_pending (s : State) (cmd st dt : Nat) : (s.signalAnswered cmd st dt).pending = s.pending := by
  unfold State.signalAnswered
  repeat' split
  all_goals simp

@[simp] theorem State.postUpdate_pending (s : State) (src : Nat) (b : PostBody) : (s.postUpdate src b).pending = s.pending := by
  unfold State.postUpdate
  repeat' split
  all_goals simp

/-! ## Packets received -/

@[simp] theorem State.applyData_pending (s : State) (k : Packet) : (s.applyData k).pending = s.pending := by
  unfold State.applyData
  split <;> simp

theorem State.applyNext_pending {apply : State → Packet → State} (happly : ∀ s k, (apply s k).pending = s.pending) (s : State)
    (src cls : Nat) (k : Packet) (fuel : Nat) :
    (s.applyNext apply src cls k fuel).pending = s.pending := by
  induction fuel generalizing s k with
  | zero => rfl
  | succ n ih =>
    unfold State.applyNext
    dsimp only
    split
    · rw [ih]
      split <;> simp [happly]
    · split <;> simp [happly]

theorem State.e2eReceive_pending {apply : State → Packet → State} (happly : ∀ s k, (apply s k).pending = s.pending) (s : State) (k : Packet) :
    (s.e2eReceive apply k).pending = s.pending := by
  unfold State.e2eReceive
  dsimp only
  repeat' split
  all_goals simp [State.applyNext_pending happly]

@[simp] theorem State.receiveTyped_pending (s : State) (types : List Nat) (k : Packet) : (s.receiveTyped types k).pending = s.pending := by
  unfold State.receiveTyped
  split
  · exact State.e2eReceive_pending State.applyData_pending s k
  · rfl

@[simp] theorem State.e2eAck_pending (s : State) (k : Packet) : (s.e2eAck k).pending = s.pending := by
  unfold State.e2eAck
  dsimp only
  repeat' split
  all_goals simp

@[simp] theorem State.e2eAckTimer_pending (s : State) (src cls : Nat) : (s.e2eAckTimer src cls).pending = s.pending := by
  unfold State.e2eAckTimer
  split <;> simp

@[simp] theorem State.e2eRetx_pending (s : State) (dst cls : Nat) : (s.e2eRetx dst cls).pending = s.pending := by
  simp [State.e2eRetx, State.pending_foldl, apply_ite State.pending]

@[simp] theorem State.cmdLoses_pending (s : State) (dev : Nat) (c : Cmd) : (s.cmdLoses dev c).pending = s.pending := by
  simp [State.cmdLoses, apply_ite State.pending]

@[simp] theorem State.loseDevice_pending (s : State) (dev : Nat) : (s.loseDevice dev).pending = s.pending := by
  simp [State.loseDevice, State.pending_foldl]

@[simp] theorem State.e2eUnreachable_pending (s : State) (dev : Nat) : (s.e2eUnreachable dev).pending = s.pending := by
  simp [State.e2eUnreachable, apply_ite State.pending]

@[simp] theorem State.peerEpoch_pending (s : State) (d boot : Nat) : (s.peerEpoch d boot).pending = s.pending := by
  unfold State.peerEpoch
  dsimp only
  split <;> simp

/-! ## Ports -/

@[simp] theorem State.setLink_pending (s : State) (p st : Nat) : (s.setLink p st).pending = s.pending := by simp [State.setLink]

@[simp] theorem State.unloadPort_pending (s : State) (p : Nat) : (s.unloadPort p).pending = s.pending := by
  simp [State.unloadPort, State.pending_foldl]

@[simp] theorem State.stopPort_pending (s : State) (p st cause : Nat) : (s.stopPort p st cause).pending = s.pending := by
  unfold State.stopPort
  dsimp only
  split <;> simp

@[simp] theorem State.retrain_pending (s : State) (p cause : Nat) : (s.retrain p cause).pending = s.pending := by simp [State.retrain]

@[simp] theorem State.sendDiscovery_pending (s : State) (p : Nat) : (s.sendDiscovery p).pending = s.pending := (s.sendsOnly_sendDiscovery p).pending

@[simp] theorem State.sendParams_pending (s : State) (p : Nat) : (s.sendParams p).pending = s.pending := by simp [State.sendParams]

@[simp] theorem State.linkTraining_pending (s : State) (p : Nat) (ok : Bool) : (s.linkTraining p ok).pending = s.pending := by
  unfold State.linkTraining
  dsimp only
  repeat' split
  all_goals simp

@[simp] theorem State.trainRetry_pending (s : State) (p : Nat) : (s.trainRetry p).pending = s.pending := by
  unfold State.trainRetry
  dsimp only
  repeat' split
  all_goals simp

@[simp] theorem State.portActive_pending (s : State) (p : Nat) : (s.portActive p).pending = s.pending := by simp [State.portActive]

@[simp] theorem State.checkPeer_pending (s : State) (p : Nat) : (s.checkPeer p).pending = s.pending := by
  unfold State.checkPeer
  dsimp only
  repeat' split
  all_goals simp

@[simp] theorem State.recheckPeers_pending (s : State) : s.recheckPeers.pending = s.pending := State.pending_foldl State.checkPeer_pending _ s

@[simp] theorem State.discovered_pending (s : State) (p : Nat) (k : Packet) : (s.discovered p k).pending = s.pending := by
  unfold State.discovered
  split
  · split
    · rfl
    · split
      · exact s.count_pending _ _
      · rw [State.checkPeer_pending, State.setPort_pending, State.setObj_pending]
  · rfl

@[simp] theorem State.mergeMaps_pending (s : State) (bitsL epochs : List Nat) : (s.mergeMaps bitsL epochs).pending = s.pending := by
  refine State.pending_foldl (fun x d => ?_) _ s
  dsimp only
  repeat' split
  all_goals simp

@[simp] theorem State.paramsReceived_pending (s : State) (p : Nat) (k : Packet) : (s.paramsReceived p k).pending = s.pending := by
  unfold State.paramsReceived
  dsimp only
  repeat' split
  all_goals simp

@[simp] theorem State.lsaReceived_pending (s : State) (p : Nat) (k : Packet) : (s.lsaReceived p k).pending = s.pending := by
  unfold State.lsaReceived
  dsimp only
  repeat' split
  all_goals simp

@[simp] theorem State.linkEnabled_pending (s : State) (p : Nat) (on : Bool) : (s.linkEnabled p on).pending = s.pending := by
  simp [State.linkEnabled, apply_ite State.pending]

@[simp] theorem State.linkAck_pending (s : State) (p : Nat) (nak : Bool) : (s.linkAck p nak).pending = s.pending := rfl

@[simp] theorem State.ackIn_pending (s : State) (p ack : Nat) (nak : Bool) : (s.ackIn p ack nak).pending = s.pending := by
  unfold State.ackIn
  dsimp only
  repeat' split
  all_goals simp

@[simp] theorem State.flitReceived_pending (s : State) (p : Nat) (f : List Byte) (fixed : Nat) : (s.flitReceived p f fixed).pending = s.pending := by
  unfold State.flitReceived
  dsimp only
  repeat' split
  all_goals simp

@[simp] theorem State.linkAckTimer_pending (s : State) (p : Nat) : (s.linkAckTimer p).pending = s.pending := by
  unfold State.linkAckTimer
  split <;> simp

@[simp] theorem State.replayTimeout_pending (s : State) (p : Nat) : (s.replayTimeout p).pending = s.pending := by
  unfold State.replayTimeout
  split <;> simp

@[simp] theorem State.portLost_pending (s : State) (p cause : Nat) : (s.portLost p cause).pending = s.pending := by
  simp [State.portLost, apply_ite State.pending]

@[simp] theorem State.symbolErrors_pending (s : State) (p : Nat) : (s.symbolErrors p).pending = s.pending := by
  unfold State.symbolErrors
  split <;> simp

@[simp] theorem State.transit_pending (s : State) (p : Nat) (k : Packet) : (s.transit p k).pending = s.pending := by
  unfold State.transit
  split <;> simp

@[simp] theorem State.lineageMode_pending (s : State) (i mode : Nat) : (s.lineageMode i mode).pending = s.pending := by
  unfold State.lineageMode
  dsimp only
  split <;> simp

@[simp] theorem State.lineageTrained_pending (s : State) (i : Nat) (mode node : Nat) : (s.lineageTrained i mode node).pending = s.pending := by
  unfold State.lineageTrained
  dsimp only
  repeat' split
  all_goals simp

@[simp] theorem State.lineageRefuse_pending (s : State) (i : Nat) : (s.lineageRefuse i).pending = s.pending := rfl

@[simp] theorem State.lineageTransaction_pending (s : State) (i : Nat) (x : Thrumyo) : (s.lineageTransaction i x).pending = s.pending := by
  unfold State.lineageTransaction
  dsimp only
  repeat' split
  all_goals simp

@[simp] theorem State.lineageResponse_pending (s : State) (i : Nat) (x : Thrumyo) : (s.lineageResponse i x).pending = s.pending := by
  unfold State.lineageResponse
  dsimp only
  repeat' split
  all_goals simp

end Sys2Proof.Machine

/-! SUPPORT. The functions of tiles, requests, faults, scheduling, resets, power and firmware keep the commands that wait. -/

namespace Sys2Proof.Machine

/-! ## Tiles -/

@[simp] theorem State.setTile_pending (s : State) (id ti : Nat) (t : Tile) : (s.setTile id ti t).pending = s.pending := by
  unfold State.setTile
  split <;> simp

@[simp] theorem State.spurPlace_pending (s : State) (c : Ctx) (t : Tile) : (s.spurPlace c t).1.pending = s.pending := by
  unfold State.spurPlace
  dsimp only
  repeat' split
  all_goals simp

theorem State.takeStable_pending {s u : State} {t : Tile} {id ti : Nat} (h : s.takeStable t id ti = some u) : u.pending = s.pending := by
  unfold State.takeStable State.assignStable at h
  split at h
  · split at h
    · cases h
    · cases h
      simpa using State.grantTo_pending (by assumption)
  · cases h
    rfl

@[simp] theorem State.swapNow_pending (s : State) (c : Cmd) (t : Tile) (id ti : Nat) (v : Stable) : (s.swapNow c t id ti v).pending = s.pending :=
  by simp [State.swapNow]

@[simp] theorem State.shadowSwap_pending (s : State) (id ti : Nat) : (s.shadowSwap id ti).pending = s.pending := by
  unfold State.shadowSwap
  split
  · rfl
  · extract_lets pl t v
    split
    · rfl
    · split
      · rfl
      · split
        · rfl
        · next h => rw [State.swapNow_pending, State.takeStable_pending h, State.setTile_pending, State.spurPlace_pending]

@[simp] theorem State.partialGrant_pending (s : State) (id ti : Nat) : (s.partialGrant id ti).pending = s.pending := by
  unfold State.partialGrant
  dsimp only
  repeat' split
  any_goals simp
  exact State.grantTo_pending (by assumption)

@[simp] theorem State.releaseGrant_pending (s : State) (id : Nat) (t : Tile) : (s.releaseGrant id t).pending = s.pending := by
  unfold State.releaseGrant
  dsimp only
  repeat' split
  all_goals simp

@[simp] theorem State.flagSets_pending (s : State) (c : Ctx) (stable : Option Nat) (f : Flags) : (s.flagSets c stable f).pending = s.pending := by
  unfold State.flagSets
  dsimp only
  repeat' split
  all_goals simp

@[simp] theorem State.sendPartials_pending (s : State) (cm : Cmd) (t : Tile) (last : Bool) : (s.sendPartials cm t last).pending = s.pending := by
  unfold State.sendPartials
  dsimp only
  repeat' split
  all_goals simp

@[simp] theorem State.storePartials_pending (s : State) (c : Cmd) (t : Tile) : (s.storePartials c t).pending = s.pending := by
  unfold State.storePartials
  split <;> simp

@[simp] theorem State.tileDone_pending (s : State) (c : Cmd) (t : Tile) (ti ns : Nat) : (s.tileDone c t ti ns).pending = s.pending := by
  unfold State.tileDone
  dsimp only
  split <;> simp

@[simp] theorem State.tileCommit_pending (s : State) (id ti ns : Nat) : (s.tileCommit id ti ns).pending = s.pending := by
  unfold State.tileCommit
  dsimp only
  repeat' split
  all_goals simp

@[simp] theorem launchAttend_pending (s : State) (e : Env) (id : Nat) : (launchAttend s e id).pending = s.pending := by
  unfold launchAttend
  dsimp only
  repeat' split
  all_goals simp

/-! ## The end of a command -/

@[simp] theorem State.closeGate_pending (s : State) (c : Cmd) : (s.closeGate c).pending = s.pending := by
  unfold State.closeGate
  split
  · rfl
  · split
    · next h => exact State.gateClose_pending h
    · simp

@[simp] theorem State.showDigest_pending (s : State) (c : Cmd) : (s.showDigest c).pending = s.pending := by
  unfold State.showDigest
  split <;> simp

@[simp] theorem State.showWrites_pending (s : State) (c : Cmd) : (s.showWrites c).pending = s.pending := by
  unfold State.showWrites
  extract_lets ok s0 s1 s2 s3
  have h0 : s0.pending = s.pending := by
    unfold s0
    split <;> simp
  have h2 : s2.pending = s1.pending := by
    unfold s2
    split
    · exact State.pending_foldl (fun _ _ => by rfl) _ s1
    · rfl
  have h3 : s3.pending = s2.pending := by
    unfold s3
    split <;> simp
  have hall : s3.pending = s.pending := h3.trans (h2.trans h0)
  split
  · split
    · rw [State.closeGate_pending, hall]
    · exact hall
  · exact hall

@[simp] theorem State.signalStep_pending (s : State) (c : Cmd) : (s.signalStep c).pending = s.pending := by
  unfold State.signalStep
  dsimp only
  repeat' split
  all_goals simp

@[simp] theorem State.faultStep_pending (s : State) (c : Cmd) : (s.faultStep c).pending = s.pending := by
  unfold State.faultStep
  dsimp only
  repeat' split
  all_goals simp

@[simp] theorem State.endInRun_pending (s : State) (c : Cmd) (r : Run) (i : Nat) : (s.endInRun c r i).pending = s.pending := rfl

@[simp] theorem State.recordStep_pending (s : State) (c : Cmd) : (s.recordStep c).pending = s.pending := by
  unfold State.recordStep
  dsimp only
  repeat' split
  all_goals simp

@[simp] theorem State.putContexts_pending (s : State) (j : CodecJob) (d : CodecDone) : (s.putContexts j d).pending = s.pending := rfl

@[simp] theorem State.codecCommit_pending (s : State) (c : Cmd) : (s.codecCommit c).pending = s.pending := by
  unfold State.codecCommit
  dsimp only
  repeat' split
  all_goals simp [State.setBufs_pending, State.openAreas]

@[simp] theorem State.codecDrop_pending (s : State) (c : Cmd) : (s.codecDrop c).pending = s.pending := by
  unfold State.codecDrop
  split <;> simp

@[simp] theorem State.endRun_pending (s : State) (r : Run) : (s.endRun r).pending = s.pending := by
  unfold State.endRun
  split <;> simp

@[simp] theorem State.leave_pending (s : State) (c : Cmd) : (s.leave c).pending = s.pending := by
  unfold State.leave
  dsimp only
  repeat' split
  all_goals simp [State.pending_foldl]

@[simp] theorem State.chargeEnd_pending (s : State) (c : Cmd) (paddock hbm : Nat) : (s.chargeEnd c paddock hbm).pending = s.pending := by
  unfold State.chargeEnd
  split <;> simp

@[simp] theorem State.traceEnd_pending (s : State) (c : Cmd) : (s.traceEnd c).pending = s.pending := by
  unfold State.traceEnd
  split <;> simp

@[simp] theorem State.spurDraws_pending (s : State) (k n : Nat) (part : Option Nat) : (s.spurDraws k n part).pending = s.pending := by
  unfold State.spurDraws
  dsimp only
  repeat' split
  all_goals simp

@[simp] theorem State.endCmd_pending (s : State) (c0 : Cmd) (paddock hbm : Nat) (force : Bool) :
    (s.endCmd c0 paddock hbm force).pending = s.pending := by
  unfold State.endCmd
  dsimp only
  repeat' split
  all_goals simp

@[simp] theorem State.complete_pending (s : State) (id paddock hbm : Nat) : (s.complete id paddock hbm).pending = s.pending := by
  unfold State.complete
  repeat' split
  all_goals simp

/-! ## Memory requests -/

@[simp] theorem State.setFrame_pending (s : State) (f o : Nat) : (s.setFrame f o).pending = s.pending := rfl
@[simp] theorem State.setGranule_pending (s : State) (g o : Nat) : (s.setGranule g o).pending = s.pending := rfl

@[simp] theorem State.syncMemory_pending (s : State) (t : Nat) : (s.syncMemory t).pending = s.pending := (s.objectsOnly_syncMemory t).pending

@[simp] theorem State.addDelayed_pending (s : State) (r : DelayedReq) : (s.addDelayed r).pending = s.pending := rfl
@[simp] theorem State.giveResult_pending (s : State) (res v : Nat) (r : DelayedReq) : (s.giveResult res v r).pending = s.pending := rfl

theorem State.setGranules_pending (s : State) (o : Nat) (l : List Nat) :
    (l.foldl (fun (acc : State) g => acc.setGranule g o) s).pending = s.pending :=
  State.pending_foldl (fun x g => x.setGranule_pending g o) l s

@[simp] theorem State.paddockAllocate_pending (s : State) (t v seq : Nat) : (s.paddockAllocate t v seq).pending = s.pending := by
  unfold State.paddockAllocate
  dsimp only
  split <;> simp [State.setGranules_pending]

@[simp] theorem State.paddockAllocated_pending (s : State) (t : Nat) : (s.paddockAllocated t).pending = s.pending := by
  unfold State.paddockAllocated
  dsimp only
  repeat' split
  all_goals simp

@[simp] theorem State.noteGone_pending (s : State) (c : Cmd) : (s.noteGone c).pending = s.pending := by
  unfold State.noteGone
  split <;> simp

@[simp] theorem State.goneFor_pending (s : State) (t : Option Nat) : (s.goneFor t).pending = s.pending := by
  simp [State.goneFor, State.pending_foldl]

@[simp] theorem State.paddockFree_pending (s : State) (t v seq : Nat) : (s.paddockFree t v seq).pending = s.pending := by
  unfold State.paddockFree
  dsimp only
  repeat' split
  all_goals simp

@[simp] theorem State.releaseGranule_pending (s : State) (g : Nat) : (s.releaseGranule g).pending = s.pending := by
  unfold State.releaseGranule
  split <;> simp

@[simp] theorem State.paddockFreed_pending (s : State) (t : Nat) : (s.paddockFreed t).pending = s.pending := by
  unfold State.paddockFreed
  dsimp only
  repeat' split
  all_goals simp [State.pending_foldl]

theorem State.setFrames_pending (s : State) (o : Nat) (l : List Nat) : (l.foldl (fun (acc : State) f => acc.setFrame f o) s).pending = s.pending :=
  State.pending_foldl (fun x f => x.setFrame_pending f o) l s

@[simp] theorem State.frameRequest_pending (s : State) (v seq : Nat) : (s.frameRequest v seq).pending = s.pending := by
  unfold State.frameRequest
  extract_lets st o who wait s0 s1
  have h0 : s0.pending = s.pending := by
    unfold s0
    split <;> simp
  have h1 : s1.pending = s0.pending := by
    unfold s1
    split <;> simp [State.setFrames_pending]
  rw [State.syncMemory_pending, State.addDelayed_pending, h1, h0]

@[simp] theorem State.framesAssigned_pending (s : State) : s.framesAssigned.pending = s.pending := by
  unfold State.framesAssigned
  split
  · rfl
  · split
    · rfl
    · extract_lets lo o s1
      have h1 : s1.pending = s.pending := by
        unfold s1
        split <;> simp [State.setFrames_pending]
      rw [State.syncMemory_pending, State.giveResult_pending, h1]

@[simp] theorem State.releaseFrame_pending (s : State) (f : Nat) : (s.releaseFrame f).pending = s.pending := by
  unfold State.releaseFrame
  dsimp only
  repeat' split
  all_goals simp

@[simp] theorem State.framesReleased_pending (s : State) : s.framesReleased.pending = s.pending := by
  unfold State.framesReleased
  dsimp only
  repeat' split
  all_goals simp [State.pending_foldl]

@[simp] theorem State.tlbInvalidate_pending (s : State) (t v seq : Nat) : (s.tlbInvalidate t v seq).pending = s.pending := rfl

@[simp] theorem State.tlbInvalidated_pending (s : State) (t : Nat) : (s.tlbInvalidated t).pending = s.pending := by
  unfold State.tlbInvalidated
  dsimp only
  repeat' split
  all_goals simp

@[simp] theorem State.correctedEvent_pending (s : State) (kind source : Nat) (due : Bool) :
    (s.correctedEvent kind source due).pending = s.pending := by
  unfold State.correctedEvent
  split <;> simp

@[simp] theorem State.eccCorrected_pending (s : State) (site : EccSite) (due : Bool) : (s.eccCorrected site due).pending = s.pending := by
  unfold State.eccCorrected
  split <;> simp

@[simp] theorem State.poisonLine_pending (s : State) (line : Nat) : (s.poisonLine line).pending = s.pending := by
  unfold State.poisonLine
  dsimp only
  repeat' split
  all_goals simp

@[simp] theorem State.paddockBad_pending (s : State) (g off : Nat) (bad : List Nat) (due : Bool) :
    (s.paddockBad g off bad due).pending = s.pending := by
  unfold State.paddockBad
  dsimp only
  repeat' split
  all_goals simp [State.pending_foldl]

@[simp] theorem State.hbmBad_pending (s : State) (line : Nat) (due : Bool) : (s.hbmBad line due).pending = s.pending := by
  unfold State.hbmBad
  split <;> simp

/-! ## Stables, quarters and faults -/

@[simp] theorem State.staticCheck_pending (s : State) : s.staticCheck.pending = s.pending := State.pending_of_quiet s.quiet_staticCheck

@[simp] theorem State.capacityEvent_pending (s : State) (q : Nat) : (s.capacityEvent q).pending = s.pending :=
  State.pending_foldl (fun x t => x.tenantEvent_pending t 4) _ s

@[simp] theorem State.syncActive_pending (s : State) (q : Nat) : (s.syncActive q).pending = s.pending := rfl

@[simp] theorem State.dealAll_pending (s : State) (p : Nat) : (s.dealAll p).pending = s.pending := (s.dealsOnly_dealAll p).pending

@[simp] theorem State.vacate_pending (s : State) (l : Option Nat) : (s.vacate l).pending = s.pending := by
  unfold State.vacate
  split <;> simp

@[simp] theorem State.retireStable_pending (s : State) (p cause : Nat) : (s.retireStable p cause).pending = s.pending := by
  unfold State.retireStable
  dsimp only
  repeat' split
  all_goals simp

@[simp] theorem State.joinQuarter_pending (s : State) (p l : Nat) : (s.joinQuarter p l).pending = s.pending :=
  (State.capacityEvent_pending _ _).trans (State.event_pending _ _)

@[simp] theorem State.spareActivate_pending (s : State) (q : Nat) (ok : Bool) : (s.spareActivate q ok).pending = s.pending := by
  unfold State.spareActivate
  repeat' split
  all_goals simp

@[simp] theorem State.residueMismatch_pending (s : State) (id ti ns : Nat) : (s.residueMismatch id ti ns).pending = s.pending := by
  unfold State.residueMismatch
  dsimp only
  repeat' split
  all_goals simp

@[simp] theorem State.watchdog_pending (s : State) (p ns : Nat) : (s.watchdog p ns).pending = s.pending := by
  unfold State.watchdog
  split <;> simp

@[simp] theorem State.loseWork_pending (s : State) (p : Nat) : (s.loseWork p).pending = s.pending := by
  unfold State.loseWork
  split <;> simp

@[simp] theorem State.quarterOut_pending (s : State) (q : Nat) : (s.quarterOut q).pending = s.pending := by
  simp [State.quarterOut, State.pending_foldl, apply_ite State.pending]

@[simp] theorem State.quarterBack_pending (s : State) (q : Nat) : (s.quarterBack q).pending = s.pending := by
  simp [State.quarterBack, State.pending_foldl, apply_ite State.pending]

@[simp] theorem State.repairDone_pending (s : State) (p : Nat) (ok : Bool) : (s.repairDone p ok).pending = s.pending := by
  unfold State.repairDone
  dsimp only
  repeat' split
  all_goals simp

@[simp] theorem State.repairRequest_pending (s : State) (p : Nat) : (s.repairRequest p).pending = s.pending := rfl

@[simp] theorem State.zeroPaddock_pending (s : State) (q : Nat) : (s.zeroPaddock q).pending = s.pending := State.withMem_pending _ _

@[simp] theorem State.scrubDone_pending (s : State) (kind unit : Nat) (ok : Bool) : (s.scrubDone kind unit ok).pending = s.pending := by
  unfold State.scrubDone
  dsimp only
  split
  · split
    · split
      · rw [State.zeroPaddock_pending, State.withPower_pending]
      · exact State.withPower_pending _ _
    · split
      · split
        · rw [State.setObj_pending, State.putStable_pending, State.withPower_pending]
        · rw [State.putStable_pending, State.withPower_pending]
      · rw [State.retireStable_pending, State.withPower_pending]
  · split
    · exact s.repairDone_pending _ _
    · rfl

@[simp] theorem State.startScrubs_pending (s : State) : s.startScrubs.pending = s.pending := rfl
@[simp] theorem State.newEpoch_pending (s : State) : s.newEpoch.pending = s.pending := rfl

@[simp] theorem State.fatalFault_pending (s : State) (e : EventRec) (clear : Nat) : (s.fatalFault e clear).pending = s.pending := by
  unfold State.fatalFault
  split <;> simp

@[simp] theorem State.portsDown_pending (s : State) (n : Nat) : (s.portsDown n).pending = s.pending := by
  simp [State.portsDown, State.pending_foldl, apply_ite State.pending]

@[simp] theorem State.deviceFatal_pending (s : State) (code source unit : Nat) : (s.deviceFatal code source unit).pending = s.pending := by
  unfold State.deviceFatal
  dsimp only
  repeat' split
  all_goals simp

@[simp] theorem State.grantBad_pending (s : State) (id : Nat) (staging : Bool) : (s.grantBad id staging).pending = s.pending := by
  unfold State.grantBad
  dsimp only
  repeat' split
  all_goals simp

@[simp] theorem State.eccBad_pending (s : State) (site : BadSite) (due : Bool) : (s.eccBad site due).pending = s.pending := by
  unfold State.eccBad
  repeat' split
  all_goals simp

@[simp] theorem State.patrol_pending (s : State) (find : Option (EccSite × Bool)) (due : Bool) : (s.patrol find due).pending = s.pending := by
  unfold State.patrol
  repeat' split
  all_goals simp

@[simp] theorem State.retireRequest_pending (s : State) (p : Nat) : (s.retireRequest p).pending = s.pending := by simp [State.retireRequest]

/-! ## Tenants and the carousel -/

@[simp] theorem State.chargeSpent_pending (s : State) (l : List (Nat × Nat)) : (s.chargeSpent l).pending = s.pending := by
  refine State.pending_foldl (fun x a => ?_) l s
  split <;> simp

@[simp] theorem State.chargeMove_pending (s : State) (t ns : Nat) : (s.chargeMove t ns).pending = s.pending := rfl
@[simp] theorem State.letGo_pending (s : State) (t : Nat) : (s.letGo t).pending = s.pending := rfl

@[simp] theorem State.dismounted_pending (s : State) (t ns : Nat) (spent : List (Nat × Nat)) : (s.dismounted t ns spent).pending = s.pending := by
  unfold State.dismounted
  extract_lets acts area mine toSave tiles used area' wr r s1 s2 s3 v s4
  clear_value wr
  have hr : r.1.pending = s.pending := by
    unfold r
    split
    · exact s.withMem_pending _
    · exact s.event_pending _
  have h2 : s2.pending = s1.pending := by
    refine State.pending_foldl (fun x c0 => ?_) mine s1
    split
    · split
      · exact x.setCmd_pending _
      · rfl
    · rfl
  have h1 : s1.pending = r.1.pending := by simp [s1]
  have h4 : s4.pending = s2.pending := by simp [s4, s3]
  split
  · rfl
  · rw [State.holdTenant_pending, h4, h2, h1, hr]

@[simp] theorem State.overrun_pending (s : State) (t : Nat) : (s.overrun t).pending = s.pending := by
  unfold State.overrun
  dsimp only
  split <;> simp

@[simp] theorem State.loadTile_pending (s : State) (taken : List Nat) (area : List Byte) (x : Nat × Nat × Nat) :
    (s.loadTile taken area x).1.pending = s.pending := by
  unfold State.loadTile
  dsimp only
  repeat' split
  all_goals simp

@[simp] theorem State.restore_pending (s : State) (t : Nat) : (s.restore t).pending = s.pending := by
  unfold State.restore
  dsimp only
  split
  · rfl
  · split
    · rw [State.withMem_pending, State.pending_foldl_fst (fun x a => x.1.loadTile_pending x.2 _ a)]
    · refine State.pending_foldl (fun x a => ?_) _ s
      split
      · exact x.setTile_pending _ _ _
      · rfl

@[simp] theorem State.resumeWithout_pending (s : State) (id : Nat) : (s.resumeWithout id).pending = s.pending := by
  unfold State.resumeWithout
  dsimp only
  repeat' split
  all_goals simp

@[simp] theorem State.resumed_pending (s : State) (t ns : Nat) : (s.resumed t ns).pending = s.pending := by
  simp [State.resumed, State.pending_foldl, apply_ite State.pending]

@[simp] theorem State.tenantEnable_pending (s : State) (t v : Nat) : (s.tenantEnable t v).pending = s.pending := by
  unfold State.tenantEnable
  dsimp only
  repeat' split
  all_goals simp

@[simp] theorem State.tenantHold_pending (s : State) (t v : Nat) : (s.tenantHold t v).pending = s.pending := by
  unfold State.tenantHold
  split <;> simp

@[simp] theorem State.tenantReset_pending (s : State) (t : Nat) : (s.tenantReset t).pending = s.pending := by
  unfold State.tenantReset
  dsimp only
  split
  · rfl
  · rw [State.pending_foldl (fun x c => ?_), State.pending_foldl (fun x c => x.abortColl_pending c _ _ _)]
    · simp
    · split
      · rfl
      · split <;> simp

@[simp] theorem State.clearQueue_pending (s : State) (q : Nat) : (s.clearQueue q).pending = s.pending :=
  (State.setQueue_pending _ _ _).trans (State.setObj_pending _ _ _)

@[simp] theorem State.clearEntries_pending (s : State) (t : Nat) : (s.clearEntries t).pending = s.pending := by
  unfold State.clearEntries
  dsimp only
  rw [State.returned_pending]
  refine (State.pending_foldl_fst (fun x ix => ?_) _ _).trans rfl
  exact x.1.retire_pending t ix 0 none false

@[simp] theorem State.resetComplete_pending (s : State) (t : Nat) (spent : List (Nat × Nat)) : (s.resetComplete t spent).pending = s.pending := by
  unfold State.resetComplete
  extract_lets mine s0 order s1 group s2 s3 held s4 s5 s6
  have h1 : s1.pending = s0.pending := by
    refine State.pending_foldl (fun x c => ?_) order s0
    extract_lets a
    have ha : a.pending = x.pending := by
      unfold a
      repeat' split
      all_goals simp
    split
    · rw [State.endCmd_pending, ha]
    · exact ha
  have h5 : s5.pending = s4.pending := by
    unfold s5
    rw [State.pending_foldl (fun x n => x.clearQueue_pending _), State.dropWaits_pending]
  split
  · rfl
  · rw [State.preemptCheck_pending, State.setObj_pending]
    unfold s6
    rw [State.event_pending, State.setObj_pending, h5]
    unfold s4 s3
    rw [State.returnBufs_pending, State.clearEntries_pending]
    exact h1.trans (s.chargeSpent_pending spent)

@[simp] theorem State.functionReset_pending (s : State) (f : Nat) : (s.functionReset f).pending = s.pending :=
  State.pending_foldl State.tenantReset_pending _ s

@[simp] theorem State.slotRequests_pending (s : State) (p : Nat) : (s.slotRequests p).pending = s.pending := (s.runStatesOnly_slotRequests p).pending

@[simp] theorem State.majorFrame_pending (s : State) : s.majorFrame.pending = s.pending := rfl

@[simp] theorem State.slotBoundary_pending (s : State) : s.slotBoundary.pending = s.pending := by
  unfold State.slotBoundary
  dsimp only
  rw [State.pending_foldl State.slotRequests_pending]
  split
  · exact s.majorFrame_pending
  · rfl

@[simp] theorem State.timeRole_pending (s : State) (v : Nat) : (s.timeRole v).pending = s.pending := rfl

@[simp] theorem State.sendTime_pending (s : State) (frame phase hops : Nat) (but : Option Nat) :
    (s.sendTime frame phase hops but).pending = s.pending := by
  simp [State.sendTime, State.pending_foldl]

@[simp] theorem State.masterTick_pending (s : State) (phase : Nat) : (s.masterTick phase).pending = s.pending := by
  unfold State.masterTick
  dsimp only
  split <;> simp

@[simp] theorem State.adoptTime_pending (s : State) (p frame there phase hops : Nat) :
    (s.adoptTime p frame there phase hops).pending = s.pending := by
  unfold State.adoptTime
  dsimp only
  repeat' split
  all_goals simp

@[simp] theorem State.timeReceived_pending (s : State) (p : Nat) (k : Packet) (phase : Nat) : (s.timeReceived p k phase).pending = s.pending := by
  unfold State.timeReceived
  dsimp only
  repeat' split
  all_goals simp

@[simp] theorem State.delayMeasured_pending (s : State) (p ns : Nat) : (s.delayMeasured p ns).pending = s.pending := by
  unfold State.delayMeasured
  split <;> simp

@[simp] theorem State.timeLost_pending (s : State) : s.timeLost.pending = s.pending := by
  unfold State.timeLost
  dsimp only
  split <;> simp

/-! ## Resets -/

@[simp] theorem State.freeAll_pending (s : State) : s.freeAll.pending = s.pending := by
  simp [State.freeAll, State.pending_foldl]

@[simp] theorem State.hostReset_pending (s : State) : s.hostReset.pending = s.pending := by simp [State.hostReset]

@[simp] theorem State.memoryLost_pending (s : State) : s.memoryLost.pending = s.pending := rfl
@[simp] theorem State.streamsLost_pending (s : State) : s.streamsLost.pending = s.pending := rfl
@[simp] theorem State.supplyLost_pending (s : State) : s.supplyLost.pending = s.pending := rfl

@[simp] theorem State.railsOff_pending (s : State) : s.railsOff.pending = s.pending := by
  unfold State.railsOff
  dsimp only
  split
  · rfl
  · rw [State.pending_foldl (fun _ _ => by rfl)]
    simp

/-! ## Power and gaits -/

@[simp] theorem State.divider_pending (s : State) (g cause : Nat) : (s.divider g cause).pending = s.pending := by simp [State.divider]

@[simp] theorem State.changeGait_pending (s : State) (g cause : Nat) : (s.changeGait g cause).pending = s.pending := by simp [State.changeGait]

@[simp] theorem State.setRail_pending (s : State) (q tenths : Nat) : (s.setRail q tenths).pending = s.pending := rfl
@[simp] theorem State.settleRail_pending (s : State) (g q : Nat) : (s.settleRail g q).pending = s.pending := rfl

@[simp] theorem State.raiseRails_pending (s : State) (g : Nat) : (s.raiseRails g).pending = s.pending := by
  simp [State.raiseRails, State.pending_foldl, apply_ite State.pending]

@[simp] theorem State.reselect_pending (s : State) (downCause upCause : Nat) : (s.reselect downCause upCause).pending = s.pending := by
  unfold State.reselect
  dsimp only
  repeat' split
  all_goals simp

@[simp] theorem State.gaitUp_pending (s : State) : s.gaitUp.pending = s.pending := by
  unfold State.gaitUp
  split <;> simp

@[simp] theorem State.startGait_pending (s : State) : s.startGait.pending = s.pending := rfl

@[simp] theorem State.gaitCeiling_pending (s : State) (v : Nat) : (s.gaitCeiling v).pending = s.pending := by simp [State.gaitCeiling]

@[simp] theorem State.reinAssert_pending (s : State) (late : Bool) : (s.reinAssert late).pending = s.pending := by
  unfold State.reinAssert
  dsimp only
  repeat' split
  all_goals simp

@[simp] theorem State.reinDeassert_pending (s : State) : s.reinDeassert.pending = s.pending := by
  unfold State.reinDeassert
  split <;> simp

@[simp] theorem State.reinExpire_pending (s : State) : s.reinExpire.pending = s.pending := by
  unfold State.reinExpire
  split <;> simp

@[simp] theorem State.powerTick_pending (s : State) (watts mv : Nat) (due : Bool) : (s.powerTick watts mv due).pending = s.pending := by
  unfold State.powerTick
  dsimp only
  repeat' split
  all_goals simp

@[simp] theorem State.powerRaise_pending (s : State) : s.powerRaise.pending = s.pending := by
  unfold State.powerRaise
  split <;> simp

@[simp] theorem State.powerStall_pending (s : State) : s.powerStall.pending = s.pending := by
  unfold State.powerStall
  split <;> simp

@[simp] theorem State.thermalTick_pending (s : State) (points hbm : List Int) : (s.thermalTick points hbm).pending = s.pending := by
  unfold State.thermalTick
  extract_lets s1 s2
  have h2 : s2.pending = s.pending := (s.objectsOnly_temperaturesTaken points hbm).pending
  split
  · rfl
  · split
    · exact h2
    · rw [State.reselect_pending, State.withPower_pending, h2]

@[simp] theorem State.thermalRaise_pending (s : State) : s.thermalRaise.pending = s.pending := by
  unfold State.thermalRaise
  dsimp only
  split <;> simp

@[simp] theorem State.coolingEnter_pending (s : State) (q : Nat) : (s.coolingEnter q).pending = s.pending := by
  unfold State.coolingEnter
  dsimp only
  split <;> simp

@[simp] theorem State.coolingLeave_pending (s : State) (q : Nat) : (s.coolingLeave q).pending = s.pending := by
  unfold State.coolingLeave
  split <;> simp

@[simp] theorem State.droop_pending (s : State) (q : Nat) : (s.droop q).pending = s.pending := by
  unfold State.droop
  split <;> simp

@[simp] theorem State.droopEnd_pending (s : State) (q : Nat) : (s.droopEnd q).pending = s.pending := rfl

@[simp] theorem State.canaryLow_pending (s : State) (q : Nat) (failure : Bool) : (s.canaryLow q failure).pending = s.pending := by
  unfold State.canaryLow
  dsimp only
  repeat' split
  all_goals simp

@[simp] theorem State.stepDown_pending (s : State) (q : Nat) : (s.stepDown q).pending = s.pending := by
  unfold State.stepDown
  dsimp only
  repeat' split
  all_goals simp

@[simp] theorem State.trip_pending (s : State) (cause : Nat) : (s.trip cause).pending = s.pending := by
  unfold State.trip
  split <;> simp

@[simp] theorem State.inputOut_pending (s : State) (mv : Nat) : (s.inputOut mv).pending = s.pending := by
  unfold State.inputOut
  dsimp only
  repeat' split
  all_goals simp

@[simp] theorem State.inputBack_pending (s : State) (mv : Nat) : (s.inputBack mv).pending = s.pending := by
  unfold State.inputBack
  split <;> simp

@[simp] theorem State.coolant_pending (s : State) (inlet outlet : Int) : (s.coolant inlet outlet).pending = s.pending := by
  unfold State.coolant
  dsimp only
  repeat' split
  all_goals simp

@[simp] theorem State.lockstep_pending (s : State) : s.lockstep.pending = s.pending := by
  unfold State.lockstep
  dsimp only
  repeat' split
  all_goals simp

@[simp] theorem State.clockFault_pending (s : State) : s.clockFault.pending = s.pending := by
  unfold State.clockFault
  split <;> simp

@[simp] theorem State.refclkLoss_pending (s : State) : s.refclkLoss.pending = s.pending := by
  unfold State.refclkLoss
  split <;> simp

@[simp] theorem State.pllLoss_pending (s : State) : s.pllLoss.pending = s.pending := by
  unfold State.pllLoss
  split <;> simp

@[simp] theorem State.srefclkLoss_pending (s : State) : s.srefclkLoss.pending = s.pending := by
  unfold State.srefclkLoss
  split <;> simp

@[simp] theorem State.trainPorts_pending (s : State) : s.trainPorts.pending = s.pending := by
  refine State.pending_foldl (fun x p => ?_) _ s
  split <;> simp

@[simp] theorem State.srefclkRestore_pending (s : State) : s.srefclkRestore.pending = s.pending := by
  unfold State.srefclkRestore
  dsimp only
  repeat' split
  all_goals simp

/-! ## The boot and staging -/

@[simp] theorem State.setSlot_pending (s : State) (i : Nat) (f : FwSlot) : (s.setSlot i f).pending = s.pending := rfl
@[simp] theorem State.setStage_pending (s : State) (v : Nat) : (s.setStage v).pending = s.pending := rfl
@[simp] theorem State.stageBegin_pending (s : State) (m : Nat) : (s.stageBegin m).pending = s.pending := rfl

@[simp] theorem State.stageChunk_pending (s : State) (chunk : List Byte) : (s.stageChunk chunk).pending = s.pending := by
  unfold State.stageChunk
  dsimp only
  repeat' split
  all_goals simp

@[simp] theorem State.stageActivate_pending (s : State) : s.stageActivate.pending = s.pending := by
  unfold State.stageActivate
  split <;> simp

@[simp] theorem State.stageAbandon_pending (s : State) : s.stageAbandon.pending = s.pending := rfl

@[simp] theorem State.stageTimeout_pending (s : State) : s.stageTimeout.pending = s.pending := by
  unfold State.stageTimeout
  split <;> simp

theorem State.stageVerify_pending {apply : State → List Byte → State} (happly : ∀ s b, (apply s b).pending = s.pending) (s : State) :
    (s.stageVerify apply).pending = s.pending := by
  unfold State.stageVerify
  dsimp only
  repeat' split
  all_goals simp [happly]

@[simp] theorem State.logFlush_pending (s : State) : s.logFlush.pending = s.pending := by
  unfold State.logFlush
  dsimp only
  split <;> simp

@[simp] theorem State.trySlot_pending (s : State) (fails i : Nat) : (s.trySlot fails i).1.pending = s.pending := by
  unfold State.trySlot
  repeat' split
  all_goals simp

@[simp] theorem State.pickSlot_pending (s : State) (active : Nat) (pending : Bool) (fails : Nat) :
    (s.pickSlot active pending fails).1.pending = s.pending := by
  unfold State.pickSlot
  dsimp only
  repeat' split
  all_goals simp

@[simp] theorem State.bootObjects_pending (s : State) (slot : Nat) : (s.bootObjects slot).pending = s.pending := by
  unfold State.bootObjects
  dsimp only
  rw [State.timeRole_pending, State.setObj_pending, State.pending_foldl (fun _ _ => by rfl)]
  simp

@[simp] theorem State.railsOn_pending (s : State) : s.railsOn.pending = s.pending := by
  unfold State.railsOn
  dsimp only
  repeat' split
  all_goals simp

@[simp] theorem State.railsAwaited_pending (s : State) : s.railsAwaited.pending = s.pending := by
  unfold State.railsAwaited
  split <;> simp

@[simp] theorem State.bootClean_pending (s : State) (mv : Nat) (left : List (Nat × Nat × Nat)) : (s.bootClean mv left).pending = s.pending := rfl

@[simp] theorem State.bootLatched_pending (s : State) (latched : List (Nat × Nat × Nat)) : (s.bootLatched latched).pending = s.pending := by
  simp [State.bootLatched, State.pending_foldl]

@[simp] theorem State.bootFrom_pending (s : State) (slot : Nat) (activated : Bool) : (s.bootFrom slot activated).pending = s.pending := by
  unfold State.bootFrom
  dsimp only
  repeat' split
  all_goals simp

@[simp] theorem State.ostlerBoot_pending (s : State) (fails mv : Nat) : (s.ostlerBoot fails mv).pending = s.pending := by
  unfold State.ostlerBoot
  dsimp only
  repeat' split
  all_goals simp

end Sys2Proof.Machine

/-! SUPPORT. The functions of registers, observation, objects, the Tack engine and the pins keep the commands that wait. -/

namespace Sys2Proof.Machine

/-! ## Queues and registers -/

@[simp] theorem State.doorbellRange_pending (s : State) (q v : Nat) : (s.doorbellRange q v).pending = s.pending := by
  unfold State.doorbellRange
  split <;> simp

@[simp] theorem State.sqTailWrite_pending (s : State) (f q v : Nat) : (s.sqTailWrite f q v).pending = s.pending := by
  unfold State.sqTailWrite
  dsimp only
  repeat' split
  all_goals simp

@[simp] theorem State.cqHeadWrite_pending (s : State) (f q v : Nat) : (s.cqHeadWrite f q v).pending = s.pending := by
  unfold State.cqHeadWrite
  dsimp only
  repeat' split
  all_goals simp

@[simp] theorem State.tenantEventsClear_pending (s : State) (f t v : Nat) : (s.tenantEventsClear f t v).pending = s.pending := by
  unfold State.tenantEventsClear
  split <;> simp

@[simp] theorem State.evqCtrlWrite_pending (s : State) (v : Nat) : (s.evqCtrlWrite v).pending = s.pending := by
  unfold State.evqCtrlWrite
  dsimp only
  repeat' split
  all_goals simp

@[simp] theorem State.evqHeadWrite_pending (s : State) (v : Nat) : (s.evqHeadWrite v).pending = s.pending := by
  unfold State.evqHeadWrite
  dsimp only
  repeat' split
  all_goals simp

@[simp] theorem State.evqBaseLoWrite_pending (s : State) (v : Nat) : (s.evqBaseLoWrite v).pending = s.pending := by
  unfold State.evqBaseLoWrite
  split <;> simp

@[simp] theorem State.evqBaseHiWrite_pending (s : State) (v : Nat) : (s.evqBaseHiWrite v).pending = s.pending := by
  unfold State.evqBaseHiWrite
  split <;> simp

@[simp] theorem State.overflowRecord_pending (s : State) : s.overflowRecord.pending = s.pending := by
  unfold State.overflowRecord
  dsimp only
  split <;> simp

@[simp] theorem State.irqDelayExpire_pending (s : State) (q : Nat) : (s.irqDelayExpire q).pending = s.pending := by
  unfold State.irqDelayExpire
  dsimp only
  split <;> simp

@[simp] theorem State.queueCfgWrite_pending (s : State) (q c : Nat) : (s.queueCfgWrite q c).pending = s.pending := by
  unfold State.queueCfgWrite
  dsimp only
  repeat' split
  all_goals simp

@[simp] theorem State.queueDrained_pending (s : State) (q : Nat) : (s.queueDrained q).pending = s.pending := by
  unfold State.queueDrained
  dsimp only
  repeat' split
  all_goals simp

@[simp] theorem State.bar4Write_pending (s : State) (f off size v : Nat) : (s.bar4Write f off size v).pending = s.pending := by
  unfold State.bar4Write
  split <;> simp

/-! ## Observation -/

@[simp] theorem State.attribQuota_pending (s : State) (t v : Nat) : (s.attribQuota t v).pending = s.pending := rfl

@[simp] theorem State.traceEnable_pending (s : State) (v : Nat) : (s.traceEnable v).pending = s.pending := by
  unfold State.traceEnable
  split <;> simp

@[simp] theorem State.traceFrameSend_pending (s : State) (due : Bool) : (s.traceFrameSend due).pending = s.pending := by
  unfold State.traceFrameSend
  dsimp only
  repeat' split
  all_goals simp

@[simp] theorem State.utilisation_pending (s : State) (quarters ports : List Nat) (whole : List Bool) :
    (s.utilisation quarters ports whole).pending = s.pending := by
  unfold State.utilisation
  rw [State.pending_foldl (fun _ _ => ?_), State.pending_foldl (fun _ _ => ?_)]
  · rfl
  · rfl

@[simp] theorem State.syncSpur_pending (s : State) : s.syncSpur.pending = s.pending := rfl

@[simp] theorem State.spurEnable_pending (s : State) (v : Nat) : (s.spurEnable v).pending = s.pending := by
  unfold State.spurEnable
  dsimp only
  repeat' split
  all_goals simp

@[simp] theorem State.spurLock_pending (s : State) (v : Nat) : (s.spurLock v).pending = s.pending := by
  unfold State.spurLock
  dsimp only
  repeat' split
  all_goals simp

/-! ## Hang analysis -/

@[simp] theorem State.hangReport_pending (s : State) (kind : Nat) (path0 : List HangNode) : (s.hangReport kind path0).pending = s.pending :=
  by simp [State.hangReport]

@[simp] theorem State.setScan_pending (s : State) (h : HangScan) : (s.setScan h).pending = s.pending := rfl

@[simp] theorem State.hangGo_pending (s : State) (h : HangScan) : (s.hangGo h).pending = s.pending := by
  unfold State.hangGo
  dsimp only
  repeat' split
  all_goals simp [State.pending_foldl]

@[simp] theorem State.hangDetect_pending (s : State) (f : From) (others : List From) : (s.hangDetect f others).pending = s.pending := by
  unfold State.hangDetect
  dsimp only
  repeat' split
  all_goals simp

@[simp] theorem State.hangTimeout_pending (s : State) (id : Nat) : (s.hangTimeout id).pending = s.pending := by
  unfold State.hangTimeout
  repeat' split
  all_goals simp

@[simp] theorem State.hangAnswer_pending (s : State) (held : List Src) (src analysis dev post job : Nat) :
    (s.hangAnswer held src analysis dev post job).pending = s.pending := by
  unfold State.hangAnswer
  dsimp only
  split <;> simp

@[simp] theorem State.hangReply_pending (s : State) (src analysis dev post value owner : Nat) (nodes : List HangNode) :
    (s.hangReply src analysis dev post value owner nodes).pending = s.pending := by
  unfold State.hangReply
  dsimp only
  repeat' split
  all_goals simp

@[simp] theorem State.applyManagement_pending (s : State) (stalled : List From) (k : Packet) :
    (State.applyManagement stalled s k).pending = s.pending := by
  unfold State.applyManagement
  split <;> simp

@[simp] theorem State.mgmtReceive_pending (s : State) (stalled : List From) (k : Packet) : (s.mgmtReceive stalled k).pending = s.pending := by
  unfold State.mgmtReceive
  split
  · rfl
  · exact State.e2eReceive_pending (fun x => x.applyManagement_pending stalled) s k

/-! ## Writes of objects -/

@[simp] theorem State.numbersChanged_pending (s : State) : s.numbersChanged.pending = s.pending :=
  (State.pending_foldl State.sendDiscovery_pending _ _).trans s.recheckPeers_pending

@[simp] theorem State.loseAddress_pending (s : State) (cause : Nat) : (s.loseAddress cause).pending = s.pending := by
  unfold State.loseAddress
  split <;> simp

@[simp] theorem State.boroughWrite_pending (s : State) (v : Nat) : (s.boroughWrite v).pending = s.pending := State.numbersChanged_pending _

@[simp] theorem State.linkEnableWrite_pending (s : State) (p v : Nat) : (s.linkEnableWrite p v).pending = s.pending := by
  unfold State.linkEnableWrite
  dsimp only
  repeat' split
  all_goals simp

@[simp] theorem State.lineageModeWrite_pending (s : State) (i v : Nat) : (s.lineageModeWrite i v).pending = s.pending := by
  unfold State.lineageModeWrite
  split <;> simp

@[simp] theorem State.stableFlagsClear_pending (s : State) (v : Nat) : (s.stableFlagsClear v).pending = s.pending := by
  unfold State.stableFlagsClear
  split
  · exact State.pending_foldl (fun _ _ => by rfl) _ s
  · rfl

@[simp] theorem State.mainRails_pending (s : State) (v : Nat) : (s.mainRails v).pending = s.pending := by
  unfold State.mainRails
  dsimp only
  repeat' split
  all_goals simp

@[simp] theorem State.postRangeWrite_pending (s : State) (t v : Nat) : (s.postRangeWrite t v).pending = s.pending := rfl

@[simp] theorem State.applyTenant_pending (s : State) (t sub key v seq : Nat) : (s.applyTenant t sub key v seq).pending = s.pending := by
  unfold State.applyTenant
  split
  · exact s.queueCfgWrite_pending _ v
  · split
    · exact s.tenantEnable_pending t v
    · exact s.tenantReset_pending t
    · exact s.tenantHold_pending t v
    · exact s.setObj_pending _ _
    · split
      · exact s.paddockFree_pending t v seq
      · exact s.paddockAllocate_pending t v seq
    · exact s.tlbInvalidate_pending t v seq
    · exact (State.syncStalls_pending _ t).trans (s.setObj_pending _ _)
    · exact (State.syncRemuda_pending _ t).trans (s.setObj_pending _ _)
    · exact s.answerObj_pending _ _ _
    · exact (State.syncBufs_pending _ t).trans (s.setObj_pending _ _)
    · exact s.postRangeWrite_pending t v
    · exact s.answerObj_pending _ _ _
    · exact s.attribQuota_pending t v
    · exact s.answerObj_pending _ _ _
    · exact s.setObj_pending _ _

theorem State.stageCommand_pending {apply : State → List Byte → State} (happly : ∀ s b, (apply s b).pending = s.pending) (s : State)
    (master v : Nat) : (s.stageCommand master v apply).pending = s.pending := by
  unfold State.stageCommand
  split
  · simp
  · exact State.stageVerify_pending happly s
  · simp
  · simp

theorem State.applyEffect_pending {apply : State → List Byte → State} (happly : ∀ s b, (apply s b).pending = s.pending) (s : State)
    (master key v seq : Nat) : (s.applyEffect master key v seq apply).pending = s.pending := by
  unfold State.applyEffect
  dsimp only
  split
  · exact s.applyTenant_pending _ _ _ _ _
  · split
    · exact s.loseAddress_pending 0
    · exact s.queueCfgWrite_pending _ v
    · exact s.gaitCeiling_pending v
    · exact s.mainRails_pending v
    · exact s.frameRequest_pending v seq
    · split
      · exact s.timeRole_pending v
      · exact s.setObj_pending _ _
    · exact s.boroughWrite_pending v
    · exact s.linkEnableWrite_pending _ v
    · exact s.lineageModeWrite_pending _ v
    · exact s.answerObj_pending _ _ _
    · exact s.stableFlagsClear_pending v
    · exact s.retireRequest_pending v
    · split
      · exact s.repairRequest_pending v
      · rfl
    · exact s.traceEnable_pending v
    · exact s.spurLock_pending v
    · exact s.spurEnable_pending v
    · exact s.stageChunk_pending _
    · exact State.stageCommand_pending happly s master v
    · exact s.answerObj_pending _ _ _
    · exact s.setObj_pending _ _

theorem State.applyWriteTo_pending {apply : State → List Byte → State} (happly : ∀ s b, (apply s b).pending = s.pending) (s : State)
    (master key v : Nat) : (s.applyWriteTo master key v apply).pending = s.pending :=
  (State.staticCheck_pending _).trans (State.applyEffect_pending happly _ master key v _)

@[simp] theorem State.txState_pending (s : State) (m : Nat) : (s.txState m).2.pending = s.pending := by
  unfold State.txState
  split <;> simp

@[simp] theorem State.readObj_pending (s : State) (key : Nat) : (s.readObj key).2.pending = s.pending := by
  unfold State.readObj
  dsimp only
  repeat' split
  all_goals simp

/-! ## Messages -/

@[simp] theorem State.applyService_pending (s : State) (i : TackItem) : (s.applyService i).pending = s.pending := by
  unfold State.applyService
  split
  · split
    · exact State.applyWriteTo_pending (fun _ _ => by rfl) s _ _ _
    · rfl
  · rfl

@[simp] theorem State.applyRecord_pending (s : State) (b : List Byte) : (s.applyRecord b).pending = s.pending := by
  simp [State.applyRecord, State.pending_foldl]

@[simp] theorem State.writeItem_pending (s : State) (route : Nat) (i : TackItem) : (s.writeItem route i).1.pending = s.pending := by
  unfold State.writeItem
  simp [apply_ite Prod.fst, apply_ite State.pending, State.applyWriteTo_pending State.applyRecord_pending]

@[simp] theorem State.writeItems_pending (s : State) (route : Nat) (l : List TackItem) : (s.writeItems route l).1.pending = s.pending := by
  induction l generalizing s with
  | nil => rfl
  | cons i rest ih =>
    unfold State.writeItems
    split
    · rfl
    · exact (ih _).trans (s.writeItem_pending route i)

@[simp] theorem State.readItems_pending (s : State) (route : Nat) (l : List TackItem) : (s.readItems route l).1.pending = s.pending := by
  induction l generalizing s with
  | nil => rfl
  | cons i rest ih =>
    refine (ih _).trans ?_
    split
    · exact s.readObj_pending _
    · rfl

theorem State.stageItems_pending {s : State} {route : Nat} {x : Tx} {items : List TackItem} {t : State × List Byte}
    (h : s.stageItems route x items = some t) :
    t.1.pending = s.pending := by
  unfold State.stageItems at h
  dsimp only at h
  split at h
  · cases h
  · cases h
    rfl

@[simp] theorem State.applyStaged_pending (s : State) (master : Nat) (staged : List (Nat × Nat)) :
    (s.applyStaged master staged).pending = s.pending :=
  State.pending_foldl (fun x _ => State.applyWriteTo_pending State.applyRecord_pending x _ _ _) staged s

@[simp] theorem State.deliver_pending (s : State) (route : Nat) (mbx : Bool) (resp : List Byte) : (s.deliver route mbx resp).pending = s.pending := by
  unfold State.deliver
  dsimp only
  repeat' split
  all_goals simp

@[simp] theorem State.endCommit_pending (s : State) (master : Nat) (req : List Byte) (staged : List (Nat × Nat)) (failure : Option (Nat × Nat)) :
    (s.endCommit master req staged failure).1.pending = s.pending := by
  unfold State.endCommit
  split <;> simp

@[simp] theorem State.txExpire_pending (s : State) (m : Nat) : (s.txExpire m).pending = s.pending := by
  unfold State.txExpire
  repeat' split
  all_goals simp

@[simp] theorem State.holdMsg_pending (s : State) (w : HeldMsg) : (s.holdMsg w).pending = s.pending := rfl

@[simp] theorem State.engineFrom_pending (s : State) (route : Nat) (mbx : Bool) (b : List Byte) (done : Nat) (out : List Byte) :
    (s.engineFrom route mbx b done out).1.pending = s.pending := by
  unfold State.engineFrom
  dsimp only
  repeat' split
  any_goals exact State.stageItems_pending (by assumption)
  all_goals simp

@[simp] theorem State.answered_pending (route : Nat) (mbx : Bool) (r : State × Option (List Byte)) :
    (State.answered route mbx r).pending = r.1.pending := by
  unfold State.answered
  split <;> simp

@[simp] theorem State.wakeMsgs_pending (s : State) : s.wakeMsgs.pending = s.pending := by
  refine State.pending_foldl (fun x w => ?_) _ s
  rw [State.answered_pending, State.engineFrom_pending]

@[simp] theorem State.commitApply_pending (s : State) (m : Nat) : (s.commitApply m).pending = s.pending := by
  unfold State.commitApply
  dsimp only
  repeat' split
  all_goals simp

@[simp] theorem State.commitTimeout_pending (s : State) (m : Nat) : (s.commitTimeout m).pending = s.pending := by
  unfold State.commitTimeout
  dsimp only
  repeat' split
  all_goals simp

theorem State.ringWith_pending {serve : State → Nat → List Byte → State} (hserve : ∀ s r b, (serve s r b).pending = s.pending) (s : State)
    (route len : Nat) : (s.ringWith serve route len).pending = s.pending := by
  unfold State.ringWith
  dsimp only
  split
  · split <;> rfl
  · rw [hserve]
    split <;> rfl

@[simp] theorem State.request_pending (s : State) (route : Nat) (mbx : Bool) (b : List Byte) : (s.request route mbx b).pending = s.pending := by
  unfold State.request State.engine
  rw [State.answered_pending, State.engineFrom_pending]

@[simp] theorem State.serveMsg_pending (s : State) (route : Nat) (b : List Byte) : (s.serveMsg route b).pending = s.pending :=
  s.request_pending route true b

@[simp] theorem State.ring_pending (s : State) (route len : Nat) : (s.ring route len).pending = s.pending :=
  State.ringWith_pending State.serveMsg_pending s route len

@[simp] theorem State.adminDoorbell_pending (s : State) (v : Nat) : (s.adminDoorbell v).pending = s.pending := by
  unfold State.adminDoorbell
  split <;> simp

@[simp] theorem State.tenantDoorbell_pending (s : State) (f t v : Nat) : (s.tenantDoorbell f t v).pending = s.pending := by
  unfold State.tenantDoorbell
  split <;> simp

theorem State.datagramWith_pending {serve : State → Nat → List Byte → State} (hserve : ∀ s r b, (serve s r b).pending = s.pending)
    (s : State) (src : Nat) (b : List Byte) : (s.datagramWith serve src b).pending = s.pending := by
  unfold State.datagramWith
  dsimp only
  repeat' split
  all_goals simp [hserve]

theorem State.sendMessage_pending {serve : State → Nat → List Byte → State} (hserve : ∀ s r b, (serve s r b).pending = s.pending)
    (s : State) (via : Via) (b : List Byte) : (s.sendMessage serve via b).pending = s.pending := by
  unfold State.sendMessage
  dsimp only
  repeat' split
  all_goals simp [State.ringWith_pending hserve, State.datagramWith_pending hserve]

@[simp] theorem State.tackRow_pending (s : State) (op : Nat) (via : Via) (b : List Byte) : (s.tackRow op via b).pending = s.pending := by
  unfold State.tackRow
  split
  · exact State.sendMessage_pending State.serveMsg_pending s via b
  · rfl

@[simp] theorem State.serveLate_pending (s : State) (route : Nat) (b : List Byte) : (s.serveLate route b).pending = s.pending := by
  unfold State.serveLate
  dsimp only
  repeat' split
  all_goals simp

@[simp] theorem State.commitRow_pending (s : State) (late : Bool) (via : Via) (b : List Byte) : (s.commitRow late via b).pending = s.pending := by
  unfold State.commitRow
  split
  · exact State.sendMessage_pending State.serveLate_pending s via b
  · exact s.tackRow_pending _ via b

@[simp] theorem State.rowWrite_pending (s : State) (route key v : Nat) : (s.rowWrite route key v).pending = s.pending := by
  unfold State.rowWrite
  split
  · exact s.request_pending route false _
  · rfl

@[simp] theorem State.viaWrite_pending (s : State) (via : Via) (key v : Nat) : (s.viaWrite via key v).pending = s.pending := by
  unfold State.viaWrite
  repeat' split
  all_goals simp

/-! ## Pins and clocks -/

@[simp] theorem State.enumOffer_pending (s : State) (req : List Byte) : (s.enumOffer req).pending = s.pending := by
  unfold State.enumOffer
  dsimp only
  repeat' split
  all_goals simp

@[simp] theorem State.busBorough_pending (s : State) (v : Nat) : (s.busBorough v).pending = s.pending :=
  State.applyWriteTo_pending State.applyRecord_pending s 1 _ v

@[simp] theorem State.enumConfirm_pending (s : State) (src : Nat) (req : List Byte) : (s.enumConfirm src req).pending = s.pending := by
  unfold State.enumConfirm
  dsimp only
  repeat' split
  all_goals simp

@[simp] theorem State.enumTimeout_pending (s : State) : s.enumTimeout.pending = s.pending := rfl

@[simp] theorem State.leadInHigh_pending (s : State) : s.leadInHigh.pending = s.pending := by
  unfold State.leadInHigh
  split <;> simp

@[simp] theorem State.setBeacon_pending (s : State) (on : Bool) : (s.setBeacon on).pending = s.pending := rfl

@[simp] theorem State.railsGood_pending (s : State) : s.railsGood.pending = s.pending := by
  unfold State.railsGood
  split <;> simp

@[simp] theorem State.pllLock_pending (s : State) : s.pllLock.pending = s.pending := by
  unfold State.pllLock
  split <;> simp

@[simp] theorem State.pcieDetect_pending (s : State) : s.pcieDetect.pending = s.pending := by
  unfold State.pcieDetect
  split <;> simp

@[simp] theorem State.hbmTrained_pending (s : State) : s.hbmTrained.pending = s.pending := by
  unfold State.hbmTrained
  dsimp only
  repeat' split
  all_goals simp

@[simp] theorem State.pcieLinkUp_pending (s : State) : s.pcieLinkUp.pending = s.pending := by
  unfold State.pcieLinkUp
  split <;> simp

@[simp] theorem State.scrubFrames_pending (s : State) : s.scrubFrames.pending = s.pending := rfl

@[simp] theorem State.clearFatals_pending (s : State) : s.clearFatals.pending = s.pending := by
  unfold State.clearFatals
  dsimp only
  repeat' split
  all_goals simp

@[simp] theorem State.perstAssert_pending (s : State) : s.perstAssert.pending = s.pending := by
  simp [State.perstAssert, State.pending_foldl, apply_ite State.pending]

@[simp] theorem State.perstScrubbed_pending (s : State) : s.perstScrubbed.pending = s.pending := by
  unfold State.perstScrubbed
  split <;> simp

@[simp] theorem State.perstDeassert_pending (s : State) : s.perstDeassert.pending = s.pending := by simp [State.perstDeassert]

@[simp] theorem State.ostlerStop_pending (s : State) : s.ostlerStop.pending = s.pending := by simp [State.ostlerStop]

@[simp] theorem State.mrstAssert_pending (s : State) : s.mrstAssert.pending = s.pending := by
  unfold State.mrstAssert
  dsimp only
  repeat' split
  all_goals simp

@[simp] theorem State.mrstDeassert_pending (s : State) (fails mv : Nat) : (s.mrstDeassert fails mv).pending = s.pending := by
  unfold State.mrstDeassert
  split <;> simp

@[simp] theorem State.refclkRestore_pending (s : State) (fails mv : Nat) : (s.refclkRestore fails mv).pending = s.pending := by
  unfold State.refclkRestore
  split <;> simp

@[simp] theorem State.standbyLoss_pending (s : State) : s.standbyLoss.pending = s.pending := by
  unfold State.standbyLoss
  split <;> simp

end Sys2Proof.Machine

/-! SUPPORT. The functions that the rows share keep the commands that wait. -/

namespace Sys2Proof.Machine

/-! ## Commands of a stream -/

theorem State.opcodeRow_pending {launch : State → Env → Nat → State} (hlaunch : ∀ s e id, (launch s e id).pending = s.pending) (s : State)
    (f : From) (op : Nat) (plan : State → Env → Plan) :
    (s.opcodeRow f op plan launch).pending = s.pending := (State.staticCheck_pending _).trans (State.beginRow_pending hlaunch s f _ plan)

/-! ## Register writes -/

@[simp] theorem State.bar0Write_pending (s : State) (off size v : Nat) : (s.bar0Write off size v).pending = s.pending := by
  unfold State.bar0Write
  repeat' split
  all_goals simp

@[simp] theorem State.pageWrite_pending (s : State) (f t off size v : Nat) : (s.pageWrite f t off size v).pending = s.pending := by
  simp [State.pageWrite, apply_ite State.pending]

@[simp] theorem State.registerWrite_pending (s : State) (f bar off size v : Nat) : (s.registerWrite f bar off size v).pending = s.pending := by
  simp [State.registerWrite, apply_ite State.pending]

end Sys2Proof.Machine

/-! SUPPORT. No row changes the commands that wait, and the statement about them. -/

namespace Sys2Proof.Machine

/-- Settles O2: each row keeps the commands that wait, by the lemma of its own meaning. -/
theorem commandsLeaveTheQueueAlone : Obligations.CommandsLeaveTheQueueAlone := by
  unfold Obligations.CommandsLeaveTheQueueAlone
  intro c s t h
  cases c with
  | matmul => exact State.pending_of_next h (State.opcodeRow_pending launchFused_pending s ..)
  | matmulList => exact State.pending_of_next h (State.opcodeRow_pending noLaunch_pending s ..)
  | conv => exact State.pending_of_next h (State.opcodeRow_pending noLaunch_pending s ..)
  | pool => exact State.pending_of_next h (State.opcodeRow_pending noLaunch_pending s ..)
  | resample => exact State.pending_of_next h (State.opcodeRow_pending noLaunch_pending s ..)
  | attend => exact State.pending_of_next h (State.opcodeRow_pending launchAttend_pending s ..)
  | norm => exact State.pending_of_next h (State.opcodeRow_pending noLaunch_pending s ..)
  | chain => exact State.pending_of_next h (State.opcodeRow_pending noLaunch_pending s ..)
  | gather => exact State.pending_of_next h (State.opcodeRow_pending noLaunch_pending s ..)
  | scatterOrdered => exact State.pending_of_next h (State.opcodeRow_pending noLaunch_pending s ..)
  | distance => exact State.pending_of_next h (State.opcodeRow_pending noLaunch_pending s ..)
  | step => exact State.pending_of_next h (State.opcodeRow_pending launchStep_pending s ..)
  | stepSelect => exact State.pending_of_next h (s.stepSelect_pending ..)
  | stepCommit => exact State.pending_of_next h ((State.staticCheck_pending _).trans (s.stepCommit_pending ..))
  | admitEntries => exact State.pending_of_next h (State.opcodeRow_pending launchAdmit_pending s ..)
  | retire => exact State.pending_of_next h (State.opcodeRow_pending launchRetire_pending s ..)
  | handoffBatchStart => exact State.pending_of_next h (s.handoffStart_pending ..)
  | handoffBatchComplete => exact State.pending_of_next h ((State.staticCheck_pending _).trans (s.handoffComplete_pending ..))
  | tokenSample => exact State.pending_of_next h (State.opcodeRow_pending noLaunch_pending s ..)
  | noise => exact State.pending_of_next h (State.opcodeRow_pending noLaunch_pending s ..)
  | collective => exact State.pending_of_next h (State.opcodeRow_pending launchCollective_pending s ..)
  | put => exact State.pending_of_next h (State.opcodeRow_pending launchPut_pending s ..)
  | encodeFrame => exact State.pending_of_next h ((State.staticCheck_pending _).trans (State.beginRow_pending launchEncode_pending s ..))
  | encodeBufferRequest => exact State.pending_of_next h (s.bufferRequest_pending ..)
  | codecFrameComplete => exact State.pending_of_next h (s.frameComplete_pending ..)
  | encodeRelease => exact State.pending_of_next h ((State.staticCheck_pending _).trans (State.beginRow_pending launchRelease_pending s ..))
  | decode => exact State.pending_of_next h (State.opcodeRow_pending launchDecode_pending s ..)
  | copy => exact State.pending_of_next h (State.opcodeRow_pending noLaunch_pending s ..)
  | fill => exact State.pending_of_next h (State.opcodeRow_pending noLaunch_pending s ..)
  | postWait => exact State.pending_of_next h (State.opcodeRow_pending noLaunch_pending s ..)
  | postSignal => exact State.pending_of_next h (State.opcodeRow_pending noLaunch_pending s ..)
  | mark => exact State.pending_of_next h (State.opcodeRow_pending noLaunch_pending s ..)
  | commandComplete => exact State.pending_of_next h ((State.staticCheck_pending _).trans (s.complete_pending ..))
  | shadowSwap => exact State.pending_of_next h (s.shadowSwap_pending ..)
  | tileCommit => exact State.pending_of_next h (s.tileCommit_pending ..)
  | partialStoreGrant => exact State.pending_of_next h (s.partialGrant_pending ..)
  | collectiveStagingGrant => exact State.pending_of_next h (s.stagingGrant_pending ..)
  | residueMismatch => exact State.pending_of_next h ((State.staticCheck_pending _).trans (s.residueMismatch_pending ..))
  | walkerWatchdogExpire => exact State.pending_of_next h ((State.staticCheck_pending _).trans (s.watchdog_pending ..))
  | spareActivate => exact State.pending_of_next h ((State.staticCheck_pending _).trans (s.spareActivate_pending ..))
  | quarterOutOfService => exact State.pending_of_next h ((State.staticCheck_pending _).trans (s.quarterOut_pending ..))
  | quarterScrubComplete => exact State.pending_of_next h ((State.staticCheck_pending _).trans (s.scrubDone_pending ..))
  | eccCorrected => exact State.pending_of_next h (s.eccCorrected_pending ..)
  | eccUncorrectable => exact State.pending_of_next h ((State.staticCheck_pending _).trans (s.eccBad_pending ..))
  | patrolScrubTick => exact State.pending_of_next h (s.patrol_pending ..)
  | codecSelfCheckFail => exact State.pending_of_next h (s.selfCheckFail_pending ..)
  | deviceFatalFault => exact State.pending_of_next h (s.deviceFatal_pending ..)
  | sqTailWrite => exact State.pending_of_next h (s.sqTailWrite_pending ..)
  | cqHeadWrite => exact State.pending_of_next h (s.cqHeadWrite_pending ..)
  | adminMbxDoorbell => exact State.pending_of_next h (s.adminDoorbell_pending ..)
  | tenantMbxDoorbell => exact State.pending_of_next h (s.tenantDoorbell_pending ..)
  | tenantEventsClear => exact State.pending_of_next h (s.tenantEventsClear_pending ..)
  | evqCtrlWrite => exact State.pending_of_next h (s.evqCtrlWrite_pending ..)
  | evqHeadWrite => exact State.pending_of_next h (s.evqHeadWrite_pending ..)
  | registerWrite => exact State.pending_of_next h (s.registerWrite_pending ..)
  | irqDelayExpire => exact State.pending_of_next h (s.irqDelayExpire_pending ..)
  | eventOverflowRecord => exact State.pending_of_next h (s.overflowRecord_pending)
  | functionLevelReset => exact State.pending_of_next h (s.functionReset_pending ..)
  | tackRead => exact State.pending_of_next h (s.tackRow_pending ..)
  | tackWrite => exact State.pending_of_next h (s.tackRow_pending ..)
  | txBegin => exact State.pending_of_next h (s.tackRow_pending ..)
  | txCommit => exact State.pending_of_next h (s.commitRow_pending ..)
  | txCommitApply => exact State.pending_of_next h (s.commitApply_pending ..)
  | txQuiescenceTimeout => exact State.pending_of_next h (s.commitTimeout_pending ..)
  | txRollback => exact State.pending_of_next h (s.tackRow_pending ..)
  | txExpire => exact State.pending_of_next h (s.txExpire_pending ..)
  | enumOffer => exact State.pending_of_next h (s.enumOffer_pending ..)
  | enumConfirm => exact State.pending_of_next h (s.enumConfirm_pending ..)
  | enumConfirmTimeout => exact State.pending_of_next h (s.enumTimeout_pending)
  | leadInHigh => exact State.pending_of_next h (s.leadInHigh_pending)
  | halterBeaconLoss => exact State.pending_of_next h (s.setBeacon_pending ..)
  | halterRelease => exact State.pending_of_next h (s.viaWrite_pending ..)
  | paddockAllocate => exact State.pending_of_next h (State.pending_ite rfl (s.viaWrite_pending ..))
  | paddockAllocateResult => exact State.pending_of_next h ((State.wakeMsgs_pending _).trans (s.paddockAllocated_pending ..))
  | paddockFree => exact State.pending_of_next h (State.pending_ite (s.viaWrite_pending ..) rfl)
  | paddockFreeResult => exact State.pending_of_next h ((State.wakeMsgs_pending _).trans (s.paddockFreed_pending ..))
  | hbmFrameAssign => exact State.pending_of_next h (State.pending_ite rfl (s.viaWrite_pending ..))
  | hbmFrameAssignResult => exact State.pending_of_next h ((State.wakeMsgs_pending _).trans (s.framesAssigned_pending))
  | hbmFrameRelease => exact State.pending_of_next h (State.pending_ite (s.viaWrite_pending ..) rfl)
  | hbmFrameReleaseResult => exact State.pending_of_next h ((State.wakeMsgs_pending _).trans (s.framesReleased_pending))
  | tenantTlbInvalidate => exact State.pending_of_next h (s.viaWrite_pending ..)
  | queueEnable => exact State.pending_of_next h (State.pending_ite (s.viaWrite_pending ..) rfl)
  | queueDisable => exact State.pending_of_next h (State.pending_ite rfl (s.viaWrite_pending ..))
  | queueDrainComplete => exact State.pending_of_next h (s.queueDrained_pending ..)
  | stableFlagsClear => exact State.pending_of_next h (s.viaWrite_pending ..)
  | tenantFlagsClear => exact State.pending_of_next h (s.viaWrite_pending ..)
  | spareAutoActivateWrite => exact State.pending_of_next h (s.viaWrite_pending ..)
  | tenantRemudaReadReq => exact State.pending_of_next h (s.viaWrite_pending ..)
  | rngProbeRequest => exact State.pending_of_next h (s.viaWrite_pending ..)
  | tenantPostReadReq => exact State.pending_of_next h (s.viaWrite_pending ..)
  | tenantAttribReadReq => exact State.pending_of_next h (s.viaWrite_pending ..)
  | tenantAttribQuota => exact State.pending_of_next h (s.viaWrite_pending ..)
  | logReadReq => exact State.pending_of_next h (s.viaWrite_pending ..)
  | tenantEnable => exact State.pending_of_next h (s.viaWrite_pending ..)
  | tenantPostRange => exact State.pending_of_next h (s.viaWrite_pending ..)
  | tenantReset => exact State.pending_of_next h (s.viaWrite_pending ..)
  | tenantHold => exact State.pending_of_next h (s.viaWrite_pending ..)
  | tenantDismounted => exact State.pending_of_next h ((State.staticCheck_pending _).trans (s.dismounted_pending ..))
  | tenantResume => exact State.pending_of_next h ((State.staticCheck_pending _).trans (s.resumed_pending ..))
  | preemptOverrun => exact State.pending_of_next h (s.overrun_pending ..)
  | carouselSlotBoundary => exact State.pending_of_next h ((State.staticCheck_pending _).trans (s.slotBoundary_pending))
  | timeMasterTick => exact State.pending_of_next h (s.masterTick_pending ..)
  | linkDelayMeasure => exact State.pending_of_next h (s.delayMeasured_pending ..)
  | timeSourceLoss => exact State.pending_of_next h (s.timeLost_pending)
  | spurEnable => exact State.pending_of_next h (s.viaWrite_pending ..)
  | spurProductionLock => exact State.pending_of_next h (s.viaWrite_pending ..)
  | traceEnable => exact State.pending_of_next h (s.viaWrite_pending ..)
  | traceFrameSend => exact State.pending_of_next h (s.traceFrameSend_pending ..)
  | utilisationWindow => exact State.pending_of_next h (s.utilisation_pending ..)
  | hangStallDetect => exact State.pending_of_next h (s.hangDetect_pending ..)
  | hangReplyTimeout => exact State.pending_of_next h (s.hangTimeout_pending ..)
  | fwStageBegin => exact State.pending_of_next h (s.viaWrite_pending ..)
  | fwStageChunk => exact State.pending_of_next h (s.viaWrite_pending ..)
  | fwStageVerify => exact State.pending_of_next h (s.viaWrite_pending ..)
  | fwStageActivate => exact State.pending_of_next h (s.viaWrite_pending ..)
  | fwStageAbandon => exact State.pending_of_next h (s.viaWrite_pending ..)
  | fwStageTimeout => exact State.pending_of_next h (s.stageTimeout_pending)
  | stableRetireRequest => exact State.pending_of_next h (s.viaWrite_pending ..)
  | mainRailsCommand => exact State.pending_of_next h (s.viaWrite_pending ..)
  | gaitCeilingWrite => exact State.pending_of_next h (s.viaWrite_pending ..)
  | linkEnableWrite => exact State.pending_of_next h (s.viaWrite_pending ..)
  | lineagePortModeWrite => exact State.pending_of_next h (s.viaWrite_pending ..)
  | topoBoroughNumberWrite => exact State.pending_of_next h (s.viaWrite_pending ..)
  | ostlerBoot => exact State.pending_of_next h (s.ostlerBoot_pending ..)
  | mainRailsGood => exact State.pending_of_next h (s.railsGood_pending)
  | rootPllLock => exact State.pending_of_next h (s.pllLock_pending)
  | hbmTrainingComplete => exact State.pending_of_next h (s.hbmTrained_pending)
  | pcieLinkUp => exact State.pending_of_next h (s.pcieLinkUp_pending)
  | perstAssert => exact State.pending_of_next h ((State.staticCheck_pending _).trans (s.perstAssert_pending))
  | perstScrubComplete => exact State.pending_of_next h (s.perstScrubbed_pending)
  | perstDeassert => exact State.pending_of_next h (s.perstDeassert_pending)
  | mrstAssert => exact State.pending_of_next h (s.mrstAssert_pending)
  | mrstDeassert => exact State.pending_of_next h (s.mrstDeassert_pending ..)
  | reinAssert => exact State.pending_of_next h (s.reinAssert_pending ..)
  | reinDeassert => exact State.pending_of_next h (s.reinDeassert_pending)
  | reinHoldExpire => exact State.pending_of_next h (s.reinExpire_pending)
  | inputVoltageExcursion => exact State.pending_of_next h (s.inputOut_pending ..)
  | inputVoltageRecover => exact State.pending_of_next h ((State.railsAwaited_pending _).trans (s.inputBack_pending ..))
  | standbyPowerLoss => exact State.pending_of_next h (s.standbyLoss_pending)
  | trip => exact State.pending_of_next h (s.trip_pending ..)
  | lockstepMismatch => exact State.pending_of_next h (s.lockstep_pending)
  | refclkLoss => exact State.pending_of_next h (s.refclkLoss_pending)
  | rootPllLockLoss => exact State.pending_of_next h (s.pllLoss_pending)
  | refclkRestore => exact State.pending_of_next h (s.refclkRestore_pending ..)
  | srefclkLoss => exact State.pending_of_next h (s.srefclkLoss_pending)
  | srefclkRestore => exact State.pending_of_next h (s.srefclkRestore_pending)
  | powerGaitTick => exact State.pending_of_next h (s.powerTick_pending ..)
  | powerGaitRaise => exact State.pending_of_next h (s.powerRaise_pending)
  | powerWalkStall => exact State.pending_of_next h (s.powerStall_pending)
  | thermalGaitTick => exact State.pending_of_next h (s.thermalTick_pending ..)
  | thermalGaitRaise => exact State.pending_of_next h (s.thermalRaise_pending)
  | gaitUpComplete => exact State.pending_of_next h (s.gaitUp_pending)
  | coolantSample => exact State.pending_of_next h (s.coolant_pending ..)
  | droopDetect => exact State.pending_of_next h (s.droop_pending ..)
  | droopStretchEnd => exact State.pending_of_next h (s.droopEnd_pending ..)
  | canaryLowMargin => exact State.pending_of_next h (s.canaryLow_pending ..)
  | voltageStepDownTick => exact State.pending_of_next h (s.stepDown_pending ..)
  | quarterCoolingEnter => exact State.pending_of_next h (s.coolingEnter_pending ..)
  | quarterCoolingLeave => exact State.pending_of_next h (s.coolingLeave_pending ..)
  | logFlush => exact State.pending_of_next h (s.logFlush_pending)
  | linkTraining => exact State.pending_of_next h (s.linkTraining_pending ..)
  | linkTrainRetryTimer => exact State.pending_of_next h (s.trainRetry_pending ..)
  | discoveryReceive => exact State.pending_of_next h (s.discovered_pending ..)
  | portSignalLoss => exact State.pending_of_next h (s.portLost_pending ..)
  | portFlitTimeout => exact State.pending_of_next h (s.portLost_pending ..)
  | flitReceive => exact State.pending_of_next h (s.flitReceived_pending ..)
  | linkAckTimer => exact State.pending_of_next h (s.linkAckTimer_pending ..)
  | linkReplayTimeout => exact State.pending_of_next h (s.replayTimeout_pending ..)
  | symbolErrorRatioExceed => exact State.pending_of_next h (s.symbolErrors_pending ..)
  | packetForward => exact State.pending_of_next h (s.transit_pending ..)
  | writePacketReceive => exact State.pending_of_next h (s.receiveTyped_pending ..)
  | readRequestReceive => exact State.pending_of_next h (s.receiveTyped_pending ..)
  | readResponseReceive => exact State.pending_of_next h (s.receiveTyped_pending ..)
  | postUpdateReceive => exact State.pending_of_next h (State.pending_ite rfl (s.receiveTyped_pending ..))
  | subscriptionReceive => exact State.pending_of_next h (State.pending_ite (s.receiveTyped_pending ..) rfl)
  | subscriptionRetry => exact State.pending_of_next h (s.resubscribe_pending ..)
  | collectiveRequestRetry => exact State.pending_of_next h (s.collRetry_pending ..)
  | collectiveAbortReceive => exact State.pending_of_next h (State.pending_ite (s.receiveTyped_pending ..) rfl)
  | e2eAckReceive => exact State.pending_of_next h (s.e2eAck_pending ..)
  | e2eAckTimer => exact State.pending_of_next h (s.e2eAckTimer_pending ..)
  | e2eRetxTimer => exact State.pending_of_next h (s.e2eRetx_pending ..)
  | e2eUnreachableTimer => exact State.pending_of_next h (s.e2eUnreachable_pending ..)
  | managementPacketReceive => exact State.pending_of_next h (s.mgmtReceive_pending ..)
  | timePacketReceive => exact State.pending_of_next h (s.timeReceived_pending ..)
  | linkStateAdvertisementReceive => exact State.pending_of_next h (s.lsaReceived_pending ..)
  | linkParametersReceive => exact State.pending_of_next h (s.paramsReceived_pending ..)
  | lineageTransactionReceive => exact State.pending_of_next h (s.lineageTransaction_pending ..)
  | tlbInvalidateComplete => exact State.pending_of_next h (s.tlbInvalidated_pending ..)
  | tenantResetComplete => exact State.pending_of_next h ((State.staticCheck_pending _).trans (s.resetComplete_pending ..))
  | collectiveDataReceive => exact State.pending_of_next h (State.pending_ite rfl (s.receiveTyped_pending ..))
  | lineagePortTraining => exact State.pending_of_next h (s.lineageTrained_pending ..)
  | lineageResponseReceive => exact State.pending_of_next h (s.lineageResponse_pending ..)
  | halterBeaconResume => exact State.pending_of_next h (s.setBeacon_pending ..)

end Sys2Proof.Machine
